-- ==== Sys2Proof/Word.lean ====
section
/-! DEFINITION. The word types of the device (R8): 32-bit registers and bytes. -/

namespace Sys2Proof

/-- A register or bus word (R8). -/
abbrev Word := BitVec 32

/-- A byte of a memory window, a frame or an image. -/
abbrev Byte := BitVec 8

end Sys2Proof
end

