-- ==== Sys2Proof/Syntax.lean ====
section
/-! DEFINITION. The commands of the block: one constructor per row of the table of operations and events. -/

namespace Sys2Proof

/-- What the keeper finds in a power fail (R41, R105): VSCAP in mV, HV_IN in 2 mV steps, VDD_IO in its range, HV_IN above the harvester's set
point; and whether VDD_IO lies below 0.8 V. -/
structure KeepIn where
  vscap : Fin 4096
  hvin : Fin 4096
  vdd : Bool
  above : Bool
  dark : Bool
deriving DecidableEq, Repr

/-- Samples that a modulator input takes, in their order (R142). -/
structure Samples where
  input : Fin 24
  bits : List Bool
deriving DecidableEq, Repr

/-- The commands: what the host, the pins, the network, the supplies and the passage of time do to the device, one whole step each.
An operand `v` is the written word of a command that is a register write. -/
inductive Instr where
  /-- POWER_ON_RESET (R84). -/
  | powerOnReset (tmode : Bool)
  /-- BROWN_OUT (R45). -/
  | brownOut (rails : Fin 32) (x : KeepIn)
  /-- PIN_RESET (R84). -/
  | pinReset (tmode : Bool)
  /-- SOFTWARE_RESET (R84). -/
  | softwareReset (v : Word)
  /-- BOOT (R87). -/
  | boot (us : Word) (a : List Byte) (b : List Byte) (imgs : List (Nat × List Byte)) (sdref : Bool)
  /-- BOOT_NOREF_TIMEOUT (R87). -/
  | bootNorefTimeout (us : Word)
  /-- DATA_BLOCK_COPY (R93). -/
  | dataBlockCopy (v : Word)
  /-- DATA_BLOCK_COPY_DONE (R93). -/
  | dataBlockCopyDone (l : Option (List Byte))
  /-- RUNG_REQUEST (R96). -/
  | rungRequest (v : Word)
  /-- RUNG_DESCENT_COMPLETE (R97). -/
  | rungDescentComplete
  /-- WAKE_EVENT (R99). -/
  | wakeEvent (b : Fin 8)
  /-- ASCENT_COMPLETE (R100). -/
  | ascentComplete (tmode : Bool) (lat : Word)
  /-- DESCRIPTOR_RELOAD_DONE (R100). -/
  | descriptorReloadDone (imgs : List (Nat × List Byte))
  /-- CLK_UPDATE (R60). -/
  | clkUpdate (v : Word)
  /-- CLK_RELOCK_DONE (R61). -/
  | clkRelockDone
  /-- CLK_RELOCK_TIMEOUT (R64). -/
  | clkRelockTimeout
  /-- CLK_REFLOSS (R63). -/
  | clkRefloss
  /-- CLK_UNLOCK (R63). -/
  | clkUnlock
  /-- CLK_FREQ_FAULT (R63). -/
  | clkFreqFault
  /-- TIME_INCREMENT_WRITE (R66). -/
  | timeIncrementWrite (k : Fin 3) (v : Word)
  /-- SERVO_LOCK_WRITE (R74). -/
  | servoLockWrite (v : Word)
  /-- SERVO_WATCHDOG_EXPIRY (R74). -/
  | servoWatchdogExpiry (d : Fin 2)
  /-- LEAP_ARM (R70). -/
  | leapArm (v : Word)
  /-- LEAP_CANCEL (R71). -/
  | leapCancel (v : Word)
  /-- LEAP_APPLY (R70). -/
  | leapApply
  /-- DOMAIN_SWITCH (R72). -/
  | domainSwitch (v : Word)
  /-- SLEW_END (R72). -/
  | slewEnd
  /-- TIME_SNAP (R65). -/
  | timeSnap (v : Word)
  /-- TXTS_FIFO_POP (R80). -/
  | txtsFifoPop (v : Word)
  /-- PPS_IN_EDGE (R81). -/
  | ppsInEdge (falling : Bool) (sub : Fin 16)
  /-- PPS_OUT_PULSE (R82). -/
  | ppsOutPulse
  /-- PPS_OUT_PULSE_END (R82). -/
  | ppsOutPulseEnd
  /-- TRIGGER_SLOT_ARM (R83). -/
  | triggerSlotArm (n : Fin 4) (v : Word)
  /-- TRIGGER_SLOT_FIRE (R83). -/
  | triggerSlotFire (n : Fin 4)
  /-- KEEPER_MEASUREMENT (R105). -/
  | keeperMeasurement (vscap : Fin 4096) (hvin : Fin 4096) (vdd : Bool) (above : Bool)
  /-- KEEPER_RESTART (R106). -/
  | keeperRestart (low : Fin 4096)
  /-- KEEPER_TRIM_ADJUST (R114). -/
  | keeperTrimAdjust
  /-- PERIODIC_CHECKPOINT (R113). -/
  | periodicCheckpoint
  /-- CHECKPOINT_REQUEST (R113). -/
  | checkpointRequest (v : Word)
  /-- CHECKPOINT_COMPLETE (R110). -/
  | checkpointComplete (good : Bool)
  /-- KEEPER_TIME_SET (R114). -/
  | keeperTimeSet
  /-- KEEPER_TIME_SNAP (R114). -/
  | keeperTimeSnap
  /-- KEEPER_ALARM (R115). -/
  | keeperAlarm
  /-- DAWN_DETECT (R115). -/
  | dawnDetect
  /-- WAKE_N_LOW (R115). -/
  | wakeNLow
  /-- KEEP_WRITE (R116). -/
  | keepWrite (w : Fin 1024) (v : Word)
  /-- KEEP_WRITE_ARRIVAL (R116). -/
  | keepWriteArrival
  /-- HOST_WRITE_FRAME (R122). -/
  | hostWriteFrame (l : List Byte)
  /-- HOST_READ_FRAME (R124). -/
  | hostReadFrame (l : List Byte)
  /-- HOST_FETCH_FRAME (R125). -/
  | hostFetchFrame (l : List Byte)
  /-- HOST_STATUS_FRAME (R127). -/
  | hostStatusFrame (l : List Byte) (whole : Bool)
  /-- HOST_FENCE_FRAME (R132). -/
  | hostFenceFrame (l : List Byte)
  /-- FRAME_ABORT (R123). -/
  | frameAbort
  /-- READ_SERVED (R124). -/
  | readServed
  /-- FENCE_COMPLETE (R132). -/
  | fenceComplete
  /-- FENCE_GO (R132). -/
  | fenceGo (v : Word)
  /-- REGISTER_WRITE (R127). -/
  | registerWrite (q : Fin 4096) (w : Fin 1024) (v : Word)
  /-- DROPCNT_CLEAR (R134). -/
  | dropcntClear (c : Option (Fin 8)) (v : Word)
  /-- PAGE_SOFT_RESET (R137). -/
  | pageSoftReset (q : Fin 91) (v : Word)
  /-- PAGE_LOCK (R15). -/
  | pageLock (q : Fin 91) (v : Word)
  /-- LEG_COMMIT (R225). -/
  | legCommit (n : Fin 24) (v : Word)
  /-- CHANNEL_COMMIT (R136). -/
  | channelCommit (c : Fin 8) (host : Bool) (v : Word)
  /-- ALMANAC_ENTRY_WRITE (R33). -/
  | almanacEntryWrite (v : Word)
  /-- ALMANAC_ENTRY_READ (R33). -/
  | almanacEntryRead (v : Word)
  /-- ALMANAC_DELIVERY (R31). -/
  | almanacDelivery
  /-- MCLK_START (R140). -/
  | mclkStart (m : Fin 4)
  /-- FILTER_SETTLED (R153). -/
  | filterSettled (n : Fin 24) (k : Fin 3)
  /-- CONTROL_DECIMATION (R146). -/
  | controlDecimation (m : Fin 4) (bits : List (List Bool))
  /-- STUCK_STREAM_DETECT (R143). -/
  | stuckStreamDetect (x : Samples)
  /-- OVERCURRENT_QUALIFY (R151). -/
  | overcurrentQualify (n : Fin 24) (bits : List Bool)
  /-- OCSTAT_CLEAR (R152). -/
  | ocstatClear (ins : BitVec 24) (rest : BitVec 8)
  /-- METROLOGY_SAMPLE (R149). -/
  | metrologySample (p : Fin 2) (raw : List (BitVec 24)) (lead : List Int)
  /-- VREF_READY (R154). -/
  | vrefReady
  /-- PADC_START (R157). -/
  | padcStart (c : Fin 2) (v : Word)
  /-- ASTART_EDGE (R157). -/
  | astartEdge (falling : Bool)
  /-- PADC_CONVERSION_DONE (R158). -/
  | padcConversionDone (c : Fin 2) (raw : BitVec 24)
  /-- PADC_CALIBRATE (R159). -/
  | padcCalibrate (c : Fin 2) (v : Word)
  /-- PADC_CALIBRATION_DONE (R159). -/
  | padcCalibrationDone (c : Fin 2) (res : List (Nat × Nat))
  /-- PADC_SNAPSHOT (R160). -/
  | padcSnapshot (v : Word)
  /-- COMPARATOR_TRIP (R166). -/
  | comparatorTrip (n : Fin 16) (pin : Nat) (vref : Nat)
  /-- CYCLE_BY_CYCLE_CUT (R464). -/
  | cycleByCycleCut (n : Fin 16) (pin : Nat) (vref : Nat)
  /-- TRIPSTAT_CLEAR (R167). -/
  | tripstatClear (v : Word)
  /-- COMPARATOR_SELF_TEST (R170). -/
  | comparatorSelfTest (v : Word)
  /-- SELF_TEST_STEP_END (R172). -/
  | selfTestStepEnd (smp : List Bool)
  /-- ADMIT (R193). -/
  | admission (v : Word)
  /-- ADMISSION_COMPLETE (R195). -/
  | admissionComplete
  /-- LOOP_EXECUTION_START (R196). -/
  | loopExecutionStart
  /-- LOOP_EXECUTION_END (R181). -/
  | loopExecutionEnd (d : Fin 64)
  /-- CPWM_COUNTER_ZERO (R220). -/
  | cpwmCounterZero (n : Fin 24) (sub : Fin 16)
  /-- CPWM_PEAK (R220). -/
  | cpwmPeak (n : Fin 24) (sub : Fin 16)
  /-- CPWM_COMPARE_EDGE (R220). -/
  | cpwmCompareEdge (n : Fin 24)
  /-- TCM_PERIOD_START (R208). -/
  | tcmPeriodStart (n : Fin 24) (ns : Fin 2) (sub : Fin 8)
  /-- TCM_SECOND_INTERVAL (R208). -/
  | tcmSecondInterval (n : Fin 24) (sub : Fin 16)
  /-- LEG_RESTORE_START (R216). -/
  | legRestoreStart (n : Fin 24) (sub : Fin 16)
  /-- DIRECT_PERIOD_START (R222). -/
  | directPeriodStart (n : Fin 24) (sub : Fin 16)
  /-- DIRECT_OFF_INTERVAL (R222). -/
  | directOffInterval (n : Fin 24)
  /-- LCORR_UPDATE (R218). -/
  | lcorrUpdate (n : Fin 24)
  /-- LCORR_CLEAR (R219). -/
  | lcorrClear (n : Fin 24) (v : Word)
  /-- BOOTSTRAP_REFRESH (R223). -/
  | bootstrapRefresh (n : Fin 24)
  /-- BOOTSTRAP_REFRESH_END (R223). -/
  | bootstrapRefreshEnd (n : Fin 24)
  /-- BOOTSTRAP_CHECK (R244). -/
  | bootstrapCheck (n : Fin 24)
  /-- SYNC_IN_EDGE (R229). -/
  | syncInEdge (falling : Bool)
  /-- LEG_MAP_APPLY (R231). -/
  | legMapApply (v : Word)
  /-- SHOOT_THROUGH_COINCIDENCE (R236). -/
  | shootThroughCoincidence (n : Fin 24)
  /-- COINCIDENCE_END (R236). -/
  | coincidenceEnd (n : Fin 24)
  /-- TRIP_INPUT_EDGE (R239). -/
  | tripInputEdge (i : Fin 8) (level : Bool)
  /-- TRIP_QUALIFY (R241). -/
  | tripQualify (i : Fin 8)
  /-- BLANK_WINDOW_CLOSE (R240). -/
  | blankWindowClose (i : Fin 8)
  /-- TRIP_LATCH_CLEAR (R242). -/
  | tripLatchClear (v : Word)
  /-- GDO_PWM_PERIOD_START (R246). -/
  | gdoPwmPeriodStart (k : Fin 4)
  /-- GDO_PWM_DUTY_END (R246). -/
  | gdoPwmDutyEnd (k : Fin 4)
  /-- GDO_CHOP_CHANGE (R246). -/
  | gdoChopChange (k : Fin 4)
  /-- GDO_MIN_INTERVAL_END (R246). -/
  | gdoMinIntervalEnd (k : Fin 4)
  /-- GDO_UVLO (R249). -/
  | gdoUvlo (hi : Bool)
  /-- GRID_TRACKER_UPDATE (R251). -/
  | gridTrackerUpdate (p : Fin 2)
  /-- TRACKER_VALID_SET (R255). -/
  | trackerValidSet (p : Fin 2)
  /-- TRACKER_DECIMATION_TIMEOUT (R255). -/
  | trackerDecimationTimeout (p : Fin 2)
  /-- ZERO_CROSSING_TIMEOUT (R256). -/
  | zeroCrossingTimeout (p : Fin 2)
  /-- GRID_SNAPSHOT (R257). -/
  | gridSnapshot (p : Fin 2) (v : Word)
  /-- MODE_REQUEST (R260). -/
  | modeRequest (v : Word)
  /-- MODE_EXCURSION (R262). -/
  | modeExcursion
  /-- RAMPDOWN_EXCURSION (R262). -/
  | rampdownExcursion
  /-- MODE_RECOVERY (R291). -/
  | modeRecovery
  /-- MODE_CURVE (R262). -/
  | modeCurve
  /-- MODE_ISLAND (R262). -/
  | modeIsland
  /-- MODE_TRIP (R262). -/
  | modeTrip
  /-- MODE_RECONNECT (R265). -/
  | modeReconnect
  /-- MODE_AUTORES (R266). -/
  | modeAutores
  /-- MODE_RAMPDONE (R264). -/
  | modeRampdone
  /-- ALLOCATION_RUN (R277). -/
  | allocationRun (c : Fin 8)
  /-- FORM_FALLBACK (R284). -/
  | formFallback (c : Fin 8)
  /-- FORM_FALLBACK_CLEAR (R285). -/
  | formFallbackClear (c : Fin 8)
  /-- DEAD_BUS_QUALIFIED (R287). -/
  | deadBusQualified (c : Fin 8)
  /-- DEAD_BUS_RISE_END (R287). -/
  | deadBusRiseEnd (c : Fin 8)
  /-- RIDE_CURVE_CROSSING (R292). -/
  | rideCurveCrossing
  /-- INJECTION_REQUEST (R301). -/
  | injectionRequest (v : Word)
  /-- PROBE_WINDOW_BOUNDARY (R301). -/
  | probeWindowBoundary
  /-- ISLAND_TEST (R310). -/
  | islandTest (v : Word)
  /-- ROCOF_DETECT (R307). -/
  | rocofDetect (p : Fin 2)
  /-- HOLDOVER_EXPIRY (R308). -/
  | holdoverExpiry
  /-- AFD_DECLARE (R309). -/
  | afdDeclare
  /-- GLOBAL_SCAN_DUE (R319). -/
  | globalScanDue (c : Fin 8)
  /-- CHARGE_TERMINATION (R321). -/
  | chargeTermination (c : Fin 8)
  /-- DCDC_START_COMPLETE (R322). -/
  | dcdcStartComplete (c : Fin 8)
  /-- ENCODER_EDGE (R325). -/
  | encoderEdge (a : Bool) (b : Bool)
  /-- ENCODER_INDEX (R325). -/
  | encoderIndex
  /-- ENCODER_SPEED_TIMEOUT (R326). -/
  | encoderSpeedTimeout
  /-- RESOLVER_SAMPLE (R327). -/
  | resolverSample (sn : Int) (cs : Int)
  /-- MACH_RUN_COMMAND (R333). -/
  | machRunCommand (v : Word)
  /-- MACH_DIRECTION_WRITE (R335). -/
  | machDirectionWrite (v : Word)
  /-- MACH_STOP (R335). -/
  | machStop (v : Word)
  /-- CATCH_ON_END (R333). -/
  | catchOnEnd
  /-- REGEN_END (R334). -/
  | regenEnd
  /-- MTR_ZCTO (R341). -/
  | mtrZcto (p : Fin 2)
  /-- INTERVAL_CLOSE (R349). -/
  | intervalClose (p : Fin 2) (v : Word)
  /-- INTERVAL_RECORD_PUBLISH (R349). -/
  | intervalRecordPublish (p : Fin 2)
  /-- HARMONIC_BLOCK_DONE (R352). -/
  | harmonicBlockDone (p : Fin 2)
  /-- PULSE_EMIT (R355). -/
  | pulseEmit (k : Fin 2)
  /-- PULSE_END (R355). -/
  | pulseEnd (k : Fin 2)
  /-- MTRE_SNAPSHOT (R347). -/
  | mtreSnapshot (v : Word)
  /-- ENERGY_PRESET (R348). -/
  | energyPreset (v : Word)
  /-- LINK_UP (R356). -/
  | linkUp (p : Fin 2)
  /-- LINK_DOWN (R358). -/
  | linkDown (p : Fin 2) (sync : Bool)
  /-- FRAME_RECEIVE (R359). -/
  | frameReceive (p : Fin 2) (l : List Byte) (fcs : Bool) (ago : Nat) (egr : Option Nat)
  /-- FRAME_TRANSMIT (R364). -/
  | frameTransmit (p : Fin 2) (sub : Nat)
  /-- TX_DESCRIPTOR_PROCESS (R367). -/
  | txDescriptorProcess
  /-- GATE_LIST_INSTALL (R365). -/
  | gateListInstall (p : Fin 2) (v : Word)
  /-- GATE_LIST_OPERATIVE (R365). -/
  | gateListOperative (p : Fin 2)
  /-- GATE_ENTRY_CHANGE (R364). -/
  | gateEntryChange (p : Fin 2)
  /-- SETPOINT_FRAME_RECEIVE (R370). -/
  | setpointFrameReceive (sa : BitVec 48) (l : List Byte)
  /-- SETPOINT_APPLY (R372). -/
  | setpointApply
  /-- STREAM_FRAME_QUEUE (R373). -/
  | streamFrameQueue (k : Fin 8)
  /-- MDIO_TRANSACTION (R357). -/
  | mdioTransaction (v : Word)
  /-- MDIO_COMPLETE (R357). -/
  | mdioComplete (d : BitVec 16)
  /-- SSTOP_INPUT_CHANGE (R380). -/
  | sstopInputChange (b : Bool) (level : Bool)
  /-- SSTOP_DISCREPANCY (R381). -/
  | sstopDiscrepancy
  /-- SS1_EVALUATION (R385). -/
  | ss1Evaluation
  /-- MONITOR_DIVERGENCE (R378). -/
  | monitorDivergence
  /-- STO_FEEDBACK_MISMATCH (R378). -/
  | stoFeedbackMismatch
  /-- SAFETY_STARTUP_TEST_PASS (R379). -/
  | safetyStartupTestPass (a : Bool) (b : Bool)
  /-- STO_HOLD_END (R382). -/
  | stoHoldEnd
  /-- TWIN_PATH_COPY (R388). -/
  | twinPathCopy (pb : Bool) (l : List Byte)
  /-- TWIN_PATH_WINDOW_CLOSE (R390). -/
  | twinPathWindowClose
  /-- TWIN_PATH_LOSS (R390). -/
  | twinPathLoss
  /-- TPLAT_CLEAR (R391). -/
  | tplatClear (v : Word)
  /-- SAFETY_FRAME_PRODUCE (R392). -/
  | safetyFrameProduce
  /-- SAFETY_PARAMETER_WRITE (R393). -/
  | safetyParameterWrite (w : Fin 32) (v : Word)
  /-- SAFETY_CONFIRM (R394). -/
  | safetyConfirm (v : Word)
  /-- SAFE_RELEASE (R395). -/
  | safeRelease (v : Word)
  /-- GRACE_EXPIRY (R405). -/
  | graceExpiry (n : Fin 256)
  /-- FAULT_ACK (R407). -/
  | faultAck (v : Word)
  /-- FAULT_ACK_ALL (R407). -/
  | faultAckAll (v : Word)
  /-- FAULT_FORCE (R410). -/
  | faultForce (q : Fin 91) (v : Word)
  /-- JOURNAL_RECORD_WRITTEN (R414). -/
  | journalRecordWritten (good : Bool)
  /-- JOURNAL_USER_APPEND (R416). -/
  | journalUserAppend (v : Word)
  /-- SCRUB_READ (R427). -/
  | scrubRead
  /-- ECC_TEST_WRITE (R426). -/
  | eccTestWrite (v : Word)
  /-- FUSE_OWNER_ROOT (R431). -/
  | fuseOwnerRoot (v : Word)
  /-- FUSE_ADVANCE_COUNTER (R436). -/
  | fuseAdvanceCounter (v : Word)
  /-- FUSE_OPERATION_DONE (R433). -/
  | fuseOperationDone
  /-- IMAGE_LOAD (R437). -/
  | imageLoad (v : Word)
  /-- IMAGE_LOAD_DONE (R437). -/
  | imageLoadDone
  /-- ATTESTATION_REQUEST (R440). -/
  | attestationRequest (v : Word)
  /-- ATTESTATION_DONE (R440). -/
  | attestationDone
  /-- PLAN_RUN_REQUEST (R447). -/
  | planRunRequest (v : Word)
  /-- PLAN_RUN_START (R447). -/
  | planRunStart (pairs : List (Nat × Nat))
  /-- PLAN_RUN_COMPLETE (R449). -/
  | planRunComplete
  /-- OSCILLATOR_MEASURE (R442). -/
  | oscillatorMeasure (v : Word) (pairs : List (Nat × Nat))
  /-- JUNCTION_SAMPLE (R442). -/
  | junctionSample (t : List Int)
  /-- LEG_MODEL_TICK (R443). -/
  | legModelTick
  /-- OWNER_BOUNDS_WRITE (R451). -/
  | ownerBoundsWrite (w : Fin 16) (v : Word)
  /-- SEAL_REQUEST (R458). -/
  | sealRequest (v : Word)
  /-- SEAL_COMPLETE (R459). -/
  | sealComplete (good : Bool)
  /-- VDRV_LOCKOUT_RELEASE (R248). -/
  | vdrvLockoutRelease (hi : Bool)
  /-- COMPARATOR_OUTPUT_CHANGE (R163). -/
  | comparatorOutputChange (n : Fin 16) (pin : Nat) (vref : Nat)
  /-- REFERENCE_RETURN (R63). -/
  | referenceReturn
  /-- JTAG_INSTRUCTION (R40). -/
  | jtagInstruction (i : Option (Fin 4))
deriving DecidableEq, Repr

end Sys2Proof
end

