-- ==== Sys2Proof/Config.lean ====
section
/-! DEFINITION. What the spec leaves open: every constant here is opaque, so a statement holds whatever it is. Each takes a
counter that the state advances (a fresh value each time) or the operands it depends on. -/

namespace Sys2Proof.Config

/-- A result whose exact value the spec states but whose rounding or number format it does not (log 5): the n-th such result. -/
opaque rounded : Nat → Rat → BitVec 32

/-- A value the spec leaves wholly open (log 6): the n-th such value. -/
opaque freeWord : Nat → BitVec 32

/-- Byte i of the retention image saved as the n-th open value: the spec does not lay the image out (R97, R98, log 6). -/
opaque imageByte : Nat → Nat → BitVec 8

/-- An open yes-or-no choice (log 6): the n-th such choice. -/
opaque freeBit : Nat → Bool

/-- The square root of an exact value, in a unit whose number format is not stated (log 5). -/
opaque rootOf : Nat → Rat → BitVec 32

/-- The sine of an angle in turns; `sinAcc` holds it to the accuracy of R185 (log 7). -/
opaque sinTurns : Rat → BitVec 32

/-- The cosine of an angle in turns; `cosAcc` holds it to the accuracy of R185 (log 7). -/
opaque cosTurns : Rat → BitVec 32

/-- atan2(y, x) in radians (R253), whose rounding is not stated (log 5). -/
opaque atan2 : Rat → Rat → BitVec 32

/-- An angle of x radians in units of 2^-32 turn, modulo one turn (R253, R254), whose rounding is not stated (log 5). -/
opaque turns : Rat → BitVec 32

/-- x / 2π as binary32 (R254), whose rounding is not stated (log 5). -/
opaque overTau : Rat → BitVec 32

/-- 2π × x as binary32 (R252), whose rounding is not stated (log 5). -/
opaque timesTau : Rat → BitVec 32

/-- A metrology result as a fraction of full scale, from the latest raw results of its input, newest first, after a delay in samples
(R338); the filter is not stated (log 26). -/
opaque delayed : List Int → Rat → BitVec 32

/-- The output of the 127-tap Hilbert filter of R342 for its last 127 inputs, newest first; its coefficients are not stated (log 26). -/
opaque hilbert : List (BitVec 32) → BitVec 32

/-- An energy increment of so many units of 2^-32 µWh (R345), whose rounding is not stated (log 5). -/
opaque energyUnits : Rat → Nat

/-- Whether a Falcon signature verifies for a public key and a message (R434; log 8). -/
opaque sigVerify : List (BitVec 8) → List (BitVec 8) → List (BitVec 8) → Bool

/-- The signature the identity key makes of a message (R440; log 8). -/
opaque sigMake : Nat → List (BitVec 8) → List (BitVec 8)

/-- Whether the sealed blob's tag is right for this device's unclonable source (R438, R439; log 8). -/
opaque idTagOk : Nat → Bool

/-- Byte i of the identity public key in MRAM (R438, R439; log 9): a constant of the device. -/
opaque idKey : Nat → BitVec 8

/-- Byte i of the vendor signature in MRAM (R439; log 9). -/
opaque idSig : Nat → BitVec 8

/-- Word i of the vendor root in the fuses (R430; log 9). -/
opaque vendorRoot : Nat → BitVec 32

end Sys2Proof.Config
end

