-- ==== Sys2Proof/Machine/Field.lean ====
section
/-! DEFINITION. A register field, a row of a register table, and the sparse maps that hold the device's state. -/

namespace Sys2Proof

/-- A register field: byte address of its register (R8) and its bit range, both ends included. -/
structure Fld where
  addr : Nat
  hi : Nat
  lo : Nat
deriving DecidableEq, Repr

/-- The number of bits of a field. -/
def Fld.width (f : Fld) : Nat := f.hi + 1 - f.lo

/-- One row of a page's register table: offset, two strides with their counts, the reset value, and the bits of each
access type of R12 (RO bits are those in none of the masks). -/
structure RegDef where
  off : Nat
  s1 : Nat
  n1 : Nat
  s2 : Nat
  n2 : Nat
  reset : Nat
  rw : Nat
  rwl : Nat
  w1c : Nat
  w1s : Nat
  sc : Nat
  wo : Nat
deriving DecidableEq, Repr

/-- The instance test along one stride: `rest` is i × stride + remainder with i < count; the remainder. -/
def RegDef.peel (rest stride count : Nat) : Option Nat :=
  if stride = 0 then some rest
  else if rest / stride < count then some (rest % stride) else none

/-- Whether the row holds the register at page offset `o`. -/
def RegDef.holds (r : RegDef) (o : Nat) : Bool :=
  r.off ≤ o &&
  (match RegDef.peel (o - r.off) r.s1 r.n1 with
   | none => false
   | some rest =>
     match RegDef.peel rest r.s2 r.n2 with
     | none => false
     | some rest2 => rest2 == 0)

/-- A sparse map: (key, value) pairs with rising keys, no entry equal to what an unlisted key reads as. -/
abbrev SMap (α : Type) := List (Nat × α)

/-- The value at a key; an unlisted key reads as `d k`. -/
def SMap.get {α : Type} (d : Nat → α) : SMap α → Nat → α
  | [], k => d k
  | (k', v) :: t, k => if k' = k then v else SMap.get d t k

/-- Insertion at the key's place. -/
def SMap.place {α : Type} (k : Nat) (v : α) : SMap α → SMap α
  | [] => [(k, v)]
  | (k', v') :: t => if k < k' then (k, v) :: (k', v') :: t else (k', v') :: SMap.place k v t

/-- Storing a value: the old entry goes, and the new one is listed only when it differs from the default. -/
def SMap.set {α : Type} [DecidableEq α] (d : Nat → α) (m : SMap α) (k : Nat) (v : α) : SMap α :=
  let m' := m.filter (fun e => e.1 != k)
  if v = d k then m' else SMap.place k v m'

/-- The canonical form: keys strictly rising and no entry equal to its default. -/
def SMap.wf {α : Type} [DecidableEq α] (d : Nat → α) : SMap α → Bool
  | [] => true
  | (k, v) :: t => v != d k && (t.all fun e => decide (k < e.1)) && SMap.wf d t

/-- Little-endian value of a list of bytes. -/
def leVal : List Byte → Nat
  | [] => 0
  | b :: t => b.toNat + 256 * leVal t

/-- `n` bytes of a value, least significant first. -/
def leBytes : Nat → Nat → List Byte
  | 0, _ => []
  | n + 1, v => BitVec.ofNat 8 v :: leBytes n (v / 256)

/-- `n` bytes of a value, most significant first. -/
def beBytes (n v : Nat) : List Byte := (leBytes n v).reverse

/-- Big-endian value of a list of bytes. -/
def beVal (l : List Byte) : Nat := leVal l.reverse

/-- The two's-complement reading of the low `w` bits of `v` (R67). -/
def sgn (w v : Nat) : Int :=
  let m := v % 2 ^ w
  if m < 2 ^ (w - 1) then (m : Int) else (m : Int) - (2 ^ w : Nat)

/-- The `w`-bit pattern of an integer. -/
def unsgn (w : Nat) (i : Int) : Nat := (i % ((2 ^ w : Nat) : Int)).toNat

/-- The signed difference d(x, y) of two `w`-bit quantities (R67). -/
def sdiff (w x y : Nat) : Int := sgn w ((x % 2 ^ w) + 2 ^ w - (y % 2 ^ w))

/-- `x has reached y` (R67). -/
def reached (w x y : Nat) : Bool := decide (0 ≤ sdiff w x y)

/-- Membership of the half-open window [open, close) (R17, R68). -/
def inWindow (w e opn cls : Nat) : Bool :=
  decide ((e + 2 ^ w - opn % 2 ^ w) % 2 ^ w < (cls + 2 ^ w - opn % 2 ^ w) % 2 ^ w)

end Sys2Proof
end

