-- ==== Sys2Proof/Machine/Fields.lean ====
section
/-! DEFINITION. The register fields by name, each at the address and the bits its page's table gives (one line per field in use). -/

namespace Sys2Proof
namespace F

def SYS_CAUSE : Fld := ⟨0x40, 15, 12⟩
def SYS_MOVING : Fld := ⟨0x40, 8, 8⟩
def SYS_PRIOR : Fld := ⟨0x40, 6, 4⟩
def SYS_MODE : Fld := ⟨0x40, 2, 0⟩
def SYS_MODEREQ : Fld := ⟨0x44, 2, 0⟩
def SYS_MODEREF : Fld := ⟨0x48, 31, 28⟩
def SYS_REFREQ : Fld := ⟨0x48, 26, 24⟩
def SYS_REFCNT : Fld := ⟨0x48, 15, 0⟩
def SYS_RECONT : Fld := ⟨0x50, 31, 16⟩
def SYS_CEASERUN : Fld := ⟨0x50, 15, 8⟩
def SYS_AUTORES : Fld := ⟨0x50, 0, 0⟩
def SYS_CEASESEC : Fld := ⟨0x54, 15, 0⟩
def SYS_STOPT : Fld := ⟨0x58, 15, 0⟩
def SYS_RUNGREQ : Fld := ⟨0x100, 2, 0⟩
def SYS_RUNGREF : Fld := ⟨0x104, 7, 4⟩
def SYS_RUNGMOVING : Fld := ⟨0x104, 3, 3⟩
def SYS_RUNG : Fld := ⟨0x104, 2, 0⟩
def SYS_RSTKEY : Fld := ⟨0x110, 31, 16⟩
def SYS_RSTGO : Fld := ⟨0x110, 0, 0⟩
def SYS_EXITUS : Fld := ⟨0x114, 31, 0⟩
def SYS_IMASK0_MASK : Fld := ⟨0x188, 31, 0⟩
def SYS_IMASK1_MASK : Fld := ⟨0x18C, 30, 0⟩
def SYS_SEAL_KEY : Fld := ⟨0x1C0, 31, 16⟩
def SYS_SEAL_GO : Fld := ⟨0x1C0, 0, 0⟩
def SYS_SEALRES : Fld := ⟨0x1C4, 31, 28⟩
def SYS_SEALED : Fld := ⟨0x1C4, 1, 1⟩
def SYS_SEALING : Fld := ⟨0x1C4, 0, 0⟩
def SYS_SEALREF : Fld := ⟨0x1C8, 31, 0⟩
def CLK_REFDIV : Fld := ⟨0x1040, 7, 4⟩
def CLK_SRC : Fld := ⟨0x1040, 0, 0⟩
def CLK_N : Fld := ⟨0x1044, 7, 0⟩
def CLK_FRAC : Fld := ⟨0x1048, 23, 0⟩
def CLK_UPDGO : Fld := ⟨0x104C, 0, 0⟩
def CLK_RELOCKED : Fld := ⟨0x1050, 3, 3⟩
def CLK_REFOK : Fld := ⟨0x1050, 2, 2⟩
def CLK_HOLD : Fld := ⟨0x1050, 1, 1⟩
def CLK_LOCK : Fld := ⟨0x1050, 0, 0⟩
def TIME_SNAPGO : Fld := ⟨0x2040, 8, 8⟩
def TIME_ACTIVE : Fld := ⟨0x2040, 1, 0⟩
def TIME_SWREF : Fld := ⟨0x2044, 6, 4⟩
def TIME_PPSNEW : Fld := ⟨0x2044, 3, 3⟩
def TIME_LEAPPEND : Fld := ⟨0x2044, 2, 2⟩
def TIME_SLEWING : Fld := ⟨0x2044, 1, 1⟩
def TIME_SLEWWIN : Fld := ⟨0x2048, 15, 0⟩
def TIME_SRVWDT : Fld := ⟨0x204C, 15, 0⟩
def TIME_INCF : Fld := ⟨0x2050, 31, 0⟩
def TIME_INCA : Fld := ⟨0x2054, 31, 0⟩
def TIME_INCB : Fld := ⟨0x2058, 31, 0⟩
def TIME_DLOCK : Fld := ⟨0x205C, 1, 0⟩
def TIME_DT64LO : Fld := ⟨0x20A0, 31, 0⟩
def TIME_LEAPCANCEL : Fld := ⟨0x20B0, 5, 5⟩
def TIME_LEAPARM : Fld := ⟨0x20B0, 4, 4⟩
def TIME_LEAPTGT : Fld := ⟨0x20B0, 1, 0⟩
def TIME_LEAPSEC : Fld := ⟨0x20B4, 31, 0⟩
def TIME_LEAPNS : Fld := ⟨0x20B8, 31, 0⟩
def TIME_LEAPFRAC : Fld := ⟨0x20BC, 15, 0⟩
def TIME_LEAPATLO : Fld := ⟨0x20C0, 31, 0⟩
def TIME_PA_INGASYM : Fld := ⟨0x20D0, 31, 0⟩
def TIME_PA_EGASYM : Fld := ⟨0x20D4, 31, 0⟩
def TIME_PB_INGASYM : Fld := ⟨0x20D8, 31, 0⟩
def TIME_PB_EGASYM : Fld := ⟨0x20DC, 31, 0⟩
def TIME_PA_PDLY : Fld := ⟨0x20E0, 31, 0⟩
def TIME_PB_PDLY : Fld := ⟨0x20E4, 31, 0⟩
def TIME_DOMNUMB : Fld := ⟨0x20E8, 23, 16⟩
def TIME_DOMNUMA : Fld := ⟨0x20E8, 15, 8⟩
def TIME_BEN : Fld := ⟨0x20E8, 5, 5⟩
def TIME_AEN : Fld := ⟨0x20E8, 4, 4⟩
def TIME_TCP2P : Fld := ⟨0x20E8, 3, 3⟩
def TIME_TCEN : Fld := ⟨0x20E8, 2, 2⟩
def TIME_OSB : Fld := ⟨0x20E8, 1, 1⟩
def TIME_OSA : Fld := ⟨0x20E8, 0, 0⟩
def TIME_POP : Fld := ⟨0x20F0, 8, 8⟩
def TIME_TXPORT : Fld := ⟨0x20F0, 0, 0⟩
def TIME_TXVALID : Fld := ⟨0x20F4, 31, 31⟩
def TIME_TXSRC : Fld := ⟨0x20F4, 29, 28⟩
def TIME_TXMSGTYPE : Fld := ⟨0x20F4, 27, 24⟩
def TIME_TXDOMAIN : Fld := ⟨0x20F4, 23, 16⟩
def TIME_TXSEQID : Fld := ⟨0x20F4, 15, 0⟩
def TIME_TXSECLO : Fld := ⟨0x20F8, 31, 0⟩
def TIME_TXNS : Fld := ⟨0x20FC, 31, 0⟩
def TIME_TXFRAC : Fld := ⟨0x2100, 31, 16⟩
def TIME_TXSECHI : Fld := ⟨0x2100, 15, 0⟩
def TIME_OVFB : Fld := ⟨0x2104, 31, 16⟩
def TIME_OVFA : Fld := ⟨0x2104, 15, 0⟩
def TIME_INEN : Fld := ⟨0x2110, 4, 4⟩
def TIME_INEDGE : Fld := ⟨0x2110, 3, 3⟩
def TIME_OUTSRC : Fld := ⟨0x2110, 2, 1⟩
def TIME_PPSWIDTH : Fld := ⟨0x2114, 18, 0⟩
def TIME_PPSOFS : Fld := ⟨0x2118, 31, 0⟩
def TIME_OUTEN : Fld := ⟨0x2110, 0, 0⟩
def TIME_PPSCNT : Fld := ⟨0x211C, 31, 0⟩
def TIME_TRGARM (n : Nat) : Fld := ⟨0x2168 + 0x10 * n, 31, 31⟩
def TIME_TRGARG (n : Nat) : Fld := ⟨0x2168 + 0x10 * n, 15, 8⟩
def TIME_TRGTGT (n : Nat) : Fld := ⟨0x2168 + 0x10 * n, 3, 0⟩
def BOOT_CODE : Fld := ⟨0x3040, 15, 8⟩
def BOOT_FAILIDX : Fld := ⟨0x3040, 7, 4⟩
def BOOT_FLTHOLD : Fld := ⟨0x3040, 3, 3⟩
def BOOT_HDRB : Fld := ⟨0x3040, 2, 2⟩
def BOOT_DONE : Fld := ⟨0x3040, 1, 1⟩
def BOOT_CKPT : Fld := ⟨0x3040, 0, 0⟩
def BOOT_WAKE : Fld := ⟨0x3044, 4, 4⟩
def BOOT_HDRSEQ : Fld := ⟨0x3048, 31, 0⟩
def BOOT_TIME : Fld := ⟨0x304C, 31, 0⟩
def BOOT_CKSEQ : Fld := ⟨0x3050, 31, 0⟩
def BOOT_ENTTYPE (e : Nat) : Fld := ⟨0x3060 + 0x4 * e, 10, 8⟩
def BOOT_ENTRES (e : Nat) : Fld := ⟨0x3060 + 0x4 * e, 3, 0⟩
def BOOT_DLGO : Fld := ⟨0x3080, 31, 31⟩
def BOOT_DLENT : Fld := ⟨0x3080, 18, 16⟩
def BOOT_DLBLK : Fld := ⟨0x3080, 8, 0⟩
def BOOT_DLDST : Fld := ⟨0x3084, 3, 0⟩
def BOOT_DLRES : Fld := ⟨0x3088, 3, 0⟩
def KEEP_CKPER : Fld := ⟨0x4040, 31, 24⟩
def KEEP_CKREQ : Fld := ⟨0x4040, 9, 9⟩
def KEEP_KTSNAP : Fld := ⟨0x4040, 8, 8⟩
def KEEP_KTSET : Fld := ⟨0x4040, 7, 7⟩
def KEEP_ALMEN : Fld := ⟨0x4040, 6, 6⟩
def KEEP_DAWNEN : Fld := ⟨0x4040, 5, 5⟩
def KEEP_VKEEPEN : Fld := ⟨0x4040, 4, 4⟩
def KEEP_ICHG : Fld := ⟨0x4040, 3, 2⟩
def KEEP_HARVEN : Fld := ⟨0x4040, 1, 1⟩
def KEEP_XBUSY : Fld := ⟨0x4044, 11, 11⟩
def KEEP_CKBUSY : Fld := ⟨0x4044, 10, 10⟩
def KEEP_CKREF : Fld := ⟨0x4044, 9, 9⟩
def KEEP_RFLOST : Fld := ⟨0x4044, 8, 8⟩
def KEEP_KTVALID : Fld := ⟨0x4044, 7, 7⟩
def KEEP_VKEEPON : Fld := ⟨0x4044, 6, 6⟩
def KEEP_COLD : Fld := ⟨0x4044, 5, 5⟩
def KEEP_LOWRESV : Fld := ⟨0x4044, 4, 4⟩
def KEEP_MAINCHG : Fld := ⟨0x4044, 3, 3⟩
def KEEP_HARV : Fld := ⟨0x4044, 2, 2⟩
def KEEP_DAWN : Fld := ⟨0x4044, 1, 1⟩
def KEEP_HVIN : Fld := ⟨0x4048, 27, 16⟩
def KEEP_VSCAP : Fld := ⟨0x4048, 11, 0⟩
def KEEP_VCUT1 : Fld := ⟨0x404C, 27, 16⟩
def KEEP_VCUT2 : Fld := ⟨0x404C, 11, 0⟩
def KEEP_VRESVMIN : Fld := ⟨0x4050, 27, 16⟩
def KEEP_VRESV : Fld := ⟨0x4050, 11, 0⟩
def KEEP_CSTORE : Fld := ⟨0x4054, 31, 16⟩
def KEEP_ESR : Fld := ⟨0x4054, 15, 0⟩
def KEEP_VTERM : Fld := ⟨0x4058, 11, 0⟩
def KEEP_DAWNT : Fld := ⟨0x405C, 31, 16⟩
def KEEP_DAWNV : Fld := ⟨0x405C, 11, 0⟩
def KEEP_KTSECLO : Fld := ⟨0x4060, 31, 0⟩
def KEEP_KTSECHI : Fld := ⟨0x4064, 15, 0⟩
def KEEP_KTSUB : Fld := ⟨0x4068, 14, 0⟩
def KEEP_KALMLO : Fld := ⟨0x4070, 31, 0⟩
def KEEP_KALMHI : Fld := ⟨0x4074, 15, 0⟩
def KEEP_TRIM : Fld := ⟨0x4078, 7, 0⟩
def KEEP_REFCNT : Fld := ⟨0x407C, 31, 16⟩
def KEEP_NEXTSLOT : Fld := ⟨0x407C, 2, 0⟩
def KEEP_CKSEQ : Fld := ⟨0x4080, 31, 0⟩
def KEEP_KWSRC : Fld := ⟨0x4084, 2, 0⟩
def HIF_HRDYTH : Fld := ⟨0x5040, 6, 0⟩
def HIF_FENCEGO : Fld := ⟨0x5048, 0, 0⟩
def HIF_WEVALID : Fld := ⟨0x504C, 31, 31⟩
def HIF_WECODE : Fld := ⟨0x504C, 27, 24⟩
def HIF_WEADDR : Fld := ⟨0x504C, 23, 0⟩
def HIF_ABSENTCNT : Fld := ⟨0x5050, 31, 0⟩
def HIF_CRCCNT : Fld := ⟨0x5054, 31, 0⟩
def HIF_BUSYCNT : Fld := ⟨0x5058, 31, 0⟩
def HIF_ABORTCNT : Fld := ⟨0x505C, 31, 0⟩
def FLT_FEN : Fld := ⟨0x6040, 0, 0⟩
def FLT_ACKGO : Fld := ⟨0x6048, 31, 31⟩
def FLT_ACKALL : Fld := ⟨0x6048, 30, 30⟩
def FLT_GRACE1 : Fld := ⟨0x604C, 15, 0⟩
def FLT_GRACE2 : Fld := ⟨0x6050, 15, 0⟩
def FLT_GRACE3 : Fld := ⟨0x6054, 15, 0⟩
def FLT_ALMKT : Fld := ⟨0x6058, 31, 0⟩
def FLT_LASTV : Fld := ⟨0x605C, 16, 16⟩
def FLT_LASTSRC : Fld := ⟨0x605C, 15, 8⟩
def FLT_LASTCLS : Fld := ⟨0x605C, 2, 0⟩
def FLT_ESCCNT : Fld := ⟨0x6060, 31, 16⟩
def FLT_SECCNT : Fld := ⟨0x6060, 15, 0⟩
def FLT_RAISECNT : Fld := ⟨0x6064, 31, 0⟩
def FLT_OPEN (s : Nat) : Fld := ⟨0x6400 + 0x4 * s, 31, 31⟩
def FLT_RESTORED (s : Nat) : Fld := ⟨0x6400 + 0x4 * s, 30, 30⟩
def FLT_FORCED (s : Nat) : Fld := ⟨0x6400 + 0x4 * s, 29, 29⟩
def FLT_CUR (s : Nat) : Fld := ⟨0x6400 + 0x4 * s, 28, 26⟩
def FLT_RPT (s : Nat) : Fld := ⟨0x6400 + 0x4 * s, 15, 8⟩
def FLT_DRT (s : Nat) : Fld := ⟨0x6400 + 0x4 * s, 7, 7⟩
def FLT_CLASS (s : Nat) : Fld := ⟨0x6400 + 0x4 * s, 2, 0⟩
def JRNL_NEXTSEQ : Fld := ⟨0x7040, 31, 0⟩
def JRNL_QDEPTH : Fld := ⟨0x7044, 21, 16⟩
def JRNL_DROPCNT : Fld := ⟨0x7044, 15, 0⟩
def JRNL_NSUPP : Fld := ⟨0x7048, 31, 16⟩
def JRNL_BADCNT : Fld := ⟨0x7048, 15, 0⟩
def JRNL_USERGO : Fld := ⟨0x704C, 31, 31⟩
def JRNL_USERCODE : Fld := ⟨0x704C, 7, 0⟩
def JRNL_USERDLO : Fld := ⟨0x7050, 31, 0⟩
def JRNL_USERDHI : Fld := ⟨0x7054, 31, 0⟩
def ECC_TESTEN : Fld := ⟨0x8040, 31, 31⟩
def ECC_TGO : Fld := ⟨0x8040, 0, 0⟩
def ECC_SCRUBRATE : Fld := ⟨0x8044, 15, 0⟩
def ECC_PASSCNT : Fld := ⟨0x8048, 31, 0⟩
def ECC_POISRD : Fld := ⟨0x804C, 31, 0⟩
def ECC_LASTVALID : Fld := ⟨0x8058, 31, 31⟩
def ECC_LASTARR : Fld := ⟨0x8058, 30, 27⟩
def ECC_LASTOFS : Fld := ⟨0x8058, 23, 0⟩
def ECC_LASTUE : Fld := ⟨0x805C, 8, 8⟩
def ECC_LASTSYN : Fld := ⟨0x805C, 7, 0⟩
def ECC_TARR : Fld := ⟨0x8060, 26, 24⟩
def ECC_TOFS : Fld := ⟨0x8060, 20, 0⟩
def ECC_TDATALO : Fld := ⟨0x8064, 31, 0⟩
def ECC_TDATAHI : Fld := ⟨0x8068, 31, 0⟩
def ECC_TCHK : Fld := ⟨0x806C, 7, 0⟩
def ECC_CECNT (a : Nat) : Fld := ⟨0x8080 + 0x8 * a, 31, 0⟩
def ECC_UECNT (a : Nat) : Fld := ⟨0x8084 + 0x8 * a, 31, 0⟩
def ECC_MWEAR (b : Nat) : Fld := ⟨0x8400 + 0x4 * b, 31, 0⟩
def SEC_IDOK : Fld := ⟨0x9040, 8, 8⟩
def SEC_FBUSY : Fld := ⟨0x9040, 7, 7⟩
def SEC_LBUSY : Fld := ⟨0x9040, 6, 6⟩
def SEC_ABUSY : Fld := ⟨0x9040, 5, 5⟩
def SEC_SVNDATA : Fld := ⟨0x9050, 31, 24⟩
def SEC_SVNDESC : Fld := ⟨0x9050, 23, 16⟩
def SEC_SVNCFG : Fld := ⟨0x9050, 15, 8⟩
def SEC_SVNMICRO : Fld := ⟨0x9050, 7, 0⟩
def SEC_FUSEKEY : Fld := ⟨0x90C0, 31, 16⟩
def SEC_FUSEOP : Fld := ⟨0x90C0, 9, 8⟩
def SEC_FUSECTR : Fld := ⟨0x90C0, 5, 4⟩
def SEC_FUSEGO : Fld := ⟨0x90C0, 0, 0⟩
def SEC_FUSERES : Fld := ⟨0x90C4, 31, 28⟩
def SEC_OWNSTG (i : Nat) : Fld := ⟨0x90E0 + 0x4 * i, 31, 0⟩
def SEC_LOADGO : Fld := ⟨0x9100, 31, 31⟩
def SEC_LOFS : Fld := ⟨0x9100, 19, 0⟩
def SEC_LLEN : Fld := ⟨0x9104, 23, 0⟩
def SEC_LDRES : Fld := ⟨0x9108, 31, 28⟩
def SEC_LDTYPE : Fld := ⟨0x9108, 27, 24⟩
def SEC_CFGEVALID : Fld := ⟨0x910C, 31, 31⟩
def SEC_CFGECODE : Fld := ⟨0x910C, 27, 24⟩
def SEC_CFGEADDR : Fld := ⟨0x910C, 23, 0⟩
def SEC_ATTGO : Fld := ⟨0x9140, 0, 0⟩
def SEC_ATTSEQ : Fld := ⟨0x9144, 31, 0⟩
def SEC_ATTRES : Fld := ⟨0x9148, 3, 0⟩
def SEC_NONCE (i : Nat) : Fld := ⟨0x9160 + 0x4 * i, 31, 0⟩
def SEC_REPORT (i : Nat) : Fld := ⟨0x9200 + 0x4 * i, 31, 0⟩
def AGE_MEAS : Fld := ⟨0xA040, 1, 1⟩
def AGE_RUN : Fld := ⟨0xA040, 0, 0⟩
def AGE_BNDBAD : Fld := ⟨0xA044, 3, 3⟩
def AGE_LNEW : Fld := ⟨0xA044, 2, 2⟩
def AGE_PEND : Fld := ⟨0xA044, 1, 1⟩
def AGE_BUSY : Fld := ⟨0xA044, 0, 0⟩
def AGE_RUNCNT : Fld := ⟨0xA048, 31, 16⟩
def AGE_ABNCNT : Fld := ⟨0xA048, 15, 0⟩
def AGE_GT : Fld := ⟨0xA04C, 26, 24⟩
def AGE_OFSM : Fld := ⟨0xA04C, 15, 8⟩
def AGE_DTAGE : Fld := ⟨0xA04C, 7, 0⟩
def AGE_LSEQ : Fld := ⟨0xA050, 31, 0⟩
def AGE_RODEG (k : Nat) : Fld := ⟨0xA060 + 0x4 * k, 15, 0⟩
def AGE_WEAR (c : Nat) : Fld := ⟨0xA080 + 0x4 * c, 31, 0⟩
def AGE_CEST (c : Nat) : Fld := ⟨0xA0A0 + 0x4 * c, 31, 0⟩
def AGE_ESR (c : Nat) : Fld := ⟨0xA0C0 + 0x4 * c, 31, 0⟩
def AGE_CHEN (c : Nat) : Fld := ⟨0xA100 + 0x20 * c, 31, 31⟩
def AGE_HSADC (c : Nat) : Fld := ⟨0xA100 + 0x20 * c, 8, 8⟩
def AGE_HSENT (c : Nat) : Fld := ⟨0xA100 + 0x20 * c, 3, 0⟩
def AGE_KLOSS (c : Nat) : Fld := ⟨0xA104 + 0x20 * c, 31, 0⟩
def AGE_RTH (c : Nat) : Fld := ⟨0xA108 + 0x20 * c, 31, 0⟩
def AGE_TAU (c : Nat) : Fld := ⟨0xA10C + 0x20 * c, 31, 0⟩
def AGE_HSGAIN (c : Nat) : Fld := ⟨0xA110 + 0x20 * c, 31, 0⟩
def AGE_HSOFS (c : Nat) : Fld := ⟨0xA114 + 0x20 * c, 31, 0⟩
def AGE_DERATEMIN : Fld := ⟨0xA200, 31, 0⟩
def AGE_GTMAX : Fld := ⟨0xA204, 23, 16⟩
def AGE_OFSMAX : Fld := ⟨0xA204, 15, 8⟩
def AGE_DTMAX : Fld := ⟨0xA204, 7, 0⟩
def AGE_GTPPM : Fld := ⟨0xA208, 31, 0⟩
def AGE_DTPPM : Fld := ⟨0xA20C, 31, 0⟩
def AGE_OFSPPM : Fld := ⟨0xA210, 31, 0⟩
def AGE_LCYCLIFE : Fld := ⟨0xA214, 31, 0⟩
def AGE_LCYCTH : Fld := ⟨0xA218, 31, 0⟩
def AGE_CAPEOL : Fld := ⟨0xA21C, 31, 0⟩
def AGE_WKNEE : Fld := ⟨0xA220, 31, 0⟩
def AGE_AGEK : Fld := ⟨0xA224, 31, 0⟩
def SAFE_PHASE : Fld := ⟨0xB040, 13, 12⟩
def SAFE_MONDIV : Fld := ⟨0xB040, 11, 11⟩
def SAFE_STOFB : Fld := ⟨0xB040, 10, 10⟩
def SAFE_DECELLAT : Fld := ⟨0xB040, 9, 9⟩
def SAFE_TPLAT : Fld := ⟨0xB040, 8, 8⟩
def SAFE_TPRSN : Fld := ⟨0xB040, 7, 6⟩
def SAFE_TPDEM : Fld := ⟨0xB040, 5, 5⟩
def SAFE_SSDEM : Fld := ⟨0xB040, 4, 4⟩
def SAFE_SSDISCLAT : Fld := ⟨0xB040, 3, 3⟩
def SAFE_STOB : Fld := ⟨0xB040, 2, 2⟩
def SAFE_STOA : Fld := ⟨0xB040, 1, 1⟩
def SAFE_SFAULT : Fld := ⟨0xB040, 0, 0⟩
def SAFE_CHECK : Fld := ⟨0xB044, 31, 0⟩
def SAFE_CONFIRM : Fld := ⟨0xB048, 31, 0⟩
def SAFE_CVALID : Fld := ⟨0xB04C, 0, 0⟩
def SAFE_RELKEY : Fld := ⟨0xB050, 31, 16⟩
def SAFE_RELGO : Fld := ⟨0xB050, 0, 0⟩
def SAFE_RELREF : Fld := ⟨0xB054, 31, 28⟩
def SAFE_RELREFCNT : Fld := ⟨0xB054, 15, 0⟩
def SAFE_LASTSEQ : Fld := ⟨0xB058, 31, 0⟩
def SAFE_SINGLECNT : Fld := ⟨0xB05C, 23, 16⟩
def SAFE_WORD : Fld := ⟨0xB05C, 15, 0⟩
def SAFE_DISCNT : Fld := ⟨0xB060, 31, 16⟩
def SAFE_PATHERR : Fld := ⟨0xB060, 15, 0⟩
def SAFE_SINGLETOT : Fld := ⟨0xB064, 31, 16⟩
def SAFE_CRCERR : Fld := ⟨0xB064, 15, 0⟩
def SAFE_DEMCNT : Fld := ⟨0xB068, 31, 16⟩
def SAFE_RELCNT : Fld := ⟨0xB068, 15, 0⟩
def SAFE_ENV : Fld := ⟨0xB06C, 31, 0⟩
def SAFE_TXEN : Fld := ⟨0xB070, 31, 31⟩
def SAFE_TXPER : Fld := ⟨0xB070, 15, 0⟩
def SAFE_TXWORD : Fld := ⟨0xB074, 1, 0⟩
def SAFE_TXSEQ : Fld := ⟨0xB078, 31, 0⟩
def SAFE_SSMODE : Fld := ⟨0xB100, 30, 30⟩
def SAFE_SSFILT : Fld := ⟨0xB100, 23, 16⟩
def SAFE_SSDISC : Fld := ⟨0xB100, 15, 0⟩
def SAFE_TPEN : Fld := ⟨0xB104, 31, 31⟩
def SAFE_SINGLEMAX : Fld := ⟨0xB104, 23, 16⟩
def SAFE_WDT : Fld := ⟨0xB104, 15, 8⟩
def SAFE_TLOSS : Fld := ⟨0xB108, 31, 16⟩
def SAFE_SRCID : Fld := ⟨0xB108, 15, 0⟩
def SAFE_TSS1 : Fld := ⟨0xB10C, 31, 16⟩
def SAFE_RAMPT : Fld := ⟨0xB10C, 15, 0⟩
def SAFE_DECEL : Fld := ⟨0xB110, 31, 0⟩
def SAFE_WTOL : Fld := ⟨0xB114, 31, 0⟩
def SAFE_WZERO : Fld := ⟨0xB118, 31, 0⟩
def SAFE_STODLY : Fld := ⟨0xB11C, 15, 0⟩
def ALM_IDX : Fld := ⟨0x10040, 7, 0⟩
def ALM_WR : Fld := ⟨0x10044, 1, 1⟩
def ALM_RD : Fld := ⟨0x10044, 0, 0⟩
def ALM_EN : Fld := ⟨0x10048, 31, 31⟩
def ALM_VHI : Fld := ⟨0x10050, 31, 0⟩
def ALM_LATECNT : Fld := ⟨0x10058, 31, 0⟩
def ALM_MISSCNT : Fld := ⟨0x1005C, 31, 0⟩
def ALM_REFCNT : Fld := ⟨0x10060, 31, 0⟩
def ALM_LASTV : Fld := ⟨0x10064, 8, 8⟩
def ALM_LASTIDX : Fld := ⟨0x10064, 7, 0⟩
def LENG_ADMGO : Fld := ⟨0x11040, 0, 0⟩
def LENG_ADMLO : Fld := ⟨0x11044, 31, 0⟩
def LENG_ADMHI : Fld := ⟨0x11048, 31, 0⟩
def LENG_ADMRES : Fld := ⟨0x1104C, 31, 28⟩
def LENG_ADMIDX : Fld := ⟨0x1104C, 27, 22⟩
def LENG_HLOAD : Fld := ⟨0x1104C, 15, 0⟩
def LENG_ACTLO : Fld := ⟨0x11050, 31, 0⟩
def LENG_ACTHI : Fld := ⟨0x11054, 31, 0⟩
def LENG_TLOAD : Fld := ⟨0x11058, 15, 0⟩
def LENG_NUMLO : Fld := ⟨0x1105C, 31, 0⟩
def LENG_NUMHI : Fld := ⟨0x11060, 31, 0⟩
def LENG_POISCH : Fld := ⟨0x11064, 7, 0⟩
def LENG_SKIPCNT (d : Nat) : Fld := ⟨0x11100 + 0x10 * d, 31, 16⟩
def LENG_DEFCNT (d : Nat) : Fld := ⟨0x11100 + 0x10 * d, 15, 0⟩
def LENG_NUMCNT (d : Nat) : Fld := ⟨0x11104 + 0x10 * d, 31, 16⟩
def LENG_OVRCNT (d : Nat) : Fld := ⟨0x11104 + 0x10 * d, 15, 0⟩
def LENG_SET (d : Nat) : Fld := ⟨0x11108 + 0x10 * d, 18, 16⟩
def LENG_RIDE (d : Nat) : Fld := ⟨0x11108 + 0x10 * d, 15, 15⟩
def LENG_REGION (d : Nat) : Fld := ⟨0x11108 + 0x10 * d, 14, 12⟩
def LENG_COST (d : Nat) : Fld := ⟨0x11108 + 0x10 * d, 9, 0⟩
def LENG_EXECCNT (d : Nat) : Fld := ⟨0x1110C + 0x10 * d, 31, 0⟩
def GRID_VC (p : Nat) : Fld := ⟨0x12040 + 0x1000 * p, 28, 24⟩
def GRID_VB (p : Nat) : Fld := ⟨0x12040 + 0x1000 * p, 20, 16⟩
def GRID_VA (p : Nat) : Fld := ⟨0x12040 + 0x1000 * p, 12, 8⟩
def GRID_ZCPH (p : Nat) : Fld := ⟨0x12040 + 0x1000 * p, 5, 4⟩
def GRID_FNOM (p : Nat) : Fld := ⟨0x12040 + 0x1000 * p, 3, 3⟩
def GRID_TYPE (p : Nat) : Fld := ⟨0x12040 + 0x1000 * p, 1, 0⟩
def GRID_SOGIK (p : Nat) : Fld := ⟨0x12044 + 0x1000 * p, 31, 0⟩
def GRID_FLLG (p : Nat) : Fld := ⟨0x12048 + 0x1000 * p, 31, 0⟩
def GRID_PLLKP (p : Nat) : Fld := ⟨0x1204C + 0x1000 * p, 31, 0⟩
def GRID_PLLKI (p : Nat) : Fld := ⟨0x12050 + 0x1000 * p, 31, 0⟩
def GRID_FMAX (p : Nat) : Fld := ⟨0x12054 + 0x1000 * p, 31, 16⟩
def GRID_FMIN (p : Nat) : Fld := ⟨0x12054 + 0x1000 * p, 15, 0⟩
def GRID_VMIN (p : Nat) : Fld := ⟨0x12058 + 0x1000 * p, 31, 0⟩
def GRID_LOCKTOL (p : Nat) : Fld := ⟨0x1205C + 0x1000 * p, 31, 0⟩
def GRID_LOCKT (p : Nat) : Fld := ⟨0x12060 + 0x1000 * p, 31, 16⟩
def GRID_ROCOFWIN (p : Nat) : Fld := ⟨0x12060 + 0x1000 * p, 15, 0⟩
def GRID_ZCTOT (p : Nat) : Fld := ⟨0x12064 + 0x1000 * p, 31, 16⟩
def GRID_ZCHYS (p : Nat) : Fld := ⟨0x12068 + 0x1000 * p, 31, 0⟩
def GRID_ZCTO (p : Nat) : Fld := ⟨0x1206C + 0x1000 * p, 3, 3⟩
def GRID_HOLD (p : Nat) : Fld := ⟨0x1206C + 0x1000 * p, 2, 2⟩
def GRID_VLOW (p : Nat) : Fld := ⟨0x1206C + 0x1000 * p, 1, 1⟩
def GRID_VALID (p : Nat) : Fld := ⟨0x1206C + 0x1000 * p, 0, 0⟩
def GRID_SNAPGO (p : Nat) : Fld := ⟨0x12070 + 0x1000 * p, 0, 0⟩
def GRID_OMEGA (p : Nat) : Fld := ⟨0x12080 + 0x1000 * p, 31, 0⟩
def GRID_F (p : Nat) : Fld := ⟨0x12084 + 0x1000 * p, 31, 0⟩
def GRID_ROCOF (p : Nat) : Fld := ⟨0x12088 + 0x1000 * p, 31, 0⟩
def GRID_VPD (p : Nat) : Fld := ⟨0x1208C + 0x1000 * p, 31, 0⟩
def GRID_VPQ (p : Nat) : Fld := ⟨0x12090 + 0x1000 * p, 31, 0⟩
def GRID_VND (p : Nat) : Fld := ⟨0x12094 + 0x1000 * p, 31, 0⟩
def GRID_VNQ (p : Nat) : Fld := ⟨0x12098 + 0x1000 * p, 31, 0⟩
def GRID_VPMAG (p : Nat) : Fld := ⟨0x1209C + 0x1000 * p, 31, 0⟩
def GRID_VSHIFT (p : Nat) : Fld := ⟨0x120A0 + 0x1000 * p, 31, 0⟩
def GRID_ANGLE (p : Nat) : Fld := ⟨0x120A4 + 0x1000 * p, 31, 0⟩
def GRID_SNAPTLO (p : Nat) : Fld := ⟨0x120A8 + 0x1000 * p, 31, 0⟩
def GRID_ZCTLO (p : Nat) : Fld := ⟨0x120B0 + 0x1000 * p, 31, 0⟩
def GRID_ZCPER (p : Nat) : Fld := ⟨0x120B8 + 0x1000 * p, 31, 0⟩
def GRID_ZCCNT (p : Nat) : Fld := ⟨0x120BC + 0x1000 * p, 31, 0⟩
def GRID_UNLCNT (p : Nat) : Fld := ⟨0x120C0 + 0x1000 * p, 31, 16⟩
def GRID_ZCTOCNT (p : Nat) : Fld := ⟨0x120C0 + 0x1000 * p, 15, 0⟩
def ALLOC_CURTAIL : Fld := ⟨0x14040, 23, 16⟩
def ALLOC_HREF : Fld := ⟨0x14040, 15, 8⟩
def ALLOC_DELAYED : Fld := ⟨0x14040, 7, 0⟩
def ALLOC_MARG : Fld := ⟨0x14044, 31, 0⟩
def ALLOC_CNT : Fld := ⟨0x14048, 31, 0⟩
def RIDE_ENTRAMP : Fld := ⟨0x15040, 2, 2⟩
def RIDE_MCEN : Fld := ⟨0x15040, 1, 1⟩
def RIDE_KEN : Fld := ⟨0x15040, 0, 0⟩
def RIDE_VBASE (p : Nat) : Fld := ⟨0x15044 + 0x4 * p, 31, 0⟩
def RIDE_ENTLV : Fld := ⟨0x1504C, 31, 0⟩
def RIDE_ENTHV : Fld := ⟨0x15050, 31, 0⟩
def RIDE_ENTDF : Fld := ⟨0x15054, 31, 0⟩
def RIDE_RHYSV : Fld := ⟨0x15058, 31, 0⟩
def RIDE_RHYSF : Fld := ⟨0x1505C, 31, 0⟩
def RIDE_RECT : Fld := ⟨0x15060, 31, 16⟩
def RIDE_MCLV : Fld := ⟨0x15064, 31, 0⟩
def RIDE_MCHV : Fld := ⟨0x15068, 31, 0⟩
def RIDE_K : Fld := ⟨0x1506C, 31, 0⟩
def RIDE_DB : Fld := ⟨0x15070, 31, 0⟩
def RIDE_IQMAX : Fld := ⟨0x15074, 31, 0⟩
def RIDE_RCLV : Fld := ⟨0x15078, 31, 0⟩
def RIDE_RCHV : Fld := ⟨0x1507C, 31, 0⟩
def RIDE_RCDFL : Fld := ⟨0x15080, 31, 0⟩
def RIDE_RCDFH : Fld := ⟨0x15084, 31, 0⟩
def RIDE_NHF : Fld := ⟨0x15088, 28, 24⟩
def RIDE_NLF : Fld := ⟨0x15088, 20, 16⟩
def RIDE_NHV : Fld := ⟨0x15088, 12, 8⟩
def RIDE_NLV : Fld := ⟨0x15088, 4, 0⟩
def RIDE_XVALID : Fld := ⟨0x15090, 12, 12⟩
def RIDE_XCURVE : Fld := ⟨0x15090, 11, 10⟩
def RIDE_XPT : Fld := ⟨0x15090, 9, 6⟩
def RIDE_XPORT : Fld := ⟨0x15090, 5, 5⟩
def RIDE_RECOV : Fld := ⟨0x15090, 4, 4⟩
def RIDE_EXC1 : Fld := ⟨0x15090, 3, 3⟩
def RIDE_EXC0 : Fld := ⟨0x15090, 2, 2⟩
def RIDE_MC : Fld := ⟨0x15090, 1, 1⟩
def RIDE_INRIDE : Fld := ⟨0x15090, 0, 0⟩
def RIDE_ENTCNT : Fld := ⟨0x15094, 31, 16⟩
def RIDE_MCCNT : Fld := ⟨0x15094, 15, 0⟩
def RIDE_CROSSCNT : Fld := ⟨0x15098, 31, 16⟩
def RIDE_RECCNT : Fld := ⟨0x15098, 15, 0⟩
def RIDE_ELAPSED : Fld := ⟨0x1509C, 31, 0⟩
def RIDE_UL0 : Fld := ⟨0x150A0, 31, 0⟩
def RIDE_UH0 : Fld := ⟨0x150A4, 31, 0⟩
def RIDE_DF0 : Fld := ⟨0x150A8, 31, 0⟩
def RIDE_UL1 : Fld := ⟨0x150AC, 31, 0⟩
def RIDE_UH1 : Fld := ⟨0x150B0, 31, 0⟩
def RIDE_DF1 : Fld := ⟨0x150B4, 31, 0⟩
def RIDE_LEVEL (k j : Nat) : Fld := ⟨0x15200 + 0x80 * k + 0x8 * j, 31, 0⟩
def RIDE_TIME (k j : Nat) : Fld := ⟨0x15204 + 0x80 * k + 0x8 * j, 31, 0⟩
def ISL_PEN : Fld := ⟨0x16040, 31, 31⟩
def ISL_INJ : Fld := ⟨0x16040, 30, 30⟩
def ISL_PMODE : Fld := ⟨0x16040, 29, 29⟩
def ISL_ZEN : Fld := ⟨0x16040, 28, 28⟩
def ISL_RCEN : Fld := ⟨0x16040, 27, 27⟩
def ISL_VSEN : Fld := ⟨0x16040, 26, 26⟩
def ISL_FBEN : Fld := ⟨0x16040, 25, 25⟩
def ISL_FORMKEEP : Fld := ⟨0x16040, 24, 24⟩
def ISL_TESTISL : Fld := ⟨0x16040, 23, 23⟩
def ISL_PRBRAM : Fld := ⟨0x16040, 9, 0⟩
def ISL_MASK : Fld := ⟨0x16044, 7, 0⟩
def ISL_PFREQ : Fld := ⟨0x16048, 31, 0⟩
def ISL_PHOFS : Fld := ⟨0x1604C, 31, 16⟩
def ISL_NCYC : Fld := ⟨0x1604C, 7, 0⟩
def ISL_PAMP : Fld := ⟨0x16050, 31, 0⟩
def ISL_ZMTH : Fld := ⟨0x16054, 31, 0⟩
def ISL_ZATH : Fld := ⟨0x16058, 31, 0⟩
def ISL_ZCONF : Fld := ⟨0x1605C, 23, 20⟩
def ISL_ZAVGS : Fld := ⟨0x1605C, 19, 16⟩
def ISL_ZINIT : Fld := ⟨0x1605C, 15, 8⟩
def ISL_ROCOFTH : Fld := ⟨0x16060, 31, 0⟩
def ISL_PASSBLK : Fld := ⟨0x16064, 15, 0⟩
def ISL_VSTH : Fld := ⟨0x16068, 31, 0⟩
def ISL_HOLDOVER : Fld := ⟨0x1606C, 31, 16⟩
def ISL_CF : Fld := ⟨0x16070, 31, 0⟩
def ISL_AFDDF : Fld := ⟨0x16074, 31, 0⟩
def ISL_INJON : Fld := ⟨0x16080, 9, 9⟩
def ISL_DECL : Fld := ⟨0x16080, 8, 8⟩
def ISL_FBACT : Fld := ⟨0x16080, 7, 7⟩
def ISL_HOLD : Fld := ⟨0x16080, 6, 6⟩
def ISL_ISLDET : Fld := ⟨0x16080, 5, 5⟩
def ISL_FORMDET : Fld := ⟨0x16080, 4, 4⟩
def ISL_ARMED1 : Fld := ⟨0x16080, 3, 3⟩
def ISL_ARMED0 : Fld := ⟨0x16080, 2, 2⟩
def ISL_ISLCNT : Fld := ⟨0x16084, 31, 16⟩
def ISL_FBCNT : Fld := ⟨0x16084, 15, 0⟩
def ISL_DETPORT : Fld := ⟨0x16088, 4, 4⟩
def ISL_DETSRC : Fld := ⟨0x16088, 3, 0⟩
def ISL_ZRE (p : Nat) : Fld := ⟨0x16100 + 0x40 * p, 31, 0⟩
def ISL_ZIM (p : Nat) : Fld := ⟨0x16104 + 0x40 * p, 31, 0⟩
def ISL_ZREFRE (p : Nat) : Fld := ⟨0x16108 + 0x40 * p, 31, 0⟩
def ISL_ZREFIM (p : Nat) : Fld := ⟨0x1610C + 0x40 * p, 31, 0⟩
def ISL_ICOH (p : Nat) : Fld := ⟨0x16110 + 0x40 * p, 31, 0⟩
def ISL_WINCNT (p : Nat) : Fld := ⟨0x16114 + 0x40 * p, 31, 16⟩
def ISL_REJCNT (p : Nat) : Fld := ⟨0x16114 + 0x40 * p, 15, 0⟩
def ISL_CONFCNT (p : Nat) : Fld := ⟨0x16118 + 0x40 * p, 3, 0⟩
def ISL_WINTLO (p : Nat) : Fld := ⟨0x1611C + 0x40 * p, 31, 0⟩
def FORM_EN (c : Nat) : Fld := ⟨0x17100 + 0x40 * c, 31, 31⟩
def FORM_DEADBUS (c : Nat) : Fld := ⟨0x17100 + 0x40 * c, 30, 30⟩
def FORM_FBT (c : Nat) : Fld := ⟨0x17100 + 0x40 * c, 15, 0⟩
def FORM_H (c : Nat) : Fld := ⟨0x17104 + 0x40 * c, 31, 0⟩
def FORM_D (c : Nat) : Fld := ⟨0x17108 + 0x40 * c, 31, 0⟩
def FORM_MP (c : Nat) : Fld := ⟨0x1710C + 0x40 * c, 31, 0⟩
def FORM_MQ (c : Nat) : Fld := ⟨0x17110 + 0x40 * c, 31, 0⟩
def FORM_SBASE (c : Nat) : Fld := ⟨0x17114 + 0x40 * c, 31, 0⟩
def FORM_VNOM (c : Nat) : Fld := ⟨0x17118 + 0x40 * c, 31, 0⟩
def FORM_RV (c : Nat) : Fld := ⟨0x1711C + 0x40 * c, 31, 0⟩
def FORM_XV (c : Nat) : Fld := ⟨0x17120 + 0x40 * c, 31, 0⟩
def FORM_VDEAD (c : Nat) : Fld := ⟨0x17124 + 0x40 * c, 31, 0⟩
def FORM_RETT (c : Nat) : Fld := ⟨0x17128 + 0x40 * c, 31, 16⟩
def FORM_DEADT (c : Nat) : Fld := ⟨0x17128 + 0x40 * c, 15, 0⟩
def FORM_DEAD (c : Nat) : Fld := ⟨0x1712C + 0x40 * c, 3, 3⟩
def FORM_VILIM (c : Nat) : Fld := ⟨0x1712C + 0x40 * c, 2, 2⟩
def FORM_FALLBK (c : Nat) : Fld := ⟨0x1712C + 0x40 * c, 1, 1⟩
def FORM_FORMING (c : Nat) : Fld := ⟨0x1712C + 0x40 * c, 0, 0⟩
def FORM_FBCNT (c : Nat) : Fld := ⟨0x17130 + 0x40 * c, 31, 16⟩
def FORM_VILCNT (c : Nat) : Fld := ⟨0x17130 + 0x40 * c, 15, 0⟩
def FORM_OMEGAV (c : Nat) : Fld := ⟨0x17134 + 0x40 * c, 31, 0⟩
def FORM_EV (c : Nat) : Fld := ⟨0x17138 + 0x40 * c, 31, 0⟩
def FORM_PE (c : Nat) : Fld := ⟨0x1713C + 0x40 * c, 31, 0⟩
def CH_DCLR (c : Nat) : Fld := ⟨0x18040 + 0x1000 * c, 31, 31⟩
def CH_OWNENG (c : Nat) : Fld := ⟨0x18040 + 0x1000 * c, 15, 0⟩
def CH_ENGDROP (c : Nat) : Fld := ⟨0x18044 + 0x1000 * c, 31, 16⟩
def CH_HOSTDROP (c : Nat) : Fld := ⟨0x18044 + 0x1000 * c, 15, 0⟩
def CH_SHED (c : Nat) : Fld := ⟨0x18048 + 0x1000 * c, 31, 0⟩
def CH_SHEDH (c : Nat) : Fld := ⟨0x1804C + 0x1000 * c, 31, 0⟩
def CH_LINKEN (c : Nat) : Fld := ⟨0x18050 + 0x1000 * c, 19, 19⟩
def CH_LINK (c : Nat) : Fld := ⟨0x18050 + 0x1000 * c, 18, 16⟩
def CH_DEMAND (c : Nat) : Fld := ⟨0x18050 + 0x1000 * c, 9, 9⟩
def CH_PRIO (c : Nat) : Fld := ⟨0x18050 + 0x1000 * c, 8, 8⟩
def CH_PORT (c : Nat) : Fld := ⟨0x18050 + 0x1000 * c, 4, 4⟩
def CH_TYPE (c : Nat) : Fld := ⟨0x18050 + 0x1000 * c, 1, 0⟩
def CH_IRATED (c : Nat) : Fld := ⟨0x18054 + 0x1000 * c, 31, 0⟩
def CH_RAMP (c : Nat) : Fld := ⟨0x18058 + 0x1000 * c, 31, 0⟩
def CH_DELAYED (c : Nat) : Fld := ⟨0x1805C + 0x1000 * c, 31, 31⟩
def CH_RSNH (c : Nat) : Fld := ⟨0x1805C + 0x1000 * c, 11, 8⟩
def CH_RSNQ (c : Nat) : Fld := ⟨0x1805C + 0x1000 * c, 7, 4⟩
def CH_RSNP (c : Nat) : Fld := ⟨0x1805C + 0x1000 * c, 3, 0⟩
def CH_GID (c : Nat) : Fld := ⟨0x18060 + 0x1000 * c, 31, 0⟩
def CH_GIQ (c : Nat) : Fld := ⟨0x18064 + 0x1000 * c, 31, 0⟩
def CH_GIH (c : Nat) : Fld := ⟨0x18068 + 0x1000 * c, 31, 0⟩
def CH_ENV (c : Nat) : Fld := ⟨0x1806C + 0x1000 * c, 31, 0⟩
def CH_AVAIL (c : Nat) : Fld := ⟨0x18070 + 0x1000 * c, 31, 0⟩
def CH_KAGE (c : Nat) : Fld := ⟨0x18074 + 0x1000 * c, 31, 0⟩
def CH_DLYCNT (c : Nat) : Fld := ⟨0x18078 + 0x1000 * c, 31, 16⟩
def CH_HREFCNT (c : Nat) : Fld := ⟨0x18078 + 0x1000 * c, 15, 0⟩
def CH_PLIM (c : Nat) : Fld := ⟨0x1807C + 0x1000 * c, 31, 0⟩
def CH_SCANN (c : Nat) : Fld := ⟨0x18080 + 0x1000 * c, 26, 24⟩
def CH_ALMIDX (c : Nat) : Fld := ⟨0x18080 + 0x1000 * c, 23, 16⟩
def CH_PCMP (c : Nat) : Fld := ⟨0x18080 + 0x1000 * c, 11, 8⟩
def CH_CTRL (c : Nat) : Fld := ⟨0x18080 + 0x1000 * c, 4, 4⟩
def CH_TOPO (c : Nat) : Fld := ⟨0x18080 + 0x1000 * c, 2, 1⟩
def CH_DCMODE (c : Nat) : Fld := ⟨0x18080 + 0x1000 * c, 0, 0⟩
def CH_DAMP (c : Nat) : Fld := ⟨0x18084 + 0x1000 * c, 31, 0⟩
def CH_KES (c : Nat) : Fld := ⟨0x18088 + 0x1000 * c, 31, 0⟩
def CH_DVMAX (c : Nat) : Fld := ⟨0x1808C + 0x1000 * c, 31, 0⟩
def CH_VMIN (c : Nat) : Fld := ⟨0x18090 + 0x1000 * c, 31, 0⟩
def CH_VMAX (c : Nat) : Fld := ⟨0x18094 + 0x1000 * c, 31, 0⟩
def CH_KCUR (c : Nat) : Fld := ⟨0x18098 + 0x1000 * c, 31, 0⟩
def CH_DVCUR (c : Nat) : Fld := ⟨0x1809C + 0x1000 * c, 31, 0⟩
def CH_SCANPER (c : Nat) : Fld := ⟨0x180A0 + 0x1000 * c, 31, 16⟩
def CH_SETL (c : Nat) : Fld := ⟨0x180A0 + 0x1000 * c, 15, 0⟩
def CH_SCANDW (c : Nat) : Fld := ⟨0x180A4 + 0x1000 * c, 7, 0⟩
def CH_SCANMRG (c : Nat) : Fld := ⟨0x180A8 + 0x1000 * c, 31, 0⟩
def CH_KOC (c : Nat) : Fld := ⟨0x180AC + 0x1000 * c, 31, 0⟩
def CH_SSRATE (c : Nat) : Fld := ⟨0x180B0 + 0x1000 * c, 31, 0⟩
def CH_TERMT (c : Nat) : Fld := ⟨0x180B4 + 0x1000 * c, 31, 16⟩
def CH_SSMS (c : Nat) : Fld := ⟨0x180B4 + 0x1000 * c, 15, 0⟩
def CH_DONE (c : Nat) : Fld := ⟨0x180B8 + 0x1000 * c, 4, 4⟩
def CH_CV (c : Nat) : Fld := ⟨0x180B8 + 0x1000 * c, 3, 3⟩
def CH_SCAN (c : Nat) : Fld := ⟨0x180B8 + 0x1000 * c, 2, 2⟩
def CH_CURT (c : Nat) : Fld := ⟨0x180B8 + 0x1000 * c, 1, 1⟩
def CH_SIGN (c : Nat) : Fld := ⟨0x180B8 + 0x1000 * c, 0, 0⟩
def CH_SCANCNT (c : Nat) : Fld := ⟨0x180BC + 0x1000 * c, 31, 16⟩
def CH_SCANMOVE (c : Nat) : Fld := ⟨0x180BC + 0x1000 * c, 15, 0⟩
def CH_SCANABN (c : Nat) : Fld := ⟨0x180C0 + 0x1000 * c, 31, 16⟩
def CH_DITHSKIP (c : Nat) : Fld := ⟨0x180C0 + 0x1000 * c, 15, 0⟩
def CH_BADCNT (c : Nat) : Fld := ⟨0x180C4 + 0x1000 * c, 31, 16⟩
def CH_TERMCNT (c : Nat) : Fld := ⟨0x180C4 + 0x1000 * c, 15, 0⟩
def CH_PAVL (c : Nat) : Fld := ⟨0x180C8 + 0x1000 * c, 31, 0⟩
def CH_UPDCNT (c : Nat) : Fld := ⟨0x180CC + 0x1000 * c, 31, 0⟩
def CH_SLOT (c k : Nat) : Fld := ⟨0x18100 + 0x1000 * c + 0x4 * k, 31, 0⟩
def CH_COMM (c k : Nat) : Fld := ⟨0x18140 + 0x1000 * c + 0x4 * k, 31, 0⟩
def LEG_BTEN (n : Nat) : Fld := ⟨0x20040 + 0x1000 * n, 7, 7⟩
def LEG_RLDPK (n : Nat) : Fld := ⟨0x20040 + 0x1000 * n, 6, 6⟩
def LEG_DRVT (n : Nat) : Fld := ⟨0x20040 + 0x1000 * n, 3, 3⟩
def LEG_MODE (n : Nat) : Fld := ⟨0x20040 + 0x1000 * n, 1, 0⟩
def LEG_BADIN (n : Nat) : Fld := ⟨0x20044 + 0x1000 * n, 10, 10⟩
def LEG_SHED (n : Nat) : Fld := ⟨0x20044 + 0x1000 * n, 9, 9⟩
def LEG_FB (n : Nat) : Fld := ⟨0x20044 + 0x1000 * n, 8, 8⟩
def LEG_POL (n : Nat) : Fld := ⟨0x20044 + 0x1000 * n, 7, 7⟩
def LEG_RUN (n : Nat) : Fld := ⟨0x20044 + 0x1000 * n, 6, 6⟩
def LEG_TCEIL (n : Nat) : Fld := ⟨0x20044 + 0x1000 * n, 5, 5⟩
def LEG_TFLOOR (n : Nat) : Fld := ⟨0x20044 + 0x1000 * n, 4, 4⟩
def LEG_CMPCLAMP (n : Nat) : Fld := ⟨0x20044 + 0x1000 * n, 3, 3⟩
def LEG_LATE (n : Nat) : Fld := ⟨0x20044 + 0x1000 * n, 2, 2⟩
def LEG_ACT_PER (n : Nat) : Fld := ⟨0x20080 + 0x1000 * n, 20, 0⟩
def LEG_ACT_TON (n : Nat) : Fld := ⟨0x20084 + 0x1000 * n, 21, 0⟩
def LEG_ACT_TOFF (n : Nat) : Fld := ⟨0x20088 + 0x1000 * n, 21, 0⟩
def LEG_ACT_RATIO (n : Nat) : Fld := ⟨0x2008C + 0x1000 * n, 31, 31⟩
def LEG_ACT_CMP (n : Nat) : Fld := ⟨0x2008C + 0x1000 * n, 20, 0⟩
def LEG_ACT_DTR (n : Nat) : Fld := ⟨0x20090 + 0x1000 * n, 11, 0⟩
def LEG_ACT_DTF (n : Nat) : Fld := ⟨0x20094 + 0x1000 * n, 11, 0⟩
def LEG_ACT_IREF (n : Nat) : Fld := ⟨0x20098 + 0x1000 * n, 31, 0⟩
def LEG_DTAGE (n : Nat) : Fld := ⟨0x2009C + 0x1000 * n, 11, 0⟩
def LEG_BTMAX (n : Nat) : Fld := ⟨0x200A0 + 0x1000 * n, 26, 16⟩
def LEG_BTW (n : Nat) : Fld := ⟨0x200A0 + 0x1000 * n, 8, 0⟩
def LEG_SYNCPH (n : Nat) : Fld := ⟨0x200A4 + 0x1000 * n, 21, 0⟩
def LEG_LASTT1 (n : Nat) : Fld := ⟨0x200A8 + 0x1000 * n, 21, 0⟩
def LEG_LASTT2 (n : Nat) : Fld := ⟨0x200AC + 0x1000 * n, 21, 0⟩
def LEG_LASTIDLE (n : Nat) : Fld := ⟨0x200B0 + 0x1000 * n, 21, 0⟩
def LEG_LOSTVS (n : Nat) : Fld := ⟨0x200B4 + 0x1000 * n, 31, 0⟩
def LEG_BOOTLAT (n : Nat) : Fld := ⟨0x200C0 + 0x1000 * n, 9, 9⟩
def LEG_XON (n : Nat) : Fld := ⟨0x200C0 + 0x1000 * n, 8, 8⟩
def LEG_STO (n : Nat) : Fld := ⟨0x200C0 + 0x1000 * n, 7, 7⟩
def LEG_FLT (n : Nat) : Fld := ⟨0x200C0 + 0x1000 * n, 6, 6⟩
def LEG_LVL (n : Nat) : Fld := ⟨0x200C0 + 0x1000 * n, 5, 4⟩
def LEG_OVR (n : Nat) : Fld := ⟨0x200C0 + 0x1000 * n, 3, 3⟩
def LEG_SRCTRIP (n : Nat) : Fld := ⟨0x200C0 + 0x1000 * n, 2, 2⟩
def LEG_SRCCMP (n : Nat) : Fld := ⟨0x200C0 + 0x1000 * n, 1, 1⟩
def LEG_SRCMOD (n : Nat) : Fld := ⟨0x200C0 + 0x1000 * n, 0, 0⟩
def LEG_XCNT (n : Nat) : Fld := ⟨0x200C4 + 0x1000 * n, 31, 0⟩
def LEG_BOOTCNT (n : Nat) : Fld := ⟨0x200C8 + 0x1000 * n, 31, 16⟩
def LEG_BTCHKCNT (n : Nat) : Fld := ⟨0x200C8 + 0x1000 * n, 15, 0⟩
def LEG_LTAB (n j : Nat) : Fld := ⟨0x20100 + 0x1000 * n + 0x4 * j, 31, 0⟩
def LEG_IRTAB (n j : Nat) : Fld := ⟨0x20140 + 0x1000 * n + 0x4 * j, 31, 0⟩
def LEG_LIFS (n : Nat) : Fld := ⟨0x20180 + 0x1000 * n, 31, 0⟩
def LEG_RVFS (n : Nat) : Fld := ⟨0x20184 + 0x1000 * n, 31, 0⟩
def LEG_LCORR (n : Nat) : Fld := ⟨0x20188 + 0x1000 * n, 31, 0⟩
def LEG_CLR (n : Nat) : Fld := ⟨0x2018C + 0x1000 * n, 0, 0⟩
def LEG_FLOORCNT (n : Nat) : Fld := ⟨0x20190 + 0x1000 * n, 31, 16⟩
def LEG_CEILCNT (n : Nat) : Fld := ⟨0x20190 + 0x1000 * n, 15, 0⟩
def LEG_LATECNT (n : Nat) : Fld := ⟨0x20194 + 0x1000 * n, 31, 16⟩
def LEG_CLAMPCNT (n : Nat) : Fld := ⟨0x20194 + 0x1000 * n, 15, 0⟩
def LEG_REFRCNT (n : Nat) : Fld := ⟨0x20198 + 0x1000 * n, 31, 16⟩
def LEG_IDCNT (n : Nat) : Fld := ⟨0x20198 + 0x1000 * n, 15, 0⟩
def LEG_PERCNT (n : Nat) : Fld := ⟨0x2019C + 0x1000 * n, 31, 0⟩
def LEGX_MAPAPPLY : Fld := ⟨0x38040, 0, 0⟩
def LEGX_MAPRES : Fld := ⟨0x38044, 31, 28⟩
def LEGX_MAPIDX : Fld := ⟨0x38044, 4, 0⟩
def LEGX_IOWN : Fld := ⟨0x38048, 23, 0⟩
def LEGX_OUTLEG : Fld := ⟨0x3804C, 12, 8⟩
def LEGX_OUTSRC : Fld := ⟨0x3804C, 3, 2⟩
def LEGX_INPOL : Fld := ⟨0x3804C, 1, 1⟩
def LEGX_INEN : Fld := ⟨0x3804C, 0, 0⟩
def LEGX_SYNCMASK : Fld := ⟨0x38050, 23, 0⟩
def LEGX_SYNCIN : Fld := ⟨0x38054, 31, 16⟩
def LEGX_SYNCOUT : Fld := ⟨0x38054, 15, 0⟩
def LEGX_IDEN (c : Nat) : Fld := ⟨0x38060 + 0x4 * c, 31, 31⟩
def LEGX_ANGSRC (c : Nat) : Fld := ⟨0x38060 + 0x4 * c, 30, 28⟩
def LEGX_IDANG (c : Nat) : Fld := ⟨0x38060 + 0x4 * c, 23, 16⟩
def LEGX_IDPER (c : Nat) : Fld := ⟨0x38060 + 0x4 * c, 15, 0⟩
def LEGX_MAP_VALID (n : Nat) : Fld := ⟨0x38100 + 0x4 * n, 31, 31⟩
def LEGX_MAP_CH (n : Nat) : Fld := ⟨0x38100 + 0x4 * n, 18, 16⟩
def LEGX_MAP_GRP (n : Nat) : Fld := ⟨0x38100 + 0x4 * n, 13, 12⟩
def LEGX_MAP_POS (n : Nat) : Fld := ⟨0x38100 + 0x4 * n, 10, 8⟩
def LEGX_MAPA_VALID (n : Nat) : Fld := ⟨0x38180 + 0x4 * n, 31, 31⟩
def LEGX_MAPA_CH (n : Nat) : Fld := ⟨0x38180 + 0x4 * n, 18, 16⟩
def LEGX_MAPA_GRP (n : Nat) : Fld := ⟨0x38180 + 0x4 * n, 13, 12⟩
def LEGX_MAPA_POS (n : Nat) : Fld := ⟨0x38180 + 0x4 * n, 10, 8⟩
def LEGX_IDFRAC (g : Nat) : Fld := ⟨0x38200 + 0x20 * g, 31, 29⟩
def LEGX_VREFPT (g : Nat) : Fld := ⟨0x38200 + 0x20 * g, 28, 28⟩
def LEGX_VINT (g : Nat) : Fld := ⟨0x38200 + 0x20 * g, 27, 27⟩
def LEGX_IPH (g : Nat) : Fld := ⟨0x38200 + 0x20 * g, 20, 16⟩
def LEGX_VDC (g : Nat) : Fld := ⟨0x38200 + 0x20 * g, 12, 8⟩
def LEGX_VIN (g : Nat) : Fld := ⟨0x38200 + 0x20 * g, 4, 0⟩
def LEGX_IGAIN (g : Nat) : Fld := ⟨0x38204 + 0x20 * g, 31, 0⟩
def LEGX_FBR (g : Nat) : Fld := ⟨0x38208 + 0x20 * g, 31, 0⟩
def LEGX_IDW (g : Nat) : Fld := ⟨0x3820C + 0x20 * g, 29, 24⟩
def LEGX_IDGS (g : Nat) : Fld := ⟨0x3820C + 0x20 * g, 19, 16⟩
def LEGX_NACT (g : Nat) : Fld := ⟨0x3820C + 0x20 * g, 10, 8⟩
def LEGX_IDNEXT (g : Nat) : Fld := ⟨0x3820C + 0x20 * g, 2, 0⟩
def LEGX_IDSKIP (g : Nat) : Fld := ⟨0x38210 + 0x20 * g, 31, 16⟩
def LEGX_IDCNT (g : Nat) : Fld := ⟨0x38210 + 0x20 * g, 15, 0⟩
def LEGX_SHEDCNT (g : Nat) : Fld := ⟨0x38214 + 0x20 * g, 31, 0⟩
def LEGX_BTCHK (n : Nat) : Fld := ⟨0x38800 + 0x4 * n, 11, 11⟩
def LEGX_BTTRIP (n : Nat) : Fld := ⟨0x38800 + 0x4 * n, 10, 8⟩
def LEGX_SAFEL (n : Nat) : Fld := ⟨0x38800 + 0x4 * n, 1, 0⟩
def LEGX_GDEN (k : Nat) : Fld := ⟨0x38A00 + 0x10 * k, 31, 31⟩
def LEGX_GDMODE (k : Nat) : Fld := ⟨0x38A00 + 0x10 * k, 30, 29⟩
def LEGX_GDLVL (k : Nat) : Fld := ⟨0x38A00 + 0x10 * k, 28, 28⟩
def LEGX_CHOPSAFE (k : Nat) : Fld := ⟨0x38A00 + 0x10 * k, 27, 27⟩
def LEGX_CMPSEL (k : Nat) : Fld := ⟨0x38A00 + 0x10 * k, 19, 16⟩
def LEGX_MINT (k : Nat) : Fld := ⟨0x38A00 + 0x10 * k, 15, 0⟩
def LEGX_GDPER (k : Nat) : Fld := ⟨0x38A04 + 0x10 * k, 15, 0⟩
def LEGX_GDDUTY (k : Nat) : Fld := ⟨0x38A08 + 0x10 * k, 15, 0⟩
def LEGX_GDONCNT (k : Nat) : Fld := ⟨0x38A0C + 0x10 * k, 31, 16⟩
def LEGX_GDUVLO (k : Nat) : Fld := ⟨0x38A0C + 0x10 * k, 2, 2⟩
def LEGX_GDFORCED (k : Nat) : Fld := ⟨0x38A0C + 0x10 * k, 1, 1⟩
def LEGX_GDOUT (k : Nat) : Fld := ⟨0x38A0C + 0x10 * k, 0, 0⟩
def MOD_BEN (m : Nat) : Fld := ⟨0x40040 + 0x10 * m, 31, 31⟩
def MOD_DIV (m : Nat) : Fld := ⟨0x40040 + 0x10 * m, 30, 24⟩
def MOD_OCOSR (m : Nat) : Fld := ⟨0x40040 + 0x10 * m, 21, 16⟩
def MOD_OSRC (m : Nat) : Fld := ⟨0x40040 + 0x10 * m, 8, 0⟩
def MOD_SMODE (m : Nat) : Fld := ⟨0x40044 + 0x10 * m, 17, 16⟩
def MOD_CH (m : Nat) : Fld := ⟨0x40044 + 0x10 * m, 10, 8⟩
def MOD_SOFS (m : Nat) : Fld := ⟨0x40044 + 0x10 * m, 7, 0⟩
def MOD_FREE (m : Nat) : Fld := ⟨0x40048 + 0x10 * m, 4, 4⟩
def MOD_MSET (m : Nat) : Fld := ⟨0x40048 + 0x10 * m, 3, 3⟩
def MOD_OCSET (m : Nat) : Fld := ⟨0x40048 + 0x10 * m, 2, 2⟩
def MOD_CSET (m : Nat) : Fld := ⟨0x40048 + 0x10 * m, 1, 1⟩
def MOD_RUN (m : Nat) : Fld := ⟨0x40048 + 0x10 * m, 0, 0⟩
def MOD_CNT (m : Nat) : Fld := ⟨0x4004C + 0x10 * m, 31, 0⟩
def MOD_OC : Fld := ⟨0x40080, 23, 0⟩
def MOD_ST : Fld := ⟨0x40084, 23, 0⟩
def MOD_EN (n : Nat) : Fld := ⟨0x40100 + 0x20 * n, 31, 31⟩
def MOD_METEN (n : Nat) : Fld := ⟨0x40100 + 0x20 * n, 30, 30⟩
def MOD_OCEN (n : Nat) : Fld := ⟨0x40100 + 0x20 * n, 29, 29⟩
def MOD_OCCNT (n : Nat) : Fld := ⟨0x40100 + 0x20 * n, 20, 16⟩
def MOD_EDGE (n : Nat) : Fld := ⟨0x40100 + 0x20 * n, 8, 8⟩
def MOD_TRIM (n : Nat) : Fld := ⟨0x40100 + 0x20 * n, 4, 0⟩
def MOD_CGAIN (n : Nat) : Fld := ⟨0x40104 + 0x20 * n, 31, 0⟩
def MOD_COFS (n : Nat) : Fld := ⟨0x40108 + 0x20 * n, 31, 0⟩
def MOD_OCHI (n : Nat) : Fld := ⟨0x4010C + 0x20 * n, 26, 16⟩
def MOD_OCLO (n : Nat) : Fld := ⟨0x4010C + 0x20 * n, 10, 0⟩
def MOD_OCGRP (n : Nat) : Fld := ⟨0x40110 + 0x20 * n, 23, 0⟩
def MOD_CRAW (n : Nat) : Fld := ⟨0x40114 + 0x20 * n, 24, 0⟩
def MOD_COUT (n : Nat) : Fld := ⟨0x40118 + 0x20 * n, 31, 0⟩
def PADC_VRDY : Fld := ⟨0x41040, 1, 1⟩
def PADC_EXT : Fld := ⟨0x41040, 0, 0⟩
def PADC_XEN : Fld := ⟨0x41044, 31, 31⟩
def PADC_XIN : Fld := ⟨0x41044, 12, 8⟩
def PADC_XGAIN : Fld := ⟨0x41044, 2, 0⟩
def PADC_XTOL : Fld := ⟨0x41048, 23, 0⟩
def PADC_XDIFF : Fld := ⟨0x4104C, 31, 0⟩
def PADC_SNAPCLR : Fld := ⟨0x41050, 1, 1⟩
def PADC_SNAPGO : Fld := ⟨0x41050, 0, 0⟩
def PADC_SNAPSEQ : Fld := ⟨0x41054, 31, 0⟩
def PADC_SNAPTLO : Fld := ⟨0x41058, 31, 0⟩
def PADC_SNAPTHI : Fld := ⟨0x4105C, 31, 0⟩
def PADC_XSKIP : Fld := ⟨0x41060, 31, 0⟩
def PADC_EN (c : Nat) : Fld := ⟨0x41100 + 0x400 * c, 31, 31⟩
def PADC_START (c : Nat) : Fld := ⟨0x41100 + 0x400 * c, 30, 30⟩
def PADC_CALGO (c : Nat) : Fld := ⟨0x41100 + 0x400 * c, 29, 29⟩
def PADC_CONT (c : Nat) : Fld := ⟨0x41100 + 0x400 * c, 28, 28⟩
def PADC_TRIG (c : Nat) : Fld := ⟨0x41100 + 0x400 * c, 27, 26⟩
def PADC_ASPOL (c : Nat) : Fld := ⟨0x41100 + 0x400 * c, 25, 25⟩
def PADC_RATE (c : Nat) : Fld := ⟨0x41100 + 0x400 * c, 19, 16⟩
def PADC_LAST (c : Nat) : Fld := ⟨0x41100 + 0x400 * c, 3, 0⟩
def PADC_OVRCNT (c : Nat) : Fld := ⟨0x41104 + 0x400 * c, 31, 16⟩
def PADC_ABANCNT (c : Nat) : Fld := ⟨0x41104 + 0x400 * c, 15, 8⟩
def PADC_CUR (c : Nat) : Fld := ⟨0x41104 + 0x400 * c, 7, 4⟩
def PADC_CALBUSY (c : Nat) : Fld := ⟨0x41104 + 0x400 * c, 1, 1⟩
def PADC_RUN (c : Nat) : Fld := ⟨0x41104 + 0x400 * c, 0, 0⟩
def PADC_SHARED (c e : Nat) : Fld := ⟨0x41140 + 0x400 * c + 0x4 * e, 31, 31⟩
def PADC_INP (c e : Nat) : Fld := ⟨0x41140 + 0x400 * c + 0x4 * e, 30, 26⟩
def PADC_INN (c e : Nat) : Fld := ⟨0x41140 + 0x400 * c + 0x4 * e, 25, 21⟩
def PADC_GAIN (c e : Nat) : Fld := ⟨0x41140 + 0x400 * c + 0x4 * e, 20, 18⟩
def PADC_REPS (c e : Nat) : Fld := ⟨0x41140 + 0x400 * c + 0x4 * e, 17, 14⟩
def PADC_CALOFS (c g : Nat) : Fld := ⟨0x41180 + 0x400 * c + 0x8 * g, 23, 0⟩
def PADC_CALGAIN (c g : Nat) : Fld := ⟨0x41184 + 0x400 * c + 0x8 * g, 23, 0⟩
def PADC_SUMLO (c e : Nat) : Fld := ⟨0x41200 + 0x400 * c + 0x10 * e, 31, 0⟩
def PADC_SUMHI (c e : Nat) : Fld := ⟨0x41204 + 0x400 * c + 0x10 * e, 31, 0⟩
def PADC_CNT (c e : Nat) : Fld := ⟨0x41208 + 0x400 * c + 0x10 * e, 31, 0⟩
def PADC_MIN (c e : Nat) : Fld := ⟨0x41300 + 0x400 * c + 0x8 * e, 31, 0⟩
def PADC_MAX (c e : Nat) : Fld := ⟨0x41304 + 0x400 * c + 0x8 * e, 31, 0⟩
def CMP_DCLR : Fld := ⟨0x42040, 31, 31⟩
def CMP_RENG : Fld := ⟨0x42040, 23, 16⟩
def CMP_ENG : Fld := ⟨0x42040, 15, 0⟩
def CMP_ENGDROP : Fld := ⟨0x42044, 31, 16⟩
def CMP_HOSTDROP : Fld := ⟨0x42044, 15, 0⟩
def CMP_OUT : Fld := ⟨0x42048, 15, 0⟩
def CMP_TRIPSTAT : Fld := ⟨0x4204C, 15, 0⟩
def CMP_STFAIL : Fld := ⟨0x42050, 15, 0⟩
def CMP_STREF : Fld := ⟨0x42054, 31, 16⟩
def CMP_STRUN : Fld := ⟨0x42054, 15, 0⟩
def CMP_STGO : Fld := ⟨0x42058, 4, 4⟩
def CMP_STIDX : Fld := ⟨0x42058, 3, 0⟩
def CMP_RAMPREN (r : Nat) : Fld := ⟨0x42080 + 0x8 * r, 31, 31⟩
def CMP_RLEG (r : Nat) : Fld := ⟨0x42080 + 0x8 * r, 4, 0⟩
def CMP_SLOPE (r : Nat) : Fld := ⟨0x42084 + 0x8 * r, 15, 0⟩
def CMP_EN (n : Nat) : Fld := ⟨0x42100 + 0x10 * n, 31, 31⟩
def CMP_MODE (n : Nat) : Fld := ⟨0x42100 + 0x10 * n, 30, 29⟩
def CMP_POL (n : Nat) : Fld := ⟨0x42100 + 0x10 * n, 28, 28⟩
def CMP_HYST (n : Nat) : Fld := ⟨0x42100 + 0x10 * n, 27, 26⟩
def CMP_ACT (n : Nat) : Fld := ⟨0x42100 + 0x10 * n, 25, 24⟩
def CMP_WIN (n : Nat) : Fld := ⟨0x42100 + 0x10 * n, 23, 23⟩
def CMP_RAMPEN (n : Nat) : Fld := ⟨0x42100 + 0x10 * n, 22, 22⟩
def CMP_RAMP (n : Nat) : Fld := ⟨0x42100 + 0x10 * n, 21, 19⟩
def CMP_STTYPE (n : Nat) : Fld := ⟨0x42100 + 0x10 * n, 18, 17⟩
def CMP_STEXP (n : Nat) : Fld := ⟨0x42100 + 0x10 * n, 16, 16⟩
def CMP_BLANK (n : Nat) : Fld := ⟨0x42100 + 0x10 * n, 7, 0⟩
def CMP_DAC (n : Nat) : Fld := ⟨0x42104 + 0x10 * n, 11, 0⟩
def CMP_LEGGRP (n : Nat) : Fld := ⟨0x42108 + 0x10 * n, 23, 0⟩
def CMP_EVTCNT (n : Nat) : Fld := ⟨0x4210C + 0x10 * n, 31, 0⟩
def TRIP_FUNC (i : Nat) : Fld := ⟨0x43040 + 0x10 * i, 31, 30⟩
def TRIP_POL (i : Nat) : Fld := ⟨0x43040 + 0x10 * i, 29, 29⟩
def TRIP_FILT (i : Nat) : Fld := ⟨0x43040 + 0x10 * i, 23, 16⟩
def TRIP_BLANK (i : Nat) : Fld := ⟨0x43040 + 0x10 * i, 7, 0⟩
def TRIP_GRP (i : Nat) : Fld := ⟨0x43044 + 0x10 * i, 23, 0⟩
def TRIP_QUALCNT (i : Nat) : Fld := ⟨0x43048 + 0x10 * i, 31, 16⟩
def TRIP_BLANKCNT (i : Nat) : Fld := ⟨0x43048 + 0x10 * i, 15, 0⟩
def TRIP_RAW : Fld := ⟨0x430C0, 23, 16⟩
def TRIP_LVL : Fld := ⟨0x430C0, 15, 8⟩
def TRIP_LAT : Fld := ⟨0x430C0, 7, 0⟩
def MTR_PULEN (k : Nat) : Fld := ⟨0x48040 + 0x10 * k, 31, 31⟩
def MTR_PULPOL (k : Nat) : Fld := ⟨0x48040 + 0x10 * k, 30, 30⟩
def MTR_PULPORT (k : Nat) : Fld := ⟨0x48040 + 0x10 * k, 29, 29⟩
def MTR_PWMIN (k : Nat) : Fld := ⟨0x48040 + 0x10 * k, 28, 21⟩
def MTR_PWID (k : Nat) : Fld := ⟨0x48040 + 0x10 * k, 19, 8⟩
def MTR_QMASK (k : Nat) : Fld := ⟨0x48040 + 0x10 * k, 7, 0⟩
def MTR_PCONST (k : Nat) : Fld := ⟨0x48044 + 0x10 * k, 31, 0⟩
def MTR_PEND (k : Nat) : Fld := ⟨0x48048 + 0x10 * k, 31, 16⟩
def MTR_PLOST (k : Nat) : Fld := ⟨0x48048 + 0x10 * k, 15, 0⟩
def MTR_PCNT (k : Nat) : Fld := ⟨0x4804C + 0x10 * k, 31, 0⟩
def MTR_HEN : Fld := ⟨0x48060, 31, 31⟩
def MTR_HCYC : Fld := ⟨0x48060, 27, 24⟩
def MTR_HBASE : Fld := ⟨0x48060, 17, 0⟩
def MTR_EN (p : Nat) : Fld := ⟨0x48100 + 0x400 * p, 31, 31⟩
def MTR_TYPE (p : Nat) : Fld := ⟨0x48100 + 0x400 * p, 30, 30⟩
def MTR_INEN (p : Nat) : Fld := ⟨0x48100 + 0x400 * p, 29, 29⟩
def MTR_NFREQ (p : Nat) : Fld := ⟨0x48100 + 0x400 * p, 28, 28⟩
def MTR_REFPH (p : Nat) : Fld := ⟨0x48100 + 0x400 * p, 27, 26⟩
def MTR_ZCTO (p : Nat) : Fld := ⟨0x48100 + 0x400 * p, 25, 16⟩
def MTR_IN (p : Nat) : Fld := ⟨0x48104 + 0x400 * p, 28, 24⟩
def MTR_VC (p : Nat) : Fld := ⟨0x48104 + 0x400 * p, 20, 16⟩
def MTR_VB (p : Nat) : Fld := ⟨0x48104 + 0x400 * p, 12, 8⟩
def MTR_VA (p : Nat) : Fld := ⟨0x48104 + 0x400 * p, 4, 0⟩
def MTR_IC (p : Nat) : Fld := ⟨0x48108 + 0x400 * p, 20, 16⟩
def MTR_IB (p : Nat) : Fld := ⟨0x48108 + 0x400 * p, 12, 8⟩
def MTR_IA (p : Nat) : Fld := ⟨0x48108 + 0x400 * p, 4, 0⟩
def MTR_ISTART (p : Nat) : Fld := ⟨0x4810C + 0x400 * p, 31, 0⟩
def MTR_ICLOSE (p : Nat) : Fld := ⟨0x48110 + 0x400 * p, 0, 0⟩
def MTR_SAT (p : Nat) : Fld := ⟨0x48114 + 0x400 * p, 5, 5⟩
def MTR_ZCTOF (p : Nat) : Fld := ⟨0x48114 + 0x400 * p, 4, 4⟩
def MTR_NOLOAD (p : Nat) : Fld := ⟨0x48114 + 0x400 * p, 3, 3⟩
def MTR_PHNL (p : Nat) : Fld := ⟨0x48114 + 0x400 * p, 2, 0⟩
def MTR_ZCTOCNT (p : Nat) : Fld := ⟨0x48118 + 0x400 * p, 31, 16⟩
def MTR_SATCNT (p : Nat) : Fld := ⟨0x48118 + 0x400 * p, 15, 0⟩
def MTR_GAIN (p k : Nat) : Fld := ⟨0x48140 + 0x400 * p + 0x10 * k, 31, 0⟩
def MTR_OFS (p k : Nat) : Fld := ⟨0x48144 + 0x400 * p + 0x10 * k, 31, 0⟩
def MTR_DLY (p k : Nat) : Fld := ⟨0x48148 + 0x400 * p + 0x10 * k, 15, 0⟩
def MTR_RMSOFS (p k : Nat) : Fld := ⟨0x4814C + 0x400 * p + 0x10 * k, 31, 0⟩
def MTR_PGAIN (p k : Nat) : Fld := ⟨0x481C0 + 0x400 * p + 0x10 * k, 31, 0⟩
def MTR_POFS (p k : Nat) : Fld := ⟨0x481C4 + 0x400 * p + 0x10 * k, 31, 0⟩
def MTR_QGAIN (p k : Nat) : Fld := ⟨0x481C8 + 0x400 * p + 0x10 * k, 31, 0⟩
def MTR_QOFS (p k : Nat) : Fld := ⟨0x481CC + 0x400 * p + 0x10 * k, 31, 0⟩
def MTR_M_VRMS (p k : Nat) : Fld := ⟨0x48200 + 0x400 * p + 0x20 * k, 31, 0⟩
def MTR_M_IRMS (p k : Nat) : Fld := ⟨0x48204 + 0x400 * p + 0x20 * k, 31, 0⟩
def MTR_M_P (p k : Nat) : Fld := ⟨0x48208 + 0x400 * p + 0x20 * k, 31, 0⟩
def MTR_M_Q (p k : Nat) : Fld := ⟨0x4820C + 0x400 * p + 0x20 * k, 31, 0⟩
def MTR_M_S (p k : Nat) : Fld := ⟨0x48210 + 0x400 * p + 0x20 * k, 31, 0⟩
def MTR_M_PF (p k : Nat) : Fld := ⟨0x48214 + 0x400 * p + 0x20 * k, 31, 0⟩
def MTR_M_IRMSN (p : Nat) : Fld := ⟨0x48260 + 0x400 * p, 31, 0⟩
def MTR_M_PT (p : Nat) : Fld := ⟨0x48264 + 0x400 * p, 31, 0⟩
def MTR_M_QT (p : Nat) : Fld := ⟨0x48268 + 0x400 * p, 31, 0⟩
def MTR_M_ST (p : Nat) : Fld := ⟨0x4826C + 0x400 * p, 31, 0⟩
def MTR_M_PFT (p : Nat) : Fld := ⟨0x48270 + 0x400 * p, 31, 0⟩
def MTR_M_FREQ (p : Nat) : Fld := ⟨0x48274 + 0x400 * p, 31, 0⟩
def MTR_ISEQ (p : Nat) : Fld := ⟨0x48300 + 0x400 * p, 31, 0⟩
def MTR_TOPENLO (p : Nat) : Fld := ⟨0x48304 + 0x400 * p, 31, 0⟩
def MTR_TCLOSELO (p : Nat) : Fld := ⟨0x4830C + 0x400 * p, 31, 0⟩
def MTR_NSAMP (p : Nat) : Fld := ⟨0x48314 + 0x400 * p, 31, 0⟩
def MTR_DEL (p q : Nat) : Fld := ⟨0x48318 + 0x400 * p + 0x4 * q, 31, 0⟩
def MTR_VMIN (p : Nat) : Fld := ⟨0x48338 + 0x400 * p, 31, 0⟩
def MTR_VMAX (p : Nat) : Fld := ⟨0x4833C + 0x400 * p, 31, 0⟩
def MTR_PMAX (p : Nat) : Fld := ⟨0x48340 + 0x400 * p, 31, 0⟩
def MTR_REVCNT (p : Nat) : Fld := ⟨0x48344 + 0x400 * p, 31, 16⟩
def MTR_RSNSEEN (p : Nat) : Fld := ⟨0x48344 + 0x400 * p, 14, 8⟩
def MTR_FLAGS (p : Nat) : Fld := ⟨0x48344 + 0x400 * p, 5, 0⟩
def MTRE_SNAPGO : Fld := ⟨0x49040, 0, 0⟩
def MTRE_SNAPSEQ : Fld := ⟨0x49044, 31, 0⟩
def MTRE_SNAPTLO : Fld := ⟨0x49048, 31, 0⟩
def MTRE_PRESETGO : Fld := ⟨0x49050, 31, 31⟩
def MTRE_PREPORT : Fld := ⟨0x49050, 8, 8⟩
def MTRE_PREQ : Fld := ⟨0x49050, 2, 0⟩
def MTRE_PRESETLO : Fld := ⟨0x49054, 31, 0⟩
def MTRE_ELO (p q : Nat) : Fld := ⟨0x49100 + 0x100 * p + 0x8 * q, 31, 0⟩
def MTRE_WRAPA (p : Nat) : Fld := ⟨0x49140 + 0x100 * p, 31, 0⟩
def MTRE_WRAPB (p : Nat) : Fld := ⟨0x49144 + 0x100 * p, 31, 0⟩
def MTRE_ALIAS (p q : Nat) : Fld := ⟨0x49300 + 0x20 * p + 0x4 * q, 31, 0⟩
def MACH_AUTOREV : Fld := ⟨0x50040, 31, 31⟩
def MACH_CH : Fld := ⟨0x50040, 30, 28⟩
def MACH_SRC : Fld := ⟨0x50040, 27, 27⟩
def MACH_MTYPE : Fld := ⟨0x50040, 26, 26⟩
def MACH_BRKEN : Fld := ⟨0x50040, 25, 25⟩
def MACH_BRKGDO : Fld := ⟨0x50040, 23, 22⟩
def MACH_PP : Fld := ⟨0x50040, 21, 16⟩
def MACH_RPP : Fld := ⟨0x50040, 11, 8⟩
def MACH_LINES : Fld := ⟨0x50044, 19, 0⟩
def MACH_ZTOL : Fld := ⟨0x50048, 31, 24⟩
def MACH_ZOFS : Fld := ⟨0x50048, 21, 0⟩
def MACH_EOFS : Fld := ⟨0x5004C, 31, 0⟩
def MACH_REXF : Fld := ⟨0x50050, 31, 16⟩
def MACH_RBW : Fld := ⟨0x50050, 7, 0⟩
def MACH_RAMAX : Fld := ⟨0x50054, 31, 16⟩
def MACH_RAMIN : Fld := ⟨0x50054, 15, 0⟩
def MACH_SPDWIN : Fld := ⟨0x50058, 15, 0⟩
def MACH_CATCHTHR : Fld := ⟨0x5005C, 31, 0⟩
def MACH_REVTHR : Fld := ⟨0x50060, 31, 0⟩
def MACH_WMAX : Fld := ⟨0x50064, 31, 0⟩
def MACH_PSI : Fld := ⟨0x50068, 31, 0⟩
def MACH_VMARG : Fld := ⟨0x5006C, 31, 0⟩
def MACH_FWTH : Fld := ⟨0x50070, 31, 0⟩
def MACH_KFW : Fld := ⟨0x50074, 31, 0⟩
def MACH_IDFWMIN : Fld := ⟨0x50078, 31, 0⟩
def MACH_KCEIL : Fld := ⟨0x5007C, 31, 0⟩
def MACH_REVIQ : Fld := ⟨0x50080, 31, 0⟩
def MACH_VDCBRK : Fld := ⟨0x50084, 31, 0⟩
def MACH_VDCMAX : Fld := ⟨0x50088, 31, 0⟩
def MACH_SHMAX : Fld := ⟨0x5008C, 31, 16⟩
def MACH_TWMIN : Fld := ⟨0x5008C, 15, 0⟩
def MACH_CATCHMS : Fld := ⟨0x50090, 31, 16⟩
def MACH_RUN : Fld := ⟨0x500A0, 31, 31⟩
def MACH_DIR : Fld := ⟨0x500A0, 30, 30⟩
def MACH_CMDRES : Fld := ⟨0x500A4, 31, 28⟩
def MACH_REFCNT : Fld := ⟨0x500A4, 15, 0⟩
def MACH_VBAD : Fld := ⟨0x500A8, 10, 10⟩
def MACH_REV : Fld := ⟨0x500A8, 9, 9⟩
def MACH_PVALID : Fld := ⟨0x500A8, 8, 8⟩
def MACH_HOMED : Fld := ⟨0x500A8, 7, 7⟩
def MACH_SPDCEIL : Fld := ⟨0x500A8, 6, 6⟩
def MACH_FWLIM : Fld := ⟨0x500A8, 5, 5⟩
def MACH_VSAT : Fld := ⟨0x500A8, 4, 4⟩
def MACH_BRAKE : Fld := ⟨0x500A8, 3, 3⟩
def MACH_PHASE : Fld := ⟨0x500A8, 1, 0⟩
def MACH_SPEED : Fld := ⟨0x500B4, 31, 0⟩
def MACH_ENCERR : Fld := ⟨0x500B8, 31, 16⟩
def MACH_ZERR : Fld := ⟨0x500B8, 15, 0⟩
def MACH_TWMISS : Fld := ⟨0x500BC, 31, 16⟩
def MACH_SHIFTCNT : Fld := ⟨0x500BC, 15, 0⟩
def MACH_IDFW : Fld := ⟨0x500C0, 31, 0⟩
def MACH_CQ : Fld := ⟨0x500C4, 31, 0⟩
def NET_PCFG_MODE (p : Nat) : Fld := ⟨0x58040 + 0x4 * p, 31, 30⟩
def NET_PCFG_EDGE (p : Nat) : Fld := ⟨0x58040 + 0x4 * p, 29, 29⟩
def NET_ETYPE : Fld := ⟨0x58048, 31, 16⟩
def NET_FWDEN : Fld := ⟨0x58048, 15, 15⟩
def NET_MAXLEN : Fld := ⟨0x58048, 11, 0⟩
def NET_MACLO : Fld := ⟨0x5804C, 31, 0⟩
def NET_MACHI : Fld := ⟨0x58050, 15, 0⟩
def NET_ARRMCLO : Fld := ⟨0x58054, 31, 0⟩
def NET_ARRMCHI : Fld := ⟨0x58058, 15, 0⟩
def NET_SEGADDRLO : Fld := ⟨0x5805C, 31, 0⟩
def NET_SEGADDRHI : Fld := ⟨0x58060, 15, 0⟩
def NET_SEGMASKLO : Fld := ⟨0x58064, 31, 0⟩
def NET_SEGMASKHI : Fld := ⟨0x58068, 15, 0⟩
def NET_PSTAT_LINKDN (p : Nat) : Fld := ⟨0x5806C + 0x4 * p, 31, 16⟩
def NET_PSTAT_REFOK (p : Nat) : Fld := ⟨0x5806C + 0x4 * p, 2, 2⟩
def NET_PSTAT_SYNC (p : Nat) : Fld := ⟨0x5806C + 0x4 * p, 1, 1⟩
def NET_PSTAT_LINK (p : Nat) : Fld := ⟨0x5806C + 0x4 * p, 0, 0⟩
def NET_RXERR (p : Nat) : Fld := ⟨0x58074 + 0x4 * p, 31, 16⟩
def NET_RXFRM (p : Nat) : Fld := ⟨0x58074 + 0x4 * p, 15, 0⟩
def NET_POISCNT : Fld := ⟨0x5807C, 31, 0⟩
def NET_MASTER : Fld := ⟨0x58080, 31, 31⟩
def NET_MACCHK : Fld := ⟨0x58080, 30, 30⟩
def NET_ARRID : Fld := ⟨0x58080, 9, 0⟩
def NET_MASTERMACLO : Fld := ⟨0x58084, 31, 0⟩
def NET_MASTERMACHI : Fld := ⟨0x58088, 15, 0⟩
def NET_WAKETYPE : Fld := ⟨0x5808C, 31, 16⟩
def NET_STALE : Fld := ⟨0x5808C, 15, 0⟩
def NET_SPACC : Fld := ⟨0x58090, 31, 16⟩
def NET_SPREF : Fld := ⟨0x58090, 15, 0⟩
def NET_SPDUP : Fld := ⟨0x58094, 31, 16⟩
def NET_SPREPL : Fld := ⟨0x58094, 15, 0⟩
def NET_SPLATE : Fld := ⟨0x58098, 31, 16⟩
def NET_SPMISS : Fld := ⟨0x58098, 15, 0⟩
def NET_SPLAST : Fld := ⟨0x5809C, 3, 0⟩
def NET_RXDBASE : Fld := ⟨0x580A0, 31, 0⟩
def NET_RXBBASE : Fld := ⟨0x580A4, 31, 0⟩
def NET_RXHEAD : Fld := ⟨0x580A8, 25, 16⟩
def NET_RXN : Fld := ⟨0x580A8, 9, 0⟩
def NET_RXTAIL : Fld := ⟨0x580AC, 9, 0⟩
def NET_RXOVF : Fld := ⟨0x580B0, 31, 0⟩
def NET_TXDBASE : Fld := ⟨0x580B4, 31, 0⟩
def NET_TXHEAD : Fld := ⟨0x580B8, 25, 16⟩
def NET_TXN : Fld := ⟨0x580B8, 9, 0⟩
def NET_TXTAIL : Fld := ⟨0x580BC, 25, 16⟩
def NET_TXBAD : Fld := ⟨0x580BC, 15, 0⟩
def NET_ARMED (s : Nat) : Fld := ⟨0x58100 + 0x4 * s, 31, 31⟩
def NET_STAGED (s : Nat) : Fld := ⟨0x58100 + 0x4 * s, 30, 30⟩
def NET_NW (s : Nat) : Fld := ⟨0x58100 + 0x4 * s, 27, 24⟩
def NET_CMT (s : Nat) : Fld := ⟨0x58100 + 0x4 * s, 23, 16⟩
def NET_SRCID (s : Nat) : Fld := ⟨0x58100 + 0x4 * s, 15, 0⟩
def NET_MDGO : Fld := ⟨0x58140, 31, 31⟩
def NET_MDOP : Fld := ⟨0x58140, 30, 29⟩
def NET_C22WR : Fld := ⟨0x58140, 28, 28⟩
def NET_MDDATA : Fld := ⟨0x58140, 15, 0⟩
def NETQ_PCPMAP : Fld := ⟨0x59040, 31, 0⟩
def NETQ_STRMQ : Fld := ⟨0x59044, 14, 12⟩
def NETQ_SAFEQ : Fld := ⟨0x59044, 10, 8⟩
def NETQ_SPQ : Fld := ⟨0x59044, 6, 4⟩
def NETQ_PDEF : Fld := ⟨0x59044, 2, 0⟩
def NETQ_QLIM (p q : Nat) : Fld := ⟨0x59100 + 0x200 * p + 0x4 * q, 15, 0⟩
def NETQ_DROP (p q : Nat) : Fld := ⟨0x59120 + 0x200 * p + 0x4 * q, 31, 0⟩
def NETQ_TXFRM (p q : Nat) : Fld := ⟨0x59140 + 0x200 * p + 0x4 * q, 31, 0⟩
def NETQ_GEN (p : Nat) : Fld := ⟨0x59160 + 0x200 * p, 31, 31⟩
def NETQ_INSTALL (p : Nat) : Fld := ⟨0x59160 + 0x200 * p, 30, 30⟩
def NETQ_PEND (p : Nat) : Fld := ⟨0x59160 + 0x200 * p, 29, 29⟩
def NETQ_ADMLEN (p : Nat) : Fld := ⟨0x59160 + 0x200 * p, 5, 0⟩
def NETQ_CYCLE (p : Nat) : Fld := ⟨0x59164 + 0x200 * p, 31, 0⟩
def NETQ_BASELO (p : Nat) : Fld := ⟨0x59168 + 0x200 * p, 31, 0⟩
def NETQ_BASEHI (p : Nat) : Fld := ⟨0x5916C + 0x200 * p, 31, 0⟩
def NETQ_OPLEN (p : Nat) : Fld := ⟨0x59170 + 0x200 * p, 15, 8⟩
def NETQ_OPIDX (p : Nat) : Fld := ⟨0x59170 + 0x200 * p, 7, 0⟩
def NETQ_CYCCNT (p : Nat) : Fld := ⟨0x59174 + 0x200 * p, 31, 0⟩
def NETQ_GATES (p e : Nat) : Fld := ⟨0x59180 + 0x200 * p + 0x4 * e, 31, 24⟩
def NETQ_OPENT (p e : Nat) : Fld := ⟨0x59200 + 0x200 * p + 0x4 * e, 31, 0⟩
def STRM_EN (s : Nat) : Fld := ⟨0x5A100 + 0x80 * s, 31, 31⟩
def STRM_PA (s : Nat) : Fld := ⟨0x5A100 + 0x80 * s, 30, 30⟩
def STRM_PB (s : Nat) : Fld := ⟨0x5A100 + 0x80 * s, 29, 29⟩
def STRM_ARMT (s : Nat) : Fld := ⟨0x5A100 + 0x80 * s, 28, 28⟩
def STRM_BLK (s : Nat) : Fld := ⟨0x5A100 + 0x80 * s, 27, 26⟩
def STRM_NSAMP (s : Nat) : Fld := ⟨0x5A100 + 0x80 * s, 23, 16⟩
def STRM_NSIG (s : Nat) : Fld := ⟨0x5A100 + 0x80 * s, 3, 0⟩
def STRM_DIV (s : Nat) : Fld := ⟨0x5A104 + 0x80 * s, 31, 16⟩
def STRM_FLUSH (s : Nat) : Fld := ⟨0x5A104 + 0x80 * s, 15, 0⟩
def STRM_DALO (s : Nat) : Fld := ⟨0x5A108 + 0x80 * s, 31, 0⟩
def STRM_DAHI (s : Nat) : Fld := ⟨0x5A10C + 0x80 * s, 15, 0⟩
def STRM_TSTARTLO (s : Nat) : Fld := ⟨0x5A110 + 0x80 * s, 31, 0⟩
def STRM_NTOTAL (s : Nat) : Fld := ⟨0x5A118 + 0x80 * s, 31, 0⟩
def STRM_FSEQ (s : Nat) : Fld := ⟨0x5A11C + 0x80 * s, 31, 0⟩
def STRM_LOST (s : Nat) : Fld := ⟨0x5A120 + 0x80 * s, 31, 0⟩
def STRM_FRAMES (s : Nat) : Fld := ⟨0x5A124 + 0x80 * s, 31, 0⟩
def STRM_SIG (s j : Nat) : Fld := ⟨0x5A140 + 0x80 * s + 0x4 * j, 15, 0⟩

end F
end Sys2Proof
end

