-- ==== Sys2Proof/Machine/RegMap.lean ====
section
/-! DEFINITION. The register map: for every page kind, its registers with their strides, reset values and the bits of each access type,
as the register tables of the spec's chapters give them (R8, R12). -/

namespace Sys2Proof
namespace RegMap

/-- The SYS page's unit registers. -/
def pageSYS : List RegDef := [
  ⟨0x40, 0, 1, 0, 1, 0xC000, 0, 0, 0, 0, 0, 0⟩,
  ⟨0x44, 0, 1, 0, 1, 0, 0, 0, 0, 0, 0, 7⟩,
  ⟨0x48, 0, 1, 0, 1, 0, 0, 0, 0, 0, 0, 0⟩,
  ⟨0x4C, 0, 1, 0, 1, 0, 0, 0, 0, 0, 0, 0⟩,
  ⟨0x50, 0, 1, 0, 1, 0x12C0000, 0xFF00, 0xFFFF0001, 0, 0, 0, 0⟩,
  ⟨0x54, 0, 1, 0, 1, 0, 0, 0, 0, 0, 0, 0⟩,
  ⟨0x58, 0, 1, 0, 1, 0x3E8, 0xFFFF, 0, 0, 0, 0, 0⟩,
  ⟨0x5C, 0, 1, 0, 1, 0, 0, 0, 0, 0, 0, 0⟩,
  ⟨0xC0, 0, 1, 0, 1, 0, 0, 0, 0, 0, 0, 0⟩,
  ⟨0xC4, 0, 1, 0, 1, 0, 0, 0, 0, 0, 0, 0⟩,
  ⟨0xC8, 0, 1, 0, 1, 0, 0, 0, 0, 0, 0, 0⟩,
  ⟨0x100, 0, 1, 0, 1, 0, 7, 0, 0, 0, 0, 0⟩,
  ⟨0x104, 0, 1, 0, 1, 0, 0, 0, 0, 0, 0, 0⟩,
  ⟨0x108, 0, 1, 0, 1, 0xCA, 0xBF, 0, 0, 0, 0, 0⟩,
  ⟨0x10C, 0, 1, 0, 1, 0, 0, 0, 0xFF, 0, 0, 0⟩,
  ⟨0x110, 0, 1, 0, 1, 0, 0, 0, 0, 0, 0, 0xFFFF0001⟩,
  ⟨0x114, 0, 1, 0, 1, 0, 0, 0, 0, 0, 0, 0⟩,
  ⟨0x180, 0, 1, 0, 1, 0, 0, 0, 0, 0, 0, 0⟩,
  ⟨0x184, 0, 1, 0, 1, 0, 0, 0, 0, 0, 0, 0⟩,
  ⟨0x188, 0, 1, 0, 1, 0xFFFFFFFF, 0xFFFFFFFF, 0, 0, 0, 0, 0⟩,
  ⟨0x18C, 0, 1, 0, 1, 0x7FFFFFFF, 0x7FFFFFFF, 0, 0, 0, 0, 0⟩,
  ⟨0x1C0, 0, 1, 0, 1, 0, 0, 0, 0, 0, 0, 0xFFFF0001⟩,
  ⟨0x1C4, 0, 1, 0, 1, 0, 0, 0, 0, 0, 0, 0⟩,
  ⟨0x1C8, 0, 1, 0, 1, 0, 0xFFFFFFFF, 0, 0, 0, 0, 0⟩]

/-- The CLK page's unit registers. -/
def pageCLK : List RegDef := [
  ⟨0x40, 0, 1, 0, 1, 0x10, 0xF1, 0, 0, 0, 0, 0⟩,
  ⟨0x44, 0, 1, 0, 1, 0xA0, 0xFF, 0, 0, 0, 0, 0⟩,
  ⟨0x48, 0, 1, 0, 1, 0, 0xFFFFFF, 0, 0, 0, 0, 0⟩,
  ⟨0x4C, 0, 1, 0, 1, 0, 0, 0, 0, 0, 1, 0⟩,
  ⟨0x50, 0, 1, 0, 1, 0, 0, 0, 8, 0, 0, 0⟩]

/-- The TIME page's unit registers. -/
def pageTIME : List RegDef := [
  ⟨0x40, 0, 1, 0, 1, 0, 3, 0, 0, 0, 0x100, 0⟩,
  ⟨0x44, 0, 1, 0, 1, 0, 0, 0, 8, 0, 0, 0⟩,
  ⟨0x48, 0, 1, 0, 1, 0x3E8, 0xFFFF, 0, 0, 0, 0, 0⟩,
  ⟨0x4C, 0, 1, 0, 1, 0, 0xFFFF, 0, 0, 0, 0, 0⟩,
  ⟨0x50, 0, 1, 0, 1, 0x80000000, 0xFFFFFFFF, 0, 0, 0, 0, 0⟩,
  ⟨0x54, 0, 1, 0, 1, 0x80000000, 0xFFFFFFFF, 0, 0, 0, 0, 0⟩,
  ⟨0x58, 0, 1, 0, 1, 0x80000000, 0xFFFFFFFF, 0, 0, 0, 0, 0⟩,
  ⟨0x5C, 0, 1, 0, 1, 0, 3, 0, 0, 0, 0, 0⟩,
  ⟨0x60, 0, 1, 0, 1, 0, 0, 0, 0, 0, 0, 0⟩,
  ⟨0x64, 0, 1, 0, 1, 0, 0, 0, 0, 0, 0, 0⟩,
  ⟨0x68, 0, 1, 0, 1, 0, 0, 0, 0, 0, 0, 0⟩,
  ⟨0x6C, 0, 1, 0, 1, 0, 0, 0, 0, 0, 0, 0⟩,
  ⟨0x70, 0, 1, 0, 1, 0, 0, 0, 0, 0, 0, 0⟩,
  ⟨0x74, 0, 1, 0, 1, 0, 0, 0, 0, 0, 0, 0⟩,
  ⟨0x78, 0, 1, 0, 1, 0, 0, 0, 0, 0, 0, 0⟩,
  ⟨0x7C, 0, 1, 0, 1, 0, 0, 0, 0, 0, 0, 0⟩,
  ⟨0x80, 0, 1, 0, 1, 0, 0, 0, 0, 0, 0, 0⟩,
  ⟨0x84, 0, 1, 0, 1, 0, 0, 0, 0, 0, 0, 0⟩,
  ⟨0x88, 0, 1, 0, 1, 0, 0, 0, 0, 0, 0, 0⟩,
  ⟨0x8C, 0, 1, 0, 1, 0, 0, 0, 0, 0, 0, 0⟩,
  ⟨0x90, 0, 1, 0, 1, 0, 0, 0, 0, 0, 0, 0⟩,
  ⟨0x94, 0, 1, 0, 1, 0, 0, 0, 0, 0, 0, 0⟩,
  ⟨0x98, 0, 1, 0, 1, 0, 0, 0, 0, 0, 0, 0⟩,
  ⟨0x9C, 0, 1, 0, 1, 0, 0, 0, 0, 0, 0, 0⟩,
  ⟨0xA0, 0, 1, 0, 1, 0, 0, 0, 0, 0, 0, 0⟩,
  ⟨0xA4, 0, 1, 0, 1, 0, 0, 0, 0, 0, 0, 0⟩,
  ⟨0xB0, 0, 1, 0, 1, 0, 3, 0, 0, 0, 0x10, 0x20⟩,
  ⟨0xB4, 0, 1, 0, 1, 0, 0xFFFFFFFF, 0, 0, 0, 0, 0⟩,
  ⟨0xB8, 0, 1, 0, 1, 0, 0xFFFFFFFF, 0, 0, 0, 0, 0⟩,
  ⟨0xBC, 0, 1, 0, 1, 0, 0xFFFF, 0, 0, 0, 0, 0⟩
] ++ [
  ⟨0xC0, 0, 1, 0, 1, 0, 0xFFFFFFFF, 0, 0, 0, 0, 0⟩,
  ⟨0xC4, 0, 1, 0, 1, 0, 0xFFFFFFFF, 0, 0, 0, 0, 0⟩,
  ⟨0xD0, 0, 1, 0, 1, 0, 0xFFFFFFFF, 0, 0, 0, 0, 0⟩,
  ⟨0xD4, 0, 1, 0, 1, 0, 0xFFFFFFFF, 0, 0, 0, 0, 0⟩,
  ⟨0xD8, 0, 1, 0, 1, 0, 0xFFFFFFFF, 0, 0, 0, 0, 0⟩,
  ⟨0xDC, 0, 1, 0, 1, 0, 0xFFFFFFFF, 0, 0, 0, 0, 0⟩,
  ⟨0xE0, 0, 1, 0, 1, 0, 0xFFFFFFFF, 0, 0, 0, 0, 0⟩,
  ⟨0xE4, 0, 1, 0, 1, 0, 0xFFFFFFFF, 0, 0, 0, 0, 0⟩,
  ⟨0xE8, 0, 1, 0, 1, 8, 0xFFFF3F, 0, 0, 0, 0, 0⟩,
  ⟨0xF0, 0, 1, 0, 1, 0, 1, 0, 0, 0, 0x100, 0⟩,
  ⟨0xF4, 0, 1, 0, 1, 0, 0, 0, 0, 0, 0, 0⟩,
  ⟨0xF8, 0, 1, 0, 1, 0, 0, 0, 0, 0, 0, 0⟩,
  ⟨0xFC, 0, 1, 0, 1, 0, 0, 0, 0, 0, 0, 0⟩,
  ⟨0x100, 0, 1, 0, 1, 0, 0, 0, 0, 0, 0, 0⟩,
  ⟨0x104, 0, 1, 0, 1, 0, 0, 0, 0, 0, 0, 0⟩,
  ⟨0x110, 0, 1, 0, 1, 0, 0x1F, 0, 0, 0, 0, 0⟩,
  ⟨0x114, 0, 1, 0, 1, 0x2710, 0x7FFFF, 0, 0, 0, 0, 0⟩,
  ⟨0x118, 0, 1, 0, 1, 0, 0xFFFFFFFF, 0, 0, 0, 0, 0⟩,
  ⟨0x11C, 0, 1, 0, 1, 0, 0, 0, 0, 0, 0, 0⟩,
  ⟨0x120, 0, 1, 0, 1, 0, 0, 0, 0, 0, 0, 0⟩,
  ⟨0x124, 0, 1, 0, 1, 0, 0, 0, 0, 0, 0, 0⟩,
  ⟨0x128, 0, 1, 0, 1, 0, 0, 0, 0, 0, 0, 0⟩,
  ⟨0x12C, 0, 1, 0, 1, 0, 0, 0, 0, 0, 0, 0⟩,
  ⟨0x130, 0, 1, 0, 1, 0, 0, 0, 0, 0, 0, 0⟩,
  ⟨0x134, 0, 1, 0, 1, 0, 0, 0, 0, 0, 0, 0⟩,
  ⟨0x138, 0, 1, 0, 1, 0, 0, 0, 0, 0, 0, 0⟩,
  ⟨0x13C, 0, 1, 0, 1, 0, 0, 0, 0, 0, 0, 0⟩,
  ⟨0x140, 0, 1, 0, 1, 0, 0, 0, 0, 0, 0, 0⟩,
  ⟨0x144, 0, 1, 0, 1, 0, 0, 0, 0, 0, 0, 0⟩,
  ⟨0x148, 0, 1, 0, 1, 0, 0, 0, 0, 0, 0, 0⟩
] ++ [
  ⟨0x14C, 0, 1, 0, 1, 0, 0, 0, 0, 0, 0, 0⟩,
  ⟨0x160, 0x10, 4, 0, 1, 0, 0xFFFFFFFF, 0, 0, 0, 0, 0⟩,
  ⟨0x164, 0x10, 4, 0, 1, 0, 0xFFFFFFFF, 0, 0, 0, 0, 0⟩,
  ⟨0x168, 0x10, 4, 0, 1, 0, 0xFF0F, 0, 0, 0, 0x80000000, 0⟩]

/-- The BOOT page's unit registers. -/
def pageBOOT : List RegDef := [
  ⟨0x40, 0, 1, 0, 1, 0xF0, 0, 0, 0, 0, 0, 0⟩,
  ⟨0x44, 0, 1, 0, 1, 0, 0, 0, 0x1F, 0, 0, 0⟩,
  ⟨0x48, 0, 1, 0, 1, 0, 0, 0, 0, 0, 0, 0⟩,
  ⟨0x4C, 0, 1, 0, 1, 0, 0, 0, 0, 0, 0, 0⟩,
  ⟨0x50, 0, 1, 0, 1, 0, 0, 0, 0, 0, 0, 0⟩,
  ⟨0x60, 4, 8, 0, 1, 0, 0, 0, 0, 0, 0, 0⟩,
  ⟨0x80, 0, 1, 0, 1, 0, 0x701FF, 0, 0, 0, 0x80000000, 0⟩,
  ⟨0x84, 0, 1, 0, 1, 0, 0xF, 0, 0, 0, 0, 0⟩,
  ⟨0x88, 0, 1, 0, 1, 0, 0, 0, 0, 0, 0, 0⟩]

/-- The KEEP page's unit registers. -/
def pageKEEP : List RegDef := [
  ⟨0x40, 0, 1, 0, 1, 6, 0xFF00007E, 0, 0, 0, 0x380, 0⟩,
  ⟨0x44, 0, 1, 0, 1, 0x30, 0, 0, 0x300, 0, 0, 0⟩,
  ⟨0x48, 0, 1, 0, 1, 0, 0, 0, 0, 0, 0, 0⟩,
  ⟨0x4C, 0, 1, 0, 1, 0x64004B0, 0xFFF0FFF, 0, 0, 0, 0, 0⟩,
  ⟨0x50, 0, 1, 0, 1, 0x57905DC, 0xFFF, 0, 0, 0, 0, 0⟩,
  ⟨0x54, 0, 1, 0, 1, 0x3E80032, 0xFFFFFFFF, 0, 0, 0, 0, 0⟩,
  ⟨0x58, 0, 1, 0, 1, 0xA8C, 0xFFF, 0, 0, 0, 0, 0⟩,
  ⟨0x5C, 0, 1, 0, 1, 0x3C00FA, 0xFFFF0FFF, 0, 0, 0, 0, 0⟩,
  ⟨0x60, 0, 1, 0, 1, 0, 0, 0, 0, 0, 0, 0⟩,
  ⟨0x64, 0, 1, 0, 1, 0, 0, 0, 0, 0, 0, 0⟩,
  ⟨0x68, 0, 1, 0, 1, 0, 0, 0, 0, 0, 0, 0⟩,
  ⟨0x70, 0, 1, 0, 1, 0, 0xFFFFFFFF, 0, 0, 0, 0, 0⟩,
  ⟨0x74, 0, 1, 0, 1, 0, 0xFFFF, 0, 0, 0, 0, 0⟩,
  ⟨0x78, 0, 1, 0, 1, 0, 0xFF, 0, 0, 0, 0, 0⟩,
  ⟨0x7C, 0, 1, 0, 1, 0, 0, 0, 0, 0, 0, 0⟩,
  ⟨0x80, 0, 1, 0, 1, 1, 0, 0, 0, 0, 0, 0⟩,
  ⟨0x84, 0, 1, 0, 1, 0, 0, 0, 7, 0, 0, 0⟩,
  ⟨0x800, 4, 512, 0, 1, 0, 0xFFFFFFFF, 0, 0, 0, 0, 0⟩]

/-- The HIF page's unit registers. -/
def pageHIF : List RegDef := [
  ⟨0x40, 0, 1, 0, 1, 1, 0x7F, 0, 0, 0, 0, 0⟩,
  ⟨0x44, 0, 1, 0, 1, 0x40, 0, 0, 0, 0, 0, 0⟩,
  ⟨0x48, 0, 1, 0, 1, 0, 0, 0, 0, 0, 1, 0⟩,
  ⟨0x4C, 0, 1, 0, 1, 0, 0, 0, 0x80000000, 0, 0, 0⟩,
  ⟨0x50, 0, 1, 0, 1, 0, 0, 0, 0, 0, 0, 0⟩,
  ⟨0x54, 0, 1, 0, 1, 0, 0, 0, 0, 0, 0, 0⟩,
  ⟨0x58, 0, 1, 0, 1, 0, 0, 0, 0, 0, 0, 0⟩,
  ⟨0x5C, 0, 1, 0, 1, 0, 0, 0, 0, 0, 0, 0⟩]

/-- The FLT page's unit registers. -/
def pageFLT : List RegDef := [
  ⟨0x40, 0, 1, 0, 1, 1, 0, 1, 0, 0, 0, 0⟩,
  ⟨0x44, 0, 1, 0, 1, 0, 0, 0, 0, 0, 0, 0⟩,
  ⟨0x48, 0, 1, 0, 1, 0, 0, 0, 0, 0, 0, 0xC00000FF⟩,
  ⟨0x4C, 0, 1, 0, 1, 0, 0, 0xFFFF, 0, 0, 0, 0⟩,
  ⟨0x50, 0, 1, 0, 1, 0, 0, 0xFFFF, 0, 0, 0, 0⟩,
  ⟨0x54, 0, 1, 0, 1, 0, 0, 0xFFFF, 0, 0, 0, 0⟩,
  ⟨0x58, 0, 1, 0, 1, 0x3F400000, 0, 0xFFFFFFFF, 0, 0, 0, 0⟩,
  ⟨0x5C, 0, 1, 0, 1, 0, 0, 0, 0, 0, 0, 0⟩,
  ⟨0x60, 0, 1, 0, 1, 0, 0, 0, 0, 0, 0, 0⟩,
  ⟨0x64, 0, 1, 0, 1, 0, 0, 0, 0, 0, 0, 0⟩,
  ⟨0x80, 0, 1, 0, 1, 0, 0, 0, 0, 0, 0, 0⟩,
  ⟨0x84, 0, 1, 0, 1, 0, 0, 0, 0, 0, 0, 0⟩,
  ⟨0x88, 0, 1, 0, 1, 0, 0, 0, 0, 0, 0, 0⟩,
  ⟨0x8C, 0, 1, 0, 1, 0, 0, 0, 0, 0, 0, 0⟩,
  ⟨0x90, 0, 1, 0, 1, 0, 0, 0, 0, 0, 0, 0⟩,
  ⟨0x94, 0, 1, 0, 1, 0, 0, 0, 0, 0, 0, 0⟩,
  ⟨0x98, 0, 1, 0, 1, 0, 0, 0, 0, 0, 0, 0⟩,
  ⟨0x9C, 0, 1, 0, 1, 0, 0, 0, 0, 0, 0, 0⟩,
  ⟨0x400, 4, 256, 0, 1, 0, 0x80, 7, 0, 0, 0, 0⟩]

/-- The JRNL page's unit registers. -/
def pageJRNL : List RegDef := [
  ⟨0x40, 0, 1, 0, 1, 0, 0, 0, 0, 0, 0, 0⟩,
  ⟨0x44, 0, 1, 0, 1, 0, 0, 0, 0, 0, 0, 0⟩,
  ⟨0x48, 0, 1, 0, 1, 0, 0, 0, 0, 0, 0, 0⟩,
  ⟨0x4C, 0, 1, 0, 1, 0, 0xFF, 0, 0, 0, 0x80000000, 0⟩,
  ⟨0x50, 0, 1, 0, 1, 0, 0xFFFFFFFF, 0, 0, 0, 0, 0⟩,
  ⟨0x54, 0, 1, 0, 1, 0, 0xFFFFFFFF, 0, 0, 0, 0, 0⟩]

/-- The ECC page's unit registers. -/
def pageECC : List RegDef := [
  ⟨0x40, 0, 1, 0, 1, 0, 0, 0x80000000, 0, 0, 1, 0⟩,
  ⟨0x44, 0, 1, 0, 1, 0x400, 0xFFFF, 0, 0, 0, 0, 0⟩,
  ⟨0x48, 0, 1, 0, 1, 0, 0, 0, 0, 0, 0, 0⟩,
  ⟨0x4C, 0, 1, 0, 1, 0, 0, 0, 0, 0, 0, 0⟩,
  ⟨0x58, 0, 1, 0, 1, 0, 0, 0, 0x80000000, 0, 0, 0⟩,
  ⟨0x5C, 0, 1, 0, 1, 0, 0, 0, 0, 0, 0, 0⟩,
  ⟨0x60, 0, 1, 0, 1, 0, 0x71FFFFF, 0, 0, 0, 0, 0⟩,
  ⟨0x64, 0, 1, 0, 1, 0, 0xFFFFFFFF, 0, 0, 0, 0, 0⟩,
  ⟨0x68, 0, 1, 0, 1, 0, 0xFFFFFFFF, 0, 0, 0, 0, 0⟩,
  ⟨0x6C, 0, 1, 0, 1, 0, 0xFF, 0, 0, 0, 0, 0⟩,
  ⟨0x80, 8, 6, 0, 1, 0, 0, 0, 0, 0, 0, 0⟩,
  ⟨0x84, 8, 6, 0, 1, 0, 0, 0, 0, 0, 0, 0⟩,
  ⟨0x400, 4, 256, 0, 1, 0, 0, 0, 0, 0, 0, 0⟩]

/-- The SEC page's unit registers. -/
def pageSEC : List RegDef := [
  ⟨0x40, 0, 1, 0, 1, 0, 0, 0, 0, 0, 0, 0⟩,
  ⟨0x44, 0, 1, 0, 1, 0, 0, 0, 0, 0, 0, 0⟩,
  ⟨0x48, 0, 1, 0, 1, 0, 0, 0, 0, 0, 0, 0⟩,
  ⟨0x4C, 0, 1, 0, 1, 0, 0, 0, 0, 0, 0, 0⟩,
  ⟨0x50, 0, 1, 0, 1, 0xFFFFFFFF, 0, 0, 0, 0, 0, 0⟩,
  ⟨0x60, 4, 8, 0, 1, 0, 0, 0, 0, 0, 0, 0⟩,
  ⟨0x80, 4, 8, 0, 1, 0, 0, 0, 0, 0, 0, 0⟩,
  ⟨0xA0, 4, 8, 0, 1, 0, 0, 0, 0, 0, 0, 0⟩,
  ⟨0xC0, 0, 1, 0, 1, 0, 0, 0, 0, 0, 0, 0xFFFF0331⟩,
  ⟨0xC4, 0, 1, 0, 1, 0, 0, 0, 0, 0, 0, 0⟩,
  ⟨0xE0, 4, 8, 0, 1, 0, 0, 0xFFFFFFFF, 0, 0, 0, 0⟩,
  ⟨0x100, 0, 1, 0, 1, 0, 0xFFFFF, 0, 0, 0, 0x80000000, 0⟩,
  ⟨0x104, 0, 1, 0, 1, 0, 0xFFFFFF, 0, 0, 0, 0, 0⟩,
  ⟨0x108, 0, 1, 0, 1, 0, 0, 0, 0, 0, 0, 0⟩,
  ⟨0x10C, 0, 1, 0, 1, 0, 0, 0, 0x80000000, 0, 0, 0⟩,
  ⟨0x140, 0, 1, 0, 1, 0, 0, 0, 0, 0, 1, 0⟩,
  ⟨0x144, 0, 1, 0, 1, 0, 0, 0, 0, 0, 0, 0⟩,
  ⟨0x148, 0, 1, 0, 1, 0, 0, 0, 0, 0, 0, 0⟩,
  ⟨0x160, 4, 8, 0, 1, 0, 0xFFFFFFFF, 0, 0, 0, 0, 0⟩,
  ⟨0x200, 4, 384, 0, 1, 0, 0, 0, 0, 0, 0, 0⟩]

/-- The AGE page's unit registers. -/
def pageAGE : List RegDef := [
  ⟨0x40, 0, 1, 0, 1, 0, 0, 0, 0, 0, 3, 0⟩,
  ⟨0x44, 0, 1, 0, 1, 0, 0, 0, 0, 0, 0, 0⟩,
  ⟨0x48, 0, 1, 0, 1, 0, 0, 0, 0, 0, 0, 0⟩,
  ⟨0x4C, 0, 1, 0, 1, 0, 0, 0, 0, 0, 0, 0⟩,
  ⟨0x50, 0, 1, 0, 1, 0, 0, 0, 0, 0, 0, 0⟩,
  ⟨0x60, 4, 8, 0, 1, 0, 0, 0, 0, 0, 0, 0⟩,
  ⟨0x80, 4, 8, 0, 1, 0, 0, 0, 0, 0, 0, 0⟩,
  ⟨0xA0, 4, 8, 0, 1, 0, 0, 0, 0, 0, 0, 0⟩,
  ⟨0xC0, 4, 8, 0, 1, 0, 0, 0, 0, 0, 0, 0⟩,
  ⟨0x100, 0x20, 8, 0, 1, 0, 0x8000010F, 0, 0, 0, 0, 0⟩,
  ⟨0x104, 0x20, 8, 0, 1, 0, 0xFFFFFFFF, 0, 0, 0, 0, 0⟩,
  ⟨0x108, 0x20, 8, 0, 1, 0, 0xFFFFFFFF, 0, 0, 0, 0, 0⟩,
  ⟨0x10C, 0x20, 8, 0, 1, 0, 0xFFFFFFFF, 0, 0, 0, 0, 0⟩,
  ⟨0x110, 0x20, 8, 0, 1, 0, 0xFFFFFFFF, 0, 0, 0, 0, 0⟩,
  ⟨0x114, 0x20, 8, 0, 1, 0, 0xFFFFFFFF, 0, 0, 0, 0, 0⟩,
  ⟨0x200, 0, 1, 0, 1, 0x3F59999A, 0, 0xFFFFFFFF, 0, 0, 0, 0⟩,
  ⟨0x204, 0, 1, 0, 1, 0x30810, 0, 0xFFFFFF, 0, 0, 0, 0⟩,
  ⟨0x208, 0, 1, 0, 1, 0x1388, 0, 0xFFFFFFFF, 0, 0, 0, 0⟩,
  ⟨0x20C, 0, 1, 0, 1, 0x7D0, 0, 0xFFFFFFFF, 0, 0, 0, 0⟩,
  ⟨0x210, 0, 1, 0, 1, 0xFA0, 0, 0xFFFFFFFF, 0, 0, 0, 0⟩,
  ⟨0x214, 0, 1, 0, 1, 0x2DC6C0, 0, 0xFFFFFFFF, 0, 0, 0, 0⟩,
  ⟨0x218, 0, 1, 0, 1, 0x41200000, 0, 0xFFFFFFFF, 0, 0, 0, 0⟩,
  ⟨0x21C, 0, 1, 0, 1, 0x3E4CCCCD, 0, 0xFFFFFFFF, 0, 0, 0, 0⟩,
  ⟨0x220, 0, 1, 0, 1, 0x3ECCCCCD, 0, 0xFFFFFFFF, 0, 0, 0, 0⟩,
  ⟨0x224, 0, 1, 0, 1, 0x3F000000, 0, 0xFFFFFFFF, 0, 0, 0, 0⟩]

/-- The SAFE page's unit registers. SSDEM reads 1 from reset (R380), where the table of fields prints 0 (log 12). -/
def pageSAFE : List RegDef := [
  ⟨0x40, 0, 1, 0, 1, 0x17, 0, 0, 0xF08, 0, 0, 0⟩,
  ⟨0x44, 0, 1, 0, 1, 0, 0, 0, 0, 0, 0, 0⟩,
  ⟨0x48, 0, 1, 0, 1, 0, 0xFFFFFFFF, 0, 0, 0, 0, 0⟩,
  ⟨0x4C, 0, 1, 0, 1, 0, 0, 0, 0, 0, 0, 0⟩,
  ⟨0x50, 0, 1, 0, 1, 0, 0, 0, 0, 0, 0, 0xFFFF0001⟩,
  ⟨0x54, 0, 1, 0, 1, 0, 0, 0, 0, 0, 0, 0⟩,
  ⟨0x58, 0, 1, 0, 1, 0, 0, 0, 0, 0, 0, 0⟩,
  ⟨0x5C, 0, 1, 0, 1, 0, 0, 0, 0, 0, 0, 0⟩,
  ⟨0x60, 0, 1, 0, 1, 0, 0, 0, 0, 0, 0, 0⟩,
  ⟨0x64, 0, 1, 0, 1, 0, 0, 0, 0, 0, 0, 0⟩,
  ⟨0x68, 0, 1, 0, 1, 0, 0, 0, 0, 0, 0, 0⟩,
  ⟨0x6C, 0, 1, 0, 1, 0, 0, 0, 0, 0, 0, 0⟩,
  ⟨0x70, 0, 1, 0, 1, 0xA, 0x8000FFFF, 0, 0, 0, 0, 0⟩,
  ⟨0x74, 0, 1, 0, 1, 0, 3, 0, 0, 0, 0, 0⟩,
  ⟨0x78, 0, 1, 0, 1, 0, 0, 0, 0, 0, 0, 0⟩,
  ⟨0x100, 0, 1, 0, 1, 0xA0064, 0, 0x40FFFFFF, 0, 0, 0, 0⟩,
  ⟨0x104, 0, 1, 0, 1, 0x30A00, 0, 0x80FFFF00, 0, 0, 0, 0⟩,
  ⟨0x108, 0, 1, 0, 1, 0x32FFFF, 0, 0xFFFFFFFF, 0, 0, 0, 0⟩,
  ⟨0x10C, 0, 1, 0, 1, 0x7D003E8, 0, 0xFFFFFFFF, 0, 0, 0, 0⟩,
  ⟨0x110, 0, 1, 0, 1, 0x42C80000, 0, 0xFFFFFFFF, 0, 0, 0, 0⟩,
  ⟨0x114, 0, 1, 0, 1, 0x41200000, 0, 0xFFFFFFFF, 0, 0, 0, 0⟩,
  ⟨0x118, 0, 1, 0, 1, 0x40000000, 0, 0xFFFFFFFF, 0, 0, 0, 0⟩,
  ⟨0x11C, 0, 1, 0, 1, 0x14, 0, 0xFFFF, 0, 0, 0, 0⟩]

/-- The ALM page's unit registers. -/
def pageALM : List RegDef := [
  ⟨0x40, 0, 1, 0, 1, 0, 0xFF, 0, 0, 0, 0, 0⟩,
  ⟨0x44, 0, 1, 0, 1, 0, 0, 0, 0, 0, 3, 0⟩,
  ⟨0x48, 0, 1, 0, 1, 0, 0xFFFFFFFF, 0, 0, 0, 0, 0⟩,
  ⟨0x4C, 0, 1, 0, 1, 0, 0xFFFFFFFF, 0, 0, 0, 0, 0⟩,
  ⟨0x50, 0, 1, 0, 1, 0, 0xFFFFFFFF, 0, 0, 0, 0, 0⟩,
  ⟨0x54, 0, 1, 0, 1, 0, 0xFFFFFFFF, 0, 0, 0, 0, 0⟩,
  ⟨0x58, 0, 1, 0, 1, 0, 0, 0, 0, 0, 0, 0⟩,
  ⟨0x5C, 0, 1, 0, 1, 0, 0, 0, 0, 0, 0, 0⟩,
  ⟨0x60, 0, 1, 0, 1, 0, 0, 0, 0, 0, 0, 0⟩,
  ⟨0x64, 0, 1, 0, 1, 0, 0, 0, 0, 0, 0, 0⟩,
  ⟨0x80, 0, 1, 0, 1, 0, 0, 0, 0, 0, 0, 0⟩,
  ⟨0x84, 0, 1, 0, 1, 0, 0, 0, 0, 0, 0, 0⟩,
  ⟨0x88, 0, 1, 0, 1, 0, 0, 0, 0, 0, 0, 0⟩,
  ⟨0x8C, 0, 1, 0, 1, 0, 0, 0, 0, 0, 0, 0⟩,
  ⟨0x90, 0, 1, 0, 1, 0, 0, 0, 0, 0, 0, 0⟩,
  ⟨0x94, 0, 1, 0, 1, 0, 0, 0, 0, 0, 0, 0⟩,
  ⟨0x98, 0, 1, 0, 1, 0, 0, 0, 0, 0, 0, 0⟩,
  ⟨0x9C, 0, 1, 0, 1, 0, 0, 0, 0, 0, 0, 0⟩]

/-- The LENG page's unit registers. -/
def pageLENG : List RegDef := [
  ⟨0x40, 0, 1, 0, 1, 0, 0, 0, 0, 0, 1, 0⟩,
  ⟨0x44, 0, 1, 0, 1, 0, 0xFFFFFFFF, 0, 0, 0, 0, 0⟩,
  ⟨0x48, 0, 1, 0, 1, 0, 0xFFFFFFFF, 0, 0, 0, 0, 0⟩,
  ⟨0x4C, 0, 1, 0, 1, 0, 0, 0, 0, 0, 0, 0⟩,
  ⟨0x50, 0, 1, 0, 1, 0, 0, 0, 0, 0, 0, 0⟩,
  ⟨0x54, 0, 1, 0, 1, 0, 0, 0, 0, 0, 0, 0⟩,
  ⟨0x58, 0, 1, 0, 1, 0, 0, 0, 0, 0, 0, 0⟩,
  ⟨0x5C, 0, 1, 0, 1, 0, 0, 0, 0xFFFFFFFF, 0, 0, 0⟩,
  ⟨0x60, 0, 1, 0, 1, 0, 0, 0, 0xFFFFFFFF, 0, 0, 0⟩,
  ⟨0x64, 0, 1, 0, 1, 0, 0, 0, 0xFF, 0, 0, 0⟩,
  ⟨0x100, 0x10, 64, 0, 1, 0, 0, 0, 0, 0, 0, 0⟩,
  ⟨0x104, 0x10, 64, 0, 1, 0, 0, 0, 0, 0, 0, 0⟩,
  ⟨0x108, 0x10, 64, 0, 1, 0, 0, 0, 0, 0, 0, 0⟩,
  ⟨0x10C, 0x10, 64, 0, 1, 0, 0, 0, 0, 0, 0, 0⟩]

/-- The GRID page's unit registers. -/
def pageGRID : List RegDef := [
  ⟨0x40, 0, 1, 0, 1, 0, 0x1F1F1F3B, 0, 0, 0, 0, 0⟩,
  ⟨0x44, 0, 1, 0, 1, 0x3FB504F3, 0xFFFFFFFF, 0, 0, 0, 0, 0⟩,
  ⟨0x48, 0, 1, 0, 1, 0x42480000, 0xFFFFFFFF, 0, 0, 0, 0, 0⟩,
  ⟨0x4C, 0, 1, 0, 1, 0x43480000, 0xFFFFFFFF, 0, 0, 0, 0, 0⟩,
  ⟨0x50, 0, 1, 0, 1, 0x469C4000, 0xFFFFFFFF, 0, 0, 0, 0, 0⟩,
  ⟨0x54, 0, 1, 0, 1, 0x1B580FA0, 0xFFFFFFFF, 0, 0, 0, 0, 0⟩,
  ⟨0x58, 0, 1, 0, 1, 0x42480000, 0xFFFFFFFF, 0, 0, 0, 0, 0⟩,
  ⟨0x5C, 0, 1, 0, 1, 0x3C23D70A, 0xFFFFFFFF, 0, 0, 0, 0, 0⟩,
  ⟨0x60, 0, 1, 0, 1, 0x640064, 0xFFFFFFFF, 0, 0, 0, 0, 0⟩,
  ⟨0x64, 0, 1, 0, 1, 0x190000, 0xFFFF0000, 0, 0, 0, 0, 0⟩,
  ⟨0x68, 0, 1, 0, 1, 0x40A00000, 0xFFFFFFFF, 0, 0, 0, 0, 0⟩,
  ⟨0x6C, 0, 1, 0, 1, 0, 0, 0, 8, 0, 0, 0⟩,
  ⟨0x70, 0, 1, 0, 1, 0, 0, 0, 0, 0, 1, 0⟩,
  ⟨0x80, 0, 1, 0, 1, 0, 0, 0, 0, 0, 0, 0⟩,
  ⟨0x84, 0, 1, 0, 1, 0, 0, 0, 0, 0, 0, 0⟩,
  ⟨0x88, 0, 1, 0, 1, 0, 0, 0, 0, 0, 0, 0⟩,
  ⟨0x8C, 0, 1, 0, 1, 0, 0, 0, 0, 0, 0, 0⟩,
  ⟨0x90, 0, 1, 0, 1, 0, 0, 0, 0, 0, 0, 0⟩,
  ⟨0x94, 0, 1, 0, 1, 0, 0, 0, 0, 0, 0, 0⟩,
  ⟨0x98, 0, 1, 0, 1, 0, 0, 0, 0, 0, 0, 0⟩,
  ⟨0x9C, 0, 1, 0, 1, 0, 0, 0, 0, 0, 0, 0⟩,
  ⟨0xA0, 0, 1, 0, 1, 0, 0, 0, 0, 0, 0, 0⟩,
  ⟨0xA4, 0, 1, 0, 1, 0, 0, 0, 0, 0, 0, 0⟩,
  ⟨0xA8, 0, 1, 0, 1, 0, 0, 0, 0, 0, 0, 0⟩,
  ⟨0xAC, 0, 1, 0, 1, 0, 0, 0, 0, 0, 0, 0⟩,
  ⟨0xB0, 0, 1, 0, 1, 0, 0, 0, 0, 0, 0, 0⟩,
  ⟨0xB4, 0, 1, 0, 1, 0, 0, 0, 0, 0, 0, 0⟩,
  ⟨0xB8, 0, 1, 0, 1, 0, 0, 0, 0, 0, 0, 0⟩,
  ⟨0xBC, 0, 1, 0, 1, 0, 0, 0, 0, 0, 0, 0⟩,
  ⟨0xC0, 0, 1, 0, 1, 0, 0, 0, 0, 0, 0, 0⟩]

/-- The ALLOC page's unit registers. -/
def pageALLOC : List RegDef := [
  ⟨0x40, 0, 1, 0, 1, 0, 0, 0, 0xFF00, 0, 0, 0⟩,
  ⟨0x44, 0, 1, 0, 1, 0, 0xFFFFFFFF, 0, 0, 0, 0, 0⟩,
  ⟨0x48, 0, 1, 0, 1, 0, 0, 0, 0, 0, 0, 0⟩]

/-- The RIDE page's unit registers. -/
def pageRIDE : List RegDef := [
  ⟨0x40, 0, 1, 0, 1, 7, 7, 0, 0, 0, 0, 0⟩,
  ⟨0x44, 4, 2, 0, 1, 0, 0xFFFFFFFF, 0, 0, 0, 0, 0⟩,
  ⟨0x4C, 0, 1, 0, 1, 0x3F6147AE, 0xFFFFFFFF, 0, 0, 0, 0, 0⟩,
  ⟨0x50, 0, 1, 0, 1, 0x3F8CCCCD, 0xFFFFFFFF, 0, 0, 0, 0, 0⟩,
  ⟨0x54, 0, 1, 0, 1, 0x3F000000, 0xFFFFFFFF, 0, 0, 0, 0, 0⟩,
  ⟨0x58, 0, 1, 0, 1, 0x3CA3D70A, 0xFFFFFFFF, 0, 0, 0, 0, 0⟩,
  ⟨0x5C, 0, 1, 0, 1, 0x3DCCCCCD, 0xFFFFFFFF, 0, 0, 0, 0, 0⟩,
  ⟨0x60, 0, 1, 0, 1, 0x140000, 0xFFFF0000, 0, 0, 0, 0, 0⟩,
  ⟨0x64, 0, 1, 0, 1, 0x3F000000, 0xFFFFFFFF, 0, 0, 0, 0, 0⟩,
  ⟨0x68, 0, 1, 0, 1, 0x3F99999A, 0xFFFFFFFF, 0, 0, 0, 0, 0⟩,
  ⟨0x6C, 0, 1, 0, 1, 0x40000000, 0xFFFFFFFF, 0, 0, 0, 0, 0⟩,
  ⟨0x70, 0, 1, 0, 1, 0x3DCCCCCD, 0xFFFFFFFF, 0, 0, 0, 0, 0⟩,
  ⟨0x74, 0, 1, 0, 1, 0x3F800000, 0xFFFFFFFF, 0, 0, 0, 0, 0⟩,
  ⟨0x78, 0, 1, 0, 1, 0x3F6AC083, 0xFFFFFFFF, 0, 0, 0, 0, 0⟩,
  ⟨0x7C, 0, 1, 0, 1, 0x3F866666, 0xFFFFFFFF, 0, 0, 0, 0, 0⟩,
  ⟨0x80, 0, 1, 0, 1, 0xBF000000, 0xFFFFFFFF, 0, 0, 0, 0, 0⟩,
  ⟨0x84, 0, 1, 0, 1, 0x3DCCCCCD, 0xFFFFFFFF, 0, 0, 0, 0, 0⟩,
  ⟨0x88, 0, 1, 0, 1, 0, 0x1F1F1F1F, 0, 0, 0, 0, 0⟩,
  ⟨0x90, 0, 1, 0, 1, 0, 0, 0, 0x1000, 0, 0, 0⟩,
  ⟨0x94, 0, 1, 0, 1, 0, 0, 0, 0, 0, 0, 0⟩,
  ⟨0x98, 0, 1, 0, 1, 0, 0, 0, 0, 0, 0, 0⟩,
  ⟨0x9C, 0, 1, 0, 1, 0, 0, 0, 0, 0, 0, 0⟩,
  ⟨0xA0, 0, 1, 0, 1, 0, 0, 0, 0, 0, 0, 0⟩,
  ⟨0xA4, 0, 1, 0, 1, 0, 0, 0, 0, 0, 0, 0⟩,
  ⟨0xA8, 0, 1, 0, 1, 0, 0, 0, 0, 0, 0, 0⟩,
  ⟨0xAC, 0, 1, 0, 1, 0, 0, 0, 0, 0, 0, 0⟩,
  ⟨0xB0, 0, 1, 0, 1, 0, 0, 0, 0, 0, 0, 0⟩,
  ⟨0xB4, 0, 1, 0, 1, 0, 0, 0, 0, 0, 0, 0⟩,
  ⟨0x200, 0x80, 4, 8, 16, 0, 0xFFFFFFFF, 0, 0, 0, 0, 0⟩,
  ⟨0x204, 0x80, 4, 8, 16, 0, 0xFFFFFFFF, 0, 0, 0, 0, 0⟩]

/-- The ISL page's unit registers. -/
def pageISL : List RegDef := [
  ⟨0x40, 0, 1, 0, 1, 0, 0xFF0003FF, 0, 0, 0, 0x800000, 0⟩,
  ⟨0x44, 0, 1, 0, 1, 0, 0xFF, 0, 0, 0, 0, 0⟩,
  ⟨0x48, 0, 1, 0, 1, 0x124F8, 0xFFFFFFFF, 0, 0, 0, 0, 0⟩,
  ⟨0x4C, 0, 1, 0, 1, 3, 0xFFFF00FF, 0, 0, 0, 0, 0⟩,
  ⟨0x50, 0, 1, 0, 1, 0x3BA3D70A, 0xFFFFFFFF, 0, 0, 0, 0, 0⟩,
  ⟨0x54, 0, 1, 0, 1, 0x3F000000, 0xFFFFFFFF, 0, 0, 0, 0, 0⟩,
  ⟨0x58, 0, 1, 0, 1, 0x3EB33333, 0xFFFFFFFF, 0, 0, 0, 0, 0⟩,
  ⟨0x5C, 0, 1, 0, 1, 0x230800, 0xFFFF00, 0, 0, 0, 0, 0⟩,
  ⟨0x60, 0, 1, 0, 1, 0x3F800000, 0xFFFFFFFF, 0, 0, 0, 0, 0⟩,
  ⟨0x64, 0, 1, 0, 1, 0x6401F4, 0xFFFFFFFF, 0, 0, 0, 0, 0⟩,
  ⟨0x68, 0, 1, 0, 1, 0x3D088889, 0xFFFFFFFF, 0, 0, 0, 0, 0⟩,
  ⟨0x6C, 0, 1, 0, 1, 0xA0064, 0xFFFFFFFF, 0, 0, 0, 0, 0⟩,
  ⟨0x70, 0, 1, 0, 1, 0x3D4CCCCD, 0xFFFFFFFF, 0, 0, 0, 0, 0⟩,
  ⟨0x74, 0, 1, 0, 1, 0x3E99999A, 0xFFFFFFFF, 0, 0, 0, 0, 0⟩,
  ⟨0x80, 0, 1, 0, 1, 0, 0, 0, 0x30, 0, 0, 0⟩,
  ⟨0x84, 0, 1, 0, 1, 0, 0, 0, 0, 0, 0, 0⟩,
  ⟨0x88, 0, 1, 0, 1, 0, 0, 0, 0, 0, 0, 0⟩,
  ⟨0x8C, 0, 1, 0, 1, 0, 0, 0, 0, 0, 0, 0⟩,
  ⟨0x100, 0x40, 2, 0, 1, 0, 0, 0, 0, 0, 0, 0⟩,
  ⟨0x104, 0x40, 2, 0, 1, 0, 0, 0, 0, 0, 0, 0⟩,
  ⟨0x108, 0x40, 2, 0, 1, 0, 0, 0, 0, 0, 0, 0⟩,
  ⟨0x10C, 0x40, 2, 0, 1, 0, 0, 0, 0, 0, 0, 0⟩,
  ⟨0x110, 0x40, 2, 0, 1, 0, 0, 0, 0, 0, 0, 0⟩,
  ⟨0x114, 0x40, 2, 0, 1, 0, 0, 0, 0, 0, 0, 0⟩,
  ⟨0x118, 0x40, 2, 0, 1, 0, 0, 0, 0, 0, 0, 0⟩,
  ⟨0x11C, 0x40, 2, 0, 1, 0, 0, 0, 0, 0, 0, 0⟩,
  ⟨0x120, 0x40, 2, 0, 1, 0, 0, 0, 0, 0, 0, 0⟩]

/-- The FORM page's unit registers. -/
def pageFORM : List RegDef := [
  ⟨0x100, 0x40, 8, 0, 1, 0x1F4, 0xC000FFFF, 0, 0, 0, 0, 0⟩,
  ⟨0x104, 0x40, 8, 0, 1, 0x40A00000, 0xFFFFFFFF, 0, 0, 0, 0, 0⟩,
  ⟨0x108, 0x40, 8, 0, 1, 0x41A00000, 0xFFFFFFFF, 0, 0, 0, 0, 0⟩,
  ⟨0x10C, 0x40, 8, 0, 1, 0x3D23D70A, 0xFFFFFFFF, 0, 0, 0, 0, 0⟩,
  ⟨0x110, 0x40, 8, 0, 1, 0x3D4CCCCD, 0xFFFFFFFF, 0, 0, 0, 0, 0⟩,
  ⟨0x114, 0x40, 8, 0, 1, 0, 0xFFFFFFFF, 0, 0, 0, 0, 0⟩,
  ⟨0x118, 0x40, 8, 0, 1, 0, 0xFFFFFFFF, 0, 0, 0, 0, 0⟩,
  ⟨0x11C, 0x40, 8, 0, 1, 0, 0xFFFFFFFF, 0, 0, 0, 0, 0⟩,
  ⟨0x120, 0x40, 8, 0, 1, 0, 0xFFFFFFFF, 0, 0, 0, 0, 0⟩,
  ⟨0x124, 0x40, 8, 0, 1, 0, 0xFFFFFFFF, 0, 0, 0, 0, 0⟩,
  ⟨0x128, 0x40, 8, 0, 1, 0x3E80064, 0xFFFFFFFF, 0, 0, 0, 0, 0⟩,
  ⟨0x12C, 0x40, 8, 0, 1, 0, 0, 0, 0, 0, 0, 0⟩,
  ⟨0x130, 0x40, 8, 0, 1, 0, 0, 0, 0, 0, 0, 0⟩,
  ⟨0x134, 0x40, 8, 0, 1, 0, 0, 0, 0, 0, 0, 0⟩,
  ⟨0x138, 0x40, 8, 0, 1, 0, 0, 0, 0, 0, 0, 0⟩,
  ⟨0x13C, 0x40, 8, 0, 1, 0, 0, 0, 0, 0, 0, 0⟩]

/-- The CH page's unit registers. -/
def pageCH : List RegDef := [
  ⟨0x40, 0, 1, 0, 1, 0, 0, 0xFFFF, 0, 0, 0, 0x80000000⟩,
  ⟨0x44, 0, 1, 0, 1, 0, 0, 0, 0, 0, 0, 0⟩,
  ⟨0x48, 0, 1, 0, 1, 0, 0xFFFFFFFF, 0, 0, 0, 0, 0⟩,
  ⟨0x4C, 0, 1, 0, 1, 0, 0xFFFFFFFF, 0, 0, 0, 0, 0⟩,
  ⟨0x50, 0, 1, 0, 1, 0, 0xF0313, 0, 0, 0, 0, 0⟩,
  ⟨0x54, 0, 1, 0, 1, 0, 0, 0xFFFFFFFF, 0, 0, 0, 0⟩,
  ⟨0x58, 0, 1, 0, 1, 0x44FA0000, 0xFFFFFFFF, 0, 0, 0, 0, 0⟩,
  ⟨0x5C, 0, 1, 0, 1, 0, 0, 0, 0, 0, 0, 0⟩,
  ⟨0x60, 0, 1, 0, 1, 0, 0, 0, 0, 0, 0, 0⟩,
  ⟨0x64, 0, 1, 0, 1, 0, 0, 0, 0, 0, 0, 0⟩,
  ⟨0x68, 0, 1, 0, 1, 0, 0, 0, 0, 0, 0, 0⟩,
  ⟨0x6C, 0, 1, 0, 1, 0, 0, 0, 0, 0, 0, 0⟩,
  ⟨0x70, 0, 1, 0, 1, 0, 0, 0, 0, 0, 0, 0⟩,
  ⟨0x74, 0, 1, 0, 1, 0x3F800000, 0, 0, 0, 0, 0, 0⟩,
  ⟨0x78, 0, 1, 0, 1, 0, 0, 0, 0, 0, 0, 0⟩,
  ⟨0x7C, 0, 1, 0, 1, 0x7F800000, 0, 0, 0, 0, 0, 0⟩,
  ⟨0x80, 0, 1, 0, 1, 0x7000002, 0x7FF0F17, 0, 0, 0, 0, 0⟩,
  ⟨0x84, 0, 1, 0, 1, 0x3C23D70A, 0xFFFFFFFF, 0, 0, 0, 0, 0⟩,
  ⟨0x88, 0, 1, 0, 1, 0x3F000000, 0xFFFFFFFF, 0, 0, 0, 0, 0⟩,
  ⟨0x8C, 0, 1, 0, 1, 0x40000000, 0xFFFFFFFF, 0, 0, 0, 0, 0⟩,
  ⟨0x90, 0, 1, 0, 1, 0, 0xFFFFFFFF, 0, 0, 0, 0, 0⟩,
  ⟨0x94, 0, 1, 0, 1, 0, 0xFFFFFFFF, 0, 0, 0, 0, 0⟩,
  ⟨0x98, 0, 1, 0, 1, 0x3B03126F, 0xFFFFFFFF, 0, 0, 0, 0, 0⟩,
  ⟨0x9C, 0, 1, 0, 1, 0x41A00000, 0xFFFFFFFF, 0, 0, 0, 0, 0⟩,
  ⟨0xA0, 0, 1, 0, 1, 0xF0064, 0xFFFFFFFF, 0, 0, 0, 0, 0⟩,
  ⟨0xA4, 0, 1, 0, 1, 5, 0xFF, 0, 0, 0, 0, 0⟩,
  ⟨0xA8, 0, 1, 0, 1, 0x3CA3D70A, 0xFFFFFFFF, 0, 0, 0, 0, 0⟩,
  ⟨0xAC, 0, 1, 0, 1, 0x3F4CCCCD, 0xFFFFFFFF, 0, 0, 0, 0, 0⟩,
  ⟨0xB0, 0, 1, 0, 1, 0x3F800000, 0xFFFFFFFF, 0, 0, 0, 0, 0⟩,
  ⟨0xB4, 0, 1, 0, 1, 0x3C0064, 0xFFFFFFFF, 0, 0, 0, 0, 0⟩
] ++ [
  ⟨0xB8, 0, 1, 0, 1, 0, 0, 0, 0, 0, 0, 0⟩,
  ⟨0xBC, 0, 1, 0, 1, 0, 0, 0, 0, 0, 0, 0⟩,
  ⟨0xC0, 0, 1, 0, 1, 0, 0, 0, 0, 0, 0, 0⟩,
  ⟨0xC4, 0, 1, 0, 1, 0, 0, 0, 0, 0, 0, 0⟩,
  ⟨0xC8, 0, 1, 0, 1, 0, 0, 0, 0, 0, 0, 0⟩,
  ⟨0xCC, 0, 1, 0, 1, 0, 0, 0, 0, 0, 0, 0⟩,
  ⟨0x100, 4, 16, 0, 1, 0, 0xFFFFFFFF, 0, 0, 0, 0, 0⟩,
  ⟨0x140, 4, 16, 0, 1, 0, 0, 0, 0, 0, 0, 0⟩]

/-- The LEG page's unit registers. -/
def pageLEG : List RegDef := [
  ⟨0x40, 0, 1, 0, 1, 0, 0xCB, 0, 0, 0, 0, 0⟩,
  ⟨0x44, 0, 1, 0, 1, 0, 0, 0, 0x3C, 0, 0, 0⟩,
  ⟨0x48, 0, 1, 0, 1, 0x30D40, 0x1FFFFF, 0, 0, 0, 0, 0⟩,
  ⟨0x4C, 0, 1, 0, 1, 0x180, 0x3FFFFF, 0, 0, 0, 0, 0⟩,
  ⟨0x50, 0, 1, 0, 1, 0x180, 0x3FFFFF, 0, 0, 0, 0, 0⟩,
  ⟨0x54, 0, 1, 0, 1, 0, 0x801FFFFF, 0, 0, 0, 0, 0⟩,
  ⟨0x58, 0, 1, 0, 1, 0, 0xFFF, 0, 0, 0, 0, 0⟩,
  ⟨0x5C, 0, 1, 0, 1, 0, 0xFFF, 0, 0, 0, 0, 0⟩,
  ⟨0x60, 0, 1, 0, 1, 0, 0xFFFFFFFF, 0, 0, 0, 0, 0⟩,
  ⟨0x80, 0, 1, 0, 1, 0x30D40, 0, 0, 0, 0, 0, 0⟩,
  ⟨0x84, 0, 1, 0, 1, 0x180, 0, 0, 0, 0, 0, 0⟩,
  ⟨0x88, 0, 1, 0, 1, 0x180, 0, 0, 0, 0, 0, 0⟩,
  ⟨0x8C, 0, 1, 0, 1, 0, 0, 0, 0, 0, 0, 0⟩,
  ⟨0x90, 0, 1, 0, 1, 0, 0, 0, 0, 0, 0, 0⟩,
  ⟨0x94, 0, 1, 0, 1, 0, 0, 0, 0, 0, 0, 0⟩,
  ⟨0x98, 0, 1, 0, 1, 0, 0, 0, 0, 0, 0, 0⟩,
  ⟨0x9C, 0, 1, 0, 1, 0, 0, 0, 0, 0, 0, 0⟩,
  ⟨0xA0, 0, 1, 0, 1, 0x640064, 0x7FF01FF, 0, 0, 0, 0, 0⟩,
  ⟨0xA4, 0, 1, 0, 1, 0, 0x3FFFFF, 0, 0, 0, 0, 0⟩,
  ⟨0xA8, 0, 1, 0, 1, 0, 0, 0, 0, 0, 0, 0⟩,
  ⟨0xAC, 0, 1, 0, 1, 0, 0, 0, 0, 0, 0, 0⟩,
  ⟨0xB0, 0, 1, 0, 1, 0, 0, 0, 0, 0, 0, 0⟩,
  ⟨0xB4, 0, 1, 0, 1, 0, 0, 0, 0, 0, 0, 0⟩,
  ⟨0xC0, 0, 1, 0, 1, 0, 0, 0, 0, 0, 0, 0⟩,
  ⟨0xC4, 0, 1, 0, 1, 0, 0, 0, 0, 0, 0, 0⟩,
  ⟨0xC8, 0, 1, 0, 1, 0, 0, 0, 0, 0, 0, 0⟩,
  ⟨0x100, 4, 16, 0, 1, 0, 0xFFFFFFFF, 0, 0, 0, 0, 0⟩,
  ⟨0x140, 4, 16, 0, 1, 0, 0xFFFFFFFF, 0, 0, 0, 0, 0⟩,
  ⟨0x180, 0, 1, 0, 1, 0, 0xFFFFFFFF, 0, 0, 0, 0, 0⟩,
  ⟨0x184, 0, 1, 0, 1, 0, 0xFFFFFFFF, 0, 0, 0, 0, 0⟩
] ++ [
  ⟨0x188, 0, 1, 0, 1, 0, 0, 0, 0, 0, 0, 0⟩,
  ⟨0x18C, 0, 1, 0, 1, 0, 0, 0, 0, 0, 0, 1⟩,
  ⟨0x190, 0, 1, 0, 1, 0, 0, 0, 0, 0, 0, 0⟩,
  ⟨0x194, 0, 1, 0, 1, 0, 0, 0, 0, 0, 0, 0⟩,
  ⟨0x198, 0, 1, 0, 1, 0, 0, 0, 0, 0, 0, 0⟩,
  ⟨0x19C, 0, 1, 0, 1, 0, 0, 0, 0, 0, 0, 0⟩]

/-- The LEGX page's unit registers. -/
def pageLEGX : List RegDef := [
  ⟨0x40, 0, 1, 0, 1, 0, 0, 0, 0, 0, 1, 0⟩,
  ⟨0x44, 0, 1, 0, 1, 0, 0, 0, 0, 0, 0, 0⟩,
  ⟨0x48, 0, 1, 0, 1, 0, 0, 0xFFFFFF, 0, 0, 0, 0⟩,
  ⟨0x4C, 0, 1, 0, 1, 0, 0x1F0F, 0, 0, 0, 0, 0⟩,
  ⟨0x50, 0, 1, 0, 1, 0, 0xFFFFFF, 0, 0, 0, 0, 0⟩,
  ⟨0x54, 0, 1, 0, 1, 0, 0, 0, 0, 0, 0, 0⟩,
  ⟨0x60, 4, 8, 0, 1, 0x3E8, 0xF0FFFFFF, 0, 0, 0, 0, 0⟩,
  ⟨0x100, 4, 24, 0, 1, 0, 0x80073700, 0, 0, 0, 0, 0⟩,
  ⟨0x180, 4, 24, 0, 1, 0, 0, 0, 0, 0, 0, 0⟩,
  ⟨0x200, 0x20, 24, 0, 1, 0x48000000, 0xF81F1F1F, 0, 0, 0, 0, 0⟩,
  ⟨0x204, 0x20, 24, 0, 1, 0x3F000000, 0xFFFFFFFF, 0, 0, 0, 0, 0⟩,
  ⟨0x208, 0x20, 24, 0, 1, 0, 0xFFFFFFFF, 0, 0, 0, 0, 0⟩,
  ⟨0x20C, 0x20, 24, 0, 1, 0x8030000, 0x3F0F0000, 0, 0, 0, 0, 0⟩,
  ⟨0x210, 0x20, 24, 0, 1, 0, 0, 0, 0, 0, 0, 0⟩,
  ⟨0x214, 0x20, 24, 0, 1, 0, 0, 0, 0, 0, 0, 0⟩,
  ⟨0x800, 4, 24, 0, 1, 0xA000000, 0xFF000F00, 3, 0, 0, 0, 0⟩,
  ⟨0xA00, 0x10, 4, 0, 1, 0, 0xF80FFFFF, 0, 0, 0, 0, 0⟩,
  ⟨0xA04, 0x10, 4, 0, 1, 0x3E8, 0xFFFF, 0, 0, 0, 0, 0⟩,
  ⟨0xA08, 0x10, 4, 0, 1, 0, 0xFFFF, 0, 0, 0, 0, 0⟩,
  ⟨0xA0C, 0x10, 4, 0, 1, 2, 0, 0, 0, 0, 0, 0⟩]

/-- The MOD page's unit registers. -/
def pageMOD : List RegDef := [
  ⟨0x40, 0x10, 4, 0, 1, 0x19100014, 0xFF3F01FF, 0, 0, 0, 0, 0⟩,
  ⟨0x44, 0x10, 4, 0, 1, 0, 0x307FF, 0, 0, 0, 0, 0⟩,
  ⟨0x48, 0x10, 4, 0, 1, 0, 0, 0, 0, 0, 0, 0⟩,
  ⟨0x4C, 0x10, 4, 0, 1, 0, 0, 0, 0, 0, 0, 0⟩,
  ⟨0x80, 0, 1, 0, 1, 0, 0, 0, 0xFFFFFF, 0, 0, 0⟩,
  ⟨0x84, 0, 1, 0, 1, 0, 0, 0, 0xFFFFFF, 0, 0, 0⟩,
  ⟨0x100, 0x20, 24, 0, 1, 0x10000, 0xE01F011F, 0, 0, 0, 0, 0⟩,
  ⟨0x104, 0x20, 24, 0, 1, 0x3F800000, 0xFFFFFFFF, 0, 0, 0, 0, 0⟩,
  ⟨0x108, 0x20, 24, 0, 1, 0, 0xFFFFFFFF, 0, 0, 0, 0, 0⟩,
  ⟨0x10C, 0x20, 24, 0, 1, 0x4000000, 0x7FF07FF, 0, 0, 0, 0, 0⟩,
  ⟨0x110, 0x20, 24, 0, 1, 0, 0xFFFFFF, 0, 0, 0, 0, 0⟩,
  ⟨0x114, 0x20, 24, 0, 1, 0, 0, 0, 0, 0, 0, 0⟩,
  ⟨0x118, 0x20, 24, 0, 1, 0, 0, 0, 0, 0, 0, 0⟩]

/-- The PADC page's unit registers. -/
def pagePADC : List RegDef := [
  ⟨0x40, 0, 1, 0, 1, 0, 1, 0, 0, 0, 0, 0⟩,
  ⟨0x44, 0, 1, 0, 1, 0, 0x80001F07, 0, 0, 0, 0, 0⟩,
  ⟨0x48, 0, 1, 0, 1, 0x100, 0xFFFFFF, 0, 0, 0, 0, 0⟩,
  ⟨0x4C, 0, 1, 0, 1, 0, 0, 0, 0, 0, 0, 0⟩,
  ⟨0x50, 0, 1, 0, 1, 0, 2, 0, 0, 0, 1, 0⟩,
  ⟨0x54, 0, 1, 0, 1, 0, 0, 0, 0, 0, 0, 0⟩,
  ⟨0x58, 0, 1, 0, 1, 0, 0, 0, 0, 0, 0, 0⟩,
  ⟨0x5C, 0, 1, 0, 1, 0, 0, 0, 0, 0, 0, 0⟩,
  ⟨0x60, 0, 1, 0, 1, 0, 0, 0, 0, 0, 0, 0⟩,
  ⟨0x100, 0x400, 2, 0, 1, 0x6000F, 0x9E0F000F, 0, 0, 0, 0x60000000, 0⟩,
  ⟨0x104, 0x400, 2, 0, 1, 0, 0, 0, 0, 0, 0, 0⟩,
  ⟨0x140, 0x400, 2, 4, 16, 0x1800000, 0xFFFFCFFF, 0, 0, 0, 0, 0⟩,
  ⟨0x180, 0x400, 2, 8, 8, 0, 0xFFFFFF, 0, 0, 0, 0, 0⟩,
  ⟨0x184, 0x400, 2, 8, 8, 0x400000, 0xFFFFFF, 0, 0, 0, 0, 0⟩,
  ⟨0x200, 0x400, 2, 0x10, 16, 0, 0, 0, 0, 0, 0, 0⟩,
  ⟨0x204, 0x400, 2, 0x10, 16, 0, 0, 0, 0, 0, 0, 0⟩,
  ⟨0x208, 0x400, 2, 0x10, 16, 0, 0, 0, 0, 0, 0, 0⟩,
  ⟨0x300, 0x400, 2, 8, 16, 0x7FFFFF, 0, 0, 0, 0, 0, 0⟩,
  ⟨0x304, 0x400, 2, 8, 16, 0xFF800000, 0, 0, 0, 0, 0, 0⟩]

/-- The CMP page's unit registers. -/
def pageCMP : List RegDef := [
  ⟨0x40, 0, 1, 0, 1, 0, 0, 0xFFFFFF, 0, 0, 0, 0x80000000⟩,
  ⟨0x44, 0, 1, 0, 1, 0, 0, 0, 0, 0, 0, 0⟩,
  ⟨0x48, 0, 1, 0, 1, 0, 0, 0, 0, 0, 0, 0⟩,
  ⟨0x4C, 0, 1, 0, 1, 0, 0, 0, 0xFFFF, 0, 0, 0⟩,
  ⟨0x50, 0, 1, 0, 1, 0, 0, 0, 0xFFFF, 0, 0, 0⟩,
  ⟨0x54, 0, 1, 0, 1, 0, 0, 0, 0, 0, 0, 0⟩,
  ⟨0x58, 0, 1, 0, 1, 0, 0xF, 0, 0, 0, 0x10, 0⟩,
  ⟨0x80, 8, 8, 0, 1, 0, 0x8000001F, 0, 0, 0, 0, 0⟩,
  ⟨0x84, 8, 8, 0, 1, 0, 0xFFFF, 0, 0, 0, 0, 0⟩,
  ⟨0x100, 0x10, 16, 0, 1, 0x60000000, 0xFFFF00FF, 0, 0, 0, 0, 0⟩,
  ⟨0x104, 0x10, 16, 0, 1, 0xFFF0FFF, 0xFFF, 0, 0, 0, 0, 0⟩,
  ⟨0x108, 0x10, 16, 0, 1, 0, 0xFFFFFF, 0, 0, 0, 0, 0⟩,
  ⟨0x10C, 0x10, 16, 0, 1, 0, 0, 0, 0, 0, 0, 0⟩]

/-- The TRIP page's unit registers. -/
def pageTRIP : List RegDef := [
  ⟨0x40, 0x10, 8, 0, 1, 0x40000, 0xE0FF00FF, 0, 0, 0, 0, 0⟩,
  ⟨0x44, 0x10, 8, 0, 1, 0, 0xFFFFFF, 0, 0, 0, 0, 0⟩,
  ⟨0x48, 0x10, 8, 0, 1, 0, 0, 0, 0, 0, 0, 0⟩,
  ⟨0xC0, 0, 1, 0, 1, 0, 0, 0, 0xFF, 0, 0, 0⟩]

/-- The MTR page's unit registers. -/
def pageMTR : List RegDef := [
  ⟨0x40, 0x10, 2, 0, 1, 0x6432003, 0xE0000000, 0x1FEFFFFF, 0, 0, 0, 0⟩,
  ⟨0x44, 0x10, 2, 0, 1, 0xF4240, 0, 0xFFFFFFFF, 0, 0, 0, 0⟩,
  ⟨0x48, 0x10, 2, 0, 1, 0, 0, 0, 0, 0, 0, 0⟩,
  ⟨0x4C, 0x10, 2, 0, 1, 0, 0, 0, 0, 0, 0, 0⟩,
  ⟨0x60, 0, 1, 0, 1, 0xA030000, 0x8F03FFFF, 0, 0, 0, 0, 0⟩,
  ⟨0x100, 0x400, 2, 0, 1, 0x640000, 0xFFFF0000, 0, 0, 0, 0, 0⟩,
  ⟨0x104, 0x400, 2, 0, 1, 0, 0x1F1F1F1F, 0, 0, 0, 0, 0⟩,
  ⟨0x108, 0x400, 2, 0, 1, 0, 0x1F1F1F, 0, 0, 0, 0, 0⟩,
  ⟨0x10C, 0x400, 2, 0, 1, 0, 0, 0xFFFFFFFF, 0, 0, 0, 0⟩,
  ⟨0x110, 0x400, 2, 0, 1, 0, 0, 0, 0, 0, 1, 0⟩,
  ⟨0x114, 0x400, 2, 0, 1, 0xF, 0, 0, 0x20, 0, 0, 0⟩,
  ⟨0x118, 0x400, 2, 0, 1, 0, 0, 0, 0, 0, 0, 0⟩,
  ⟨0x140, 0x400, 2, 0x10, 7, 0x3F800000, 0, 0xFFFFFFFF, 0, 0, 0, 0⟩,
  ⟨0x144, 0x400, 2, 0x10, 7, 0, 0, 0xFFFFFFFF, 0, 0, 0, 0⟩,
  ⟨0x148, 0x400, 2, 0x10, 7, 0, 0, 0xFFFF, 0, 0, 0, 0⟩,
  ⟨0x14C, 0x400, 2, 0x10, 7, 0, 0, 0xFFFFFFFF, 0, 0, 0, 0⟩,
  ⟨0x1C0, 0x400, 2, 0x10, 3, 0x3F800000, 0, 0xFFFFFFFF, 0, 0, 0, 0⟩,
  ⟨0x1C4, 0x400, 2, 0x10, 3, 0, 0, 0xFFFFFFFF, 0, 0, 0, 0⟩,
  ⟨0x1C8, 0x400, 2, 0x10, 3, 0x3F800000, 0, 0xFFFFFFFF, 0, 0, 0, 0⟩,
  ⟨0x1CC, 0x400, 2, 0x10, 3, 0, 0, 0xFFFFFFFF, 0, 0, 0, 0⟩,
  ⟨0x200, 0x400, 2, 0x20, 3, 0, 0, 0, 0, 0, 0, 0⟩,
  ⟨0x204, 0x400, 2, 0x20, 3, 0, 0, 0, 0, 0, 0, 0⟩,
  ⟨0x208, 0x400, 2, 0x20, 3, 0, 0, 0, 0, 0, 0, 0⟩,
  ⟨0x20C, 0x400, 2, 0x20, 3, 0, 0, 0, 0, 0, 0, 0⟩,
  ⟨0x210, 0x400, 2, 0x20, 3, 0, 0, 0, 0, 0, 0, 0⟩,
  ⟨0x214, 0x400, 2, 0x20, 3, 0, 0, 0, 0, 0, 0, 0⟩,
  ⟨0x260, 0x400, 2, 0, 1, 0, 0, 0, 0, 0, 0, 0⟩,
  ⟨0x264, 0x400, 2, 0, 1, 0, 0, 0, 0, 0, 0, 0⟩,
  ⟨0x268, 0x400, 2, 0, 1, 0, 0, 0, 0, 0, 0, 0⟩,
  ⟨0x26C, 0x400, 2, 0, 1, 0, 0, 0, 0, 0, 0, 0⟩
] ++ [
  ⟨0x270, 0x400, 2, 0, 1, 0, 0, 0, 0, 0, 0, 0⟩,
  ⟨0x274, 0x400, 2, 0, 1, 0, 0, 0, 0, 0, 0, 0⟩,
  ⟨0x300, 0x400, 2, 0, 1, 0, 0, 0, 0, 0, 0, 0⟩,
  ⟨0x304, 0x400, 2, 0, 1, 0, 0, 0, 0, 0, 0, 0⟩,
  ⟨0x308, 0x400, 2, 0, 1, 0, 0, 0, 0, 0, 0, 0⟩,
  ⟨0x30C, 0x400, 2, 0, 1, 0, 0, 0, 0, 0, 0, 0⟩,
  ⟨0x310, 0x400, 2, 0, 1, 0, 0, 0, 0, 0, 0, 0⟩,
  ⟨0x314, 0x400, 2, 0, 1, 0, 0, 0, 0, 0, 0, 0⟩,
  ⟨0x318, 0x400, 2, 4, 8, 0, 0, 0, 0, 0, 0, 0⟩,
  ⟨0x338, 0x400, 2, 0, 1, 0, 0, 0, 0, 0, 0, 0⟩,
  ⟨0x33C, 0x400, 2, 0, 1, 0, 0, 0, 0, 0, 0, 0⟩,
  ⟨0x340, 0x400, 2, 0, 1, 0, 0, 0, 0, 0, 0, 0⟩,
  ⟨0x344, 0x400, 2, 0, 1, 0, 0, 0, 0, 0, 0, 0⟩]

/-- The MTRE page's unit registers. -/
def pageMTRE : List RegDef := [
  ⟨0x40, 0, 1, 0, 1, 0, 0, 0, 0, 0, 1, 0⟩,
  ⟨0x44, 0, 1, 0, 1, 0, 0, 0, 0, 0, 0, 0⟩,
  ⟨0x48, 0, 1, 0, 1, 0, 0, 0, 0, 0, 0, 0⟩,
  ⟨0x4C, 0, 1, 0, 1, 0, 0, 0, 0, 0, 0, 0⟩,
  ⟨0x50, 0, 1, 0, 1, 0, 0x107, 0, 0, 0, 0x80000000, 0⟩,
  ⟨0x54, 0, 1, 0, 1, 0, 0xFFFFFFFF, 0, 0, 0, 0, 0⟩,
  ⟨0x58, 0, 1, 0, 1, 0, 0xFFFFFFFF, 0, 0, 0, 0, 0⟩,
  ⟨0x100, 0x100, 2, 8, 8, 0, 0, 0, 0, 0, 0, 0⟩,
  ⟨0x104, 0x100, 2, 8, 8, 0, 0, 0, 0, 0, 0, 0⟩,
  ⟨0x140, 0x100, 2, 0, 1, 0, 0, 0, 0, 0, 0, 0⟩,
  ⟨0x144, 0x100, 2, 0, 1, 0, 0, 0, 0, 0, 0, 0⟩,
  ⟨0x300, 0x20, 2, 4, 8, 0, 0, 0, 0, 0, 0, 0⟩]

/-- The MACH page's unit registers. -/
def pageMACH : List RegDef := [
  ⟨0x40, 0, 1, 0, 1, 0x25100, 0xFEFFFF00, 0, 0, 0, 0, 0⟩,
  ⟨0x44, 0, 1, 0, 1, 0x400, 0xFFFFF, 0, 0, 0, 0, 0⟩,
  ⟨0x48, 0, 1, 0, 1, 0x4000000, 0xFF3FFFFF, 0, 0, 0, 0, 0⟩,
  ⟨0x4C, 0, 1, 0, 1, 0, 0xFFFFFFFF, 0, 0, 0, 0, 0⟩,
  ⟨0x50, 0, 1, 0, 1, 0x27100032, 0xFFFFFFFF, 0, 0, 0, 0, 0⟩,
  ⟨0x54, 0, 1, 0, 1, 0x514012C, 0xFFFFFFFF, 0, 0, 0, 0, 0⟩,
  ⟨0x58, 0, 1, 0, 1, 0x6403E8, 0xFFFFFFFF, 0, 0, 0, 0, 0⟩,
  ⟨0x5C, 0, 1, 0, 1, 0x41200000, 0xFFFFFFFF, 0, 0, 0, 0, 0⟩,
  ⟨0x60, 0, 1, 0, 1, 0x42480000, 0xFFFFFFFF, 0, 0, 0, 0, 0⟩,
  ⟨0x64, 0, 1, 0, 1, 0x7F800000, 0xFFFFFFFF, 0, 0, 0, 0, 0⟩,
  ⟨0x68, 0, 1, 0, 1, 0, 0xFFFFFFFF, 0, 0, 0, 0, 0⟩,
  ⟨0x6C, 0, 1, 0, 1, 0x3F733333, 0xFFFFFFFF, 0, 0, 0, 0, 0⟩,
  ⟨0x70, 0, 1, 0, 1, 0x3F733333, 0xFFFFFFFF, 0, 0, 0, 0, 0⟩,
  ⟨0x74, 0, 1, 0, 1, 0, 0xFFFFFFFF, 0, 0, 0, 0, 0⟩,
  ⟨0x78, 0, 1, 0, 1, 0, 0xFFFFFFFF, 0, 0, 0, 0, 0⟩,
  ⟨0x7C, 0, 1, 0, 1, 0x461C4000, 0xFFFFFFFF, 0, 0, 0, 0, 0⟩,
  ⟨0x80, 0, 1, 0, 1, 0, 0xFFFFFFFF, 0, 0, 0, 0, 0⟩,
  ⟨0x84, 0, 1, 0, 1, 0, 0xFFFFFFFF, 0, 0, 0, 0, 0⟩,
  ⟨0x88, 0, 1, 0, 1, 0x7F800000, 0xFFFFFFFF, 0, 0, 0, 0, 0⟩,
  ⟨0x8C, 0, 1, 0, 1, 0x3E800000, 0xFFFFFFFF, 0, 0, 0, 0, 0⟩,
  ⟨0x90, 0, 1, 0, 1, 0x140000, 0xFFFF0000, 0, 0, 0, 0, 0⟩,
  ⟨0xA0, 0, 1, 0, 1, 0, 0xC0000000, 0, 0, 0, 0, 0⟩,
  ⟨0xA4, 0, 1, 0, 1, 0, 0, 0, 0, 0, 0, 0⟩,
  ⟨0xA8, 0, 1, 0, 1, 0, 0, 0, 0, 0, 0, 0⟩,
  ⟨0xAC, 0, 1, 0, 1, 0, 0, 0, 0, 0, 0, 0⟩,
  ⟨0xB0, 0, 1, 0, 1, 0, 0, 0, 0, 0, 0, 0⟩,
  ⟨0xB4, 0, 1, 0, 1, 0, 0, 0, 0, 0, 0, 0⟩,
  ⟨0xB8, 0, 1, 0, 1, 0, 0, 0, 0, 0, 0, 0⟩,
  ⟨0xBC, 0, 1, 0, 1, 0, 0, 0, 0, 0, 0, 0⟩,
  ⟨0xC0, 0, 1, 0, 1, 0, 0, 0, 0, 0, 0, 0⟩
] ++ [
  ⟨0xC4, 0, 1, 0, 1, 0, 0, 0, 0, 0, 0, 0⟩]

/-- The NET page's unit registers. -/
def pageNET : List RegDef := [
  ⟨0x40, 4, 2, 0, 1, 0x10000000, 0xF0000000, 0, 0, 0, 0, 0⟩,
  ⟨0x48, 0, 1, 0, 1, 0x88B505EE, 0x8FFF, 0xFFFF0000, 0, 0, 0, 0⟩,
  ⟨0x4C, 0, 1, 0, 1, 0, 0, 0xFFFFFFFF, 0, 0, 0, 0⟩,
  ⟨0x50, 0, 1, 0, 1, 0, 0, 0xFFFF, 0, 0, 0, 0⟩,
  ⟨0x54, 0, 1, 0, 1, 0, 0xFFFFFFFF, 0, 0, 0, 0, 0⟩,
  ⟨0x58, 0, 1, 0, 1, 0, 0xFFFF, 0, 0, 0, 0, 0⟩,
  ⟨0x5C, 0, 1, 0, 1, 0, 0xFFFFFFFF, 0, 0, 0, 0, 0⟩,
  ⟨0x60, 0, 1, 0, 1, 0, 0xFFFF, 0, 0, 0, 0, 0⟩,
  ⟨0x64, 0, 1, 0, 1, 0, 0xFFFFFFFF, 0, 0, 0, 0, 0⟩,
  ⟨0x68, 0, 1, 0, 1, 0, 0xFFFF, 0, 0, 0, 0, 0⟩,
  ⟨0x6C, 4, 2, 0, 1, 0, 0, 0, 0, 0, 0, 0⟩,
  ⟨0x74, 4, 2, 0, 1, 0, 0, 0, 0, 0, 0, 0⟩,
  ⟨0x7C, 0, 1, 0, 1, 0, 0, 0, 0, 0, 0, 0⟩,
  ⟨0x80, 0, 1, 0, 1, 0, 0, 0xC00003FF, 0, 0, 0, 0⟩,
  ⟨0x84, 0, 1, 0, 1, 0, 0, 0xFFFFFFFF, 0, 0, 0, 0⟩,
  ⟨0x88, 0, 1, 0, 1, 0, 0, 0xFFFF, 0, 0, 0, 0⟩,
  ⟨0x8C, 0, 1, 0, 1, 0x64, 0xFFFFFFFF, 0, 0, 0, 0, 0⟩,
  ⟨0x90, 0, 1, 0, 1, 0, 0, 0, 0, 0, 0, 0⟩,
  ⟨0x94, 0, 1, 0, 1, 0, 0, 0, 0, 0, 0, 0⟩,
  ⟨0x98, 0, 1, 0, 1, 0, 0, 0, 0, 0, 0, 0⟩,
  ⟨0x9C, 0, 1, 0, 1, 0, 0, 0, 0, 0, 0, 0⟩,
  ⟨0xA0, 0, 1, 0, 1, 0, 0xFFFFFFFF, 0, 0, 0, 0, 0⟩,
  ⟨0xA4, 0, 1, 0, 1, 0, 0xFFFFFFFF, 0, 0, 0, 0, 0⟩,
  ⟨0xA8, 0, 1, 0, 1, 0, 0x3FF, 0, 0, 0, 0, 0⟩,
  ⟨0xAC, 0, 1, 0, 1, 0, 0x3FF, 0, 0, 0, 0, 0⟩,
  ⟨0xB0, 0, 1, 0, 1, 0, 0, 0, 0, 0, 0, 0⟩,
  ⟨0xB4, 0, 1, 0, 1, 0, 0xFFFFFFFF, 0, 0, 0, 0, 0⟩,
  ⟨0xB8, 0, 1, 0, 1, 0, 0x3FF, 0, 0, 0, 0, 0⟩,
  ⟨0xBC, 0, 1, 0, 1, 0, 0x3FF0000, 0, 0, 0, 0, 0⟩,
  ⟨0x100, 4, 16, 0, 1, 0, 0, 0, 0, 0, 0, 0⟩
] ++ [
  ⟨0x140, 0, 1, 0, 1, 0, 0x73FFFFFF, 0, 0, 0, 0x80000000, 0⟩]

/-- The NETQ page's unit registers. -/
def pageNETQ : List RegDef := [
  ⟨0x40, 0, 1, 0, 1, 0x76543210, 0xFFFFFFFF, 0, 0, 0, 0, 0⟩,
  ⟨0x44, 0, 1, 0, 1, 0x2760, 0x7777, 0, 0, 0, 0, 0⟩,
  ⟨0x100, 0x200, 2, 4, 8, 0x100, 0xFFFF, 0, 0, 0, 0, 0⟩,
  ⟨0x120, 0x200, 2, 4, 8, 0, 0, 0, 0, 0, 0, 0⟩,
  ⟨0x140, 0x200, 2, 4, 8, 0, 0, 0, 0, 0, 0, 0⟩,
  ⟨0x160, 0x200, 2, 0, 1, 1, 0x8000003F, 0, 0, 0, 0x40000000, 0⟩,
  ⟨0x164, 0x200, 2, 0, 1, 0xF4240, 0xFFFFFFFF, 0, 0, 0, 0, 0⟩,
  ⟨0x168, 0x200, 2, 0, 1, 0, 0xFFFFFFFF, 0, 0, 0, 0, 0⟩,
  ⟨0x16C, 0x200, 2, 0, 1, 0, 0xFFFFFFFF, 0, 0, 0, 0, 0⟩,
  ⟨0x170, 0x200, 2, 0, 1, 0, 0, 0, 0, 0, 0, 0⟩,
  ⟨0x174, 0x200, 2, 0, 1, 0, 0, 0, 0, 0, 0, 0⟩,
  ⟨0x180, 0x200, 2, 4, 32, 0xFF01E848, 0xFFFFFFFF, 0, 0, 0, 0, 0⟩,
  ⟨0x200, 0x200, 2, 4, 32, 0, 0, 0, 0, 0, 0, 0⟩]

/-- The STRM page's unit registers. -/
def pageSTRM : List RegDef := [
  ⟨0x100, 0x80, 8, 0, 1, 0x100000, 0xFCFF000F, 0, 0, 0, 0, 0⟩,
  ⟨0x104, 0x80, 8, 0, 1, 0x103E8, 0xFFFFFFFF, 0, 0, 0, 0, 0⟩,
  ⟨0x108, 0x80, 8, 0, 1, 0, 0xFFFFFFFF, 0, 0, 0, 0, 0⟩,
  ⟨0x10C, 0x80, 8, 0, 1, 0, 0xFFFF, 0, 0, 0, 0, 0⟩,
  ⟨0x110, 0x80, 8, 0, 1, 0, 0xFFFFFFFF, 0, 0, 0, 0, 0⟩,
  ⟨0x114, 0x80, 8, 0, 1, 0, 0xFFFFFFFF, 0, 0, 0, 0, 0⟩,
  ⟨0x118, 0x80, 8, 0, 1, 0, 0xFFFFFFFF, 0, 0, 0, 0, 0⟩,
  ⟨0x11C, 0x80, 8, 0, 1, 0, 0, 0, 0, 0, 0, 0⟩,
  ⟨0x120, 0x80, 8, 0, 1, 0, 0, 0, 0, 0, 0, 0⟩,
  ⟨0x124, 0x80, 8, 0, 1, 0, 0, 0, 0, 0, 0, 0⟩,
  ⟨0x140, 0x80, 8, 4, 16, 0xFF00, 0xFFFF, 0, 0, 0, 0, 0⟩]

end RegMap
end Sys2Proof
end

