-- ==== Sys2Proof/Machine/Operands.lean ====
section
/-! DEFINITION. IEEE 754 binary32 as R188 lays it down: round to nearest, ties to even; subnormal operands read as zero of the
same sign; a result that is subnormal after rounding is written as zero of the same sign; fused operations round once. -/

namespace Sys2Proof

/-- A binary32 word (R188). -/
abbrev F32 := BitVec 32

/-- A binary32 operand as R188 reads it: a finite value is (-1)^neg · m · 2^e. -/
inductive FVal where
  | nan
  | inf (neg : Bool)
  | fin (neg : Bool) (m : Nat) (e : Int)
deriving DecidableEq, Repr

namespace F32

/-- The quiet NaN the operations answer with. -/
def nanW : F32 := 0x7FC00000#32
/-- An infinity. -/
def infW (neg : Bool) : F32 := if neg then 0xFF800000#32 else 0x7F800000#32
/-- A zero. -/
def zeroW (neg : Bool) : F32 := if neg then 0x80000000#32 else 0#32
/-- 1.0. -/
def oneW : F32 := 0x3F800000#32
/-- 0.5. -/
def halfW : F32 := 0x3F000000#32
/-- 2.0. -/
def twoW : F32 := 0x40000000#32

/-- Reading an operand: a subnormal is zero of the same sign (R188). -/
def val (w : F32) : FVal :=
  let neg := w.getLsbD 31
  let ex : Nat := (w.toNat / 2 ^ 23) % 256
  let fr : Nat := w.toNat % 2 ^ 23
  if ex = 255 then (if fr = 0 then .inf neg else .nan)
  else if ex = 0 then .fin neg 0 0
  else .fin neg (2 ^ 23 + fr) ((ex : Int) - 150)

/-- Division by 2^sh, to nearest, ties to even. -/
def rneShift (m sh : Nat) : Nat :=
  let q := m / 2 ^ sh
  let r := m % 2 ^ sh
  if 2 ^ sh < 2 * r ∨ (2 ^ sh = 2 * r ∧ q % 2 = 1) then q + 1 else q

/-- Rounding (-1)^neg · m · 2^e to a binary32 word (R188). -/
def round (neg : Bool) (m : Nat) (e : Int) : F32 :=
  if m = 0 then zeroW neg
  else
    let q := max ((Nat.log2 m : Int) + e - 23) (-149)
    let sh := q - e
    let mant := if sh ≤ 0 then m * 2 ^ (-sh).toNat else rneShift m sh.toNat
    let (mant, q) := if mant = 2 ^ 24 then (2 ^ 23, q + 1) else (mant, q)
    if mant < 2 ^ 23 then zeroW neg
    else
      let b := q + 150
      if 255 ≤ b then infW neg
      else BitVec.ofNat 32 ((if neg then 2 ^ 31 else 0) + b.toNat * 2 ^ 23 + (mant - 2 ^ 23))

/-- The signed sum of two dyadic values as (sign, magnitude, exponent); an exact zero sum of unlike signs is +0. -/
def sumOf (n1 : Bool) (m1 : Nat) (e1 : Int) (n2 : Bool) (m2 : Nat) (e2 : Int) : Bool × Nat × Int :=
  let e := min e1 e2
  let a := m1 * 2 ^ (e1 - e).toNat
  let b := m2 * 2 ^ (e2 - e).toNat
  if n1 = n2 then (n1, a + b, e)
  else if a = b then (false, 0, e)
  else if b < a then (n1, a - b, e) else (n2, b - a, e)

/-- Sign flip. -/
def neg (a : F32) : F32 := a ^^^ 0x80000000#32
/-- Magnitude. -/
def abs (a : F32) : F32 := a &&& 0x7FFFFFFF#32

/-- a + b, rounded once. -/
def add (a b : F32) : F32 :=
  match val a, val b with
  | .nan, _ => nanW
  | _, .nan => nanW
  | .inf s, .inf t => if s = t then infW s else nanW
  | .inf s, _ => infW s
  | _, .inf t => infW t
  | .fin s m e, .fin t n f => let (u, k, g) := sumOf s m e t n f; round u k g

/-- a − b. -/
def sub (a b : F32) : F32 := add a (neg b)

/-- a · b + c, rounded once (the fused operation of R188). -/
def fma (a b c : F32) : F32 :=
  match val a, val b, val c with
  | .nan, _, _ => nanW
  | _, .nan, _ => nanW
  | _, _, .nan => nanW
  | .inf s, .inf t, .inf u => if (s != t) = u then infW u else nanW
  | .inf s, .inf t, _ => infW (s != t)
  | .inf s, .fin t n _, w =>
    if n = 0 then nanW else
    match w with
    | .inf u => if (s != t) = u then infW u else nanW
    | _ => infW (s != t)
  | .fin s m _, .inf t, w =>
    if m = 0 then nanW else
    match w with
    | .inf u => if (s != t) = u then infW u else nanW
    | _ => infW (s != t)
  | _, _, .inf u => infW u
  | .fin s m e, .fin t n f, .fin u k g =>
    let (r, j, h) := sumOf (s != t) (m * n) (e + f) u k g
    round r j h

/-- a · b. -/
def mul (a b : F32) : F32 :=
  match val a, val b with
  | .nan, _ => nanW
  | _, .nan => nanW
  | .inf s, .inf t => infW (s != t)
  | .inf s, .fin t n _ => if n = 0 then nanW else infW (s != t)
  | .fin s m _, .inf t => if m = 0 then nanW else infW (s != t)
  | .fin s m e, .fin t n f => round (s != t) (m * n) (e + f)

/-- The quotient of two naturals with 2^k scaling, its last bit set when inexact. -/
def quoAt (k m n : Nat) : Nat := 2 * (m * 2 ^ k / n) + (if m * 2 ^ k % n = 0 then 0 else 1)

/-- The quotient of two naturals with 2^64 scaling, its last bit set when inexact. -/
def quo (m n : Nat) : Nat := quoAt 64 m n

/-- a / b. -/
def div (a b : F32) : F32 :=
  match val a, val b with
  | .nan, _ => nanW
  | _, .nan => nanW
  | .inf _, .inf _ => nanW
  | .inf s, .fin t _ _ => infW (s != t)
  | .fin s _ _, .inf t => zeroW (s != t)
  | .fin s m e, .fin t n f =>
    if n = 0 then (if m = 0 then nanW else infW (s != t))
    else round (s != t) (quo m n) (e - f - 65)

/-- The integer square root, bit `i - 1` downwards from the partial root `r`. -/
def isqrtFrom (x : Nat) : Nat → Nat → Nat
  | 0, r => r
  | i + 1, r => isqrtFrom x i (if (r + 2 ^ i) * (r + 2 ^ i) ≤ x then r + 2 ^ i else r)

/-- ⌊√x⌋. -/
def isqrt (x : Nat) : Nat := isqrtFrom x (Nat.log2 x / 2 + 1) 0

/-- √a; of a negative number a NaN, of −0 −0. -/
def sqrt (a : F32) : F32 :=
  match val a with
  | .nan => nanW
  | .inf s => if s then nanW else infW false
  | .fin s m e =>
    if m = 0 then zeroW s
    else if s then nanW
    else
      let e' := e - 80
      let e'' := if e' % 2 = 0 then e' else e' - 1
      let x := m * 2 ^ (e - e'').toNat
      let r := isqrt x
      round false (2 * r + (if r * r = x then 0 else 1)) (e'' / 2 - 1)

/-- The exact value as a rational; NaN and the infinities read as 0 (callers test them first). -/
def toRat (a : F32) : Rat :=
  match val a with
  | .fin s m e =>
    let v : Rat := if 0 ≤ e then ((m * 2 ^ e.toNat : Nat) : Rat) else mkRat m (2 ^ (-e).toNat)
    if s then -v else v
  | _ => 0

/-- A rational, rounded to nearest, ties to even. The scaling leaves at least 63 bits before the sticky one. -/
def ofRat (x : Rat) : F32 :=
  let k := 64 + Nat.log2 x.den
  round (decide (x < 0)) (quoAt k x.num.natAbs x.den) (-((k : Int) + 1))

/-- A natural number, rounded. -/
def ofNat (n : Nat) : F32 := round false n 0

/-- An integer, rounded. -/
def ofInt (i : Int) : F32 := round (decide (i < 0)) i.natAbs 0

/-- Not a number. -/
def isNaN (a : F32) : Bool := match val a with | .nan => true | _ => false
/-- A number that is neither NaN nor infinite. -/
def isFin (a : F32) : Bool := match val a with | .fin _ _ _ => true | _ => false
/-- A word as an operand reads: a subnormal is zero of the same sign (R188). -/
def flush (a : F32) : F32 := if (a.toNat / 2 ^ 23) % 256 == 0 then a &&& 0x80000000#32 else a

/-- A non-zero pattern that R188 reads as zero. -/
def isSub (a : F32) : Bool := (a.toNat / 2 ^ 23) % 256 == 0 && a.toNat % 2 ^ 23 != 0
/-- Finite and greater than zero. -/
def isPos (a : F32) : Bool := match val a with | .fin s m _ => !s && m != 0 | _ => false
/-- Finite and zero or positive. -/
def isNonneg (a : F32) : Bool := match val a with | .fin s m _ => !s || m == 0 | _ => false

/-- a < b; false when either is a NaN. -/
def lt (a b : F32) : Bool :=
  match val a, val b with
  | .nan, _ => false
  | _, .nan => false
  | .inf s, .inf t => s && !t
  | .inf s, _ => s
  | _, .inf t => !t
  | .fin s m e, .fin t n f =>
    let g := min e f
    let x : Int := (m * 2 ^ (e - g).toNat : Nat)
    let y : Int := (n * 2 ^ (f - g).toNat : Nat)
    decide ((if s then -x else x) < (if t then -y else y))

/-- a ≤ b; false when either is a NaN. -/
def le (a b : F32) : Bool := !isNaN a && !isNaN b && !lt b a
/-- a = b in value. -/
def eq (a b : F32) : Bool := le a b && le b a
/-- The smaller. -/
def fmin (a b : F32) : F32 := if lt b a then b else a
/-- The greater. -/
def fmax (a b : F32) : F32 := if lt a b then b else a
/-- min(max(a, lo), hi). -/
def clamp (a lo hi : F32) : F32 := fmin (fmax a lo) hi

/-- The nearest integer of a rational, ties to even. -/
def rneRat (x : Rat) : Int :=
  let f := x.floor
  let r := x - (f : Rat)
  if r < (1 : Rat) / 2 then f
  else if (1 : Rat) / 2 < r then f + 1
  else if f % 2 = 0 then f else f + 1

/-- The nearest integer of a finite word, ties to even. -/
def toIntRne (a : F32) : Int := rneRat (toRat a)

end F32

/-! Sine and cosine to the accuracy of R185. -/

/-- 2π to 20 decimals. -/
def tauQ : Rat := mkRat 628318530717958647693 100000000000000000000

/-- An angle in turns as radians in (−π, π]. -/
def radQ (t : Rat) : Rat :=
  let f := t - (t.floor : Rat)
  (if 1 / 2 < f then f - 1 else f) * tauQ

/-- The series 1 − x²/(k(k+1)) · (1 − x²/((k+2)(k+3)) · …) of `n` factors. -/
def series (x2 : Rat) : Nat → Nat → Rat
  | 0, _ => 1
  | n + 1, k => 1 - x2 / ((k * (k + 1) : Nat) : Rat) * series x2 n (k + 2)

/-- Sine and cosine of an angle in turns, by 15 factors of their series: within 2^-50. -/
def sinQ (t : Rat) : Rat := radQ t * series (radQ t * radQ t) 15 2
def cosQ (t : Rat) : Rat := series (radQ t * radQ t) 15 1

/-- The word `w` where it lies within 2^-22 of `x` with 2^-40 to spare, else the word nearest to `x`. -/
def accurate (w : F32) (x : Rat) : F32 :=
  let d := F32.toRat w - x
  if F32.isFin w && decide (-(mkRat 1 (2 ^ 22) - mkRat 1 (2 ^ 40)) ≤ d) && decide (d ≤ mkRat 1 (2 ^ 22) - mkRat 1 (2 ^ 40)) then w else F32.ofRat x

/-- The sine and cosine of R185, open within ±2^-22 (log 7). -/
def sinAcc (t : Rat) : F32 := accurate (Config.sinTurns t) (sinQ t)
def cosAcc (t : Rat) : F32 := accurate (Config.cosTurns t) (cosQ t)

/-! The transforms of R185. -/

/-- √3 and √3/2. -/
def sqrt3F : F32 := 0x3FDDB3D7#32
def sqrt32F : F32 := 0x3F5DB3D7#32

/-- Clarke's transform and its inverse (R185). -/
def clarke (v : List Word) : List F32 :=
  let a := v.getD 0 0
  let b := v.getD 1 0
  let c := v.getD 2 0
  let three := F32.ofNat 3
  [F32.div (F32.sub (F32.sub (F32.mul F32.twoW a) b) c) three, F32.div (F32.sub b c) sqrt3F, F32.div (F32.add (F32.add a b) c) three]
def clarkeInv (v : List Word) : List F32 :=
  let al := v.getD 0 0
  let be := v.getD 1 0
  let z := v.getD 2 0
  let h := F32.neg (F32.mul F32.halfW al)
  let t := F32.mul sqrt32F be
  [F32.add al z, F32.add (F32.add h t) z, F32.add (F32.sub h t) z]

/-- The transforms (R185) of input `v` in mode `md` with the sine and cosine of the angle, before the gain. -/
def xfmOut (md : Nat) (v : List Word) (co si : F32) : List F32 :=
  let u := if md = 2 then [v.getD 0 0, v.getD 1 0, 0] else clarke v
  let al := u.getD 0 0
  let be := u.getD 1 0
  if md = 1 then u
  else [F32.add (F32.mul al co) (F32.mul be si), F32.add (F32.neg (F32.mul al si)) (F32.mul be co), u.getD 2 0]
def ixfOut (md : Nat) (v : List Word) (co si : F32) : List F32 :=
  let d := v.getD 0 0
  let q := v.getD 1 0
  let u := if md = 1 then v
    else [F32.sub (F32.mul d co) (F32.mul q si), F32.add (F32.mul d si) (F32.mul q co), if md = 2 then 0 else v.getD 2 0]
  if md = 2 then u else clarkeInv u

end Sys2Proof
end

