-- ==== Sys2Proof/Machine/Units.lean ====
section
/-! DEFINITION. The state of each unit beside its registers: what the rules make a unit remember although no register shows it. -/

namespace Sys2Proof.Machine

/-- The variants of R2. -/
inductive Variant where
  | vnk8256 | vnk8248 | vnk8232
deriving DecidableEq, Repr

/-- Where the device stands between a power fail and the end of boot (R84, R87): rails down, reset released and boot not yet
ended, or booted. -/
inductive Phase where
  | down | booting | up
deriving DecidableEq, Repr

/-- A switch command or safe level (R200, R232). -/
inductive Lvl where
  | off | lo | hi
deriving DecidableEq, Repr

/-- An edge of R202 that is to come: its instant, the levels of PLSn and ENn from then on, whether its falling edge at ENn opens no
blanking window (R240), and whether the command becomes OFF with it (the idle time of R210). -/
structure PinEdge where
  time : Nat
  pls : Bool
  en : Bool
  hush : Bool := false
  off : Bool := false
deriving DecidableEq, Repr

/-- The seven shadowed words of a leg (R225), in address order. -/
structure Shadow where
  per : Word
  ton : Word
  toff : Word
  cmp : Word
  dtr : Word
  dtf : Word
  iref : Word
deriving DecidableEq, Repr

/-- An identification slot of a leg (R217, R218, R444): the growth of ΔI, the predicted charge (0 until t1 has ended), the baselines
of IPH and VDC, whether the number of active legs has changed since its start, and the results that followed it, newest first. -/
structure SlotM where
  neg : Bool
  dIx : F32
  qpred : F32 := 0
  yb : F32
  ybDc : F32
  moved : Bool := false
  iph : List F32 := []
  vdc : List F32 := []
deriving DecidableEq, Repr

/-- A capacitance estimate that waits for the rest of its VDC results (R444): the slot, IDW, T_s and q_meas. -/
structure CapM where
  slot : SlotM
  k : Nat
  ts : F32
  q : F32
deriving DecidableEq, Repr

/-- The slots of a group (R217): the angle of its source at the last comparison, plus 1; the tick of the last interval; whether a slot
is due. -/
structure IdM where
  prev : Nat := 0
  last : Option Nat := none
  due : Bool := false
deriving DecidableEq, Repr

/-- The part of its period a TCM or DIRECT leg is in. -/
inductive Part where
  | none | first | second
deriving DecidableEq, Repr

/-- A leg's modulator and cell (R200 to R245): the command, the pins with the edges still to come, the demands of R233, the pending
stage and the one a commit in the cycle of a reload must leave in force, the ticks of the last commit and reload, the counter with its
phase (0 to 2 × PER − 1) at an instant (R220, R229), the period's held values (R208), the off-time in use (R222), the latest period
(0: none, R214), the cut of R464, the identification slot that is due, the one that runs, the capacitance estimate that waits (R444), the lost volt-seconds since the last reload,
the refresh and the check it owes, the shift of R330, the tick at which a forced hold ends (R237); whether the present command of the cell is one of the agents above the modulator (R232),
whether an on-time has begun on which ACT 2 has still to be looked at (R464), the instant of a load by SYNC_IN that is to come (R229). Instants
are in units of 125 ps from the model's tick 0. -/
structure LegM where
  modCmd : Lvl := .off
  cell : Lvl := .off
  pls : Bool := false
  en : Bool := false
  seq : List PinEdge := []
  demCmp : BitVec 16 := 0
  demMod : BitVec 24 := 0
  demTrip : BitVec 8 := 0
  driving : Bool := false
  pend : Option Shadow := none
  prev : Option Shadow := none
  cmTick : Option Nat := none
  rlTick : Option Nat := none
  ctrOn : Bool := false
  ctrFirst : Bool := false
  up : Bool := true
  cUse : Nat := 0
  ctrPh : Nat := 0
  ctrAt : Nat := 0
  part : Part := .none
  floor : Bool := false
  idle : Bool := false
  fbDue : Bool := false
  lHeld : F32 := 0
  dIHeld : F32 := 0
  t1 : Nat := 0
  perStart : Nat := 0
  perLen : Nat := 0
  toff : Nat := 0
  cut : Bool := false
  slotNow : Bool := false
  slot : Option SlotM := none
  cap : Option CapM := none
  lostNow : F32 := 0
  refresh : Bool := false
  checkDue : Bool := false
  shift : Int := 0
  forceEnd : Option Nat := none
  safe : Bool := false
  rose : Bool := false
  syncLoad : Option Nat := none
deriving DecidableEq, Repr

/-- A modulator input (R142 to R153): the latest samples, newest first, as far back as a sinc3 of ratio 256 reaches; which of its filters
have settled; the run of equal samples, up to 256, with its level and whether it has been told (R143); the cycles in a row outside the
window, up to 16, and whether they have been told (R151); the tick in which its filters began anew, the samples taken since, and the tick
in which its metrology filter began anew (R142, R153); the results before the latest, newest first; and the sum and number of
magnitudes since the last thermal-model tick, and whether one was not finite (R443). -/
structure ModIn where
  bits : List Bool := []
  setC : Bool := false
  setO : Bool := false
  setM : Bool := false
  lvl : Bool := false
  run : Nat := 0
  told : Bool := false
  ocRun : Nat := 0
  ocTold : Bool := false
  start : Nat := 0
  taken : Nat := 0
  startM : Nat := 0
  hist : List F32 := []
  absSum : Rat := 0
  absCnt : Nat := 0
  absBad : Bool := false
deriving DecidableEq, Repr

/-- A modulator block: the latch of R179, the ticks of its last two decimations and their number, at most 2; the tick MCLKm started
in, the tick of its last decimation instant, and the ticks of the CARRIER decimations to come, earliest first (R147). -/
structure ModBlk where
  cout : List F32 := [0, 0, 0, 0, 0, 0]
  ang0 : Nat := 0
  ang1 : Nat := 0
  shaft : Nat := 0
  tk : Nat := 0
  tk1 : Nat := 0
  decims : Nat := 0
  t0 : Nat := 0
  lastAt : Option Nat := none
  due : List Nat := []
deriving DecidableEq, Repr

/-- The outputs of a tracker (R254). -/
structure GridOut where
  omega : F32 := 0
  f : F32 := 0
  rocof : F32 := 0
  vpd : F32 := 0
  vpq : F32 := 0
  vnd : F32 := 0
  vnq : F32 := 0
  vpmag : F32 := 0
  vshift : F32 := 0
deriving DecidableEq, Repr

/-- A grid tracker (R250 to R257): the last α and β, the integrators, ω′ (none: its reset value), the last FLL rate, x and θ, and
θ as it stood at the last update; its outputs; the anchor of the published angle as angle, tick, nanoseconds before that tick and frequency (none: nominal); whether the run
of R255 stands; the frequencies of the last 500 ms with their ticks, newest first; the tick of the first update; the
zero-crossing detector with its last sample at or below 0 and the first above, the last crossing in device time, and whether the
timeout of this episode has been told. -/
structure GridM where
  ua : F32 := 0
  ub : F32 := 0
  a : F32 := 0
  qa : F32 := 0
  b : F32 := 0
  qb : F32 := 0
  w : Option F32 := none
  r : F32 := 0
  x : F32 := 0
  th : Nat := 0
  thk : Nat := 0
  out : GridOut := {}
  alpha : F32 := 0
  beta : F32 := 0
  ancTh : Nat := 0
  ancTk : Nat := 0
  ancNs : Nat := 0
  ancW : Option F32 := none
  good : Bool := false
  hist : List (Nat × F32) := []
  first : Option Nat := none
  zarm : Bool := false
  zle : Option (Nat × F32) := none
  zab : Option (Nat × F32) := none
  zlast : Option Nat := none
  ztold : Bool := false
deriving DecidableEq, Repr

/-- A global scan in progress (R319): the operating voltage before it, P_pre, the point, the periods still to run at it, the sum of p
there with its count, and the largest mean so far with its voltage. -/
structure ScanM where
  vop : F32
  ppre : F32
  j : Nat
  left : Nat
  sum : Rat := 0
  cnt : Nat := 0
  best : Option (F32 × F32) := none
deriving DecidableEq, Repr

/-- What a channel remembers beside its registers: the legs that have still to transfer a channel commit, and the tick of the last one
(R136, R225); the committed slot values as written, which a grant may hide (R271, R329); the probe amplitude of the window and whether
it injects (R300); for the allocation (R277) the tick of the last run, the enter-service ramp due (R296), the q
grant before RIDE (R295), the limited return from FORM (R286), the granted powers, the power passed to linked channels, and θ_v, ω_v and E_v as the last run
published them (R272, R275). -/
structure ChM where
  pend : Nat := 0
  cmTick : Option Nat := none
  req : SMap Word := []
  ip : F32 := 0
  inj : Bool := false
  lastRun : Option Nat := none
  entRamp : Bool := false
  iqPre : F32 := 0
  fromForm : Bool := false
  sigP : F32 := 0
  sigQ : F32 := 0
  sigPX : F32 := 0
  sigTh : F32 := 0
  sigW : F32 := 0
  sigE : F32 := 0
deriving DecidableEq, Repr

/-- A virtual machine of R283: θ_v in turns, ω_v, E_v, the offset of its droop that R286 sets, the last demands, whether VILIM has stayed
set and the demand of R285 has stayed small, and the tick at which the dead-bus rise began. -/
structure FormM where
  thv : F32 := 0
  wv : F32 := 0
  ev : F32 := 0
  eofs : F32 := 0
  dd : F32 := 0
  dq : F32 := 0
  vilRun : Bool := false
  retRun : Bool := false
  rise : Option Nat := none
  deadOk : Bool := false
deriving DecidableEq, Repr

/-- The tracker of a DCDC channel (R312 to R322): the operating and held voltages, the demand, gradient and mean power, the reference
and bounds of R314; the half-period in progress with its start tick, sum and count; the mean of the positive half; whether the period is
void; the scan; V_oc; the tick from which V_op falls in START, or the battery's bounds rise; the parameters of the start in force (R313). -/
structure DcM where
  vop : F32 := 0
  vmpp : F32 := 0
  pd : F32 := 0
  g : F32 := 0
  pbar : F32 := 0
  vref : F32 := 0
  ihi : F32 := 0
  ilo : F32 := 0
  dv : F32 := 0
  open_ : Bool := false
  neg : Bool := false
  t0 : Nat := 0
  sum : Rat := 0
  cnt : Nat := 0
  pPos : F32 := 0
  void : Bool := false
  scan : Option ScanM := none
  scanDue : Bool := false
  startTk : Option Nat := none
  vstart : F32 := 0
  setl : Nat := 0
  koc : F32 := 0
  ssrate : F32 := 0
  vmin : F32 := 0
  vmax : F32 := 0
  ssms : Nat := 0
  slots : SMap Word := []
deriving DecidableEq, Repr

/-- The estimator of a port (R303 to R306): the sum over the window, its updates, whether it is spoilt, and the accepted windows since
the baseline was cleared. -/
structure ZPort where
  re : F32 := 0
  im : F32 := 0
  m : Nat := 0
  bad : Bool := false
  wins : Nat := 0
  roc : Bool := false
deriving DecidableEq, Repr

/-- The ISL unit (R298 to R310): the ports' estimators, the served ports last seen, the tick of the last entry to FOLLOW or FORM,
the tick at which holdover began, whether ISL_REDUCED has been raised in this episode, whether the reduction ends at the next boundary,
whether |Δf| has stayed beyond AFDDF, and the probe cycles before the present tick (R301). -/
structure IslM where
  z0 : ZPort := {}
  z1 : ZPort := {}
  served : Nat := 0
  passAt : Option Nat := none
  holdAt : Option Nat := none
  told : Bool := false
  fbEnd : Bool := false
  afd : Bool := false
  cycles : Nat := 0
deriving DecidableEq, Repr

/-- The RIDE unit (R289 to R297): the running timers of the curve points in nanoseconds plus 1, by 64 × port + 16 × curve + point, those
already crossed, the device time of the last update of each port, whether it lay in the reconnection window then, and the tick of the
entry to RIDE. -/
structure RideM where
  timers : SMap Nat := []
  crossed : List Nat := []
  last0 : Option Nat := none
  last1 : Option Nat := none
  win0 : Bool := false
  win1 : Bool := false
  t0 : Nat := 0
deriving DecidableEq, Repr

/-- The MACH unit (R323 to R336): the accepted input levels, the count, the edges within the speed window as ticks and running counts,
newest first, the resolver's angle in units of 2^-32 turn and its speed, the speed ωm; the granted currents, the voltages of the last
reload and the duties of the three groups; the tick at which a stop began (R335), and whether the channel lies in IDLE after it. -/
structure MachM where
  a : Bool := false
  b : Bool := false
  cnt : Nat := 0
  pos : Int := 0
  edges : List (Nat × Int) := []
  zseen : Bool := false
  thr : Nat := 0
  wr : F32 := 0
  gid : F32 := 0
  giq : F32 := 0
  vmag : F32 := 0
  vlim : F32 := 0
  vdc : F32 := 0
  rlim : F32 := 0
  iqlim : F32 := 0
  duty : List F32 := [0, 0, 0]
  stopAt : Option Nat := none
  coast : Bool := false
deriving DecidableEq, Repr

/-- A live accumulator of a converter entry (R158). -/
structure Acc where
  sum : Int := 0
  cnt : Nat := 0
  min : Int := 0x7FFFFF
  max : Int := -0x800000
deriving DecidableEq, Repr

/-- An execution that occupies a lane (R196), with what its start fixed: its loop, channel and trigger; its sample period and the number
of its stages; the gain sets in use and before (R192), with their coefficients as they stood (R176), each with its poison; the angles
(GRID0, GRID1, shaft) and the COUT values it reads (R179); and whether a poisoned header ends it at once (R190). -/
structure LoopRun where
  d : Nat
  ch : Nat
  trig : Nat := 0
  ts : F32 := 0
  nstg : Nat := 0
  gset : Nat := 0
  old : Nat := 0
  gain : List (Word × Bool) := []
  ang : List Nat := []
  cout : List Word := []
  dead : Bool := false
deriving DecidableEq, Repr

/-- The loop engine (R193 to R199): the waiting executions as tier, tick of the trigger and loop, in the order of their triggers; the
executions on the lanes; the set being admitted; and of the active loops the tier, trigger and channel admitted as tier + 4 × TRIG +
32 × CH, those whose first execution is to come, and those no execution has given a gain set. -/
structure LengM where
  wait : List (Nat × Nat × Nat) := []
  lanes : List LoopRun := []
  admitAt : Option Nat := none
  info : SMap Nat := []
  first : List Nat := []
  unused : List Nat := []
deriving DecidableEq, Repr

/-- An interval of a metered port (R349, R350): its opening and its close in device time, the tick it opened in, the samples, the
energies in 2^-32 µWh as they stood at its opening and their changes since, by register, the extremes, the reversals, the reasons and the flags. -/
structure Ival where
  topen : Nat := 0
  tclose : Option Nat := none
  tick : Nat := 0
  nsamp : Nat := 0
  base : List Nat := []
  chg : List Int := []
  vmin : Option F32 := none
  vmax : F32 := 0
  pmax : F32 := 0
  rev : Nat := 0
  rsn : Nat := 0
  flags : Nat := 0
deriving DecidableEq, Repr

/-- A metered port (R337 to R352): the latest raw results of each channel and the latest samples, newest first (seven calibrated values
and three products H(v)·i); the cycle detector with its samples around zero and the last crossing in seconds, the window length (0:
nominal); the sign of the last non-zero P_E; the intervals, oldest first, the last one open; whether an interval has been closed since the
boot, and a sample taken; the samples of the block of cycles in progress, with the cycles counted and the cycles it takes, and of the one
complete with the cycles it took; SEQ. -/
structure MtrPort where
  raw : List (List Int) := []
  hist : List (List F32) := []
  armed : Bool := false
  zle : Option (Nat × F32) := none
  zab : Option (Nat × F32) := none
  xing : Option Rat := none
  nc : Nat := 0
  neg : Option Bool := none
  ivals : List Ival := []
  started : Bool := false
  sampled : Bool := false
  blk : Option (List (List F32)) := none
  cyc : Nat := 0
  hcyc : Nat := 0
  done : Option (List (List F32)) := none
  doneCyc : Nat := 0
  seq : Nat := 0
  snapTk : Option Nat := none
deriving DecidableEq, Repr

/-- A pulse output (R354, R355): the count towards the next quantum in 2^-32 µWh, the ticks of the last two quanta, whether the ball
stands at its active level, and the width of that pulse in ticks. -/
structure PulseM where
  cnt : Nat := 0
  q0 : Option Nat := none
  q1 : Option Nat := none
  active : Bool := false
  width : Nat := 0
deriving DecidableEq, Repr

/-- The MTR unit: the 16 energy registers in units of 2^-32 µWh (R345), the ports and the pulse outputs. -/
structure MtrM where
  energy : SMap Nat := []
  p0 : MtrPort := {}
  p1 : MtrPort := {}
  pul0 : PulseM := {}
  pul1 : PulseM := {}
deriving DecidableEq, Repr

/-- A converter (R155 to R162): conversions made of the entry in progress, a CONT sequence to resume at ascent, whether START began the
sequence that runs, the tick of the last start, the live accumulators, the one of the entry in progress as it stood when that entry
began, the last corrected conversion of each entry, and the tick of the last snapshot with what it captured. -/
structure PadcM where
  rep : Nat := 0
  resume : Bool := false
  byStart : Bool := false
  startAt : Option Nat := none
  acc : SMap Acc := []
  start : Acc := {}
  last : SMap Int := []
  snapAt : Option Nat := none
  snapAcc : SMap Acc := []
deriving DecidableEq, Repr

/-- A comparator (R163 to R172): the DAC code in use and the one held until a ramp restart, whether its ramp has restarted, the offset
of the margin plan in use while a ramp is linked, whether ACT 1 has acted on the present output, the last self-test verdict, and of a
window whether the pin stands beyond its upper and its lower limit (R168), and the tick in which ACT 2 last counted. -/
structure CmpM where
  dacUse : Nat := 0xFFF
  dacHeld : Option Nat := none
  rampSeen : Bool := false
  ofsUse : Nat := 0
  acted : Bool := false
  lastFail : Bool := false
  winHi : Bool := false
  winLo : Bool := false
  cutAt : Option Nat := none
deriving DecidableEq, Repr

/-- A comparator ramp (R164): the tick of its last restart, and the slope held for the next one. -/
structure RampM where
  t0 : Nat := 0
  slopeUse : Nat := 0
  slopeHeld : Option Nat := none
deriving DecidableEq, Repr

/-- A self-test step that runs (R170, R171); `host` when STGO.GO asked for it. -/
structure SelfTest where
  host : Bool := false
  cmp : Nat
  type : Nat
  pre : Bool
  stexp : Bool
deriving DecidableEq, Repr

/-- A word waiting in the host write buffer (R126). `pairLow` marks the low half of an aligned 64-bit word whose high half came in
the same frame (R421); `fence` is the number of writes of HIF.FENCE.GO accepted before it (R132). -/
structure BufWord where
  addr : Nat
  val : Word
  pairLow : Bool := false
  fence : Nat := 0
deriving DecidableEq, Repr

/-- A status code of R121. -/
inductive Status where
  | ok | crcerr | absent | poison | locked | range | busy
deriving DecidableEq, Repr

/-- A read result held for FETCH (R124). -/
structure ReadRes where
  addr : Nat
  words : List (Word × Status)
deriving DecidableEq, Repr

/-- The host interface (R118 to R133): the write buffer, the read result and the READ being served, a FENCE frame pending, the writes of
HIF.FENCE.GO accepted and those that have taken effect, and the bytes the device returned to the last frame. -/
structure HifM where
  buf : List BufWord := []
  held : Option ReadRes := none
  reading : Option (Nat × Nat) := none
  fenceFrame : Bool := false
  fenceIn : Nat := 0
  fenceOut : Nat := 0
  answer : List Byte := []
deriving DecidableEq, Repr

/-- The PLL divider in use (R60). -/
structure ClkM where
  src : Nat := 0
  refdiv : Nat := 1
  n : Nat := 160
  frac : Nat := 0
  relocking : Bool := false
  stopped : Bool := false
deriving DecidableEq, Repr

/-- An egress timestamp of R80. -/
structure TxStamp where
  src : Nat
  msgType : Nat
  domain : Nat
  seqId : Nat
  time : Nat
deriving DecidableEq, Repr

/-- The time counters (R65 to R83). A counter is its time in units of 2^-30 ns, below 2^48 s. `slew` is the residual S at the
switch tick in the same units, `slewLen` and `slewAt` the window and the elapsed part in ticks; `switchTo` the counter that a switch
takes in the next tick. `loaded` tells that the counters have been loaded since the reset (R75), `trgAt` the tick in which each slot was
armed with a value already passed, plus 1 (R83). `srvA` and `srvB` are the ticks of the last activity of the two domains (R74), `ppsF` counter F at the last
captured edge (R81). Of PPS_OUT: its level, the second of its source last seen, whether a pulse is due, and the tick at which the pulse
ends (R82). -/
structure TimeM where
  f : Nat := 0
  a : Nat := 0
  b : Nat := 0
  slew : Int := 0
  slewLen : Nat := 0
  slewAt : Nat := 0
  switchTo : Option Nat := none
  loaded : Bool := false
  trgAt : SMap Nat := []
  srvA : Nat := 0
  srvB : Nat := 0
  lastPps : Option Nat := none
  ppsF : Nat := 0
  ppsOut : Bool := false
  ppsMark : Option Int := none
  ppsDue : Bool := false
  ppsEnd : Nat := 0
  fifoA : List TxStamp := []
  fifoB : List TxStamp := []
deriving DecidableEq, Repr

/-- A record of the journal queue (R411), its SEQ given when it is queued. -/
structure JRec where
  seq : Nat
  time : Nat
  kind : Nat
  src : Nat
  cls : Nat
  flags : Nat
  dclass : Nat
  scope : Nat
  aux : Nat
  data : Nat
deriving DecidableEq, Repr

/-- The journal (R411 to R416): the queue, its head being the record in the course of writing, and the tick of the last record
queued for each source. -/
structure JrnlM where
  queue : List JRec := []
  lastAt : SMap (Option Nat) := []
deriving DecidableEq, Repr

/-- A fault record's scope, its class configured at the raise, its grace timer as the tick of its expiry (in FAST and DORMANT as the ticks
that remain; R400, R405, R409), and what a checkpoint's copy of it holds (R112). -/
structure FltRec where
  isOpen : Bool := false
  scope : Nat := 0
  dclass : Nat := 0
  flags : Nat := 0
  timer : Option Nat := none
  order : Nat := 0
  time : Nat := 0
  seq : Nat := 0
  iraw : Nat := 0
deriving DecidableEq, Repr

/-- The keeper domain (R102 to R117): keeper time as seconds, crystal count and phase, the pending crossing write, the checkpoint being
written (its slot and bytes), whether the keeper is halted and its register file lost, the thresholds passed falling, and a refused
burst still to be raised at boot; whether, at the last measurement, VDD_IO lay in its range, HV_IN above the harvester's set point, and
HV_IN below DAWNV (R105). -/
structure KeepM where
  sec : Nat := 0
  sub : Nat := 0
  phase : Nat := 0
  crossing : Option (Nat × Word) := none
  ckpt : Option (Nat × List Byte) := none
  halted : Bool := false
  rfGone : Bool := false
  low1 : Bool := false
  low2 : Bool := false
  bootRef : Bool := false
  vddOk : Bool := false
  above : Bool := false
  dawnLow : Bool := true
deriving DecidableEq, Repr

/-- What the reset and boot sequence remembers: the causes of the resets released and not yet in BOOT.CAUSE, by its bits; the main rails
that have fallen since the last power-on, as in R44 from the top, and whether VDD_IO lies below 0.8 V (R41, R43); the descent in
progress, and the one that waits for the end of a fuse operation (R433), the tick of the wake that an ascent follows; the loaded DATA entries, each with its payload length and the place of its first digest (R91); the copy in progress (entry,
block, destination; R93); the microcode store; the header in use; whether EVENT 0x03 is still to be journalled (R100); the seal word (0
none, 1 SEALING, 2 SEALED) with its reference (R459); the instruction in the TAP (R40: 0 BYPASS,
1 SAMPLE, 2 PRELOAD, 3 EXTEST). -/
structure BootM where
  cause : Nat := 1
  lost : Nat := 0
  dark : Bool := false
  descend : Option Nat := none
  descWait : Option Nat := none
  ascend : Option Nat := none
  dataEnts : List (Nat × Nat × Nat) := []
  copy : Option (Nat × Nat × Nat) := none
  micro : List Byte := []
  hdr : List Byte := []
  digestEvent : Bool := false
  sealSt : Nat := 0
  sealRef : Word := 0
  jtag : Nat := 0
deriving DecidableEq, Repr

/-- The fuses (R430): the owner slots' hash bits, their VALID bits and the anti-rollback counters. -/
structure FuseM where
  slot0 : Nat := 0
  slot1 : Nat := 0
  v0 : Bool := false
  v1 : Bool := false
  c0 : Nat := 0
  c1 : Nat := 0
  c2 : Nat := 0
  c3 : Nat := 0
deriving DecidableEq, Repr

/-- The security unit (R430 to R441): the fuses, the operation in progress (its code, and the hash or counter and target), the image of the
load in progress as it was read (none: a word of it was poisoned), the report being signed, and the digests of the loaded images. -/
structure SecM where
  fuse : FuseM := {}
  fop : Option (Nat × Nat × Nat) := none
  load : Option (List Byte) := none
  report : List Byte := []
  digMicro : List Byte := []
  digCfg : List Byte := []
  digDesc : List Byte := []
  digData : List (List Byte) := []
deriving DecidableEq, Repr

/-- The ledger in force (R445); of the calibration codes a zero ledger holds none. -/
structure Ledger where
  copy : Nat := 1
  mseq : Nat := 0
  runsec : Nat := 0
  tbin : SMap Nat := []
  legcyc : SMap Nat := []
  rodeg : SMap Nat := []
  trim : List Word := []
  cap : SMap Word := []
  mwmax : Nat := 0
deriving DecidableEq, Repr

/-- Ageing (R442 to R451): the ledger, the live delta (R446), the turning points of the rainflow counts, the temperature rises of the
legs, the capacitor references and estimates of the channels, a run requested, the oscillator frequencies of a run whose merge waits
(R446), the bounds in force (R451, at reset the reset values of the block), and the summary of the last plan (R450). -/
structure AgeM where
  led : Ledger := {}
  dTbin : SMap Nat := []
  dLeg : SMap Nat := []
  dRun : Nat := 0
  flowT : SMap (List Int) := []
  flowL : SMap (List Rat) := []
  rise : SMap F32 := []
  cref : SMap F32 := []
  eref : SMap F32 := []
  tjHi : Bool := false
  tjMax : Bool := false
  req : Bool := false
  run : Option (List (Nat × Nat)) := none
  bnd : List Word := [0x3F59999A, 0x00030810, 5000, 2000, 4000, 0x002DC6C0, 0x41200000, 0x3E4CCCCD, 0x3ECCCCCD, 0x3F000000]
  planned : Bool := false
  planData : Nat := 0
  planR : Nat := 0
  planW : F32 := 0
deriving DecidableEq, Repr

/-- A trip input (R238 to R242): its ball, pulled high (R38), its blanking window, and whether it stands qualified. -/
structure TripM where
  ball : Bool := true
  blankOpen : Bool := false
  activeSeen : Bool := false
  qualified : Bool := false
deriving DecidableEq, Repr

/-- An auxiliary driver (R246 to R249): whether its supply lies below lock-out, the minimum interval that runs, the comparator level taken, the PWM on-time with the period and
on-time sampled, and whether the lock-out episode has been reported. -/
structure GdoM where
  low : Bool := false
  minRun : Bool := false
  cmpLvl : Bool := false
  phaseHi : Bool := false
  per : Nat := 0
  on : Nat := 0
  uvTold : Bool := false
deriving DecidableEq, Repr

/-- The mode controller (R262 to R267): hardware transitions that have fallen due and wait, by CAUSE code; whether a ramp-down of
R264 runs and the ticks it has run; the ticks of the reconnection timer; whether AUTORES requests PRIOR in the next tick. -/
structure ModeM where
  due : List Nat := []
  ramp : Bool := false
  rampT : Nat := 0
  recon : Nat := 0
  autoDue : Bool := false
  hwAt : Option Nat := none
deriving DecidableEq, Repr

/-- A twin-path cycle (R389): its SEQ, the paths seen and bytes 4 to 31 of the first copy. -/
structure TpCycle where
  seq : Nat
  path : Nat
  body : List Byte
  demand : Bool
deriving DecidableEq, Repr

/-- The safety island (R377 to R395): the filtered levels of the SSTOP inputs, whether the start-up test has passed, whether the hold
of R382 stands, what began the stop that runs (its cause, speed, evaluations so far and tick, the mode it began in), and the twin path's
open cycle, whether LASTSEQ has been taken and whether the latest cycle was accepted with SAFEWORD 0. -/
structure SafeM where
  lvlA : Bool := true
  lvlB : Bool := true
  tested : Bool := false
  hold : Bool := true
  causeShut : Bool := false
  shutDemand : Bool := false
  w0 : F32 := 0
  t10 : Nat := 0
  at0 : Nat := 0
  idle : Bool := false
  cycle : Option TpCycle := none
  seqSeen : Bool := false
  accepted0 : Bool := false
deriving DecidableEq, Repr

/-- The scrubber's place (R427); which of ALM.W0 to ALM.W3 hold poisoned data, a bit each (R423); and the MRAM words whose cells no longer
take what is written to them, by their addresses divided by 8 (R428). No rule names the event by which a cell fails: none has at reset, and
no command adds one (log 40). -/
structure EccM where
  arr : Nat := 0
  ofs : Nat := 0
  almPoison : Nat := 0
  weak : List Nat := []
deriving DecidableEq, Repr

/-- A frame waiting in an egress queue (R359 to R363): its length without FCS, its blocks in the packet buffers, the port it came from
(none: this device), its ingress timestamp and the counter of that; for a streaming frame its stream, FSEQ and samples, whether a copy of
it left with GAP and whether its samples are counted in LOST (R375); whether it was at the head when the cycle began, gates in use. -/
structure QFrame where
  len : Nat
  blks : List Nat
  src : Option Nat := none
  ctr : Nat := 0
  ts : Nat := 0
  strm : Option (Nat × Nat × Nat) := none
  gap : Bool := false
  lost : Bool := false
  held : Bool := false
deriving DecidableEq, Repr

/-- A gate list (R365): its entries as words, its cycle, its base and the instant from which it is operative, in the 64-bit nanosecond
form. -/
structure GateList where
  ents : List Word := []
  cyc : Nat := 0
  base : Nat := 0
  start : Nat := 0
deriving DecidableEq, Repr

/-- A port's egress side: the operative list's cycle and base, the pending list, and the frame last sent with whether its FCS was
inverted. -/
structure PortM where
  cyc : Nat := 0
  base : Nat := 0
  pend : Option GateList := none
  out : Option (List Byte × Bool) := none
deriving DecidableEq, Repr

/-- A setpoint slot (R370, R371): TAPPLY, the writes as channel, slot and value, and for a slot accepted with TAPPLY reached the tick of
that. -/
structure SpSlot where
  tapply : Nat := 0
  writes : List (Nat × Nat × Word) := []
  late : Option Nat := none
deriving DecidableEq, Repr

/-- A stream (R373 to R375): the samples of the frame being filled as ticks after T0, poison and values, T0 with its tick, the samples
taken, the sample-ready events since the last one taken, whether it has started and stopped, and the flags its next frame carries. -/
structure StrmM where
  cur : List (Nat × Bool × List Word) := []
  t0 : Nat := 0
  tk0 : Nat := 0
  total : Nat := 0
  div : Nat := 0
  started : Bool := false
  done : Bool := false
  gap : Bool := false
  leap : Bool := false
deriving DecidableEq, Repr

/-- The network (R356 to R376): the egress queues by 8 × port + queue, the ports, the setpoint slots, the last accepted SEQ, the
streams, and whether the management frame in progress reads (R14, R357). -/
structure NetM where
  q : SMap (List QFrame) := []
  p0 : PortM := {}
  p1 : PortM := {}
  sp : SMap SpSlot := []
  seq : Option Nat := none
  strm : SMap StrmM := []
  mdRead : Bool := false
deriving DecidableEq, Repr

/-- An entry of the Almanac written through ALM.ACC.WR: its index, its two words, and which of them are poisoned (R33, R420). -/
structure AlmNew where
  idx : Nat
  lo : Nat
  hi : Nat
  pLo : Bool := false
  pHi : Bool := false
deriving DecidableEq, Repr

/-- The Almanac (R25 to R33): firings left over from earlier ticks as entry, target and argument, oldest first; the firing counts of
every-k-th entries; each base's angle at the last comparison, plus 1; the entries whose present firing was missed; the entries written
in the present tick, which hold from the next tick (R33); the marked words that a comparison has met, by their addresses divided by 8
(R420, log 25). -/
structure AlmM where
  left : List (Nat × Nat × Nat) := []
  count : SMap Nat := []
  prev : SMap Nat := []
  missed : List Nat := []
  fresh : List AlmNew := []
  met : List Nat := []
deriving DecidableEq, Repr

end Sys2Proof.Machine
end

