-- ==== Sys2Proof/Machine/Pages.lean ====
section
/-! DEFINITION. The page map (R452, R453), the fault sources (R397) and the reset value of every register address (R455). -/

namespace Sys2Proof

/-- Page bases (R453). -/
def Pg.SYS : Nat := 0x0
def Pg.CLK : Nat := 0x1000
def Pg.TIME : Nat := 0x2000
def Pg.BOOT : Nat := 0x3000
def Pg.KEEP : Nat := 0x4000
def Pg.HIF : Nat := 0x5000
def Pg.FLT : Nat := 0x6000
def Pg.JRNL : Nat := 0x7000
def Pg.ECC : Nat := 0x8000
def Pg.SEC : Nat := 0x9000
def Pg.AGE : Nat := 0xA000
def Pg.SAFE : Nat := 0xB000
def Pg.ALM : Nat := 0x10000
def Pg.LENG : Nat := 0x11000
def Pg.GRID (p : Nat) : Nat := 0x12000 + 0x1000 * p
def Pg.ALLOC : Nat := 0x14000
def Pg.RIDE : Nat := 0x15000
def Pg.ISL : Nat := 0x16000
def Pg.FORM : Nat := 0x17000
def Pg.CH (c : Nat) : Nat := 0x18000 + 0x1000 * c
def Pg.LEG (n : Nat) : Nat := 0x20000 + 0x1000 * n
def Pg.LEGX : Nat := 0x38000
def Pg.MOD : Nat := 0x40000
def Pg.PADC : Nat := 0x41000
def Pg.CMP : Nat := 0x42000
def Pg.TRIP : Nat := 0x43000
def Pg.MTR : Nat := 0x48000
def Pg.MTRE : Nat := 0x49000
def Pg.MACH : Nat := 0x50000
def Pg.NET : Nat := 0x58000
def Pg.NETQ : Nat := 0x59000
def Pg.STRM : Nat := 0x5A000

/-- The header fields of R137 on the page at base `pg`. -/
def F.EN (pg : Nat) : Fld := ⟨pg + 0x8, 0, 0⟩
def F.SRST (pg : Nat) : Fld := ⟨pg + 0x8, 1, 1⟩
def F.LOCK (pg : Nat) : Fld := ⟨pg + 0x8, 31, 31⟩
def F.IRAW (pg : Nat) : Fld := ⟨pg + 0x10, 31, 0⟩
def F.IEN (pg : Nat) : Fld := ⟨pg + 0x14, 31, 0⟩
def F.IFLG (pg : Nat) : Fld := ⟨pg + 0x18, 31, 0⟩
def F.COMMIT (pg : Nat) : Fld := ⟨pg + 0x20, 0, 0⟩
def F.PEND (pg : Nat) : Fld := ⟨pg + 0x20, 1, 1⟩

/-- Bit `b` of a field. -/
def Fld.at (f : Fld) (b : Nat) : Fld := ⟨f.addr, f.lo + b, f.lo + b⟩

namespace RegMap

/-- The UNIT code of the page with number `q` (address / 0x1000), 0 for a gap (R452, R453). -/
def unitOf (q : Nat) : Nat :=
  if q ≤ 0xB then q + 1
  else if q < 0x10 then 0
  else if q = 0x10 then 0x10
  else if q = 0x11 then 0x11
  else if q ≤ 0x13 then 0x12
  else if q ≤ 0x17 then q - 1
  else if q ≤ 0x1F then 0x18
  else if q ≤ 0x37 then 0x20
  else if q = 0x38 then 0x21
  else if q < 0x40 then 0
  else if q ≤ 0x43 then q - 0x18
  else if q < 0x48 then 0
  else if q ≤ 0x49 then q - 0x18
  else if q = 0x50 then 0x38
  else if q < 0x58 then 0
  else if q ≤ 0x5A then q - 0x18
  else 0

/-- The instance number of the page with number `q`. -/
def instOf (q : Nat) : Nat :=
  if 0x12 ≤ q ∧ q ≤ 0x13 then q - 0x12
  else if 0x18 ≤ q ∧ q ≤ 0x1F then q - 0x18
  else if 0x20 ≤ q ∧ q ≤ 0x37 then q - 0x20 else 0

/-- Whether page number `q` lies in the map and is present on the variant (R2, R453). -/
def present (v : Machine.Variant) (q : Nat) : Bool :=
  unitOf q != 0 &&
  match v with
  | .vnk8256 => true
  | .vnk8248 => q != 0x17 && q != 0x50
  | .vnk8232 => q != 0x17 && q != 0x50 && !(0x1C ≤ q && q ≤ 0x1F) && !(0x30 ≤ q && q ≤ 0x37)

/-- PCAP of page number `q` (R453). -/
def pcap (v : Machine.Variant) (q : Nat) : Nat :=
  match unitOf q with
  | 0x06 => 0x40
  | 0x07 => 0x50100
  | 0x08 => 0x1000
  | 0x09 => 6
  | 0x0A => 0x40002
  | 0x0B => 0x80004
  | 0x0C => 2
  | 0x10 => 0x100
  | 0x11 => 0x04401008
  | 0x12 => 7
  | 0x13 => 8
  | 0x14 => 0x40010
  | 0x15 => 7
  | 0x16 => 8
  | 0x18 => if v = .vnk8256 then 0xF else 7
  | 0x20 => 0xF
  | 0x21 => if v = .vnk8232 then 0x10040003 else 0x18080003
  | 0x28 => 0x18000004
  | 0x29 => 0x020C0010
  | 0x2A => 0x10080000
  | 0x2B => 8
  | 0x30 => 0x02000002
  | 0x31 => 0x208
  | 0x38 => 3
  | 0x40 => if v = .vnk8232 then 0x208 else 0x10208
  | 0x41 => 0x200802
  | 0x42 => 0x1008
  | _ => 0

/-- The IRAW bits that the chapter of page number `q` defines; the others are reserved (R137). -/
def irawBits (q : Nat) : Nat :=
  match unitOf q with
  | 0x01 => 3
  | 0x07 => 7
  | 0x08 => 3
  | 0x09 => 7
  | 0x0A => 7
  | 0x0B => 7
  | 0x0C => 0xF
  | 0x11 => 0xF
  | 0x12 => 7
  | 0x13 => 7
  | 0x14 => 7
  | 0x15 => 7
  | 0x16 => 3
  | 0x18 => 0x300
  | 0x20 => 0x71F
  | 0x21 => 3
  | 0x28 => 7
  | 0x29 => 0xF
  | 0x2A => 7
  | 0x2B => 1
  | 0x30 => 0x1F
  | 0x31 => 1
  | 0x38 => 0xF
  | 0x40 => 0x1F
  | 0x41 => 3
  | 0x42 => 0xFF
  | _ => 0

/-- The register table of the page with UNIT code `u`. -/
def tableOf (u : Nat) : List RegDef :=
  match u with
  | 0x01 => pageSYS
  | 0x02 => pageCLK
  | 0x03 => pageTIME
  | 0x04 => pageBOOT
  | 0x05 => pageKEEP
  | 0x06 => pageHIF
  | 0x07 => pageFLT
  | 0x08 => pageJRNL
  | 0x09 => pageECC
  | 0x0A => pageSEC
  | 0x0B => pageAGE
  | 0x0C => pageSAFE
  | 0x10 => pageALM
  | 0x11 => pageLENG
  | 0x12 => pageGRID
  | 0x13 => pageALLOC
  | 0x14 => pageRIDE
  | 0x15 => pageISL
  | 0x16 => pageFORM
  | 0x18 => pageCH
  | 0x20 => pageLEG
  | 0x21 => pageLEGX
  | 0x28 => pageMOD
  | 0x29 => pagePADC
  | 0x2A => pageCMP
  | 0x2B => pageTRIP
  | 0x30 => pageMTR
  | 0x31 => pageMTRE
  | 0x38 => pageMACH
  | 0x40 => pageNET
  | 0x41 => pageNETQ
  | 0x42 => pageSTRM
  | _ => []

/-- The table row of the register at address `a`. -/
def find (a : Nat) : Option RegDef := (tableOf (unitOf (a / 0x1000))).find? fun r => r.holds (a % 0x1000)

/-- The default class of source `n`; none for a number that R397 does not list. -/
def fltClass (n : Nat) : Option Nat :=
  if n < 0x80 then
    if n = 0x00 ∨ n = 0x02 ∨ n = 0x07 ∨ n = 0x09 ∨ n = 0x10 ∨ n = 0x12 ∨ n = 0x20 ∨ n = 0x29 ∨ n = 0x58 ∨ n = 0x59 ∨ n = 0x5A
      ∨ n = 0x5D ∨ n = 0x7A ∨ n = 0x7B then some 2
    else if n = 0x01 ∨ n = 0x03 ∨ n = 0x13 ∨ n = 0x14 then some 4
    else if n = 0x08 then some 0
    else if (0x04 ≤ n ∧ n ≤ 0x06) ∨ (0x0A ≤ n ∧ n ≤ 0x0C) ∨ n = 0x11 ∨ n = 0x2A ∨ (0x30 ≤ n ∧ n ≤ 0x36) ∨ (0x38 ≤ n ∧ n ≤ 0x3F)
      ∨ n = 0x5B ∨ n = 0x78 ∨ n = 0x79 ∨ n = 0x7C ∨ n = 0x7D ∨ n = 0x7E then some 1
    else if (0x21 ≤ n ∧ n ≤ 0x28) ∨ (0x40 ≤ n ∧ n ≤ 0x57) ∨ n = 0x5C ∨ (0x60 ≤ n ∧ n ≤ 0x77) then some 3
    else none
  else if n < 0xB0 then (if n % 2 = 0 then some 2 else some 3)
  else none

/-- The page that raises source `n` (R397). -/
def fltPage (n : Nat) : Nat :=
  if n < 0x02 then Pg.SYS else if n < 0x04 then Pg.CLK else if n = 0x04 then Pg.TIME else if n = 0x05 then Pg.BOOT
  else if n = 0x06 then Pg.KEEP else if n = 0x07 then Pg.JRNL else if n < 0x0A then Pg.ECC else if n < 0x0C then Pg.SEC
  else if n = 0x0C then Pg.AGE else if n < 0x20 then Pg.SAFE else if n < 0x30 then Pg.LENG else if n < 0x32 then Pg.GRID 0
  else if n < 0x34 then Pg.GRID 1 else if n = 0x34 then Pg.RIDE else if n < 0x38 then Pg.ISL else if n < 0x40 then Pg.FORM
  else if n < 0x59 then Pg.MOD else if n = 0x59 then Pg.PADC else if n = 0x5A then Pg.CMP else if n = 0x5B then Pg.LEGX
  else if n < 0x60 then Pg.MACH else if n < 0x70 then Pg.CMP else if n < 0x78 then Pg.TRIP else if n < 0x7D then Pg.MTR
  else if n < 0x80 then Pg.NET else Pg.LEG ((n - 0x80) / 2)

/-- The source that FFORCE bit `b` of the page with number `q` raises (R397). -/
def fltOfForce (q b : Nat) : Option Nat :=
  match unitOf q with
  | 0x01 => if b < 2 then some b else none
  | 0x02 => if b < 2 then some (2 + b) else none
  | 0x03 => if b = 0 then some 4 else none
  | 0x04 => if b = 0 then some 5 else none
  | 0x05 => if b = 0 then some 6 else none
  | 0x08 => if b = 0 then some 7 else none
  | 0x09 => if b < 2 then some (8 + b) else none
  | 0x0A => if b < 2 then some (0xA + b) else none
  | 0x0B => if b = 0 then some 0xC else none
  | 0x0C => if b < 5 then some (0x10 + b) else none
  | 0x11 => if b < 11 then some (0x20 + b) else none
  | 0x12 => if b < 2 then some (0x30 + 2 * instOf q + b) else none
  | 0x14 => if b = 0 then some 0x34 else none
  | 0x15 => if b < 2 then some (0x35 + b) else none
  | 0x16 => if b < 8 then some (0x38 + b) else none
  | 0x20 => if b < 2 then some (0x80 + 2 * instOf q + b) else none
  | 0x21 => if b = 0 then some 0x5B else none
  | 0x28 => if b < 25 then some (0x40 + b) else none
  | 0x29 => if b = 0 then some 0x59 else none
  | 0x2A => if b < 16 then some (0x60 + b) else if b = 16 then some 0x5A else none
  | 0x2B => if b < 8 then some (0x70 + b) else none
  | 0x30 => if b < 5 then some (0x78 + b) else none
  | 0x38 => if b < 2 then some (0x5C + b) else none
  | 0x40 => if b < 2 then some (0x7D + b) else none
  | _ => none

/-- The reset value of the register at address `a` (R455 and the tables). The default class of a fault source shows in its DEF and
CLASS fields; QMASK of the second pulse output has a reset of its own; CHECK holds the check value of
the reset parameter block (R393). -/
def resetOf (a : Nat) : Word :=
  if a < 0x100000 then
    if a % 0x1000 < 0x40 then (if a = Pg.LENG + 0x10 then 4 else if a = Pg.SAFE + 0x10 then 8 else 0)
    else if Pg.FLT + 0x400 ≤ a ∧ a < Pg.FLT + 0x800 then
      (match fltClass ((a - (Pg.FLT + 0x400)) / 4) with
       | none => 0
       | some c => BitVec.ofNat 32 (c * 16 + c))
    else if a = Pg.MTR + 0x50 then 0x0643203C#32
    else if a = Pg.SAFE + 0x44 then 0xAE64659F#32
    else match find a with
      | none => 0
      | some r => BitVec.ofNat 32 r.reset
  else 0

end RegMap
end Sys2Proof
end

