-- ==== Sys2Proof/Machine/State.lean ====
section
/-! DEFINITION. The machine's state as plain data, the reasons a step can stop, and the state right after reset. -/

namespace Sys2Proof.Machine

/-- Reasons to stop with a fault: there is none. No command of the table stops the device; every detection of the spec acts on the
state (a fault record, a latch, a status code). -/
inductive Fault where
deriving DecidableEq, Repr

/-- Reasons to refuse a command. -/
inductive Refusal where
  /-- Raised by the dispatcher for a command that has no meaning yet; safe: nothing is claimed of it. -/
  | notModelled (mnemonic : String)
deriving DecidableEq, Repr

/-- The whole device. `regs` holds the registers by byte address; an unlisted address reads its reset value. `hwSet` holds the
W1C bits that hardware has set in the present tick (R13). `mem` holds the bytes of
the memory arrays, `chk` the stored check bits of each 64-bit word XOR the computed ones, `valid` the valid words of the
valid-bit class. The other fields hold what the units remember beside their registers. -/
structure State where
  variant : Variant
  phase : Phase
  tmode : Bool
  regs : SMap Word
  hwSet : SMap Word
  mem : List Host.Cell
  chk : SMap Byte
  valid : SMap Bool
  clk : ClkM
  time : TimeM
  boot : BootM
  keep : KeepM
  sec : SecM
  age : AgeM
  hif : HifM
  alm : AlmM
  leng : LengM
  mtr : MtrM
  net : NetM
  flt : SMap FltRec
  jrnl : JrnlM
  ecc : EccM
  mode : ModeM
  safe : SafeM
  legs : SMap LegM
  ids : SMap IdM
  grids : SMap GridM
  chs : SMap ChM
  forms : SMap FormM
  dcs : SMap DcM
  isl : IslM
  ride : RideM
  subsSeen : Nat
  syncAt : Option Nat
  syncOutAt : Option Nat
  mach : MachM
  mods : SMap ModIn
  blks : SMap ModBlk
  padc : SMap PadcM
  cmps : SMap CmpM
  ramps : SMap RampM
  stRun : Option SelfTest
  stWait : List (Nat × Bool)
  trips : SMap TripM
  gdos : SMap GdoM
  free : Nat
  tick : Nat
  pending : List Instr
deriving DecidableEq, Repr

/-- The device right after reset is released (R84, R85, R455): every register at its reset value, memory with nothing listed, boot
not yet ended. The variant is the model's choice (log 2). -/
def State.reset : State where
  variant := .vnk8256
  phase := .booting
  tmode := false
  regs := []
  hwSet := []
  mem := []
  chk := []
  valid := []
  clk := {}
  time := {}
  boot := {}
  keep := {}
  sec := {}
  age := {}
  hif := {}
  alm := {}
  leng := {}
  mtr := {}
  net := {}
  flt := []
  jrnl := {}
  ecc := {}
  mode := {}
  safe := {}
  legs := []
  ids := []
  grids := []
  chs := []
  forms := []
  dcs := []
  isl := {}
  ride := {}
  subsSeen := 0
  syncAt := none
  syncOutAt := none
  mach := {}
  mods := []
  blks := []
  padc := []
  cmps := []
  ramps := []
  stRun := none
  stWait := []
  trips := []
  gdos := []
  free := 0
  tick := 0
  pending := []

end Sys2Proof.Machine
end

