-- ==== Sys2Proof/Machine/Ops.lean ====
section
/-! DEFINITION. The named operations over registers, memory and the interrupt flags that every meaning is written with. -/

namespace Sys2Proof.Machine

/-- The bits [hi:lo] of a word. -/
def wordGet (w : Word) (hi lo : Nat) : Nat := w.toNat / 2 ^ lo % 2 ^ (hi + 1 - lo)

/-- A word with its bits [hi:lo] replaced by `v` modulo their width. -/
def wordPut (w : Word) (hi lo v : Nat) : Word :=
  BitVec.ofNat 32 (w.toNat / 2 ^ (hi + 1) * 2 ^ (hi + 1) + v % 2 ^ (hi + 1 - lo) * 2 ^ lo + w.toNat % 2 ^ lo)

namespace State

/-- The stored word of a register (R8); an address nothing has written holds its reset value. -/
def reg (s : State) (a : Nat) : Word := SMap.get RegMap.resetOf s.regs a

/-- Storing a register. -/
def setReg (s : State) (a : Nat) (w : Word) : State := { s with regs := SMap.set RegMap.resetOf s.regs a w }

/-- The value of a field. -/
def rd (s : State) (f : Fld) : Nat := wordGet (s.reg f.addr) f.hi f.lo

/-- Writing a field, modulo its width. -/
def wr (s : State) (f : Fld) (v : Nat) : State := s.setReg f.addr (wordPut (s.reg f.addr) f.hi f.lo v)

/-- A one-bit field, or any field, read as a truth value. -/
def bit (s : State) (f : Fld) : Bool := s.rd f != 0

/-- Setting a one-bit field. -/
def setBit (s : State) (f : Fld) (b : Bool) : State := s.wr f (if b then 1 else 0)

/-- The W1C bits of the register at `a` that hardware has set in the present tick (R13). -/
def hwBits (s : State) (a : Nat) : Word := SMap.get (fun _ => 0) s.hwSet a

/-- Hardware sets a W1C field, which a host write of the same tick then does not clear (R13). -/
def latch (s : State) (f : Fld) : State :=
  { s.wr f (2 ^ f.width - 1) with
    hwSet := SMap.set (fun _ => 0) s.hwSet f.addr (s.hwBits f.addr ||| wordPut 0 f.hi f.lo (2 ^ f.width - 1)) }

/-- What a written word may clear of the W1C bits at `a` (R13). -/
def clears (s : State) (a : Nat) (v : Word) : Word := v &&& ~~~(s.hwBits a)

/-- A binary32 field. -/
def f32 (s : State) (f : Fld) : F32 := BitVec.ofNat 32 (s.rd f)

/-- Writing a binary32 field. -/
def wrF (s : State) (f : Fld) (v : F32) : State := s.wr f v.toNat

/-- A counter that saturates at its maximum. -/
def sat (s : State) (f : Fld) : State := s.wr f (min (s.rd f + 1) (2 ^ f.width - 1))

/-- A counter raised by `k`, saturating. -/
def satBy (s : State) (f : Fld) (k : Nat) : State := s.wr f (min (s.rd f + k) (2 ^ f.width - 1))

/-- A counter that wraps. -/
def wrap (s : State) (f : Fld) : State := s.wr f (s.rd f + 1)

/-- Bit `b` of a field. -/
def rdBit (s : State) (f : Fld) (b : Nat) : Bool := s.rd f / 2 ^ b % 2 == 1

/-- The 64-bit quantity in two consecutive registers, low word first (R9). -/
def rd64 (s : State) (lo : Fld) : Nat := (s.reg lo.addr).toNat + 2 ^ 32 * (s.reg (lo.addr + 4)).toNat

/-- Writing a 64-bit quantity, low word at the lower offset (R9). -/
def wr64 (s : State) (lo : Fld) (v : Nat) : State :=
  (s.setReg lo.addr (BitVec.ofNat 32 v)).setReg (lo.addr + 4) (BitVec.ofNat 32 (v / 2 ^ 32))

/-- Zeroing a list of fields. -/
def clear (s : State) : List Fld → State
  | [] => s
  | f :: t => (s.wr f 0).clear t

/-- The next free value (log 6). -/
def fresh (s : State) : State := { s with free := s.free + 1 }

/-- A real-valued result in a unit whose number format the spec leaves open (log 5), stored in a binary32 field. -/
def wrQ (s : State) (f : Fld) (x : Rat) : State := ((s.wrF f (Config.rounded s.free x))).fresh

/-- A result whose rounding the spec leaves open (log 5), and the state with its number used up. -/
def rnd (s : State) (x : Rat) : F32 × State := (Config.rounded s.free x, s.fresh)

/-- A sum of binary32 words: with at most one that is not zero there is nothing to round. -/
def sumF (s : State) (l : List F32) : F32 × State :=
  match l.filter fun x => x &&& 0x7FFFFFFF#32 != 0#32 with
  | [] => (0, s)
  | [x] => (x, s)
  | xs => s.rnd (xs.map F32.toRat).sum

/-- The square root of an exact value, 0 of a negative one (log 5). -/
def root (s : State) (x : Rat) : F32 × State := if x ≤ 0 then (0, s) else (Config.rootOf s.free x, s.fresh)

/-- The exact value of a binary32 field. -/
def q (s : State) (f : Fld) : Rat := F32.toRat (s.f32 f)

/-- The operating mode (R258). -/
def modeNow (s : State) : Nat := s.rd F.SYS_MODE

/-- The rung (R96). -/
def rung (s : State) : Nat := s.rd F.SYS_RUNG

/-- Whether the page at base `pg` is present (R3). -/
def has (s : State) (pg : Nat) : Bool := RegMap.present s.variant (pg / 0x1000)

/-- The unit behind the page at base `pg` is enabled (R137). -/
def enabled (s : State) (pg : Nat) : Bool := s.bit (F.EN pg)

/-! Instances. -/

def leg (s : State) (n : Nat) : LegM := SMap.get (fun _ => {}) s.legs n
def setLeg (s : State) (n : Nat) (l : LegM) : State := { s with legs := SMap.set (fun _ => {}) s.legs n l }
def grid (s : State) (p : Nat) : GridM := SMap.get (fun _ => {}) s.grids p
def setGrid (s : State) (p : Nat) (v : GridM) : State := { s with grids := SMap.set (fun _ => {}) s.grids p v }
def ch (s : State) (c : Nat) : ChM := SMap.get (fun _ => {}) s.chs c
def setCh (s : State) (c : Nat) (v : ChM) : State := { s with chs := SMap.set (fun _ => {}) s.chs c v }
def form (s : State) (c : Nat) : FormM := SMap.get (fun _ => {}) s.forms c
def setForm (s : State) (c : Nat) (v : FormM) : State := { s with forms := SMap.set (fun _ => {}) s.forms c v }
def dc (s : State) (c : Nat) : DcM := SMap.get (fun _ => {}) s.dcs c
def setDc (s : State) (c : Nat) (v : DcM) : State := { s with dcs := SMap.set (fun _ => {}) s.dcs c v }
def min' (s : State) (n : Nat) : ModIn := SMap.get (fun _ => {}) s.mods n
def setMin (s : State) (n : Nat) (v : ModIn) : State := { s with mods := SMap.set (fun _ => {}) s.mods n v }
def blk (s : State) (m : Nat) : ModBlk := SMap.get (fun _ => {}) s.blks m
def setBlk (s : State) (m : Nat) (v : ModBlk) : State := { s with blks := SMap.set (fun _ => {}) s.blks m v }
def conv (s : State) (c : Nat) : PadcM := SMap.get (fun _ => {}) s.padc c
def setConv (s : State) (c : Nat) (v : PadcM) : State := { s with padc := SMap.set (fun _ => {}) s.padc c v }
def cmp (s : State) (n : Nat) : CmpM := SMap.get (fun _ => {}) s.cmps n
def setCmp (s : State) (n : Nat) (v : CmpM) : State := { s with cmps := SMap.set (fun _ => {}) s.cmps n v }
def ramp (s : State) (r : Nat) : RampM := SMap.get (fun _ => {}) s.ramps r
def setRamp (s : State) (r : Nat) (v : RampM) : State := { s with ramps := SMap.set (fun _ => {}) s.ramps r v }
def trip (s : State) (i : Nat) : TripM := SMap.get (fun _ => {}) s.trips i
def setTrip (s : State) (i : Nat) (v : TripM) : State := { s with trips := SMap.set (fun _ => {}) s.trips i v }
def gdo (s : State) (k : Nat) : GdoM := SMap.get (fun _ => {}) s.gdos k
def setGdo (s : State) (k : Nat) (v : GdoM) : State := { s with gdos := SMap.set (fun _ => {}) s.gdos k v }
def fltRec (s : State) (n : Nat) : FltRec := SMap.get (fun _ => {}) s.flt n
def setFltRec (s : State) (n : Nat) (v : FltRec) : State := { s with flt := SMap.set (fun _ => {}) s.flt n v }

def mtrPort (s : State) (p : Nat) : MtrPort := if p = 0 then s.mtr.p0 else s.mtr.p1
def setMtrPort (s : State) (p : Nat) (v : MtrPort) : State :=
  if p = 0 then { s with mtr := { s.mtr with p0 := v } } else { s with mtr := { s.mtr with p1 := v } }
def pulse (s : State) (k : Nat) : PulseM := if k = 0 then s.mtr.pul0 else s.mtr.pul1
def setPulse (s : State) (k : Nat) (v : PulseM) : State :=
  if k = 0 then { s with mtr := { s.mtr with pul0 := v } } else { s with mtr := { s.mtr with pul1 := v } }

def port (s : State) (p : Nat) : PortM := if p = 0 then s.net.p0 else s.net.p1
def setPort (s : State) (p : Nat) (v : PortM) : State :=
  if p = 0 then { s with net := { s.net with p0 := v } } else { s with net := { s.net with p1 := v } }
def queue (s : State) (p q : Nat) : List QFrame := SMap.get (fun _ => []) s.net.q (8 * p + q)
def setQueue (s : State) (p q : Nat) (l : List QFrame) : State :=
  { s with net := { s.net with q := SMap.set (fun _ => []) s.net.q (8 * p + q) l } }
def sp (s : State) (n : Nat) : SpSlot := SMap.get (fun _ => {}) s.net.sp n
def setSp (s : State) (n : Nat) (v : SpSlot) : State := { s with net := { s.net with sp := SMap.set (fun _ => {}) s.net.sp n v } }
def strm (s : State) (k : Nat) : StrmM := SMap.get (fun _ => {}) s.net.strm k
def setStrm (s : State) (k : Nat) (v : StrmM) : State :=
  { s with net := { s.net with strm := SMap.set (fun _ => {}) s.net.strm k v } }

/-- Energy register `q` of port `p` in units of 2^-32 µWh, and in µWh (R345). -/
def energyRaw (s : State) (p q : Nat) : Nat := SMap.get (fun _ => 0) s.mtr.energy (8 * p + q)
def energy (s : State) (p q : Nat) : Nat := s.energyRaw p q / 2 ^ 32

/-- The wrap counter of an energy register (R345). -/
def energyWrap (s : State) (p q : Nat) : Nat := s.energy p q / (1000 * 2 ^ 32) % 256

/-- The 32-bit alias of an energy register (R345). -/
def energyAlias (s : State) (p q : Nat) : Nat := s.energy p q / 1000 % 2 ^ 32

/-- An energy register takes a value, at most 2^64 − 1 µWh, and its alias shows it (R345). -/
def setEnergy (s : State) (p q v : Nat) : State :=
  let s := { s with mtr := { s.mtr with energy := SMap.set (fun _ => 0) s.mtr.energy (8 * p + q) (min v ((2 ^ 64 - 1) * 2 ^ 32)) } }
  s.wr (F.MTRE_ALIAS p q) (s.energyAlias p q)

/-- A fold of a state change over 0 to n − 1. -/
def each (s : State) (n : Nat) (f : State → Nat → State) : State := (List.range n).foldl f s

/-- The snapshot registers of port `p` take its energies and wrap counters (R347; after a boot those restored). -/
def mtreTake (s : State) (p : Nat) : State :=
  let s := s.each 8 fun s q => s.wr64 (F.MTRE_ELO p q) (s.energy p q)
  let w := fun (q : Nat) => s.energyWrap p q * 2 ^ (8 * (q % 4))
  (s.wr (F.MTRE_WRAPA p) (w 0 + w 1 + w 2 + w 3)).wr (F.MTRE_WRAPB p) (w 4 + w 5 + w 6 + w 7)

end State

/-- A finite binary32 word within decimal bounds, each bound taken as the nearest binary32 value. -/
def inRange (v : Word) (lo hi : Rat) : Bool := F32.isFin v && F32.le (F32.ofRat lo) v && F32.le v (F32.ofRat hi)

/-! Check sums. -/

/-- One bit of CRC-16/CCITT-FALSE (R120). -/
def crc16Bit (c : Nat) : Nat := if c / 2 ^ 15 % 2 = 1 then (c * 2 % 2 ^ 16) ^^^ 0x1021 else c * 2 % 2 ^ 16

/-- CRC-16/CCITT-FALSE of a list of bytes (R120). -/
def crc16 (l : List Byte) : Nat :=
  l.foldl (fun c b => (List.range 8).foldl (fun x _ => crc16Bit x) (c ^^^ (b.toNat * 256))) 0xFFFF

/-- One bit of the reflected CRC-32 of IEEE 802.3. -/
def crc32Bit (c : Nat) : Nat := if c % 2 = 1 then (c / 2) ^^^ 0xEDB88320 else c / 2

/-- CRC-32 of IEEE 802.3 (R411, R387). -/
def crc32 (l : List Byte) : Nat :=
  (l.foldl (fun c b => (List.range 8).foldl (fun x _ => crc32Bit x) (c ^^^ b.toNat)) 0xFFFFFFFF) ^^^ 0xFFFFFFFF

end Sys2Proof.Machine
end

