-- ==== Sys2Proof/Machine/Flags.lean ====
section
/-! DEFINITION. The interrupt flags of a page (R139). -/

namespace Sys2Proof.Machine
namespace State

/-- INTERRUPT_FLAG_SET: the condition of bit `b` takes the level `v`; a 0-to-1 transition of its IRAW bit sets its IFLG bit. -/
def iraw (s : State) (pg b : Nat) (v : Bool) : State :=
  let f := (F.IRAW pg).at b
  let s' := if v && !s.bit f then s.latch ((F.IFLG pg).at b) else s
  s'.setBit f v

/-- A momentary condition: it rises and falls. -/
def ipulse (s : State) (pg b : Nat) : State := ((s.iraw pg b false).iraw pg b true).iraw pg b false

/-- The page requests an interrupt (R139). -/
def ireq (s : State) (pg : Nat) : Bool := s.has pg && (s.reg (pg + 0x14) &&& s.reg (pg + 0x18)) != 0#32

end State
end Sys2Proof.Machine
end

