-- ==== Sys2Proof/Machine/TimeBase.lean ====
section
/-! DEFINITION. Device time: the three counters, the slew residual, the forms a time is read in (R65 to R72), and the journal's queue
(R411 to R415), whose records carry it. -/

namespace Sys2Proof.Machine

/-- One second in units of 2^-30 ns. -/
def secUnits : Nat := 1000000000 * 2 ^ 30

/-- The span of a counter: 2^48 seconds (R65). -/
def timeSpan : Nat := 2 ^ 48 * secUnits

/-- A signed offset added to a counter, which wraps at its span (R65, R70). -/
def timeAdd (t : Nat) (d : Int) : Nat := (((t : Int) + d) % (timeSpan : Int)).toNat

namespace State

/-- Counter 0 F, 1 A, otherwise B (R65). -/
def counter (s : State) (k : Nat) : Nat := if k = 0 then s.time.f else if k = 1 then s.time.a else s.time.b

/-- Setting a counter. -/
def setCounter (s : State) (k v : Nat) : State :=
  if k = 0 then { s with time := { s.time with f := v } }
  else if k = 1 then { s with time := { s.time with a := v } }
  else { s with time := { s.time with b := v } }

/-- The slew residual now: S falls linearly to zero over its window (R72). -/
def slewNow (s : State) : Int :=
  if s.time.slewLen ≤ s.time.slewAt then 0
  else s.time.slew * ((s.time.slewLen - s.time.slewAt : Nat) : Int) / (s.time.slewLen : Int)

/-- Device time: the counter named by ACTIVE less the slew residual (R65). -/
def devTime (s : State) : Nat := timeAdd (s.counter (s.rd F.TIME_ACTIVE)) (-s.slewNow)

/-- Device time `ns` nanoseconds of the core clock ago, at the present rate of its counter. -/
def timeAgo (s : State) (ns : Rat) : Nat :=
  let inc := s.rd (if s.rd F.TIME_ACTIVE = 0 then F.TIME_INCF else if s.rd F.TIME_ACTIVE = 1 then F.TIME_INCA else F.TIME_INCB)
  timeAdd s.devTime (-((ns * ((inc : Nat) : Rat) / 2).floor))

/-- The 64-bit nanosecond form of a time (R65). -/
def ns64 (t : Nat) : Nat := t / 2 ^ 30 % 2 ^ 64

/-- Device time in the 64-bit nanosecond form. -/
def now64 (s : State) : Nat := ns64 s.devTime

/-- The four words of the snapshot layout: SECLO, SECHI, NS, FRAC, from the register at `a` on. -/
def putTime (s : State) (a t : Nat) : State :=
  let sec := t / secUnits
  let sub := t % secUnits
  (((s.setReg a (BitVec.ofNat 32 sec)).setReg (a + 4) (BitVec.ofNat 32 (sec / 2 ^ 32))).setReg (a + 8)
    (BitVec.ofNat 32 (sub / 2 ^ 30))).setReg (a + 12) (BitVec.ofNat 32 (sub % 2 ^ 30 / 2 ^ 14))

/-- The counters of device time run (R61, R75, R112): not before their load, which a boot without a reference does not make (code NOREF)
and an ascent from FAST or DORMANT does, nor while the clock outputs are stopped, nor in FAST and DORMANT. -/
def timeRuns (s : State) : Bool := s.phase == .up && s.time.loaded && s.rung ≤ 2 && !s.clk.stopped

/-- Places occupied in the journal queue, the record in the course of writing among them (R414). -/
def jrnlDepth (s : State) : Nat := s.jrnl.queue.length

/-- JOURNAL_RECORD_QUEUE: a record is queued with the next SEQ, or dropped and counted (R414). -/
def jrnlPush (s : State) (r : JRec) : State :=
  let room := if r.cls < 3 then 28 else 32
  if s.jrnlDepth < room then
    let seq := s.rd F.JRNL_NEXTSEQ
    let s := { s with jrnl := { s.jrnl with
      queue := s.jrnl.queue ++ [{ r with seq := seq }]
      lastAt := if r.kind ≤ 3 then SMap.set (fun _ => none) s.jrnl.lastAt r.src (some s.tick) else s.jrnl.lastAt } }
    (s.wrap F.JRNL_NEXTSEQ).wr F.JRNL_QDEPTH (s.jrnlDepth)
  else (s.sat F.JRNL_DROPCNT).ipulse Pg.JRNL 1

/-- A journal record of `kind` at the present device time. -/
def jrnlAdd (s : State) (kind src cls flags dclass scope aux data : Nat) : State :=
  s.jrnlPush ⟨0, s.now64, kind, src, cls, flags, dclass, scope, aux, data⟩

/-- SYS.WAKEEN and SYS.WAKESRC. -/
def wakeEn : Fld := ⟨0x108, 7, 0⟩
def wakeSrc : Fld := ⟨0x10C, 7, 0⟩

/-- Wake source `b` (its bit in SYS.WAKEEN) is usable in rung `r` (R99). -/
def wakeUsable (r b : Nat) : Bool :=
  if b = 0 || b = 7 then r == 1 || r == 2 else if b = 4 then r == 1 else if b = 5 then r == 3 || r == 4 else 1 ≤ r && r ≤ 4 && b < 7

/-- An ascent begins for source `b`, which SYS.WAKESRC records; one that arrives during a descent waits for its end (R99 to R101). -/
def ascend (s : State) (b : Nat) : State :=
  match s.boot.ascend with
  | some t => if t = s.tick then s.latch (wakeSrc.at b) else s
  | none => (({ s with boot := { s.boot with ascend := some s.tick } }.wr wakeSrc 0).latch (wakeSrc.at b)).wr F.SYS_RUNGMOVING 1

/-- A happening at wake source `b` (R99): in the rung, or the one a descent leads to. The wake logic stops with the keeper (R106). -/
def wake (s : State) (b : Nat) : State :=
  if s.phase == .up && !s.keep.halted && wakeUsable (s.boot.descend.getD s.rung) b && s.bit (wakeEn.at b) then s.ascend b else s

/-- Whether a NOTE raise of source `n` falls within 1 s of the last record of that source (R415). -/
def jrnlRecent (s : State) (n : Nat) : Bool :=
  match SMap.get (fun _ => none) s.jrnl.lastAt n with
  | none => false
  | some t => decide (s.tick - t < 500000000)

end State

/-- The 32 bytes of a journal record (R411). -/
def JRec.bytes (r : JRec) : List Byte :=
  let body := leBytes 4 r.seq ++ leBytes 8 r.time ++ leBytes 1 r.kind ++ leBytes 1 r.src ++ leBytes 1 (r.cls % 8) ++
    leBytes 1 r.flags ++ leBytes 1 r.dclass ++ leBytes 1 r.scope ++ leBytes 2 r.aux ++ leBytes 8 r.data
  body ++ leBytes 4 (crc32 body)

end Sys2Proof.Machine
end

