-- ==== Sys2Proof/Machine/Cells.lean ====
section
/-! DEFINITION. The cell of each leg: who decides its level (R36), the edges at its pins (R202), the ramps and blanking windows those
edges start (R164, R240), and the sub-states of the channels (R263, R268, R269). -/

namespace Sys2Proof.Machine

/-- A safe level (R232). -/
def lvlOf (v : Nat) : Lvl := if v = 1 then .lo else if v = 2 then .hi else .off

/-- The code of a level in PROT.LVL. -/
def Lvl.code : Lvl → Nat
  | .off => 0
  | .lo => 1
  | .hi => 2

namespace State

/-- The sub-state field of channel `c` in SYS.CHSUB. -/
def subF (c : Nat) : Fld := ⟨Pg.SYS + 0x5C, 4 * c + 2, 4 * c⟩

/-- The sub-state of channel `c` (R268). -/
def sub (s : State) (c : Nat) : Nat := s.rd (subF c)

/-- The type of channel `c`: 0 GRID3, 1 GRID1, 2 DCDC, 3 MACH. -/
def chType (s : State) (c : Nat) : Nat := s.rd (F.CH_TYPE c)

/-- A grid channel. -/
def isGrid (s : State) (c : Nat) : Bool := s.chType c < 2

/-- Channel `c` is enabled. -/
def chEn (s : State) (c : Nat) : Bool := s.has (Pg.CH c) && s.enabled (Pg.CH c)

/-- Leg `n` is assigned to a channel by the active map (R6). -/
def mapped (s : State) (n : Nat) : Bool := s.has (Pg.LEG n) && s.bit (F.LEGX_MAPA_VALID n)

/-- The channel of leg `n` in the active map. -/
def legCh (s : State) (n : Nat) : Nat := s.rd (F.LEGX_MAPA_CH n)

/-- The legs the active map assigns to channel `c`. -/
def legsOf (s : State) (c : Nat) : List Nat := (List.range 24).filter fun n => s.mapped n && s.legCh n == c

/-- Pulses are released for channel `c` (R263); a grid channel in CEASED is not, by a hold of R264, nor a machine
channel that lies in IDLE after its stop (R335). -/
def released (s : State) (c : Nat) : Bool :=
  let m := s.modeNow
  s.sub c != 6 &&
  (if s.isGrid c then (m == 3 || m == 4 || (m == 5 && !s.bit F.RIDE_MC)) && s.sub c != 7
   else (m == 3 || m == 4 || m == 5 || (m == 6 && s.rdBit F.SYS_CEASERUN c)) && !(s.chType c == 3 && s.mach.coast))

/-- An override demands leg `n` (R233). -/
def overridden (s : State) (n : Nat) : Bool :=
  let l := s.leg n
  l.demCmp != 0 || l.demMod != 0 || l.demTrip != 0 || s.bit (F.LEG_BOOTLAT n)

/-- STO or mode SAFE holds every cell (R36, R382). -/
def stoHolds (s : State) : Bool := s.safe.hold || s.modeNow == 7

/-- The fault reaction of its channel holds leg `n` (R401). -/
def faultHolds (s : State) (n : Nat) : Bool := s.mapped n && s.sub (s.legCh n) == 6

/-- The conditions of R200 hold for leg `n`, the interlock apart: a coincidence leaves the modulator its command (R236). -/
def legRuns (s : State) (n : Nat) : Bool :=
  s.enabled (Pg.LEG n) && s.mapped n && s.chEn (s.legCh n) && s.released (s.legCh n) && s.rd (F.LEG_MODE n) != 0 &&
  !s.stoHolds && !s.overridden n && !s.faultHolds n

/-- The interlock holds ENn of leg `n` low: a coincidence (R236) or its forced test (R237). -/
def interlocked (s : State) (n : Nat) : Bool := s.bit (F.LEG_XON n) || (s.leg n).forceEnd.isSome

/-- The level the agents of R36 give the cell of leg `n`; the interlock is apart. A TCM or DIRECT leg that is released keeps the level of
the hold until the period start of that tick (R201, R234). -/
def cellLevel (s : State) (n : Nat) : Lvl :=
  if s.stoHolds then .off
  else if s.overridden n then lvlOf (s.rd (F.LEGX_SAFEL n))
  else if s.faultHolds n then lvlOf (s.rd (F.LEGX_SAFEL n))
  else if !s.legRuns n then .off
  else if (s.leg n).driving then (if (s.leg n).refresh then .lo else (s.leg n).modCmd)
  else if 2 ≤ s.rd (F.LEG_MODE n) && !s.bit (F.LEG_SHED n) then (s.leg n).cell
  else .off

/-- PLSn of leg `n` may stay high while the cell is OFF (R6, R38). -/
def plsMay (s : State) (n : Nat) : Bool := s.mapped n && s.modeNow != 0

/-- Comparator `n` is the odd member of a window pair (R168). -/
def cmpOdd (s : State) (n : Nat) : Bool := n % 2 == 1 && s.bit (F.CMP_WIN (n - 1))

/-- The linked ramp of comparator `n`, when it contributes (R163, R168). -/
def cmpRamp (s : State) (n : Nat) : Option Nat :=
  let r := s.rd (F.CMP_RAMP n)
  if s.bit (F.CMP_RAMPEN n) && s.bit (F.CMP_RAMPREN r) && !s.cmpOdd n then some r else none

/-- AGEOFS of comparator `n` (R163, R449): −OFSM with POL 0 and +OFSM with POL 1, in mode M0; the lower limit of a window takes the other
sign, so that both limits act earlier (log 14). -/
def ageOfs (s : State) (n : Nat) : Int :=
  let lead := if s.cmpOdd n then n - 1 else n
  let m : Int := ((if s.bit (F.CMP_RAMPEN n) && !s.cmpOdd n then (s.cmp n).ofsUse else s.rd F.AGE_OFSM : Nat) : Int)
  let win := s.bit (F.CMP_WIN lead) && lead % 2 == 0
  if s.rd (F.CMP_MODE lead) != 0 then 0
  else if (win && n != lead) != s.bit (F.CMP_POL lead) then m else -m

/-- The threshold code in use (R163): DAC + AGEOFS − SLOPE × t / 2^12, clamped. -/
def cmpEff (s : State) (n : Nat) : Nat :=
  let fall : Int :=
    match s.cmpRamp n with
    | none => 0
    | some r => if (s.cmp n).rampSeen then (((s.ramp r).slopeUse * (s.tick - (s.ramp r).t0) / 2 ^ 12 : Nat) : Int) else 0
  (max 0 (min 4095 (((s.cmp n).dacUse : Int) + s.ageOfs n - fall))).toNat

/-- RAMP_RESTART (R164) in tick `t`: every ramp whose reference leg is `n` restarts; the held DAC and SLOPE values take effect. -/
def rampRestart (s : State) (n t : Nat) : State :=
  s.each 8 fun s r =>
    if s.bit (F.CMP_RAMPREN r) && s.rd (F.CMP_RLEG r) == n then
      let rm := s.ramp r
      let s := s.setRamp r { t0 := t, slopeUse := rm.slopeHeld.getD rm.slopeUse, slopeHeld := none }
      s.each 16 fun s k =>
        if s.bit (F.CMP_RAMPEN k) && s.rd (F.CMP_RAMP k) == r && !s.cmpOdd k then
          let c := s.cmp k
          s.setCmp k { c with dacUse := c.dacHeld.getD c.dacUse, dacHeld := none, rampSeen := true, ofsUse := s.rd F.AGE_OFSM }
        else s
    else s

/-- Trip input `i` is active and acts: the TRIP page is enabled (R239). -/
def tripLive (s : State) (i : Nat) : Bool := s.enabled Pg.TRIP && s.rdBit F.TRIP_RAW i

/-- An edge at ENn of leg `n` opens or restarts the blanking windows of the trip inputs whose GRP names the leg (R240). -/
def blankOpen (s : State) (n : Nat) : State :=
  s.each 8 fun s i =>
    if s.enabled Pg.TRIP && s.rd (F.TRIP_FUNC i) = 1 && s.rdBit (F.TRIP_GRP i) n && s.rd (F.TRIP_BLANK i) != 0 then
      let t := s.trip i
      let act := s.rdBit F.TRIP_RAW i
      let s := if act && !(t.blankOpen && t.activeSeen) then s.sat (F.TRIP_BLANKCNT i) else s
      s.setTrip i { t with blankOpen := true, qualified := false, activeSeen := act || (t.blankOpen && t.activeSeen) }
    else s

/-- An edge at the pins of leg `n`: a change at ENn opens the blanking windows of R240, and the entry into high-side on, where an on-time
begins, restarts the ramps (R164, R464). The idle time of R210 leaves PLSn as it is. -/
def pinEdge (s : State) (n : Nat) (e : PinEdge) : State :=
  let l := s.leg n
  let hi := e.pls && e.en
  let s := s.setLeg n { l with pls := if e.off then l.pls else e.pls, en := e.en, cell := if e.off then .off else l.cell
                               modCmd := if e.off then .off else l.modCmd, rose := hi && (l.rose || !(l.pls && l.en)) }
  let s := if e.en != l.en && (e.en || !e.hush) then s.blankOpen n else s
  if hi && !(l.pls && l.en) then s.rampRestart n (e.time / 16) else s

/-- The edges of leg `n` before the instant `t` are made, none beyond the present tick: an edge that falls later waits, since a command of
this tick may still come before it or with it (R203). -/
def edgesDue (s : State) (n t : Nat) : State :=
  let l := s.leg n
  let lim := min t (16 * s.tick + 16)
  (l.seq.filter fun e => e.time < lim).foldl (fun s e => s.pinEdge n e)
    (s.setLeg n { l with seq := l.seq.filter fun e => !(e.time < lim) })

/-- The pins stand in the switch state of a level. -/
def pinsAt (s : State) (n : Nat) (v : Lvl) : Bool :=
  let l := s.leg n
  match v with
  | .off => !l.en
  | .lo => l.en && !l.pls
  | .hi => l.en && l.pls

/-- The idle time still to come of a period of leg `n` that runs (R210). -/
def idleEdges (l : LegM) : List PinEdge := if l.idle && l.part == .second then l.seq.filter (·.off) else []

/-- The cell of leg `n` holds what it is commanded, and makes no edge: a modulator's command it has already, or one of the agents above it
that stands already or that finds the pins in its switch state (R202, R232). -/
def cellHolds (s : State) (n : Nat) (v : Lvl) (safe : Bool) : Bool :=
  let l := s.leg n
  v == l.cell && (!safe || l.safe || ((l.seq.all (·.off)) && s.pinsAt n v))

/-- The cell of leg `n` is commanded to level `v` at the instant `t` (R202, R232); `safe` when an override, the interlock, the fault
reaction or STO commands it, `hush` when its falling edge opens no window. -/
def cellDrive (s : State) (n : Nat) (v : Lvl) (safe hush : Bool) (t : Nat) : State :=
  let s := s.edgesDue n t
  let l := s.leg n
  if s.cellHolds n v safe then
    let l := if safe then { l with safe := true, seq := l.seq.filter fun e => !e.off } else { l with safe := false }
    s.setLeg n (if v = .off && !s.plsMay n then { l with pls := false, seq := [] } else l)
  else
    let pre := (l.seq.filter fun e => e.time < t).map fun e => { e with off := false }
    let idle := if safe then [] else (idleEdges l).filter fun e => t ≤ e.time
    let p0 := (pre.getLast?.map (·.pls)).getD l.pls
    let sq : List PinEdge :=
      match v with
      | .off => [⟨t, p0 && s.plsMay n, false, hush, false⟩]
      | _ =>
        let p := decide (v = .hi)
        let dt := s.rd (if p then F.LEG_ACT_DTR n else F.LEG_ACT_DTF n) + s.rd (F.LEG_DTAGE n)
        if dt = 0 then [⟨t, p, true, hush, false⟩]
        else [⟨t, p0, false, hush, false⟩, ⟨t + dt / 2, p, false, hush, false⟩, ⟨t + dt, p, true, hush, false⟩]
    (s.setLeg n { l with cell := v, safe := safe, seq := pre ++ sq ++ idle }).edgesDue n (t + 1)

/-- The interlock drives ENn of leg `n` low at the instant `t`; the command stays, and so does the idle time it turns into (R210, R236,
R237). -/
def cellCut (s : State) (n t : Nat) : State :=
  let s := s.edgesDue n t
  let l := s.leg n
  (s.setLeg n { l with cell := .off, safe := false, seq := ⟨t, l.pls && s.plsMay n, false, true, false⟩ :: idleEdges l }).edgesDue n (t + 1)

/-- The cell of leg `n` takes at the instant `t` the level R36 gives it, and PROT, STAT.RUN and the conditions show it. A leg whose
modulator R200 holds begins anew. -/
def cellAt (s : State) (n t : Nat) : State :=
  if !s.has (Pg.LEG n) then s
  else
    let runs := s.legRuns n
    let l := s.leg n
    let s := if runs then s else s.setLeg n { l with driving := false, part := .none, refresh := false, modCmd := .off, slotNow := false }
    let safe := s.stoHolds || s.overridden n || s.faultHolds n
    let cut := s.interlocked n && !s.stoHolds
    let s := if cut then s.cellCut n t else s.cellDrive n (s.cellLevel n) safe (s.stoHolds || s.overridden n) t
    let l := s.leg n
    let s := s.setBit (F.LEG_RUN n) (runs && !cut)
    let s := s.setBit (F.LEG_SRCMOD n) (l.demMod != 0)
    let s := s.setBit (F.LEG_SRCCMP n) (l.demCmp != 0)
    let s := s.setBit (F.LEG_SRCTRIP n) (l.demTrip != 0 || s.bit (F.LEG_BOOTLAT n))
    let s := s.setBit (F.LEG_OVR n) (s.overridden n)
    let s := s.setBit (F.LEG_FLT n) (s.faultHolds n)
    let s := s.setBit (F.LEG_STO n) s.stoHolds
    let s := s.wr (F.LEG_LVL n) (if runs && !cut then 3 else l.cell.code)
    s.iraw (Pg.LEG n) 10 (s.overridden n)

/-- The same in the present tick. -/
def cellUpdate (s : State) (n : Nat) : State := s.cellAt n (16 * s.tick)

/-- What a tick brings at the pins of leg `n`: the edges that fall due, the end of a forced hold (R237). -/
def legTick (s : State) (n : Nat) : State :=
  let s := if (s.leg n).seq.isEmpty then s else s.edgesDue n (16 * s.tick)
  match (s.leg n).forceEnd with
  | none => s
  | some t => if t ≤ s.tick then (s.setLeg n { s.leg n with forceEnd := none }).cellAt n (16 * t) else s

/-- Every cell. -/
def cellsAll (s : State) : State := s.each 24 cellUpdate

/-- The cells of the legs in a mask. -/
def cellsIn (s : State) (m : Nat) : State := s.each 24 fun s n => if m / 2 ^ n % 2 = 1 then s.cellUpdate n else s

/-- ISLAND or CURVE waits for the end of a safe stop: the grid channels stay held OFF meanwhile (R264). -/
def ceaseHeld (s : State) : Bool := s.rd F.SAFE_PHASE == 1 && (s.mode.due.contains 3 || s.mode.due.contains 4)

/-- The present sub-state of channel `c` after a change of its release, its enable or its legs (R268, R269). `ceased` tells that a
release withdrawn now shows CEASED on a grid channel. -/
def subUpdate (s : State) (ceased : Bool) (c : Nat) : State :=
  let v := s.sub c
  let nv :=
    if v = 6 then 6
    else if !s.chEn c || (s.legsOf c).isEmpty then 0
    else
      let v := if v = 0 then 1 else v
      if (ceased || s.ceaseHeld) && s.isGrid c then 7
      else if s.released c then (if v = 1 then 2 else v)
      else if v = 7 && (s.modeNow == 6 || (s.modeNow == 5 && s.bit F.RIDE_MC)) then 7
      else 1
  s.wr (subF c) nv

/-- All sub-states, then all cells. -/
def channelsUpdate (s : State) (ceased : Bool) : State := (s.each 8 fun s c => s.subUpdate ceased c).cellsAll

/-- Legs in a mask are demanded, or no longer demanded, by comparator `k` (R166). -/
def demandCmp (s : State) (k m : Nat) (on : Bool) : State :=
  (s.each 24 fun s n =>
    let l := s.leg n
    if on then (if m / 2 ^ n % 2 = 1 then s.setLeg n { l with demCmp := l.demCmp ||| BitVec.ofNat 16 (2 ^ k) } else s)
    else s.setLeg n { l with demCmp := l.demCmp &&& ~~~(BitVec.ofNat 16 (2 ^ k)) }).cellsAll

/-- The same by the overcurrent filter of input `k` (R151). -/
def demandMod (s : State) (k m : Nat) (on : Bool) : State :=
  (s.each 24 fun s n =>
    let l := s.leg n
    if on then (if m / 2 ^ n % 2 = 1 then s.setLeg n { l with demMod := l.demMod ||| BitVec.ofNat 24 (2 ^ k) } else s)
    else s.setLeg n { l with demMod := l.demMod &&& ~~~(BitVec.ofNat 24 (2 ^ k)) }).cellsAll

/-- The same by trip input `k` (R241). -/
def demandTrip (s : State) (k m : Nat) (on : Bool) : State :=
  (s.each 24 fun s n =>
    let l := s.leg n
    if on then (if m / 2 ^ n % 2 = 1 then s.setLeg n { l with demTrip := l.demTrip ||| BitVec.ofNat 8 (2 ^ k) } else s)
    else s.setLeg n { l with demTrip := l.demTrip &&& ~~~(BitVec.ofNat 8 (2 ^ k)) }).cellsAll

/-! STO and the beginning of a safe stop. -/

/-- The CHECK permissive: CVALID set and CONFIRM equal to CHECK (R394). -/
def checkOk (s : State) : Bool := s.bit F.SAFE_CVALID && s.rd F.SAFE_CONFIRM == s.rd F.SAFE_CHECK

/-- A demand stands at the island (R382, R383). -/
def safeDemand (s : State) : Bool := s.bit F.SAFE_SSDEM || s.bit F.SAFE_TPDEM || s.bit F.SAFE_TPLAT

/-- The conditions of R382 other than the demand. -/
def stoBase (s : State) : Bool :=
  let m := s.modeNow
  s.safe.tested && (2 ≤ m && m ≤ 6) && s.checkOk && s.rung ≤ 2 && !s.bit F.SAFE_MONDIV && !s.bit F.SAFE_STOFB

/-- Driver `k` is enabled, or acts as if it were (R247 to R249, R334). -/
def gdoOn (s : State) (k : Nat) : Bool := s.bit (F.LEGX_GDEN k) || (s.bit F.MACH_BRAKE && s.rd F.MACH_BRKGDO == k)

/-- The auxiliary driver `k` is held low (R248). -/
def gdoForced (s : State) (k : Nat) : Bool :=
  !s.gdoOn k || s.modeNow == 0 || s.bit (F.LEGX_GDUVLO k) || 3 ≤ s.rung || s.phase != .up ||
  ((s.stoHolds || s.bit F.SAFE_STOA) && !(s.rd (F.LEGX_GDMODE k) == 2 && s.bit (F.LEGX_CHOPSAFE k)))

/-- The output driver `k` commands when nothing holds it low (R246). -/
def gdoWants (s : State) (k : Nat) : Bool :=
  let m := s.rd (F.LEGX_GDMODE k)
  if m = 0 then s.bit (F.LEGX_GDLVL k) else if m = 1 then (s.gdo k).phaseHi else (s.gdo k).cmpLvl

/-- Driver `k` takes its output; a turn-on in PWM or CHOP counts (R246, R248). -/
def gdoUpdate (s : State) (k : Nat) : State :=
  let forced := s.gdoForced k
  let was := s.bit (F.LEGX_GDOUT k)
  let g := s.gdo k
  let m := s.rd (F.LEGX_GDMODE k)
  let s := if forced then s.setGdo k { g with minRun := m == 2 && ((was && s.rd (F.LEGX_MINT k) != 0) || (!was && g.minRun))
                                              cmpLvl := false, phaseHi := false }
    else if m = 2 && !g.minRun then s.setGdo k { g with cmpLvl := s.rdBit F.CMP_OUT (s.rd (F.LEGX_CMPSEL k)) } else s
  let out := !forced && s.gdoWants k
  let s := s.setBit (F.LEGX_GDFORCED k) forced
  let s := if out && !was && m != 0 then s.sat (F.LEGX_GDONCNT k) else s
  let s := if m = 2 && out != was && !forced then s.setGdo k { (s.gdo k) with minRun := s.rd (F.LEGX_MINT k) != 0 } else s
  s.setBit (F.LEGX_GDOUT k) out

/-- All four drivers. -/
def gdosAll (s : State) : State := s.each 4 gdoUpdate

/-- The monitors drive STO (R382): released only while every condition holds; asserted otherwise, except that a demand in an SS1 stop
leaves STO as it stands. -/
def stoSync (s : State) : State :=
  let ph := s.rd F.SAFE_PHASE
  let rel := s.stoBase && !s.safeDemand && ph == 0
  let keep := s.stoBase && ph == 1
  if rel then (s.setBit F.SAFE_STOA false).setBit F.SAFE_STOB false
  else if keep then s
  else
    let s := (s.setBit F.SAFE_STOA true).setBit F.SAFE_STOB true
    if s.safe.hold then s.gdosAll else ({ s with safe := { s.safe with hold := true } }).cellsAll.gdosAll

/-- The legs of every grid channel are held OFF and the channels show CEASED (R262, R264). -/
def ceaseGrid (s : State) : State :=
  (s.each 8 fun s c => if s.isGrid c && 1 ≤ s.sub c && s.sub c != 6 then s.wr (subF c) 7 else s).cellsAll

/-- SAFE_STOP_BEGIN (R383): the first demand while no stop runs, once the start-up test has passed and outside mode SAFE. An ISLAND or a
CURVE that is already due waits for the end of the stop, and its holds do not (R264). -/
def safeStopBegin (s : State) (shutdown : Bool) : State :=
  if s.rd F.SAFE_PHASE != 0 || s.modeNow == 7 || !s.safe.tested then s
  else
    let s := (s.wr F.SAFE_PHASE 1).sat F.SAFE_DEMCNT
    let s := s.setBit F.SYS_MOVING true
    let s := { s with mode := { s.mode with ramp := false }
                      safe := { s.safe with causeShut := shutdown, w0 := s.f32 F.MACH_SPEED, t10 := 0, at0 := s.tick, idle := decide (s.modeNow ≤ 2) } }
    let s := (s.ipulse Pg.SAFE 0).stoSync
    if s.ceaseHeld then s.ceaseGrid else s

end State
end Sys2Proof.Machine
end

