-- ==== Sys2Proof/Machine/Faults.lean ====
section
/-! DEFINITION. The fault collector (R396 to R410): raising a source, its scope, escalation, the reaction of its class, acknowledgement
and forcing. -/

namespace Sys2Proof.Machine
namespace State

/-- Some open record satisfies `p` of its source number and class in force. -/
def fltAny (s : State) (p : Nat → Nat → Bool) : Bool :=
  s.flt.any fun e => e.2.isOpen && p e.1 (s.rd (F.FLT_CUR e.1))

/-- The open records, for NOPEN. -/
def fltCount (s : State) : Nat := (s.flt.filter fun e => e.2.isOpen).length

/-- The channels of the enabled CH pages that satisfy `p`, as a mask (R400). -/
def chMask (s : State) (p : Nat → Bool) : Nat :=
  (List.range 8).foldl (fun m c => if s.chEn c && p c then m + 2 ^ c else m) 0

/-- The channels to which the active map assigns any leg of the mask `g` (R400). -/
def legScope (s : State) (g : Nat) : Nat :=
  s.chMask fun c => (s.legsOf c).any fun n => g / 2 ^ n % 2 == 1

/-- The scope of a raise of source `n` (R400); `ch` is the channel of the loop for the sources of the loop engine. -/
def fltScope (s : State) (n ch : Nat) (forced : Bool) : Nat :=
  if n = 0x20 ∨ n = 0x29 ∨ n = 0x2A then (if forced then s.chMask fun _ => true else s.chMask fun c => c == ch)
  else if 0x21 ≤ n ∧ n ≤ 0x28 then s.chMask fun c => c == n - 0x21
  else if 0x30 ≤ n ∧ n ≤ 0x33 then s.chMask fun c => s.isGrid c && s.rd (F.CH_PORT c) == (n - 0x30) / 2
  else if 0x34 ≤ n ∧ n ≤ 0x36 then s.chMask fun c => s.isGrid c
  else if 0x38 ≤ n ∧ n ≤ 0x3F then s.chMask fun c => c == n - 0x38
  else if 0x40 ≤ n ∧ n ≤ 0x57 then s.legScope (s.rd (F.MOD_OCGRP (n - 0x40)))
  else if n = 0x5C ∨ n = 0x5D then s.chMask fun c => s.chType c == 3
  else if 0x60 ≤ n ∧ n ≤ 0x6F then s.legScope (s.rd (F.CMP_LEGGRP (n - 0x60)))
  else if 0x70 ≤ n ∧ n ≤ 0x77 then s.legScope (s.rd (F.TRIP_GRP (n - 0x70)))
  else if 0x80 ≤ n then s.legScope (2 ^ ((n - 0x80) / 2))
  else s.chMask fun _ => true

/-- The level conditions of the FLT page: bit 2 while a record in force at TRIP or higher is open. -/
def fltLevels (s : State) : State := s.iraw Pg.FLT 2 (s.fltAny fun _ c => decide (3 ≤ c))

/-- A due transition of this cause leads from mode `m` (R262). -/
def leads (cause m : Nat) : Bool :=
  if cause = 1 || cause = 10 then m == 3 || m == 4
  else if cause = 2 || cause = 3 then m == 5
  else if cause = 4 || cause = 5 then m == 3 || m == 4 || m == 5
  else if cause = 8 then m == 6
  else if cause = 9 then m == 2
  else false

/-- A hardware transition falls due (R262, R267) where it leads from the mode; it waits for its own command. ISLAND and CURVE during a safe stop hold the grid
legs at once (R264). -/
def modeDue (s : State) (cause : Nat) : State :=
  let m := s.modeNow
  let s := if !leads cause m || s.mode.due.contains cause then s else { s with mode := { s.mode with due := s.mode.due ++ [cause] } }
  if s.ceaseHeld && leads cause m then s.ceaseGrid else s

/-- TRIP reaction on the channels of a scope that are still enabled: cells at their safe level, sub-state FAULT, and TRIP due on a grid
channel (R400, R401). -/
def tripReact (s : State) (scope : Nat) : State :=
  let s := s.each 8 fun s c =>
    if scope / 2 ^ c % 2 = 1 && s.chEn c then
      let s := s.wr (subF c) 6
      if s.isGrid c && 3 ≤ s.modeNow && s.modeNow ≤ 5 then s.modeDue 5 else s
    else s
  s.cellsAll

/-- FAULT_REACTION: the reaction of class `c` (R401). WARN and ALARM act through the open record alone. -/
def fltReact (s : State) (c scope : Nat) : State :=
  if c = 3 then s.tripReact scope
  else if c = 4 then
    let s := { s with safe := { s.safe with shutDemand := true } }
    s.safeStopBegin true
  else s

/-- FAULT_ESCALATION_SECOND: the class at which a record of source `n` opens (R404), and whether it was raised. -/
def fltSecond (s : State) (n : Nat) : Nat → Nat → Nat × Bool
  | 0, c => (c, false)
  | k + 1, c =>
    if 1 ≤ c ∧ c ≤ 3 ∧ s.fltAny (fun m d => m != n && !s.bit (F.FLT_RESTORED m) && d == c) then
      ((fltSecond s n k (c + 1)).1, true)
    else (c, false)

/-- The last source raised (FLT.LAST). -/
def fltLast (s : State) (n c : Nat) : State :=
  ((s.wr F.FLT_LASTV 1).wr F.FLT_LASTSRC n).wr F.FLT_LASTCLS c

/-- FLT.GRACEc in µs (R405). -/
def grace (s : State) (c : Nat) : Nat :=
  if c = 1 then s.rd F.FLT_GRACE1 else if c = 2 then s.rd F.FLT_GRACE2 else if c = 3 then s.rd F.FLT_GRACE3 else 0

/-- The grace timer that starts for class `c` (R405): 0 means none. A timer that starts in FAST or DORMANT is halted at once (R409). -/
def fltTimer (s : State) (c : Nat) : Option Nat :=
  if s.grace c = 0 then none else some (if s.rung < 3 then s.tick + 500 * s.grace c else 500 * s.grace c)

/-- Every grace timer's number changes by `f` (R409). -/
def graceMap (s : State) (f : Nat → Nat) : State :=
  s.flt.foldl (fun s e => s.setFltRec e.1 { e.2 with timer := e.2.timer.map f }) s

/-- The grace timers halt at the entry to FAST or DORMANT, and resume from the time that remained (R409). -/
def graceHalt (s : State) : State := s.graceMap (· - s.tick)
def graceResume (s : State) : State := s.graceMap (· + s.tick)

/-- kt of channel `c` under the derating of R402: a record that is open at ALARM or higher with DRT set caps it at ALMKT. A restored
record applies no reaction (R408). -/
def almKt (s : State) (c : Nat) (kt : F32) : F32 :=
  if s.isGrid c && s.flt.any (fun e => e.2.isOpen && !s.bit (F.FLT_RESTORED e.1) && s.bit (F.FLT_DRT e.1) && decide (2 ≤ s.rd (F.FLT_CUR e.1)) &&
      e.2.scope / 2 ^ c % 2 == 1) then F32.fmin kt (s.f32 F.FLT_ALMKT)
  else kt

/-- BOOT.STAT.FLTHOLD reads 1 while a RESTORED record is unacknowledged (R94). -/
def fltHoldSync (s : State) : State := s.setBit F.BOOT_FLTHOLD (s.fltAny fun n _ => s.bit (F.FLT_RESTORED n))

/-- A raise of source `n`: of one whose record is open it counts in RPT alone, OFF or not (R403). -/
def raiseOne (s : State) (n ch : Nat) (forced : Bool) : State :=
  let cls := s.rd (F.FLT_CLASS n)
  if cls = 7 then (if s.bit (F.FLT_OPEN n) && !s.bit (F.FLT_RESTORED n) then s.sat (F.FLT_RPT n) else s)
  else
    let s := s.wrap F.FLT_RAISECNT
    if s.bit (F.FLT_OPEN n) && !s.bit (F.FLT_RESTORED n) then (s.sat (F.FLT_RPT n)).fltLast n (s.rd (F.FLT_CUR n))
    else
      let scope := s.fltScope n ch forced
      let iraw := (s.reg (RegMap.fltPage n + 0x10)).toNat
      let fl := if forced then 1 else 0
      if cls = 0 then
        let s := s.fltLast n 0
        if s.jrnlRecent n then s.sat F.JRNL_NSUPP else s.jrnlAdd 1 n 0 fl cls scope 0 iraw
      else
        let (c, second) := s.fltSecond n 4 cls
        let fl := fl + (if second then 4 else 0)
        let s := if second then (s.sat F.FLT_SECCNT).ipulse Pg.FLT 1 else s
        let s := s.setFltRec n { isOpen := true, scope := scope, dclass := cls, flags := fl, timer := s.fltTimer c, order := s.rd F.FLT_RAISECNT + 4,
                                   time := s.now64, seq := s.rd F.JRNL_NEXTSEQ, iraw := iraw }
        let s := ((((s.wr (F.FLT_OPEN n) 1).wr (F.FLT_RESTORED n) 0).setBit (F.FLT_FORCED n) forced).wr (F.FLT_CUR n) c).wr
          (F.FLT_RPT n) 0
        let s := s.setReg (Pg.FLT + 0x80 + n / 32 * 4) (s.reg (Pg.FLT + 0x80 + n / 32 * 4) ||| BitVec.ofNat 32 (2 ^ (n % 32)))
        let s := if s.bit F.BOOT_FLTHOLD then s.fltHoldSync else s
        let s := (s.fltLast n c).jrnlAdd 1 n c fl cls scope 0 iraw
        (((s.ipulse Pg.FLT 0).fltReact c scope).fltLevels).wake 7

/-- The grace timer of source `n` has run out; in FAST and DORMANT it is halted (R405, R409). -/
def graceOver (s : State) (n : Nat) : Bool :=
  decide (s.rung < 3) && (match (s.fltRec n).timer with
    | none => false
    | some t => decide (t ≤ s.tick))

/-- GRACE_EXPIRY of source `n` (R405): the record's class rises, with IRAW as at the raise in its DATA (R412) and the reaction of the new
class, WARN's wake included (R401). -/
def fltExpire (s : State) (n : Nat) : State :=
  let c := s.rd (F.FLT_CUR n)
  let r := s.fltRec n
  if !s.bit (F.FLT_OPEN n) || !s.graceOver n || c < 1 || 3 < c then s
  else
    let fl := (if s.bit (F.FLT_FORCED n) then 1 else 0) + 8
    let s := s.wr (F.FLT_CUR n) (c + 1)
    let s := s.setFltRec n { r with timer := s.fltTimer (c + 1), flags := r.flags % 8 + 8 }
    let s := (s.jrnlAdd 2 n (c + 1) fl r.dclass r.scope 0 r.iraw).sat F.FLT_ESCCNT
    (((s.ipulse Pg.FLT 1).fltReact (c + 1) r.scope).fltLevels).wake 7

/-- The expiries of this tick up to source `n`, in ascending source number (R406). -/
def graceRun (s : State) (n : Nat) : State := s.flt.foldl (fun s e => if e.1 ≤ n then s.fltExpire e.1 else s) s

/-- FAULT_RAISE: source `n` is raised (R396 to R408), after the grace expiries of the tick (R406). -/
def raiseFlt (s : State) (n ch : Nat) (forced : Bool) : State :=
  if RegMap.fltClass n = none || !s.has (RegMap.fltPage n) then s else (s.graceRun 255).raiseOne n ch forced

/-- A detection of source `n` whose scope needs no loop. -/
def detect (s : State) (n : Nat) : State := s.raiseFlt n 0 false

/-- Closing the record of source `n` (R407). -/
def fltClose (s : State) (n : Nat) : State :=
  if !s.bit (F.FLT_OPEN n) then s
  else
    let r := s.fltRec n
    let fl := (if s.bit (F.FLT_FORCED n) then 1 else 0) + (if s.bit (F.FLT_RESTORED n) then 2 else 0)
    let s := s.jrnlAdd 3 n (s.rd (F.FLT_CUR n)) fl r.dclass r.scope (s.rd (F.FLT_RPT n)) 0
    let s := s.setFltRec n {}
    let s := s.setReg (Pg.FLT + 0x80 + n / 32 * 4) (s.reg (Pg.FLT + 0x80 + n / 32 * 4) &&& ~~~ BitVec.ofNat 32 (2 ^ (n % 32)))
    let s := s.clear [F.FLT_OPEN n, F.FLT_RESTORED n, F.FLT_FORCED n, F.FLT_CUR n, F.FLT_RPT n]
    s.fltLevels

/-- A write of FLT.ACK (R407). -/
def fltAck (s : State) (v : Word) : State :=
  let s := if v.getLsbD 30 then s.flt.foldl (fun s e => s.fltClose e.1) s
    else if v.getLsbD 31 then s.fltClose (v.toNat % 256) else s
  s.fltHoldSync

/-- The lock-out report of a supply's drivers: once per episode, when one of them is enabled (R249). -/
def uvReport (s : State) (hi : Bool) : State :=
  let k := if hi then 2 else 0
  let s := s.iraw Pg.LEGX 1 ((List.range 4).any fun j => s.gdoOn j && s.bit (F.LEGX_GDUVLO j))
  if (s.bit (F.LEGX_GDUVLO k) && (s.gdoOn k || s.gdoOn (k + 1))) && !(s.gdo k).uvTold then
    (s.setGdo k { (s.gdo k) with uvTold := true }).detect 0x5B
  else s

end State
end Sys2Proof.Machine
end

