-- ==== Sys2Proof/Machine/Memory.lean ====
section
/-! DEFINITION. The memory arrays with their check bits, valid bits and poison marks (R417 to R429). Arrays lie at flat addresses: the
host windows at their own (R453), the Almanac RAM at 0x100_0000 and the packet buffers at 0x110_0000, outside the host's 24-bit space. -/

namespace Sys2Proof.Machine

/-- What an unlisted byte of a memory array reads as: the identity material of manufacture in its places (R439, log 9), and else zero,
the fill of R425 and the value of an invalid word (R424; MRAM: log 4). -/
def memDefault (a : Nat) : Byte :=
  if 0x830000 ≤ a ∧ a < 0x830701 then Config.idKey (a - 0x830000)
  else if 0x830708 ≤ a ∧ a < 0x830C08 then Config.idSig (a - 0x830708)
  else 0

/-- The canonical form of the byte memory: addresses strictly rising, no entry equal to what an unlisted address reads as. -/
abbrev Memory.wf (m : List Host.Cell) : Prop := SMap.wf memDefault m = true

/-- Base of the Almanac RAM. -/
def almBase : Nat := 0x1000000
/-- Base of the packet buffers. -/
def pktBase : Nat := 0x1100000

/-- The array (R427 numbering of ECC.LASTA) and offset of an address; none outside every array. -/
def arrayOf (a : Nat) : Option (Nat × Nat) :=
  if 0x300000 ≤ a ∧ a < 0x400000 then some (0, a - 0x300000)
  else if pktBase ≤ a ∧ a < pktBase + 0x200000 then some (1, a - pktBase)
  else if 0x100000 ≤ a ∧ a < 0x110000 then some (2, a - 0x100000)
  else if 0x200000 ≤ a ∧ a < 0x208000 then some (3, a - 0x200000)
  else if almBase ≤ a ∧ a < almBase + 0x1000 then some (4, a - almBase)
  else if 0x800000 ≤ a ∧ a < 0x840000 then some (5, a - 0x800000)
  else none

/-- The base and size of an array. -/
def arrayBase (k : Nat) : Nat :=
  if k = 0 then 0x300000 else if k = 1 then pktBase else if k = 2 then 0x100000 else if k = 3 then 0x200000
  else if k = 4 then almBase else 0x800000
def arraySize (k : Nat) : Nat :=
  if k = 0 then 0x100000 else if k = 1 then 0x200000 else if k = 2 then 0x10000 else if k = 3 then 0x8000
  else if k = 4 then 0x1000 else 0x40000

/-- The number of set bits of the low `n` bits of `v`. -/
def popcount : Nat → Nat → Nat
  | 0, _ => 0
  | n + 1, v => v % 2 + popcount n (v / 2)

/-- The columns of d[0] to d[63] (R417). -/
def eccCols : List Nat :=
  ((List.range 256).filter fun v => popcount 8 v == 3) ++ [0x1F, 0x2F, 0x37, 0x3B, 0x3D, 0x3E, 0x4F, 0x57]

/-- The computed check of a word: the XOR of the columns of its set bits (R417). -/
def eccCheck (d : Nat) : Nat :=
  (eccCols.foldl (fun (p : Nat × Nat) c => (p.1 / 2, if p.1 % 2 = 1 then p.2 ^^^ c else p.2)) (d, 0)).2

/-- The data bit whose column is `s`. -/
def eccBit (s : Nat) : Option Nat := eccCols.idxOf? s

namespace State

/-- The byte stored at an address. -/
def byte (s : State) (a : Nat) : Byte := SMap.get memDefault s.mem a

/-- Storing bytes from an address on. -/
def putBytes (s : State) (a : Nat) : List Byte → State
  | [] => s
  | b :: t => ({ s with mem := SMap.set memDefault s.mem a b }).putBytes (a + 1) t

/-- `n` stored bytes from an address on. -/
def bytes (s : State) (a n : Nat) : List Byte := (List.range n).map fun i => s.byte (a + i)

/-- The 64-bit word stored at an aligned address, as stored. -/
def raw64 (s : State) (a : Nat) : Nat := leVal (s.bytes a 8)

/-- Stored check XOR computed check of the word at `a`: 0 for a clean word, 0xFF for a poison mark. -/
def synd (s : State) (a : Nat) : Byte := SMap.get (fun _ => 0) s.chk (a / 8)

/-- Storing a word with a given syndrome, marking it valid. -/
def store64 (s : State) (a v : Nat) (syn : Byte) : State :=
  let s := s.putBytes (a / 8 * 8) (leBytes 8 v)
  { s with chk := SMap.set (fun _ => 0) s.chk (a / 8) syn, valid := SMap.set (fun _ => false) s.valid (a / 8) true }

/-- A word of the valid-bit class whose valid bit is clear (R424). -/
def isInvalid (s : State) (a : Nat) : Bool :=
  (match arrayOf a with
   | some (0, _) => true
   | some (1, _) => true
   | _ => false) && !SMap.get (fun _ => false) s.valid (a / 8)

/-- The first error since VALID was cleared (LASTA, LASTS). -/
def eccLast (s : State) (a : Nat) (ue : Bool) (syn : Nat) : State :=
  match arrayOf (a / 8 * 8) with
  | none => s
  | some (k, o) =>
    let s := s.satBy (if ue then F.ECC_UECNT k else F.ECC_CECNT k) 1
    if s.bit F.ECC_LASTVALID then s
    else ((((s.latch F.ECC_LASTVALID).wr F.ECC_LASTARR k).wr F.ECC_LASTOFS o).setBit F.ECC_LASTUE ue).wr F.ECC_LASTSYN syn

/-- A write to the MRAM counts in the wear counter of its 1 KiB block (R429). -/
def wear (s : State) (a : Nat) : State :=
  match arrayOf a with
  | some (5, o) => s.sat (F.ECC_MWEAR (o / 1024))
  | _ => s

/-- What a read writes back to the word at `a`, corrected or newly marked (R419, R420, R428). -/
def writeBack (s : State) (a v : Nat) (syn : Byte) : State := (s.store64 a v syn).wear a

/-- A read of the 64-bit word that holds address `a` (R419, R420): its data, and whether it is poisoned. -/
def read64 (s : State) (a : Nat) : State × Nat × Bool :=
  let a := a / 8 * 8
  if s.isInvalid a then (s, 0, false)
  else
    let d := s.raw64 a
    let syn := (s.synd a).toNat
    if syn = 0 then (s, d, false)
    else if syn = 0xFF then (s.sat F.ECC_POISRD, d, true)
    else
      match eccBit syn with
      | some i => ((((s.writeBack a (d ^^^ 2 ^ i) 0).eccLast a false syn).ipulse Pg.ECC 0).detect 0x08, d ^^^ 2 ^ i, false)
      | none =>
        if popcount 8 syn = 1 then ((((s.writeBack a d 0).eccLast a false syn).ipulse Pg.ECC 0).detect 0x08, d, false)
        else ((((s.writeBack a d 0xFF).eccLast a true syn).ipulse Pg.ECC 1).detect 0x09, d, true)

/-- A 32-bit read of one half (R418). -/
def read32 (s : State) (a : Nat) : State × Word × Bool :=
  let (s, d, p) := s.read64 a
  (s, BitVec.ofNat 32 (if a / 4 % 2 = 0 then d else d / 2 ^ 32), p)

/-- A whole-word write: no read, any mark cleared unless the data is poisoned (R420, R421). -/
def write64 (s : State) (a v : Nat) (poison : Bool) : State := s.store64 a v (if poison then 0xFF else 0)

/-- A 32-bit write, a read-modify-write of its word (R421, R424). -/
def write32 (s : State) (a : Nat) (v : Word) (poison : Bool) : State :=
  let (s, d, p) := s.read64 a
  let d' := if a / 4 % 2 = 0 then d / 2 ^ 32 * 2 ^ 32 + v.toNat else v.toNat * 2 ^ 32 + d % 2 ^ 32
  s.write64 a d' (poison || p)

/-- The two halves of a word as it was read (R418). -/
def halves (d : Nat) : Word × Word := (BitVec.ofNat 32 d, BitVec.ofNat 32 (d / 2 ^ 32))

/-- Consecutive 32-bit words; both halves of an aligned word come from one read of it (Example 21.1). -/
def readWords (s : State) (a : Nat) : Nat → State × List (Word × Bool)
  | 0 => (s, [])
  | 1 =>
    let (s, w, p) := s.read32 a
    (s, [(w, p)])
  | n + 2 =>
    if a % 8 = 0 then
      let (s, d, p) := s.read64 a
      let (s, t) := readWords s (a + 8) n
      (s, ((halves d).1, p) :: ((halves d).2, p) :: t)
    else
      let (s, w, p) := s.read32 a
      let (s, t) := readWords s (a + 4) (n + 1)
      (s, (w, p) :: t)

/-- `n` bytes from an aligned address on as they are read; none when a word of them is poisoned. -/
def readBytes (s : State) (a n : Nat) : State × Option (List Byte) :=
  let r := s.readWords a ((n + 3) / 4)
  (r.1, if r.2.any (·.2) then none else some ((r.2.flatMap fun w => leBytes 4 w.1.toNat).take n))

/-- A write of whole 64-bit words from an aligned address on, as bytes (the last one padded with zeros). -/
def writeBytes (s : State) (a : Nat) (l : List Byte) (poison : Bool) : State :=
  s.each ((l.length + 7) / 8) fun s i => s.write64 (a + 8 * i) (leVal ((l.drop (8 * i)).take 8)) poison

/-- A word of the MRAM is written by one of its own logics and read back: where its cells do not take it, it holds an open value (log 6),
and JRNL_MRAM is raised (R428). -/
def mramPut (s : State) (a v : Nat) : State :=
  if s.ecc.weak.contains (a / 8) then
    let d := (Config.freeWord s.free).toNat + 2 ^ 32 * (Config.freeWord (s.free + 1)).toNat
    (({ s with free := s.free + 2 }.write64 a d false).wear a).detect 0x07
  else (s.write64 a v false).wear a

/-- A write into the MRAM by one of its own logics (R428). -/
def mramWrite (s : State) (a : Nat) (l : List Byte) : State :=
  s.each ((l.length + 7) / 8) fun s i => s.mramPut (a + 8 * i) (leVal ((l.drop (8 * i)).take 8))

/-- The word at `a` as it would read, corrected where it can be, and whether it is readable: neither uncorrectable nor marked (R418 to
R420, R428). -/
def mramWord (s : State) (a : Nat) : Nat × Bool :=
  let d := s.raw64 a
  let syn := (s.synd a).toNat
  if syn = 0 then (d, true)
  else match eccBit syn with
    | some b => (d ^^^ 2 ^ b, true)
    | none => (d, popcount 8 syn == 1)

/-- `n` bytes of the MRAM as its controller reads them, the stored ones where a word is not readable. -/
def mramAny (s : State) (a n : Nat) : List Byte :=
  ((List.range ((n + 7) / 8)).flatMap fun i => leBytes 8 (s.mramWord (a + 8 * i)).1).take n

/-- The same, without their counts: none when a word is uncorrectable or marked (R428). -/
def mramBytes (s : State) (a n : Nat) : Option (List Byte) :=
  if (List.range ((n + 7) / 8)).all fun i => (s.mramWord (a + 8 * i)).2 then some (s.mramAny a n) else none

/-- The controller's part in the reading of `n` bytes of the MRAM from `a` on: the words that are not clean are counted, and corrected or
marked (R428). -/
def mramTouch (s : State) (a n : Nat) : State :=
  s.chk.foldl (fun s e => if a / 8 ≤ e.1 && e.1 < (a + n + 7) / 8 then (s.read64 (8 * e.1)).1 else s) s

/-- Clearing the valid bits of the words from `a` on, `n` bytes (R424). -/
def invalidate (s : State) (a n : Nat) : State :=
  { s with valid := s.valid.filter fun e => !(a / 8 ≤ e.1 && e.1 < (a + n) / 8) }

/-- Filling an array with zeros and clean check bits (R425). -/
def fillArray (s : State) (k : Nat) : State :=
  let b := arrayBase k
  let e := b + arraySize k
  { s with mem := s.mem.filter (fun x => !(b ≤ x.1 && x.1 < e))
           chk := s.chk.filter (fun x => !(b / 8 ≤ x.1 && x.1 < e / 8)) }

end State
end Sys2Proof.Machine
end

