-- ==== Sys2Proof/Machine/HostWord.lean ====
section
/-! DEFINITION. What happens when one written word completes: the field-by-field write of R12 and R15, the order of the write buffer
(R131, R132) and the record of a failed write (R127). -/

namespace Sys2Proof

/-- The value a written word carries for a field. -/
def Fld.of (f : Fld) (v : Word) : Nat := Machine.wordGet v f.hi f.lo

/-- A written word carries a non-zero value for a field. -/
def Fld.on (f : Fld) (v : Word) : Bool := f.of v != 0

/-- A written word with a field replaced. -/
def Fld.put (f : Fld) (v : Word) (x : Nat) : Word := Machine.wordPut v f.hi f.lo x

namespace Machine

/-- The status code of R121. -/
def Status.code : Status → Nat
  | .ok => 0
  | .crcerr => 1
  | .absent => 2
  | .poison => 3
  | .locked => 4
  | .range => 5
  | .busy => 6

/-- The base of the page that holds an address. -/
def pageOf (a : Nat) : Nat := a / 0x1000 * 0x1000

namespace State

/-- PCTL.LOCK of the page of `a` is set (R15). -/
def locked (s : State) (a : Nat) : Bool := s.bit (F.LOCK (pageOf a))

/-- A write to a page that is absent is dropped, counted and completes with status ABSENT (R4). -/
def onPage (s : State) (pg : Nat) (eff : State → State × Status) : State × Status :=
  if s.has pg then eff s else (s.sat F.HIF_ABSENTCNT, .absent)

/-- The plain write of a register, each field under its access type; WO and SC fields store nothing here (R12, R13,
R15). -/
def genWrite (s : State) (a : Nat) (v : Word) : State × Status :=
  match RegMap.find a with
  | none => (s, .ok)
  | some r =>
    let old := s.reg a
    let rwl := BitVec.ofNat 32 r.rwl
    let m := BitVec.ofNat 32 r.rw ||| (if s.locked a then 0 else rwl)
    let n := (old &&& ~~~m) ||| (v &&& m)
    let n := (n &&& ~~~(s.clears a v &&& BitVec.ofNat 32 r.w1c)) ||| (v &&& BitVec.ofNat 32 r.w1s)
    (s.setReg a n, if s.locked a && ((old ^^^ v) &&& rwl) != 0 then .locked else .ok)

/-- The word `v` as the register at `a` can take it: on a locked page every RWL field keeps its value (R15). -/
def heldRwl (s : State) (a : Nat) (v : Word) : Word :=
  match RegMap.find a with
  | none => v
  | some r => if s.locked a then (v &&& ~~~(BitVec.ofNat 32 r.rwl)) ||| (s.reg a &&& BitVec.ofNat 32 r.rwl) else v

/-- The plain write, unless the value is refused with RANGE: then the whole word is dropped (log 10). LOCKED comes first (R15). -/
def genIf (s : State) (a : Nat) (v : Word) (ok : Bool) : State × Status :=
  if ok then s.genWrite a v else (s, if s.heldRwl a v = v then .range else .locked)

/-- A failed write is recorded when none is (R127). -/
def noteWrite (a : Nat) (r : State × Status) : State :=
  if r.2 = .ok || r.1.bit F.HIF_WEVALID then r.1
  else ((r.1.latch F.HIF_WEVALID).wr F.HIF_WECODE r.2.code).wr F.HIF_WEADDR a

/-- The first buffered word that is `v` for address `a`, when nothing holds it back: no earlier word of its page or memory block is
waiting (R131), and no earlier word at all when it came after a HIF.FENCE.GO (R132). `pre` holds the earlier words, newest first. -/
def bufPick (a : Nat) (v : Word) : List BufWord → List BufWord → Option (BufWord × List BufWord)
  | _, [] => none
  | pre, w :: t =>
    if w.addr = a ∧ w.val = v then
      (if pre.any (fun p => p.addr / 0x1000 == a / 0x1000 || decide (p.fence < w.fence)) then none
       else some (w, pre.reverse ++ t))
    else bufPick a v (w :: pre) t

/-- The word waits in the buffer. -/
def bufHas (s : State) (a : Nat) (v : Word) : Bool := s.hif.buf.any fun w => w.addr == a && w.val == v

/-- The host reaches the device: boot has ended and the rung is not FAST or DORMANT (R125, R130). -/
def hostUp (s : State) : Bool := s.phase == .up && s.rung < 3

/-- The state in which the word `v` for address `a` completes. A word in the buffer leaves it; while the rules still hold it back, none;
a word that came in no modelled frame acts as one whose turn it is (log 11). -/
def turn (s : State) (a : Nat) (v : Word) : Option State :=
  if !s.hostUp then none
  else match bufPick a v [] s.hif.buf with
    | some (_, rest) => some { s with hif := { s.hif with buf := rest } }
    | none => if s.bufHas a v then none else some s

/-- Two host words never complete in one tick (log 32): the notes of the tick for R13 and R267 are past. -/
def settle (s : State) : State := { s with hwSet := [], mode := { s.mode with hwAt := none } }

/-- A written word completes with the effect `eff`; nothing happens while it is not its turn. -/
def hostWord (s : State) (a : Nat) (v : Word) (eff : State → State × Status) : State :=
  match s.turn a v with
  | some s => (noteWrite a (eff s)).settle
  | none => s

end State
end Machine
end Sys2Proof
end

