-- ==== Sys2Proof/Machine/Ageing.lean ====
section
/-! DEFINITION. The ageing ledger and the margin plan (R442 to R451). -/

namespace Sys2Proof.Machine

/-! Rainflow counting (R442, R443): a range of three turning points is counted when the next one is at least as large; a range that
holds the first point counts one half-cycle, any other a full cycle. -/

/-- One new turning point on a stack, newest first: the stack left, and the counted ranges with their half-cycles. -/
def rainflow {α : Type} (absDiff : α → α → α) (le : α → α → Bool) : Nat → List α → List (α × Nat) → List α × List (α × Nat)
  | 0, st, out => (st, out)
  | k + 1, st, out =>
    match st with
    | c :: b :: a :: rest =>
      let x := absDiff c b
      let y := absDiff b a
      if le y x then
        (match rest with
         | [] => rainflow absDiff le k [c, b] ((y, 1) :: out)
         | _ => rainflow absDiff le k (c :: rest) ((y, 2) :: out))
      else (st, out)
    | _ => (st, out)

/-- The stack takes a new value: it extends the last excursion, or turns when the reversal reaches the threshold. -/
def turnPoint {α : Type} (absDiff : α → α → α) (le : α → α → Bool) (th : α) (v : α) : List α → List α
  | [] => [v]
  | [a] => if le th (absDiff v a) then [v, a] else [a]
  | b :: a :: rest =>
    let up := !le b a
    if (up && le b v) || (!up && le v b) then v :: a :: rest
    else if le th (absDiff v b) then v :: b :: a :: rest
    else b :: a :: rest

namespace State

/-! Measurements. -/

/-- RODEGk from a pair of frequencies: ppm, saturating, negative results 0; the rounding of a fraction of a ppm is open (log 5). -/
def roDeg (s : State) (k fref fstr : Nat) : State :=
  if fref ≤ fstr || fref = 0 then s.wr (F.AGE_RODEG k) 0
  else
    let n := (fref - fstr) * 1000000
    let r := n / fref + (if n % fref != 0 && Config.freeBit s.free then 1 else 0)
    (s.wr (F.AGE_RODEG k) (min r 65535)).fresh

/-- The measurement of the eight pairs, kept in RUN and EVE (R442). -/
def measOsc (s : State) (pairs : List (Nat × Nat)) : State :=
  if 2 ≤ s.rung then s else s.each 8 fun s k => let p := pairs.getD k (0, 0); s.roDeg k p.1 p.2

/-- A saturating increment of a 16-bit entry of the live delta (R446). -/
def bump16 (m : SMap Nat) (k n : Nat) : SMap Nat :=
  SMap.set (fun _ => 0) m k (min 65535 (SMap.get (fun _ => 0) m k + n))

/-- Rainflow counting on a junction sensor, in milli-kelvin (R442). -/
def junction (s : State) (k : Nat) (t : Int) : State :=
  let ad := fun (a b : Int) => ((a - b).natAbs : Int)
  let le := fun (a b : Int) => decide (a ≤ b)
  let st := turnPoint ad le 2000 t (SMap.get (fun _ => []) s.age.flowT k)
  let (st, out) := rainflow ad le st.length st []
  let d := out.foldl (fun m (r : Int × Nat) => bump16 m (k * 16 + min 15 (r.1.toNat / 5000)) r.2) s.age.dTbin
  { s with age := { s.age with flowT := SMap.set (fun _ => []) s.age.flowT k st, dTbin := d } }

/-- JUNCTION_SAMPLE: the four sensors in m°C (R442); SYS_TJHI re-arms below 115 °C (R397). A second of RUN is counted. -/
def junctionSample (s : State) (t : List Int) : State :=
  if 2 ≤ s.rung then s
  else
    let s := s.each 4 fun s k => s.junction k (t.getD k 0)
    let s := if s.rung = 0 then { s with age := { s.age with dRun := min (2 ^ 32 - 1) (s.age.dRun + 1) } } else s
    let t4 := t.take 4
    let hi := t4.any fun x => decide (120000 ≤ x)
    let mx := t4.any fun x => decide (130000 ≤ x)
    let cool := t4.all fun x => decide (x < 115000)
    let raiseHi := hi && !s.age.tjHi
    let raiseMx := mx && !s.age.tjMax
    let s := { s with age := { s.age with tjHi := (s.age.tjHi || hi) && !cool, tjMax := mx } }
    let s := if raiseHi then s.detect 0x00 else s
    if raiseMx then s.detect 0x01 else s

/-- A field of the bounds block as the plan has it in force since its last run, or the boot (R451). -/
def bndN (s : State) (f : Fld) : Nat := f.of (s.age.bnd.getD ((f.addr - 0xA200) / 4) 0)

/-- The exact value of a binary32 bound in force. -/
def bndQ (s : State) (f : Fld) : Rat := F32.toRat (s.age.bnd.getD ((f.addr - 0xA200) / 4) 0)

/-- The words of the bounds block come into force. -/
def boundsTake (s : State) : State := { s with age := { s.age with bnd := (List.range 10).map fun i => s.reg (0xA200 + 4 * i) } }

/-- Rainflow counting on a leg temperature: a full cycle of LCYCTH or more counts (R443). -/
def legCycle (s : State) (n : Nat) (t : Rat) : State :=
  let ad := fun (a b : Rat) => if a < b then b - a else a - b
  let le := fun (a b : Rat) => decide (a ≤ b)
  let st := turnPoint ad le 0 t (SMap.get (fun _ => []) s.age.flowL n)
  let (st, out) := rainflow ad le st.length st []
  let full := (out.filter fun r => r.2 == 2 && decide (s.bndQ F.AGE_LCYCTH ≤ r.1)).length
  { s with age := { s.age with flowL := SMap.set (fun _ => []) s.age.flowL n st
                               dLeg := if full = 0 then s.age.dLeg else bump16 s.age.dLeg n full } }

/-- The leg thermal model of one leg over 10 ms with the mean current `i` (R443); a result that is not finite holds the rise. -/
def legModel (s : State) (n : Nat) (i : F32) (r : Int) : State :=
  let c := s.legCh n
  let rise := SMap.get (fun _ => 0) s.age.rise n
  let ok := F32.isFin i && F32.isFin (s.f32 (F.AGE_KLOSS c)) && F32.isFin (s.f32 (F.AGE_RTH c)) && F32.isPos (s.f32 (F.AGE_TAU c)) &&
    F32.isFin (s.f32 (F.AGE_HSGAIN c)) && F32.isFin (s.f32 (F.AGE_HSOFS c)) && F32.isFin rise
  if !ok then s
  else
    let p := s.q (F.AGE_KLOSS c) * F32.toRat i
    let d0 := F32.toRat rise
    let (d, s) := s.rnd (d0 + (1 / 100 / s.q (F.AGE_TAU c)) * (s.q (F.AGE_RTH c) * p - d0))
    if !F32.isFin d then s
    else
      let s := { s with age := { s.age with rise := SMap.set (fun _ => 0) s.age.rise n d } }
      s.legCycle n (s.q (F.AGE_HSGAIN c) * r + s.q (F.AGE_HSOFS c) + F32.toRat d)

/-! The ledger. -/

/-- The 192 bytes of the live delta (R446). -/
def deltaBytes (s : State) : List Byte :=
  ((List.range 64).flatMap fun k => leBytes 2 (SMap.get (fun _ => 0) s.age.dTbin k)) ++
  ((List.range 24).flatMap fun n => leBytes 2 (SMap.get (fun _ => 0) s.age.dLeg n)) ++ leBytes 4 s.age.dRun ++ List.replicate 12 0#8

/-- The bytes of a ledger with sequence number `lseq` (R445). -/
def ledgerBytes (l : Ledger) (lseq : Nat) : List Byte :=
  let b := [0x56#8, 0x4E#8, 0x4B#8, 0x4C#8] ++ leBytes 4 lseq ++ leBytes 4 l.mseq ++ leBytes 8 l.runsec ++
    ((List.range 8).flatMap fun k => leBytes 4 (SMap.get (fun _ => 0) l.rodeg k)) ++
    ((List.range 64).flatMap fun k => leBytes 4 (SMap.get (fun _ => 0) l.tbin k)) ++
    ((List.range 24).flatMap fun n => leBytes 4 (SMap.get (fun _ => 0) l.legcyc n)) ++
    ((List.range 4).flatMap fun k => leBytes 4 (l.trim.getD k 0).toNat) ++
    ((List.range 32).flatMap fun k => leBytes 4 (SMap.get (fun _ => 0) l.cap k).toNat) ++ leBytes 4 l.mwmax ++
    List.replicate 1492 0#8
  b ++ leBytes 4 (crc32 b)

/-- A ledger read back from its bytes; none when MAGIC or the CRC is wrong. -/
def ledgerOf (copy : Nat) (b : List Byte) : Option (Nat × Ledger) :=
  let w := fun o n => leVal ((b.drop o).take n)
  let tab := fun o n => (List.range n).foldl (fun m k => SMap.set (fun _ => 0) m k (w (o + 4 * k) 4)) ([] : SMap Nat)
  if w 0 4 = 0x4C4B4E56 && w 0x7FC 4 = crc32 (b.take 0x7FC) then
    some (w 4 4, { copy := copy, mseq := w 8 4, runsec := w 0xC 8, rodeg := tab 0x14 8, tbin := tab 0x34 64, legcyc := tab 0x134 24
                   trim := (List.range 4).map fun k => BitVec.ofNat 32 (w (0x194 + 4 * k) 4)
                   cap := (List.range 32).foldl
                     (fun m k => SMap.set (fun _ => 0) m k (BitVec.ofNat 32 (w (0x1A4 + 4 * k) 4))) []
                   mwmax := w 0x224 4 })
  else none

/-- The address of a ledger copy (R445). -/
def ledAddr (copy : Nat) : Nat := 0x824000 + 0x800 * copy

/-- The largest MWEARb. -/
def mwMax (s : State) : Nat := (List.range 256).foldl (fun m b => max m (s.rd (F.ECC_MWEAR b))) 0

/-- The capacitor table of the live values. -/
def capTable (s : State) : SMap Word :=
  (List.range 8).foldl (fun m c =>
    let p := fun m k v => SMap.set (fun _ => (0 : Word)) m (4 * c + k) v
    p (p (p (p m 0 (SMap.get (fun _ => 0) s.age.cref c)) 1 (s.f32 (F.AGE_CEST c))) 2 (SMap.get (fun _ => 0) s.age.eref c)) 3
      (s.f32 (F.AGE_ESR c))) []

/-- The TRIM field of a ledger: the first and the latest delay-line code, then those of the PLL. The codes of the calibrations are open
(log 6); the first ones stay once a ledger holds them (R442, log 28). -/
def trimCodes (l : Ledger) (a b : Word) : List Word := [l.trim.getD 0 a, a, l.trim.getD 2 b, b]

/-- LEDGER_MERGE with a delta given as tables (R446): the sum goes to the other copy with LSEQ + 1. -/
def mergeLedger (s : State) (dT dL : SMap Nat) (dRun mseq : Nat) : State :=
  let l := s.age.led
  let trim := trimCodes l (Config.freeWord s.free) (Config.freeWord (s.free + 1))
  let s := s.fresh.fresh
  let add := fun n (m d : SMap Nat) => (List.range n).foldl
    (fun a k => SMap.set (fun _ => 0) a k ((SMap.get (fun _ => 0) m k + SMap.get (fun _ => 0) d k) % 2 ^ 32)) ([] : SMap Nat)
  let l := { l with copy := 1 - l.copy, mseq := mseq, runsec := (l.runsec + dRun) % 2 ^ 64, tbin := add 64 l.tbin dT
                    legcyc := add 24 l.legcyc dL, cap := s.capTable, trim := trim, mwmax := s.mwMax
                    rodeg := (List.range 8).foldl (fun m k => SMap.set (fun _ => 0) m k (s.rd (F.AGE_RODEG k))) [] }
  let s := s.wrap F.AGE_LSEQ
  let s := { s with age := { s.age with led := l } }
  s.mramWrite (ledAddr l.copy) (ledgerBytes l (s.rd F.AGE_LSEQ))

/-- The merge of the live delta, which is then zero (R446). -/
def mergeLive (s : State) : State :=
  let s := s.mergeLedger s.age.dTbin s.age.dLeg s.age.dRun ((s.rd F.KEEP_CKSEQ + 2 ^ 32 - 1) % 2 ^ 32)
  { s with age := { s.age with dTbin := [], dLeg := [], dRun := 0 } }

/-- LEDGER_SELECT (R445): the valid copy with the greater LSEQ, or a zero ledger with LNEW. The live values of C_ref go with it. -/
def ledgerSelect (s : State) : State :=
  let rdc := fun k => (s.mramBytes (ledAddr k) 2048).bind (ledgerOf k)
  let take := fun (p : Nat × Ledger) (s : State) =>
    let s := { (s.wr F.AGE_LSEQ p.1).wr F.AGE_LNEW 0 with age := { s.age with led := p.2 } }
    s.each 8 fun s c => { s with age := { s.age with
      cref := SMap.set (fun _ => 0) s.age.cref c (SMap.get (fun _ => 0) p.2.cap (4 * c))
      eref := SMap.set (fun _ => 0) s.age.eref c (SMap.get (fun _ => 0) p.2.cap (4 * c + 2)) } }
  match rdc 0, rdc 1 with
  | some a, some b => if 0 < sdiff 32 b.1 a.1 then take b s else take a s
  | some a, none => take a s
  | none, some b => take b s
  | none, none => { (s.wr F.AGE_LSEQ 0).wr F.AGE_LNEW 1 with age := { s.age with led := {} } }

/-! The plan. -/

/-- What keeps a run from starting (R447). -/
def planBlocked (s : State) : Bool := s.modeNow == 5 || s.rung != 0 || s.bit F.AGE_BUSY

/-- A request for a run (R447): it starts in its own command when nothing blocks it, and is pending otherwise. -/
def planRequest (s : State) : State :=
  if s.planBlocked then s.wr F.AGE_PEND 1 else { s with age := { s.age with req := true } }

/-- The merge of the run in progress, then the measurement of the oscillators (R448). -/
def planMerge (s : State) : State :=
  match s.age.run with
  | none => s
  | some pairs => ({ s with age := { s.age with run := none } }).mergeLive.measOsc pairs

/-- PLAN_RUN_START (R446 to R448): the bounds come into force; the merge waits while a checkpoint is being written. -/
def planStart (s : State) (pairs : List (Nat × Nat)) : State :=
  if s.planBlocked || !(s.age.req || s.bit F.AGE_PEND) then s
  else
    let s := { (s.wr F.AGE_PEND 0).wr F.AGE_BUSY 1 with age := { s.age with req := false, run := some pairs } }
    let s := s.boundsTake
    if s.bit F.KEEP_CKBUSY then s else s.planMerge

/-- PLAN_RUN_ABANDON on entry to RIDE (R447). -/
def planAbandon (s : State) : State :=
  if s.bit F.AGE_BUSY then
    ({ (((s.wr F.AGE_BUSY 0).sat F.AGE_ABNCNT).wr F.AGE_PEND 1) with age := { s.age with run := none } }).ipulse Pg.AGE 1
  else s

/-- W_c (R448). -/
def wearOf (s : State) (c : Nat) : Rat :=
  let cyc := ((s.legsOf c).foldl (fun m n => max m (SMap.get (fun _ => 0) s.age.led.legcyc n)) 0 : Nat)
  let lf : Rat := (cyc : Rat) / (s.bndN F.AGE_LCYCLIFE : Rat)
  let cr := SMap.get (fun _ => 0) s.age.cref c
  let cf : Rat := if !F32.isPos cr then 0 else (max 0 (1 - s.q (F.AGE_CEST c) / F32.toRat cr)) / s.bndQ F.AGE_CAPEOL
  max lf cf

/-- K_c (R448). -/
def keepOf (s : State) (c : Nat) : Rat := min 1 (1 - s.bndQ F.AGE_AGEK * max 0 (s.wearOf c - s.bndQ F.AGE_WKNEE))

/-- PLAN_RUN_COMPLETE (R448, R449): KAGE, DTAGE, OFSM and GT are applied in one tick, and EVENT 0x01 is journalled. W_c and K_c are formed
of every channel; one that is disabled keeps its KAGE. A run whose merge waits is not complete. -/
def planComplete (s : State) : State :=
  if !s.bit F.AGE_BUSY || s.age.run.isSome then s
  else
    let r := (List.range 8).foldl (fun m k => max m (s.rd (F.AGE_RODEG k))) 0
    let gt := min (s.bndN F.AGE_GTMAX) (r / s.bndN F.AGE_GTPPM)
    let dt := min (s.bndN F.AGE_DTMAX) (r / s.bndN F.AGE_DTPPM)
    let ofs := min (s.bndN F.AGE_OFSMAX) (r / s.bndN F.AGE_OFSPPM)
    let all := (List.range 8).filter fun c => s.has (Pg.CH c)
    let chs := all.filter fun c => s.chEn c
    let least := s.bndQ F.AGE_DERATEMIN
    let kage := fun c => if s.chEn c then max (s.keepOf c) least else s.q (F.CH_KAGE c)
    let low := all.any fun c => decide (s.keepOf c < least)
    let least := chs.foldl (fun m c => min m (kage c)) 1
    let bits := all.foldl (fun m c => if kage c < 1 then m + 2 ^ c else m) 0
    let wmax := all.foldl (fun m c => max m (s.wearOf c)) 0
    let s' := all.foldl (fun t c =>
      let t := t.wrQ (F.AGE_WEAR c) (s.wearOf c)
      if s.chEn c then t.wrQ (F.CH_KAGE c) (kage c) else t) s
    let s' := ((s'.wr F.AGE_GT gt).wr F.AGE_DTAGE dt).wr F.AGE_OFSM ofs
    let s' := ((s'.wr F.AGE_BUSY 0).sat F.AGE_RUNCNT).ipulse Pg.AGE 0
    let d := gt + 2 ^ 8 * dt + 2 ^ 16 * ofs + 2 ^ 24 * (if chs.isEmpty then 255 else (255 * least).floor.toNat) + 2 ^ 32 * r +
      2 ^ 48 * (s'.rd F.AGE_LSEQ % 2 ^ 16)
    let (w, s') := s'.rnd wmax
    let s' := { s' with age := { s'.age with planned := true, planData := d % 2 ^ 32, planR := r, planW := w } }
    let s' := s'.jrnlAdd 6 1 0 0 0 bits 0 d
    if low then (s'.ipulse Pg.AGE 2).detect 0x0C else s'

/-- AGESUM (R450). -/
def ageSum (s : State) : List Byte :=
  if !s.age.planned then List.replicate 16 0#8
  else leBytes 4 (s.age.led.runsec / 3600) ++ leBytes 4 s.age.planData ++ leBytes 2 s.age.planR ++
    leBytes 2 (65535 * min 1 (F32.toRat s.age.planW)).floor.toNat ++ leBytes 4 (s.rd F.AGE_LSEQ)

/-! Registers. -/

/-- A write of AGE.CTL (R442, R447) with the frequencies the pairs give. -/
def ageCtlWrite (s : State) (v : Word) (pairs : List (Nat × Nat)) : State × Status :=
  let s := if F.AGE_MEAS.on v then s.measOsc pairs else s
  (if F.AGE_RUN.on v then s.planRequest else s, .ok)

/-- The range of a word of the bounds block (R451). -/
def boundRange (o : Nat) (v : Word) : Bool :=
  let between := fun (lo hi : F32) => F32.isFin v && F32.le lo v && F32.le v hi
  if o = 0x200 then between F32.halfW F32.oneW
  else if o = 0x204 then F.AGE_GTMAX.of v ≤ 4 && F.AGE_OFSMAX.of v ≤ 64
  else if o = 0x208 || o = 0x20C || o = 0x210 || o = 0x214 then v != 0
  else if o = 0x218 then F32.isFin v
  else if o = 0x21C then between 0x3C23D70A#32 F32.oneW
  else if o = 0x220 then between 0 F32.oneW
  else if o = 0x224 then between 0 0x41200000#32
  else true

/-- The bounds block as bytes. -/
def boundBytes (s : State) : List Byte := (List.range 16).flatMap fun i => leBytes 4 (s.reg (Pg.AGE + 0x200 + 4 * i)).toNat

/-- A write of a word of the bounds block (R451): its MRAM copy with the CRC is written with it. -/
def boundWrite (s : State) (a : Nat) (v : Word) : State × Status :=
  if 1 < s.modeNow then (s, if s.heldRwl a v = v then .busy else .locked)
  else if !s.locked a && !boundRange (a % 0x1000) v then (s, .range)
  else
    let (s, st) := s.genWrite a v
    let b := s.boundBytes
    (s.mramWrite 0x825000 (b ++ leBytes 4 (crc32 b)), st)

/-- BOUNDS_LOAD (R451). -/
def boundsLoad (s : State) : State :=
  match s.mramBytes 0x825000 68 with
  | none => s.wr F.AGE_BNDBAD 1
  | some l =>
    if leVal (l.drop 64) = crc32 (l.take 64) then
      (s.each 10 fun s i => s.setReg (Pg.AGE + 0x200 + 4 * i) (BitVec.ofNat 32 (leVal ((l.drop (4 * i)).take 4)))).boundsTake.wr F.AGE_BNDBAD 0
    else s.wr F.AGE_BNDBAD 1

/-- The write of a word of the AGE page; the pairs' frequencies are free for a MEAS that comes this way (log 6). -/
def ageWrite (s : State) (a : Nat) (v : Word) : State × Status :=
  let o := a % 0x1000
  if o = 0x40 then
    let pairs := (List.range 8).map fun k => ((Config.freeWord (s.free + 2 * k)).toNat, (Config.freeWord (s.free + 2 * k + 1)).toNat)
    ({ s with free := s.free + 16 }).ageCtlWrite v pairs
  else if 0x200 ≤ o && o < 0x240 then s.boundWrite a v
  else if 0x100 ≤ o && o < 0x200 && o % 0x20 = 0xC then s.genIf a v (F32.isPos v)
  else s.genWrite a v

end State

/-- PLAN_RUN_REQUEST: a write of AGE.CTL with RUN set (R447). -/
def execPlanRunRequest (v : Word) (s : State) : Host.Outcome State Fault Refusal :=
  let v := F.AGE_RUN.put (F.AGE_MEAS.put v 0) 1
  .next (s.hostWord 0xA040 v fun s => s.ageCtlWrite v [])

/-- PLAN_RUN_START: a requested run starts, the oscillator pairs giving the frequencies `pairs` (R447, R448). -/
def execPlanRunStart (pairs : List (Nat × Nat)) (s : State) : Host.Outcome State Fault Refusal := .next (s.planStart pairs)

/-- PLAN_RUN_COMPLETE: the run's outputs are applied (R449). -/
def execPlanRunComplete (s : State) : Host.Outcome State Fault Refusal := .next s.planComplete

/-- OSCILLATOR_MEASURE: a write of AGE.CTL with MEAS set, the pairs giving the frequencies `pairs` (R442). -/
def execOscillatorMeasure (v : Word) (pairs : List (Nat × Nat)) (s : State) : Host.Outcome State Fault Refusal :=
  let v := F.AGE_MEAS.put v 1
  .next (s.hostWord 0xA040 v fun s => s.ageCtlWrite v pairs)

/-- JUNCTION_SAMPLE: the second's sample of the four junction sensors, in m°C (R442). -/
def execJunctionSample (t : List Int) (s : State) : Host.Outcome State Fault Refusal := .next (s.junctionSample t)

/-- OWNER_BOUNDS_WRITE: a write of word `w` of the AGE bounds block (R451). -/
def execOwnerBoundsWrite (w : Fin 16) (v : Word) (s : State) : Host.Outcome State Fault Refusal :=
  .next (s.hostWord (0xA200 + 4 * w) v fun s => s.boundWrite (0xA200 + 4 * w) v)

end Sys2Proof.Machine
end

