-- ==== Sys2Proof/Machine/Cmp.lean ====
section
/-! DEFINITION. The comparators, their ramps and their self-test (R163 to R172, R464). -/

namespace Sys2Proof.Machine
namespace State

/-- Comparator `n` is powered and enabled (R169). -/
def cmpOn (s : State) (n : Nat) : Bool :=
  s.enabled Pg.CMP && s.bit (F.CMP_EN n) && s.rung < 3 && s.phase == .up && !s.cmpOdd n

/-- The hysteresis of comparator `n` in nanovolts. -/
def cmpHyst (s : State) (n : Nat) : Nat :=
  let h := s.rd (F.CMP_HYST n)
  if h = 0 then 0 else if h = 1 then 5000000 else if h = 2 then 10000000 else 20000000

/-- The reference in nanovolts: the internal 1.25 V, or the external one `vref` (R154). -/
def cmpVref (s : State) (vref : Nat) : Nat := if s.bit F.PADC_EXT then vref else 1250000000

/-- Beyond an upper limit of `code`, with hysteresis `h` once `prev` (R163). -/
def aboveLim (code vref pin h : Nat) (prev : Bool) : Bool :=
  if prev then decide (code * vref ≤ (pin + h) * 4096) else decide (code * vref ≤ pin * 4096)

/-- Beyond a lower limit. -/
def belowLim (code vref pin h : Nat) (prev : Bool) : Bool :=
  if prev then decide (pin * 4096 ≤ code * vref + h * 4096) else decide (pin * 4096 ≤ code * vref)

/-- Comparator `n` leads a window (R168). -/
def cmpWin (s : State) (n : Nat) : Bool := s.bit (F.CMP_WIN n) && n % 2 == 0

/-- The pin of a window stands beyond its upper and its lower limit, each with the hysteresis on its own return (R163, R168). -/
def winBeyond (s : State) (n pin v : Nat) : Bool × Bool :=
  let h := s.cmpHyst n
  (aboveLim (s.cmpEff n) v pin h (s.cmp n).winHi, belowLim (s.cmpEff (n + 1)) v pin h (s.cmp n).winLo)

/-- The output of comparator `n` for a pin voltage `pin` (nanovolts; R163, R168). -/
def cmpSense (s : State) (n pin vref : Nat) : Bool :=
  if !s.cmpOn n then false
  else
    let prev := s.rdBit F.CMP_OUT n
    let pol := s.bit (F.CMP_POL n)
    let v := s.cmpVref vref
    if s.cmpWin n then ((s.winBeyond n pin v).1 || (s.winBeyond n pin v).2) != pol
    else if pol then belowLim (s.cmpEff n) v pin (s.cmpHyst n) prev
    else aboveLim (s.cmpEff n) v pin (s.cmpHyst n) prev

/-- The output of comparator `n` is ignored: BLANK ticks after the last restart of its ramp (R164). -/
def cmpBlank (s : State) (n : Nat) : Bool :=
  match s.cmpRamp n with
  | none => false
  | some r => (s.cmp n).rampSeen && s.tick - (s.ramp r).t0 < s.rd (F.CMP_BLANK n)

/-- The action of comparator `n` is suspended by a self-test step of type 1 to 3 (R171). -/
def cmpSusp (s : State) (n : Nat) : Bool :=
  match s.stRun with
  | none => false
  | some t => t.cmp == n && t.type != 0

/-- The present output of comparator `n` (OUT); on its return to 0 the next rise may act again. -/
def cmpSetOut (s : State) (n : Nat) (v : Bool) : State :=
  let s := s.setBit ((F.CMP_OUT).at n) v
  if v then s
  else
    let s := s.setCmp n { (s.cmp n) with acted := false }
    if s.rdBit F.CMP_TRIPSTAT n then s else s.demandCmp n 0 false

/-- Comparator `n` is off (R169). -/
def cmpOff (s : State) (n : Nat) : State := (s.setCmp n { (s.cmp n) with winHi := false, winLo := false }).cmpSetOut n false

/-- Comparator `n` takes the pin voltage `pin` (nanovolts): its output, and of a window the place of the pin (R163, R168). -/
def cmpTake (s : State) (n pin vref : Nat) : State :=
  let out := s.cmpSense n pin vref
  let w := if s.cmpOn n && s.cmpWin n then s.winBeyond n pin (s.cmpVref vref) else (false, false)
  (s.setCmp n { (s.cmp n) with winHi := w.1, winLo := w.2 }).cmpSetOut n out

/-- ACT 1 of comparator `n` (R166): the latch, the source and the override of LEGGRP. A forced trip acts on no rise of the output. -/
def cmpTrip (s : State) (n : Nat) (forced : Bool) : State :=
  let s := s.setCmp n { (s.cmp n) with acted := (s.cmp n).acted || s.rdBit F.CMP_OUT n }
  let s := (((s.latch ((F.CMP_TRIPSTAT).at n)).iraw Pg.CMP 0 true).sat (F.CMP_EVTCNT n)).demandCmp n (s.rd (F.CMP_LEGGRP n)) true
  s.raiseFlt (0x60 + n) 0 forced

/-- COMPARATOR_TRIP (R166): an output of 1 under ACT 1 outside blanking, once per rising output. -/
def cmpTripEvent (s : State) (n pin vref : Nat) : State :=
  let s := s.cmpTake n pin vref
  if s.rdBit F.CMP_OUT n && s.rd (F.CMP_ACT n) = 1 && !s.cmpBlank n && !s.cmpSusp n && !(s.cmp n).acted then s.cmpTrip n false else s

/-- The on-time of leg `k` ends (R166, R464), if there is one; and whether there was. -/
def legCut (s : State) (k : Nat) : State × Bool :=
  let l := s.leg k
  if s.legRuns k && l.driving && l.modCmd == .hi && !l.cut then
    ((s.setLeg k { l with modCmd := .lo, cut := true }).cellUpdate k, true)
  else (s, false)

/-- ACT 2 of comparator `n` on the legs of a mask (R166, R464): the on-times it ends in one tick count once together (log 14). -/
def cmpCut (s : State) (n m : Nat) : State :=
  let r := (List.range 24).foldl (fun (p : State × Bool) k =>
    if m / 2 ^ k % 2 = 1 then let q := p.1.legCut k; (q.1, p.2 || q.2) else p) (s, false)
  if r.2 && (s.cmp n).cutAt != some s.tick then
    (r.1.setCmp n { r.1.cmp n with cutAt := some s.tick }).sat (F.CMP_EVTCNT n)
  else r.1

/-- The output of comparator `n` acts under ACT 2 now. -/
def cmpCuts (s : State) (n : Nat) : Bool :=
  s.cmpOn n && s.rdBit F.CMP_OUT n && s.rd (F.CMP_ACT n) == 2 && !s.cmpBlank n && !s.cmpSusp n

/-- CYCLE_BY_CYCLE_CUT (R166, R464). -/
def cmpCutEvent (s : State) (n pin vref : Nat) : State :=
  let s := s.cmpTake n pin vref
  if s.cmpCuts n then s.cmpCut n (s.rd (F.CMP_LEGGRP n)) else s

/-- An on-time of leg `k`, which begins as ENn rises (log 14), ends at once while a comparator's output under ACT 2 is 1 (R464). -/
def cutAtStart (s : State) (k : Nat) : State :=
  if !(s.leg k).rose then s
  else (s.setLeg k { s.leg k with rose := false }).each 16 fun s n =>
    if s.cmpCuts n && s.rdBit (F.CMP_LEGGRP n) k then s.cmpCut n (2 ^ k) else s

/-- A write of TRIPSTAT (R167): a cleared latch releases its override and an output of 1 may latch again, or the bit sets again while
the output still acts. -/
def tripstatWrite (s : State) (v : Word) : State × Status :=
  let s := s.each 16 fun s n =>
    let still := s.rdBit F.CMP_OUT n && s.rd (F.CMP_ACT n) == 1 && !s.cmpBlank n && !s.cmpSusp n
    if v.getLsbD n && s.rdBit F.CMP_TRIPSTAT n && !still then
      ((s.setCmp n { s.cmp n with acted := false }).setBit ((F.CMP_TRIPSTAT).at n) false).demandCmp n 0 false
    else s
  (s.iraw Pg.CMP 0 (s.rd F.CMP_TRIPSTAT != 0), .ok)

/-! Thresholds and slopes (R164, R165, R187). -/

/-- A dropped write is counted (R165). -/
def cmpDrop (s : State) (eng : Bool) : State :=
  (s.sat (if eng then F.CMP_ENGDROP else F.CMP_HOSTDROP)).ipulse Pg.CMP 2

/-- A write of the DAC of comparator `n` by its owner (R164). -/
def dacSet (s : State) (n v : Nat) : State :=
  let s := s.wr (F.CMP_DAC n) v
  let c := s.cmp n
  if (s.cmpRamp n).isSome then s.setCmp n { c with dacHeld := some (v % 4096) }
  else s.setCmp n { c with dacUse := v % 4096, dacHeld := none }

/-- A write of the SLOPE of ramp `r` by its owner (R164). -/
def slopeSet (s : State) (r v : Nat) : State :=
  let s := s.wr (F.CMP_SLOPE r) v
  let m := s.ramp r
  if s.bit (F.CMP_RAMPREN r) then s.setRamp r { m with slopeHeld := some (v % 65536) }
  else s.setRamp r { m with slopeUse := v % 65536, slopeHeld := none }

/-- The DAC written by the loop engine (R187). -/
def dacEngine (s : State) (n v : Nat) : State := if s.rdBit F.CMP_ENG n then s.dacSet n v else s.cmpDrop true
/-- The SLOPE written by the loop engine (R187). -/
def slopeEngine (s : State) (r v : Nat) : State := if s.rdBit F.CMP_RENG r then s.slopeSet r v else s.cmpDrop true

/-- What a comparator holds takes effect when its link to a ramp ends (R164). -/
def dacRelease (s : State) (n : Nat) : State :=
  let c := s.cmp n
  if (s.cmpRamp n).isSome then s else s.setCmp n { c with dacUse := c.dacHeld.getD c.dacUse, dacHeld := none }

/-- A write of a ramp's control word. -/
def rampWrite (s : State) (r a : Nat) (v : Word) : State × Status :=
  if 23 < (F.CMP_RLEG r).of v then (s, .range)
  else
    let was := s.bit (F.CMP_RAMPREN r)
    let (s, st) := s.genWrite a v
    let now := s.bit (F.CMP_RAMPREN r)
    let s := if now && !was then s.each 16 fun s n =>
        if s.rd (F.CMP_RAMP n) = r then s.setCmp n { (s.cmp n) with rampSeen := false } else s
      else s
    let m := s.ramp r
    let s := if now then s else s.setRamp r { m with slopeUse := m.slopeHeld.getD m.slopeUse, slopeHeld := none }
    (s.each 16 dacRelease, st)

/-- A write of a comparator's configuration (R166, R168); WIN of an odd comparator is reserved (R11). -/
def cmpCfgWrite (s : State) (n a : Nat) (v : Word) : State × Status :=
  let v := if n % 2 = 1 then (F.CMP_WIN n).put v 0 else v
  let moved := (F.CMP_WIN n).of v != s.rd (F.CMP_WIN n) || (F.CMP_MODE n).of v != s.rd (F.CMP_MODE n) ||
    (F.CMP_ACT n).of v != s.rd (F.CMP_ACT n)
  let pair := if n % 2 = 0 then n + 1 else n - 1
  if (F.CMP_ACT n).of v = 3 then (s, .range)
  else if moved && (s.bit (F.CMP_EN n) || s.bit (F.CMP_EN pair)) then (s, .busy)
  else
    let was := s.bit (F.CMP_RAMPEN n)
    let ramp := s.rd (F.CMP_RAMP n)
    let (s, st) := s.genWrite a v
    let s := if s.bit (F.CMP_RAMPEN n) && (!was || s.rd (F.CMP_RAMP n) != ramp) then
        s.setCmp n { (s.cmp n) with rampSeen := false, ofsUse := if was then (s.cmp n).ofsUse else s.rd F.AGE_OFSM }
      else s
    let s := (s.dacRelease n).dacRelease pair
    (if s.cmpOn n then s else s.cmpOff n, st)

/-! Self-test (R170 to R172). -/

/-- A leg of the group is not held at its safe level (R171). -/
def legFree (s : State) (k : Nat) : Bool := s.legRuns k || (s.leg k).cell != lvlOf (s.rd (F.LEGX_SAFEL k))

/-- A step on comparator `n` is refused (R171). -/
def stRefused (s : State) (n : Nat) : Bool :=
  !s.cmpOn n || (s.rd (F.CMP_STTYPE n) != 0 && s.rd (F.CMP_ACT n) != 0 &&
    (List.range 24).any fun k => s.has (Pg.LEG k) && s.rdBit (F.CMP_LEGGRP n) k && s.legFree k)

/-- A step begins, `host` when STGO.GO asked for it: the pre-sample is the output before POL (R170). -/
def stBegin (s : State) (n : Nat) (host : Bool) : State :=
  { s with stRun := some { host := host, cmp := n, type := s.rd (F.CMP_STTYPE n), pre := s.rdBit F.CMP_OUT n != s.bit (F.CMP_POL n)
                           stexp := s.bit (F.CMP_STEXP n) } }

/-- COMPARATOR_SELF_TEST (R170, R171): refused, waiting, or begun. -/
def stRequest (s : State) (n : Nat) (host : Bool) : State :=
  if s.stRefused n then s.sat F.CMP_STREF
  else if s.stRun.isSome then { s with stWait := s.stWait ++ [(n, host)] }
  else s.stBegin n host

/-- STGO.GO reads 1 while a step it asked for runs or waits (R12). -/
def stBusy (s : State) : Bool := (s.stRun.any fun t => t.host) || s.stWait.any fun w => w.2

/-- The next step that waits begins, unless it is refused by now (R171). -/
def stNext (s : State) : List (Nat × Bool) → State
  | [] => { s with stWait := [] }
  | w :: r => if s.stRefused w.1 then (s.sat F.CMP_STREF).stNext r else ({ s with stWait := r }).stBegin w.1 w.2

/-- SELF_TEST_STEP_END (R172) with the samples taken, before POL. -/
def stEnd (s : State) (smp : List Bool) : State :=
  match s.stRun with
  | none => s
  | some t =>
    let a := smp.getD 0 false
    let pass := if t.type = 0 then a == t.pre else if t.type = 3 then a && !(smp.getD 1 true) else a == t.stexp
    let s := ({ s with stRun := none }).sat F.CMP_STRUN
    let c := s.cmp t.cmp
    let s := s.setCmp t.cmp { c with lastFail := !pass }
    let s := if pass then s else
      let s := (s.latch ((F.CMP_STFAIL).at t.cmp)).iraw Pg.CMP 1 true
      if c.lastFail then s.detect 0x5A else s
    s.stNext s.stWait

/-- A write of STGO (R170); GO has no further effect while a step it asked for runs or waits (R14). -/
def stgoWrite (s : State) (v : Word) : State × Status :=
  let n := F.CMP_STIDX.of v
  let s := s.wr F.CMP_STIDX n
  (if F.CMP_STGO.on v && !s.stBusy then s.stRequest n true else s, .ok)

/-- A write of CMP.OWNER (R134, R165). -/
def cmpOwnerWrite (s : State) (v : Word) : State × Status :=
  let s' := if F.CMP_DCLR.on v then (s.wr F.CMP_ENGDROP 0).wr F.CMP_HOSTDROP 0 else s
  s'.genWrite (Pg.CMP + 0x40) v

/-- The write of a word of the CMP page. -/
def cmpWrite (s : State) (a : Nat) (v : Word) : State × Status :=
  let o := a % 0x1000
  if o = 0x40 then s.cmpOwnerWrite v
  else if o = 0x4C then s.tripstatWrite (s.clears a v)
  else if o = 0x50 then
    let (s, st) := s.genWrite a v
    (s.iraw Pg.CMP 1 (s.rd F.CMP_STFAIL != 0), st)
  else if o = 0x58 then s.stgoWrite v
  else if 0x80 ≤ o ∧ o < 0xC0 then
    let r := (o - 0x80) / 8
    if o % 8 = 0 then s.rampWrite r a v
    else if s.rdBit F.CMP_RENG r then (s.cmpDrop false, .locked) else (s.slopeSet r ((F.CMP_SLOPE r).of v), .ok)
  else if 0x100 ≤ o ∧ o < 0x200 then
    let n := (o - 0x100) / 0x10
    let r := o % 0x10
    if r = 0 then s.cmpCfgWrite n a v
    else if r = 4 then (if s.rdBit F.CMP_ENG n then (s.cmpDrop false, .locked) else (s.dacSet n ((F.CMP_DAC n).of v), .ok))
    else s.genWrite a v
  else s.genWrite a v

end State

/-- COMPARATOR_OUTPUT_CHANGE: the output of comparator `n` at the pin voltage `pin` (nV; R163). -/
def execComparatorOutputChange (n : Fin 16) (pin vref : Nat) (s : State) : Host.Outcome State Fault Refusal :=
  .next (s.cmpTake n pin vref)

/-- COMPARATOR_TRIP: the output of comparator `n` is 1 at the pin voltage `pin` under ACT 1 (R166). -/
def execComparatorTrip (n : Fin 16) (pin vref : Nat) (s : State) : Host.Outcome State Fault Refusal :=
  .next (s.cmpTripEvent n pin vref)

/-- CYCLE_BY_CYCLE_CUT: the output of comparator `n` is 1 at the pin voltage `pin` under ACT 2 (R464). -/
def execCycleByCycleCut (n : Fin 16) (pin vref : Nat) (s : State) : Host.Outcome State Fault Refusal :=
  .next (s.cmpCutEvent n pin vref)

/-- TRIPSTAT_CLEAR: a write of CMP.TRIPSTAT (R167). -/
def execTripstatClear (v : Word) (s : State) : Host.Outcome State Fault Refusal :=
  .next (s.hostWord 0x4204C v fun s => s.tripstatWrite (s.clears 0x4204C v))

/-- COMPARATOR_SELF_TEST: a write of CMP.STGO with GO set (R170). -/
def execComparatorSelfTest (v : Word) (s : State) : Host.Outcome State Fault Refusal :=
  let v := F.CMP_STGO.put v 1
  .next (s.hostWord 0x42058 v fun s => s.stgoWrite v)

/-- SELF_TEST_STEP_END: the running step ends with the samples `smp`, taken before POL (R172). -/
def execSelfTestStepEnd (smp : List Bool) (s : State) : Host.Outcome State Fault Refusal := .next (s.stEnd smp)

end Sys2Proof.Machine
end

