-- ==== Sys2Proof/Machine/Mod.lean ====
section
/-! DEFINITION. The modulator inputs and their filters (R140 to R153): clocks, settling, the control filter's results, stuck streams and
the overcurrent filter. -/

namespace Sys2Proof.Machine
namespace State

/-- The inputs of block `m`. -/
def blkIns (m : Nat) : List Nat := (List.range 6).map fun i => 6 * m + i

/-- MCLKm may run (R140). -/
def mclkMay (s : State) (m : Nat) : Bool :=
  s.enabled Pg.MOD && s.bit (F.MOD_BEN m) && s.rung = 0 && s.phase == .up && !s.clk.stopped

/-- CSET, OCSET and MSET of block `m` (R153). -/
def modStat (s : State) (m : Nat) : State :=
  let run := s.bit (F.MOD_RUN m)
  let s := s.setBit (F.MOD_CSET m) (run && (blkIns m).all fun n => !s.bit (F.MOD_EN n) || (s.min' n).setC)
  let s := s.setBit (F.MOD_OCSET m) (run && (blkIns m).all fun n => !s.bit (F.MOD_EN n) || (s.min' n).setO)
  s.setBit (F.MOD_MSET m) (run && (blkIns m).all fun n => !s.bit (F.MOD_METEN n) || (s.min' n).setM)

/-- The filters of input `n` start anew (R140, R153). A run of equal samples goes on: only a sample that differs ends it (R143). -/
def modRestart (s : State) (n : Nat) : State :=
  s.setMin n { (s.min' n) with bits := [], setC := false, setO := false, setM := false, ocRun := 0, ocTold := false
                               start := s.tick, taken := 0, startM := s.tick }

/-- MCLKm stops (R140). -/
def mclkStop (s : State) (m : Nat) : State :=
  (((blkIns m).foldl modRestart s).wr (F.MOD_RUN m) 0).modStat m

/-- MCLKm begins a new phase in this tick: every filter of the block starts anew, and so does its decimation schedule (R140, R147). A
restart of the divider in phase (R83) is taken as such a start (log 38). -/
def mclkPhase (s : State) (m : Nat) : State :=
  let s := (blkIns m).foldl modRestart s
  ((s.setBlk m { s.blk m with t0 := s.tick, lastAt := none, due := [] }).wr (F.MOD_RUN m) 1).modStat m

/-- MCLKm starts, and every filter of the block with it (R140). -/
def mclkStart (s : State) (m : Nat) : State :=
  if !s.mclkMay m || s.bit (F.MOD_RUN m) then s else s.mclkPhase m

/-- Every clock that may no longer run stops. -/
def mclkSync (s : State) : State := s.each 4 fun s m => if s.mclkMay m then s else s.mclkStop m

/-- Every clock that may run starts (R61, R62). -/
def mclkResume (s : State) : State := s.each 4 mclkStart

/-- The clocks that run restart in phase (R83 target 2). -/
def mclkAlign (s : State) : State := s.each 4 fun s m => if s.bit (F.MOD_RUN m) then s.mclkPhase m else s

/-- MCLKm stands at its high level: the high phase of an odd divider is the shorter one (R140). -/
def mclkHigh (s : State) (m : Nat) : Bool :=
  let d := max 1 (s.rd (F.MOD_DIV m))
  s.bit (F.MOD_RUN m) && decide ((s.tick - (s.blk m).t0) % d < d / 2)

/-- Input `n` takes samples: its clock runs and it is enabled. -/
def modRuns (s : State) (n : Nat) : Bool := s.bit (F.MOD_RUN (n / 6)) && s.bit (F.MOD_EN n)

/-- The sampling points of input `n` from tick `a` on that precede the present tick: one in each MCLK cycle, TRIM ns after the edge that
EDGE chooses (R142). -/
def samplePts (s : State) (n a : Nat) : Nat :=
  let d := max 1 (s.rd (F.MOD_DIV (n / 6)))
  let p := 2 * (s.blk (n / 6)).t0 + (if s.bit (F.MOD_EDGE n) then 2 * (d / 2) else 0) + s.rd (F.MOD_TRIM n)
  let before := fun t => (2 * t + (2 * d - 1) - p) / (2 * d)
  before s.tick - before a

/-- The metrology filter's ratio OSRM for a divider (R149). -/
def osrm (div : Nat) : Nat := if div = 25 then 250 else 125

/-- The filter of input `n` has seen the cycles that R153 gives it to settle: 0 the control, 1 the overcurrent, otherwise the metrology
filter, whose samples no command tells one by one. -/
def filterRipe (s : State) (n k : Nat) : Bool :=
  let m := n / 6
  if k = 0 then decide (3 * s.rd (F.MOD_OSRC m) ≤ (s.min' n).taken)
  else if k = 1 then decide (2 * s.rd (F.MOD_OCOSR m) ≤ (s.min' n).taken)
  else s.bit (F.MOD_METEN n) && decide (53 * osrm (s.rd (F.MOD_DIV m)) ≤ s.samplePts n (s.min' n).startM)

/-- FILTER_SETTLED (R153): 0 the control, 1 the overcurrent, otherwise the metrology filter of input `n`. -/
def filterSettled (s : State) (n k : Nat) : State :=
  let i := s.min' n
  if !s.modRuns n || !s.filterRipe n k then s
  else (s.setMin n (if k = 0 then { i with setC := true } else if k = 1 then { i with setO := true } else { i with setM := true })).modStat
    (n / 6)

/-- The sum of `n` consecutive values at each place of a list, of fewer where it ends. -/
def movSum (n : Nat) : List Nat → List Nat
  | [] => []
  | x :: t => ((x :: t).take n).sum :: movSum n t

/-- The weighted count of high samples of a sinc of order `k` and ratio `n`, from the samples, newest first: `k` moving sums, one after
the other (R144, R151). -/
def sincRaw (k n : Nat) (bits : List Bool) : Nat :=
  ((List.range k).foldl (fun l _ => movSum n l) ((bits.take (k * (n - 1) + 1)).map fun b => if b then 1 else 0)).headD 0

/-- y of R144 and R145 from the weighted count: x = 2 × CRAW / OSRC³ − 1 in binary32, then CGAIN × x and + COFS, each rounded
(R188, log 13). -/
def modScale (s : State) (n raw : Nat) : F32 :=
  let x := F32.ofRat (mkRat (2 * raw : Nat) (s.rd (F.MOD_OSRC (n / 6)) ^ 3) - 1)
  F32.add (F32.mul (s.f32 (F.MOD_CGAIN n)) x) (s.f32 (F.MOD_COFS n))

/-- The reference leg of block `m` (R147). -/
def refLeg (s : State) (m : Nat) : Option Nat := (s.legsOf (s.rd (F.MOD_CH m))).head?

/-- The reference leg's modulator is stopped, or there is no such leg (R148). -/
def refStopped (s : State) (m : Nat) : Bool :=
  match s.refLeg m with
  | none => true
  | some n =>
    let md := s.rd (F.LEG_MODE n)
    md == 0 || !s.enabled (Pg.LEG n) || (md != 1 && (!s.legRuns n || s.bit (F.LEG_SHED n)))

/-- Block `m` decimates at every OSRC cycles from the start of MCLKm (R147, R148). -/
def decimFree (s : State) (m : Nat) : Bool := s.rd (F.MOD_SMODE m) == 0 || s.refStopped m

/-- The latest instant of the FREE schedule of block `m` that has come, none before the first (R147). -/
def freeAt (s : State) (m : Nat) : Option Nat :=
  let p := max 1 (s.rd (F.MOD_OSRC m) * s.rd (F.MOD_DIV m))
  let k := (s.tick - (s.blk m).t0) / p
  if k = 0 then none else some ((s.blk m).t0 + k * p)

/-- A decimation instant of block `m` has come and has not been served (R147). -/
def decimDue (s : State) (m : Nat) : Bool :=
  if s.decimFree m then (match s.freeAt m, (s.blk m).lastAt with
    | none, _ => false
    | some _, none => true
    | some t, some u => decide (u < t))
  else (s.blk m).due.head?.any fun t => decide (t ≤ s.tick)

/-- The instant is served. -/
def decimServe (s : State) (m : Nat) : State :=
  s.setBlk m { s.blk m with lastAt := some s.tick, due := if s.decimFree m then [] else (s.blk m).due.tail }

/-- The tick of the MCLKm edge at or after the instant `t`, in units of 125 ps (R147). -/
def mclkEdge (s : State) (m : Nat) (t : Int) : Nat :=
  let d := max 1 (s.rd (F.MOD_DIV m))
  let t0 := (s.blk m).t0
  t0 + d * ((t - (16 * t0 : Nat) + (16 * d - 1 : Nat)) / (16 * d : Nat)).toNat

/-- The instant of the decimation that a carrier event at `t` puts before or after an event, with the offset `o`: a negative one counts back
from the first of the predicted events, one in each `per` units, that lies far enough ahead (R147). -/
def decimInstant (t per : Nat) (o : Int) : Int :=
  if o < 0 then (t : Int) + ((o.natAbs + max per 1 - 1) / max per 1 * max per 1 : Nat) + o else (t : Int) + o

/-- A carrier event of leg `n` at the instant `t`; the next one is predicted `per` units later (R147). A decimation instant of every
block whose reference leg it is joins those to come. -/
def carrierEvent (s : State) (n t per : Nat) (peak : Bool) : State :=
  s.each 4 fun s m =>
    if s.bit (F.MOD_RUN m) && s.rd (F.MOD_SMODE m) != 0 && s.refLeg m == some n && (!peak || s.rd (F.MOD_SMODE m) == 2) then
      let e := decimInstant t per (sgn 8 (s.rd (F.MOD_SOFS m)) * (16 * s.rd (F.MOD_DIV m) : Nat))
      s.setBlk m { s.blk m with due := (s.blk m).due ++ [s.mclkEdge m e] }
    else s

/-- The decimation of block `m`, `cycles` MCLK cycles after the last one, falls too near to it (R148). -/
def decimSkip (s : State) (m cycles : Nat) : Bool :=
  !s.decimFree m && (cycles < s.rd (F.MOD_OSRC m) || cycles * s.rd (F.MOD_DIV m) < 500)

/-- COUT and CRAW of every enabled and settled input of block `m` (R144, R146, R153). -/
def decimate (s : State) (m : Nat) : State :=
  (blkIns m).foldl (fun s n =>
    if s.modRuns n && (s.min' n).setC then
      let r := sincRaw 3 (s.rd (F.MOD_OSRC m)) (s.min' n).bits
      let y := s.modScale n r
      (s.wr (F.MOD_CRAW n) r).wrF (F.MOD_COUT n) y
    else s) s

/-- Input `n` is found stuck (R143). -/
def stuckRaise (s : State) (n : Nat) : State := ((s.latch ((F.MOD_ST).at n)).iraw Pg.MOD 1 true).detect 0x58

/-- The raw result of the overcurrent filter of input `n` lies outside its window (R151). -/
def ocOutside (s : State) (n : Nat) : Bool :=
  let raw := sincRaw 2 (s.rd (F.MOD_OCOSR (n / 6))) (s.min' n).bits
  s.rd (F.MOD_OCHI n) < raw || raw < s.rd (F.MOD_OCLO n)

/-- The window test of input `n` is made (R151, R153). -/
def ocTests (s : State) (n : Nat) : Bool := s.modRuns n && (s.min' n).setO && s.bit (F.MOD_OCEN n)

/-- The trip of input `n`: OCSTAT, MOD_OCn and the override of OCGRP (R151). -/
def ocTrip (s : State) (n : Nat) (forced : Bool) : State :=
  let s := ((s.latch ((F.MOD_OC).at n)).iraw Pg.MOD 0 true).demandMod n (s.rd (F.MOD_OCGRP n)) true
  s.raiseFlt (0x40 + n) 0 forced

/-- The window test of one cycle: OCCNT cycles outside in a row trip the input, once (R151). -/
def ocCycle (s : State) (n : Nat) : State :=
  let i := s.min' n
  if !(s.ocTests n && s.ocOutside n) then s.setMin n { i with ocRun := 0, ocTold := false }
  else
    let k := min (i.ocRun + 1) 16
    let trip := s.rd (F.MOD_OCCNT n) ≤ k && !i.ocTold
    let s := s.setMin n { i with ocRun := k, ocTold := i.ocTold || trip }
    if trip then s.ocTrip n false else s

/-- One sample of input `n` (R142), at a sampling point that has passed: the filters take it, and the stuck test (R143) and the window test
(R151) of its cycle are made. -/
def modSample (s : State) (n : Nat) (b : Bool) : State :=
  if !s.modRuns n || s.samplePts n (s.min' n).start ≤ (s.min' n).taken then s
  else
    let i := s.min' n
    let run := if i.run != 0 && i.lvl == b then min (i.run + 1) 256 else 1
    let new := run == 256 && !(i.told && i.run == 256)
    let s := s.setMin n { i with bits := (b :: i.bits).take 766, taken := i.taken + 1, lvl := b, run := run, told := run == 256 }
    (if new then s.stuckRaise n else s).ocCycle n

/-- Samples of input `n` in the order they are taken. -/
def modSamples (s : State) (n : Nat) (l : List Bool) : State := l.foldl (fun s b => s.modSample n b) s

/-- A write of OCSTAT (R152): a cleared input's override is released, unless the input still lies outside its window: then the bit sets
again and the override holds (R13). -/
def ocClear (s : State) (v : Word) : State × Status :=
  let s := s.each 24 fun s n =>
    if v.getLsbD n && s.rdBit F.MOD_OC n && !(s.ocTests n && s.ocOutside n) then
      (s.setBit ((F.MOD_OC).at n) false).demandMod n 0 false
    else s
  (s.iraw Pg.MOD 0 (s.rd F.MOD_OC != 0), .ok)

/-- A write of STUCK (R143): a bit whose run of equal samples still holds sets again and MOD_STUCK is raised again. -/
def stuckClear (s : State) (v : Word) : State × Status :=
  let s := s.each 24 fun s n =>
    if v.getLsbD n && s.rdBit F.MOD_ST n then
      let s := (s.setBit ((F.MOD_ST).at n) false).iraw Pg.MOD 1 (s.rd F.MOD_ST != 2 ^ n)
      if (s.min' n).run = 256 && s.bit (F.MOD_EN n) then s.stuckRaise n else s
    else s
  (s, .ok)

/-- A write of BLKmCFG (R140, R141, R144, R149). -/
def blkCfgWrite (s : State) (m a : Nat) (v : Word) : State × Status :=
  let div := (F.MOD_DIV m).of v
  let oc := (F.MOD_OCOSR m).of v
  let os := (F.MOD_OSRC m).of v
  let moved := div != s.rd (F.MOD_DIV m) || oc != s.rd (F.MOD_OCOSR m) || os != s.rd (F.MOD_OSRC m)
  let met := (blkIns m).any fun n => s.bit (F.MOD_METEN n)
  if s.bit (F.MOD_BEN m) && moved then (s, .busy)
  else if div < 20 || 100 < div || oc < 8 || 32 < oc || os < 8 || 256 < os || div * os < 500 || (met && div != 25 && div != 50) then
    (s, .range)
  else
    let (s, st) := s.genWrite a v
    (if s.bit (F.MOD_BEN m) then s else s.mclkStop m, st)

/-- A write of BLKmSYNC (R147): a change of the schedule or of its channel forgets the decimations to come. -/
def blkSyncWrite (s : State) (m a : Nat) (v : Word) : State × Status :=
  let moved := (F.MOD_SMODE m).of v != s.rd (F.MOD_SMODE m) || (F.MOD_CH m).of v != s.rd (F.MOD_CH m)
  let r := s.genIf a v ((F.MOD_SMODE m).of v != 3)
  (if moved && r.2 = .ok then r.1.setBlk m { r.1.blk m with due := [] } else r.1, r.2)

/-- A write of the first word of input `n` (R141, R149, R152, R153). -/
def modInWrite (s : State) (n a : Nat) (v : Word) : State × Status :=
  let div := s.rd (F.MOD_DIV (n / 6))
  let c := (F.MOD_OCCNT n).of v
  let was := s.bit (F.MOD_EN n)
  let wasM := s.bit (F.MOD_METEN n)
  if c < 1 || 16 < c || ((F.MOD_METEN n).on v && div != 25 && div != 50) then (s, .range)
  else if was && ((F.MOD_EDGE n).of v != s.rd (F.MOD_EDGE n) || (F.MOD_TRIM n).of v != s.rd (F.MOD_TRIM n)) then (s, .busy)
  else
    let (s, st) := s.genWrite a v
    let s := if s.bit (F.MOD_EN n) && !was then (s.setMin n { s.min' n with run := 0, told := false }).modRestart n
      else if s.bit (F.MOD_EN n) != was then s.modRestart n
      else if s.bit (F.MOD_METEN n) != wasM then s.setMin n { (s.min' n) with setM := false, startM := s.tick } else s
    (s.modStat (n / 6), st)

/-- The write of a word of the MOD page. -/
def modWrite (s : State) (a : Nat) (v : Word) : State × Status :=
  let o := a % 0x1000
  if 0x40 ≤ o ∧ o < 0x80 then
    let m := (o - 0x40) / 0x10
    if o % 0x10 = 0 then s.blkCfgWrite m a v
    else if o % 0x10 = 4 then s.blkSyncWrite m a v else s.genWrite a v
  else if o = 0x80 then s.ocClear (s.clears a v)
  else if o = 0x84 then s.stuckClear (s.clears a v)
  else if 0x100 ≤ o ∧ o < 0x400 then
    let n := (o - 0x100) / 0x20
    let r := o % 0x20
    if r = 0 then s.modInWrite n a v
    else if r = 4 || r = 8 then s.genIf a v (F32.isFin v && !F32.isSub v)
    else if r = 0xC then
      let hi := (F.MOD_OCHI n).of v
      s.genIf a v (hi ≤ s.rd (F.MOD_OCOSR (n / 6)) ^ 2 && (F.MOD_OCLO n).of v ≤ hi)
    else s.genWrite a v
  else s.genWrite a v

end State

/-- MCLK_START: MCLKm starts once its enables are set (R140). -/
def execMclkStart (m : Fin 4) (s : State) : Host.Outcome State Fault Refusal := .next (s.mclkStart m)

/-- FILTER_SETTLED: the control (0), overcurrent (1) or metrology (2) filter of input `n` has settled (R153). -/
def execFilterSettled (n : Fin 24) (k : Fin 3) (s : State) : Host.Outcome State Fault Refusal := .next (s.filterSettled n k)

/-- STUCK_STREAM_DETECT: an input takes samples, the last of which completes 256 equal ones in a row (R143). -/
def execStuckStreamDetect (x : Samples) (s : State) : Host.Outcome State Fault Refusal := .next (s.modSamples x.input x.bits)

/-- OVERCURRENT_QUALIFY: input `n` takes the samples `bits`, the last of which completes OCCNT cycles outside the window (R151). -/
def execOvercurrentQualify (n : Fin 24) (bits : List Bool) (s : State) : Host.Outcome State Fault Refusal :=
  .next (s.modSamples n bits)

/-- OCSTAT_CLEAR: a write of MOD.OCSTAT, `ins` being its bits [23:0] and `rest` the reserved ones above (R152). -/
def execOcstatClear (ins : BitVec 24) (rest : BitVec 8) (s : State) : Host.Outcome State Fault Refusal :=
  let v := rest ++ ins
  .next (s.hostWord 0x40080 v fun s => s.ocClear (s.clears 0x40080 v))

end Sys2Proof.Machine
end

