-- ==== Sys2Proof/Machine/Grid.lean ====
section
/-! DEFINITION. The grid trackers (R250 to R257): the update, VALID, the published angle, the zero crossings and the snapshot. The
number format inside a tracker is open: every stored result is rounded by `Config.rounded` (log 5). -/

namespace Sys2Proof.Machine

/-- Seconds of a number of 2 ns ticks. -/
def ticksQ (n : Nat) : Rat := mkRat n 500000000

/-- A finite, normal and positive binary32 value. -/
def posNormal (v : Word) : Bool := F32.isPos v && !F32.isSub v

namespace State

/-- A channel of TYPE GRID3 or GRID1 that is enabled and names port `p` (R289). -/
def servesPort (s : State) (p c : Nat) : Bool := s.chEn c && s.isGrid c && s.rd (F.CH_PORT c) == p

/-- Port `p` is served (R289). -/
def served (s : State) (p : Nat) : Bool := (List.range 8).any (s.servesPort p)

/-- The group delay of the control filter of block `m` in nanoseconds (R144): 3 (OSRC − 1) / 2 MCLK cycles. -/
def groupNs (s : State) (m : Nat) : Nat := 3 * (s.rd (F.MOD_OSRC m) - 1) * s.rd (F.MOD_DIV m)

/-- The MOD block of the tracker of port `p`. -/
def gridBlk (s : State) (p : Nat) : Nat := s.rd (F.GRID_VA p) / 6

/-- The nominal frequency of port `p` in Hz. -/
def fnom (s : State) (p : Nat) : Nat := if s.bit (F.GRID_FNOM p) then 60 else 50

/-- The published angle of port `p` in this tick (R254, R255). -/
def gridAngle (s : State) (p : Nat) : Nat :=
  let g := s.grid p
  let w := F32.toRat (g.ancW.getD (Config.timesTau (s.fnom p : Nat)))
  (g.ancTh + (Config.turns (w * (ticksQ (s.tick - g.ancTk) + mkRat g.ancNs 1000000000))).toNat) % 2 ^ 32

/-- The published angle goes on from where it is, with another frequency from now on. -/
def gridRebase (s : State) (p : Nat) : State :=
  s.setGrid p { s.grid p with ancTh := s.gridAngle p, ancTk := s.tick, ancNs := 0 }

/-- HOLD reads 1 while VALID is clear (R255); before the page is first enabled it keeps its reset value (log 17). -/
def gridHold (s : State) (p : Nat) : State := s.setBit (F.GRID_HOLD p) (!s.bit (F.GRID_VALID p))

/-- VALID clears: UNLCNT, and GRIDp_UNLOCK in FOLLOW, FORM and RIDE on a serving port, unless a descent clears it (R255, R257). -/
def validClear (s : State) (p : Nat) (descent : Bool) : State :=
  if !s.bit (F.GRID_VALID p) then s.gridHold p
  else
    let s := ((s.wr (F.GRID_VALID p) 0).iraw (Pg.GRID p) 0 false).sat (F.GRID_UNLCNT p)
    let s := (s.setGrid p { s.grid p with good := false }).gridHold p
    let m := s.modeNow
    if !descent && (m = 3 || m = 4 || m = 5) && s.served p then s.detect (0x30 + 2 * p) else s

/-- The tracker of port `p` returns to its reset state (R257). -/
def gridRestart (s : State) (p : Nat) (descent : Bool) : State :=
  let s := s.validClear p descent
  let s := (s.setGrid p { ancTk := s.tick }).wr (F.GRID_VLOW p) 0
  (s.iraw (Pg.GRID p) 2 false).gridHold p

/-- The phase voltages of port `p` (R250); of a single-phase port the spec names phase a only (log 6). -/
def gridPhases (s : State) (p : Nat) : List F32 × State :=
  let va := s.f32 (F.MOD_COUT (s.rd (F.GRID_VA p)))
  let vb := s.f32 (F.MOD_COUT (s.rd (F.GRID_VB p)))
  let vc := s.f32 (F.MOD_COUT (s.rd (F.GRID_VC p)))
  let ty := s.rd (F.GRID_TYPE p)
  if ty = 0 then ([va, vb, vc], s)
  else if ty = 1 then
    let (a, s) := s.rnd ((F32.toRat va - F32.toRat vc) / 3)
    let (b, s) := s.rnd ((F32.toRat vb - F32.toRat va) / 3)
    let (c, s) := s.rnd ((F32.toRat vc - F32.toRat vb) / 3)
    ([a, b, c], s)
  else ([va, Config.freeWord s.free, Config.freeWord (s.free + 1)], s.fresh.fresh)

/-- The integrator of R252 over `h` = Ts / 2 with input `u` after `u0`: the new in-phase and quadrature outputs of the trapezoidal rule. -/
def sogi (k w h u0 u x y : Rat) : Rat × Rat :=
  let a := h * k * w
  let b := h * w
  let r0 := (1 - a) * x - b * y + a * (u + u0)
  let r1 := b * x + y
  let det := 1 + a + b * b
  ((r0 - b * r1) / det, (b * r0 + (1 + a) * r1) / det)

/-- α and β of R252 and R185; β of a single phase is not used. -/
def gridClarke (s : State) (p : Nat) (ph : List F32) : F32 × F32 × State :=
  let a := F32.toRat (ph.getD 0 0)
  let b := F32.toRat (ph.getD 1 0)
  let c := F32.toRat (ph.getD 2 0)
  if s.rd (F.GRID_TYPE p) = 2 then (ph.getD 0 0, 0, s)
  else
    let (al, s) := s.rnd ((2 * a - b - c) / 3)
    let (r, s) := s.root ((b - c) * (b - c) / 3)
    (al, if b < c then F32.neg r else r, s)

/-- The zero-crossing detector on a new sample `v` of the watched phase at tick `tk` (R256). -/
def gridZc (s : State) (p : Nat) (v : F32) (tk delay : Nat) : State :=
  let g := s.grid p
  let x := F32.toRat v
  let hys := s.q (F.GRID_ZCHYS p)
  let g := if x ≤ 0 then { g with zle := some (tk, v), zab := none } else if g.zab.isNone then { g with zab := some (tk, v) } else g
  let s := s.setGrid p g
  if x ≤ -hys then s.setGrid p { g with zarm := true }
  else
    match g.zarm && decide (hys ≤ x), g.zle, g.zab with
    | true, some (t1, v1), some (t2, v2) =>
      let d := F32.toRat v2 - F32.toRat v1
      let fr : Rat := if d = 0 then 0 else -(F32.toRat v1) / d
      let ago : Rat := 2 * ((s.tick - t1 : Nat) : Rat) - 2 * ((t2 - t1 : Nat) : Rat) * fr + (delay : Rat)
      let at_ := ns64 (s.timeAgo ago)
      let per := match g.zlast with
        | none => 0
        | some z => (at_ + 2 ^ 64 - z) % 2 ^ 32
      let s := s.setGrid p { g with zarm := false, zlast := some at_, ztold := false }
      let s := ((s.wr64 (F.GRID_ZCTLO p) at_).wr (F.GRID_ZCPER p) per).wrap (F.GRID_ZCCNT p)
      (s.ipulse (Pg.GRID p) 1).iraw (Pg.GRID p) 2 false
    | _, _, _ => s

/-- ZERO_CROSSING_TIMEOUT (R256), once per episode; outside RUN the page takes no part (R257). -/
def gridZcTo (s : State) (p : Nat) : State :=
  if !(s.enabled (Pg.GRID p) && s.rung == 0) || (s.grid p).ztold then s
  else
    let s := s.setGrid p { s.grid p with ztold := true }
    let s := ((s.latch (F.GRID_ZCTO p)).sat (F.GRID_ZCTOCNT p)).wr (F.GRID_ZCPER p) 0
    (s.iraw (Pg.GRID p) 2 true).detect (0x31 + 2 * p)

/-- The published angle describes the latest update: θ_k is the angle its Park transform took (R253, R254). -/
def gridAnchor (s : State) (p : Nat) : State :=
  let g := s.grid p
  let m := s.gridBlk p
  s.setGrid p { g with ancTh := g.thk, ancTk := (s.blk m).tk, ancNs := s.groupNs m, ancW := some g.out.omega }

/-- The update of R251 to R256 on the latest decimation, for an enabled tracker in RUN. -/
def gridCore (s : State) (p : Nat) : State :=
  let m := s.gridBlk p
  let bk := s.blk m
  let ts := ticksQ (bk.tk - bk.tk1)
  let h := ts / 2
  let one := s.rd (F.GRID_TYPE p) == 2
  let (ph, s) := s.gridPhases p
  let (ua, ub, s) := s.gridClarke p ph
  let g := s.grid p
  let wf := g.w.getD (Config.timesTau (s.fnom p : Nat))
  let w := F32.toRat wf
  let k := s.q (F.GRID_SOGIK p)
  let qa := sogi k w h (F32.toRat g.ua) (F32.toRat ua) (F32.toRat g.a) (F32.toRat g.qa)
  let (a1, s) := s.rnd qa.1
  let (qa1, s) := s.rnd qa.2
  let qb := sogi k w h (F32.toRat g.ub) (F32.toRat ub) (F32.toRat g.b) (F32.toRat g.qb)
  let (b1, s) := if one then (qa1, s) else s.rnd qb.1
  let (qb1, s) := if one then (F32.neg a1, s) else s.rnd qb.2
  let ra := F32.toRat a1
  let rqa := F32.toRat qa1
  let rb := F32.toRat b1
  let rqb := F32.toRat qb1
  let ap := (ra - rqb) / 2
  let bp := (rqa + rb) / 2
  let an : Rat := if one then 0 else (ra + rqb) / 2
  let bn : Rat := if one then 0 else (rb - rqa) / 2
  let th := mkRat g.th (2 ^ 32)
  let co := F32.toRat (cosAcc th)
  let si := F32.toRat (sinAcc th)
  let (vpd, s) := s.rnd (ap * co + bp * si)
  let (vpq, s) := s.rnd (bp * co - ap * si)
  let (vnd, s) := s.rnd (an * co - bn * si)
  let (vnq, s) := s.rnd (bn * co + an * si)
  let (vpm, s) := s.root (F32.toRat vpd * F32.toRat vpd + F32.toRat vpq * F32.toRat vpq)
  let e := F32.toRat (Config.atan2 (F32.toRat vpq) (F32.toRat vpd))
  let vlow := F32.lt vpm (s.f32 (F.GRID_VMIN p))
  let v2 := ra * ra + rb * rb
  let err := (F32.toRat ua - ra) * rqa + (if one then 0 else (F32.toRat ub - rb) * rqb)
  let (r1, s) := if vlow || v2 = 0 then (0, s) else s.rnd (-(s.q (F.GRID_FLLG p)) * w * err / v2)
  let lo := F32.toRat (Config.timesTau (mkRat (s.rd (F.GRID_FMIN p)) 100))
  let hi := F32.toRat (Config.timesTau (mkRat (s.rd (F.GRID_FMAX p)) 100))
  let (w1, s) := if vlow then (wf, s) else s.rnd (max lo (min hi (w + ts * (F32.toRat r1 + F32.toRat g.r) / 2)))
  let (om, s) := s.rnd (F32.toRat w1 + s.q (F.GRID_PLLKP p) * e + F32.toRat g.x)
  let (x1, s) := if vlow then (g.x, s) else s.rnd (F32.toRat g.x + s.q (F.GRID_PLLKI p) * ts * e)
  let th1 := (g.th + (Config.turns (F32.toRat om * ts)).toNat) % 2 ^ 32
  let f := Config.overTau (F32.toRat om)
  let vs := Config.overTau e
  let win := s.rd (F.GRID_ROCOFWIN p) * 500000
  let first := g.first.getD bk.tk
  let old := g.hist.filter fun x => decide (x.1 + win ≤ bk.tk)
  let (roc, s) := if bk.tk < first + win then (0, s)
    else match old.head? with
      | none => (0, s)
      | some (_, f0) => s.rnd ((F32.toRat f - F32.toRat f0) / ticksQ win)
  let far := fun (x : Nat × F32) => decide (x.1 + 250000000 ≤ bk.tk)
  let keep := (g.hist.filter fun x => !far x) ++ (g.hist.filter far).head?.toList
  let fq := F32.toRat f
  let inF := decide (mkRat (s.rd (F.GRID_FMIN p)) 100 ≤ fq) && decide (fq ≤ mkRat (s.rd (F.GRID_FMAX p)) 100)
  let avs := if F32.toRat vs < 0 then -(F32.toRat vs) else F32.toRat vs
  let tol := s.q (F.GRID_LOCKTOL p)
  let s := s.setGrid p { s.grid p with
    ua := ua, ub := ub, a := a1, qa := qa1, b := b1, qb := qb1, w := some w1, r := r1, x := x1, th := th1, thk := g.th
    alpha := ua, beta := if one then 0 else ub, first := some first, hist := (bk.tk, f) :: keep
    good := !vlow && decide (avs ≤ tol) && inF
    out := { omega := om, f := f, rocof := roc, vpd := vpd, vpq := vpq, vnd := vnd, vnq := vnq, vpmag := vpm, vshift := vs } }
  let s := s.setBit (F.GRID_VLOW p) vlow
  let s := if vlow || !inF || decide (4 * tol < avs) then s.validClear p false else s
  let s := if s.bit (F.GRID_VALID p) then s.gridAnchor p else s
  s.gridZc p (ph.getD (s.rd (F.GRID_ZCPH p)) 0) bk.tk (s.groupNs m)

/-- The tracker of port `p` takes updates: enabled, in RUN. -/
def gridOn (s : State) (p : Nat) : Bool := s.enabled (Pg.GRID p) && s.rung == 0

/-- TRACKER_VALID_SET: the run of good updates has lasted LOCKT ms (R255). -/
def validSet (s : State) (p : Nat) : State :=
  if !s.gridOn p || !(s.grid p).good || s.bit (F.GRID_VALID p) then s
  else (((s.wr (F.GRID_VALID p) 1).iraw (Pg.GRID p) 0 true).gridHold p).gridAnchor p

/-- SNAP.GO and the Almanac target 0x04 (R257). -/
def gridSnap (s : State) (p : Nat) : State :=
  let o := (s.grid p).out
  let s := (((s.wrF (F.GRID_OMEGA p) o.omega).wrF (F.GRID_F p) o.f).wrF (F.GRID_ROCOF p) o.rocof).wrF (F.GRID_VPD p) o.vpd
  let s := (((s.wrF (F.GRID_VPQ p) o.vpq).wrF (F.GRID_VND p) o.vnd).wrF (F.GRID_VNQ p) o.vnq).wrF (F.GRID_VPMAG p) o.vpmag
  ((s.wrF (F.GRID_VSHIFT p) o.vshift).wr (F.GRID_ANGLE p) (s.gridAngle p)).wr64 (F.GRID_SNAPTLO p) s.now64

/-- The MOD inputs the tracker of port `p` uses. -/
def gridIns (s : State) (p : Nat) : List Nat :=
  if s.rd (F.GRID_TYPE p) = 2 then [s.rd (F.GRID_VA p)] else [s.rd (F.GRID_VA p), s.rd (F.GRID_VB p), s.rd (F.GRID_VC p)]

/-- The inputs allow PCTL.EN of the GRIDp page (R250): in one block, each enabled. -/
def gridMayEn (s : State) (p : Nat) : Bool :=
  (s.gridIns p).all fun n => decide (n < 24) && n / 6 == s.gridBlk p && s.bit (F.MOD_EN n)

/-- The write of a word of the GRIDp page. -/
def gridWrite (s : State) (p a : Nat) (v : Word) : State × Status :=
  let o := a % 0x1000
  if o = 0x40 then
    if s.enabled (Pg.GRID p) then (s, .busy)
    else if (F.GRID_TYPE p).of v = 3 || (F.GRID_ZCPH p).of v = 3 then (s, .range)
    else (s.gridRebase p).genWrite a v
  else if o = 0x44 || o = 0x48 || o = 0x4C || o = 0x50 || o = 0x58 || o = 0x5C || o = 0x68 then s.genIf a v (posNormal v)
  else if o = 0x54 then
    let lo := (F.GRID_FMIN p).of v
    let hi := (F.GRID_FMAX p).of v
    s.genIf a v (3000 ≤ lo && lo < hi && hi ≤ 9000)
  else if o = 0x60 then
    let l := (F.GRID_LOCKT p).of v
    let r := (F.GRID_ROCOFWIN p).of v
    s.genIf a v (1 ≤ l && l ≤ 10000 && 20 ≤ r && r ≤ 500)
  else if o = 0x64 then s.genIf a v (1 ≤ (F.GRID_ZCTOT p).of v && (F.GRID_ZCTOT p).of v ≤ 1000)
  else if o = 0x70 then (if (F.GRID_SNAPGO p).on v then s.gridSnap p else s, .ok)
  else s.genWrite a v

end State

/-- TRACKER_VALID_SET: LOCKT ms of good updates on port `p` (R255). -/
def execTrackerValidSet (p : Fin 2) (s : State) : Host.Outcome State Fault Refusal := .next (s.validSet p)

/-- TRACKER_DECIMATION_TIMEOUT: two expected decimations of port `p` pass with no update (R255). -/
def execTrackerDecimationTimeout (p : Fin 2) (s : State) : Host.Outcome State Fault Refusal := .next (s.validClear p false)

/-- ZERO_CROSSING_TIMEOUT: ZCTO ms pass on port `p` with no crossing (R256). -/
def execZeroCrossingTimeout (p : Fin 2) (s : State) : Host.Outcome State Fault Refusal := .next (s.gridZcTo p)

/-- GRID_SNAPSHOT: a write of SNAP of port `p` with GO set (R257). -/
def execGridSnapshot (p : Fin 2) (v : Word) (s : State) : Host.Outcome State Fault Refusal :=
  let v := (F.GRID_SNAPGO p).put v 1
  .next (s.hostWord (0x12070 + 0x1000 * p) v fun s => s.gridWrite p (0x12070 + 0x1000 * p) v)

end Sys2Proof.Machine
end

