-- ==== Sys2Proof/Machine/Probe.lean ====
section
/-! DEFINITION. The probe's phase, the current it adds to a leg and the chopping of active frequency drift (R298 to R300, R309). -/

namespace Sys2Proof.Machine
namespace State

/-- The whole seconds and nanoseconds of device time. -/
def devSec (s : State) : Nat := s.devTime / secUnits
def devNs (s : State) : Nat := s.devTime % secUnits / 2 ^ 30

/-- The probe phase in turns at `sec` seconds and `ns` nanoseconds of device time (R299). -/
def probePhaseAt (s : State) (sec ns : Nat) : Rat :=
  let f := s.rd F.ISL_PFREQ
  let x := mkRat (((sec * f) % 1000 * 1000000000 + ns * f) % 1000000000000) 1000000000000 + mkRat (s.rd F.ISL_PHOFS) 65536
  x - (x.floor : Rat)

/-- The probe phase now. -/
def probePhase (s : State) : Rat := s.probePhaseAt s.devSec s.devNs

/-- The probe cycles since device time zero (R301). -/
def probeCycles (s : State) : Nat := (s.devSec * s.rd F.ISL_PFREQ * 1000000000 + s.devNs * s.rd F.ISL_PFREQ) / 1000000000000

/-- The probe is enabled for channel `c` (R298). -/
def probeEn (s : State) (c : Nat) : Bool := s.bit F.ISL_PEN && s.rdBit F.ISL_MASK c

/-- Channel `c` injects (R298). -/
def injects (s : State) (c : Nat) : Bool :=
  let m := s.modeNow
  s.isGrid c && s.probeEn c && s.bit F.ISL_INJON && (m == 3 || m == 4 || m == 5) && s.sub c == 3

/-- Channel `c` is forming (R283). -/
def forming (s : State) (c : Nat) : Bool :=
  s.has Pg.FORM && s.isGrid c && s.modeNow == 4 && s.bit (F.FORM_EN c) && !s.bit (F.FORM_FALLBK c)

/-- The probe current of group `k` of channel `c` (R300). -/
def probeCurrent (s : State) (c k : Nat) : F32 :=
  if !s.injects c then 0
  else
    let ip := (s.ch c).ip
    if s.chType c = 0 then F32.mul ip (Config.cosTurns (s.probePhase - mkRat k 3))
    else
      let x := F32.mul ip (Config.cosTurns s.probePhase)
      if k = 1 then F32.neg x else x

/-- Phase `k` lies in a chopping interval of port `p` (R309). -/
def afdIn (s : State) (p k : Nat) : Bool :=
  let th := (s.gridAngle p + 3 * 2 ^ 32 - k * 0x55555555) % 2 ^ 32
  let w := (s.q F.ISL_CF * (2 ^ 31 : Nat)).floor.toNat
  inWindow 32 th 0xC0000000 (0xC0000000 + w) || inWindow 32 th 0x40000000 (0x40000000 + w)

/-- The current of group `k` of channel `c` is held at 0 by active frequency drift (R309). -/
def afdHold (s : State) (c k : Nat) : Bool :=
  s.bit F.ISL_FBACT && s.isGrid c && !s.forming c && s.afdIn (s.rd (F.CH_PORT c)) (if s.chType c = 0 then k else 0)

end State
end Sys2Proof.Machine
end

