-- ==== Sys2Proof/Machine/Mach.lean ====
section
/-! DEFINITION. The MACH unit (R323 to R336): position and speed, the space-vector modulator with its sampling windows, the current
limits, the start sequence and reversal. -/

namespace Sys2Proof.Machine
namespace State

/-! Position and speed (R324 to R328). -/

/-- Counts per revolution of the encoder. -/
def encSpan (s : State) : Nat := 4 * max 1 (s.rd F.MACH_LINES)

/-- θm of the encoder now: the last edge's, advanced at ωm by no more than half a count (R325). -/
def encAngle (s : State) : Nat :=
  let n := s.encSpan
  let base := s.mach.cnt * 2 ^ 32 / n
  let w := s.q F.MACH_SPEED
  let dt := ticksQ (s.tick - (match s.mach.edges.head? with | some e => e.1 | none => s.tick))
  let aw := (if w < 0 then -w else w) * dt
  let half := 2 ^ 31 / n
  let adv := if mkRat 1 (2 * n) ≤ F32.toRat (Config.overTau aw) then half else min half (Config.turns aw).toNat
  if w < 0 then (base + 2 ^ 32 - adv) % 2 ^ 32 else (base + adv) % 2 ^ 32

/-- θm (R324): of the resolver the part of a revolution its angle names (log 19). -/
def machAngle (s : State) : Nat :=
  if s.bit F.MACH_SRC then s.mach.thr / max 1 (s.rd F.MACH_RPP) else s.encAngle

/-- θe, the shaft angle (R324). -/
def shaftAngle (s : State) : Nat :=
  let eofs := s.rd F.MACH_EOFS
  if s.bit F.MACH_SRC then (s.rd F.MACH_PP / max 1 (s.rd F.MACH_RPP) * s.mach.thr + eofs) % 2 ^ 32
  else (s.rd F.MACH_PP * s.encAngle + eofs) % 2 ^ 32

/-- ωm takes a new value. -/
def setSpeed (s : State) (w : F32) : State := (s.wrF F.MACH_SPEED w).setBit F.MACH_REV (F32.lt w 0)

/-- The channel the unit serves is in START or RUN. -/
def machActive (s : State) : Bool :=
  let c := s.rd F.MACH_CH
  s.chType c == 3 && s.chEn c && (s.sub c == 2 || s.sub c == 3)

/-- POSITION_INVALID (R328). -/
def posInvalid (s : State) : State :=
  if !s.bit F.MACH_PVALID then s
  else
    let s := (s.wr F.MACH_PVALID 0).ipulse Pg.MACH 2
    if s.machActive then s.detect 0x5C else s

/-- A descent makes the encoder's position invalid, a resolver's only by a sample out of its band (R328). -/
def posDescent (s : State) : State := if s.bit F.MACH_SRC then s else s.posInvalid

/-- PVALID of the encoder of an induction machine, which needs no index (R328). -/
def posSync (s : State) : State :=
  if s.enabled Pg.MACH && !s.bit F.MACH_SRC && s.bit F.MACH_MTYPE && s.rung = 0 then s.wr F.MACH_PVALID 1 else s

/-- The place of a pair of levels in the quadrature cycle, A leading B in the direction that counts up (log 19). -/
def quadPlace (a b : Bool) : Nat := if a then (if b then 2 else 1) else (if b then 3 else 0)

/-- The encoder's unit takes edges. -/
def encOn (s : State) : Bool := s.has Pg.MACH && s.enabled Pg.MACH && !s.bit F.MACH_SRC

/-- ENCODER_EDGE (R325, R326): the accepted levels become `a` and `b`. -/
def encEdge (s : State) (a b : Bool) : State :=
  if !s.encOn then s
  else
    let m := s.mach
    let d := (quadPlace a b + 4 - quadPlace m.a m.b) % 4
    let s := { s with mach := { m with a := a, b := b } }
    if d = 0 then s
    else if d = 2 then (s.sat F.MACH_ENCERR).detect 0x5D
    else
      let n := s.encSpan
      let pos := if d = 1 then m.pos + 1 else m.pos - 1
      let win := s.rd F.MACH_SPDWIN * 500
      let old := m.edges.find? fun e => decide (e.1 + win ≤ s.tick)
      let keep := (m.edges.filter fun e => decide (s.tick < e.1 + win)) ++ old.toList
      let s := { s with mach := { s.mach with cnt := (if d = 1 then m.cnt + 1 else m.cnt + n - 1) % n, pos := pos, edges := (s.tick, pos) :: keep } }
      match old with
      | none => s
      | some (t, q) =>
        if s.tick = t then s
        else s.setSpeed (Config.timesTau (((pos - q : Int) : Rat) / ((n : Rat) * ticksQ (s.tick - t))))

/-- ENCODER_INDEX: an accepted rising edge of ENC_Z (R325). Once HOMED, an edge in RUN makes the position valid again after a descent (R328, log 19). -/
def encIndex (s : State) : State :=
  if !s.encOn then s
  else
    let n := s.encSpan
    let z := s.rd F.MACH_ZOFS
    let d := (s.mach.cnt + n - z % n) % n
    let far := s.mach.zseen && decide (s.rd F.MACH_ZTOL < min d (n - d))
    let s := if far then (s.sat F.MACH_ZERR).detect 0x5D else s
    let load := far || !s.mach.zseen
    let s := if load then { s with mach := { s.mach with cnt := z % n } } else s
    if s.mach.zseen then (if s.rung = 0 then s.wr F.MACH_PVALID 1 else s)
    else ({ s with mach := { s.mach with zseen := true } }.wr F.MACH_HOMED 1).wr F.MACH_PVALID 1

/-- ENCODER_SPEED_TIMEOUT (R326). -/
def encStill (s : State) : State := if s.encOn then s.setSpeed 0 else s

/-- RESOLVER_SAMPLE (R327, R328): the two signals in mV at the balls. -/
def resolver (s : State) (sn cs : Int) : State :=
  if !(s.has Pg.MACH && s.enabled Pg.MACH && s.bit F.MACH_SRC) then s
  else
    let a2 := sn * sn + cs * cs
    let lo := s.rd F.MACH_RAMIN
    let hi := s.rd F.MACH_RAMAX
    let ok := decide ((lo * lo : Nat) ≤ a2) && decide (a2 ≤ (hi * hi : Nat))
    let th := mkRat s.mach.thr (2 ^ 32)
    let (amp, s) := s.root (a2 : Rat)
    let num := (sn : Rat) * F32.toRat (Config.cosTurns th) - (cs : Rat) * F32.toRat (Config.sinTurns th)
    let (e, s) := s.rnd (if F32.toRat amp = 0 then 0 else num / F32.toRat amp)
    let ts : Rat := mkRat 1 (max 1 (s.rd F.MACH_REXF))
    let b := F32.toRat (Config.timesTau (10 * s.rd F.MACH_RBW : Nat))
    let (wr, s) := s.rnd (F32.toRat s.mach.wr + b * b * ts * F32.toRat e)
    let step := (F32.toRat wr + 2 * b * F32.toRat e) * ts
    let thr := (s.mach.thr + (Config.turns step).toNat) % 2 ^ 32
    let s := { s with mach := { s.mach with wr := wr, thr := thr } }
    let (wm, s) := s.rnd (F32.toRat wr / (max 1 (s.rd F.MACH_RPP) : Nat))
    let s := s.setSpeed wm
    if ok then s.wr F.MACH_PVALID 1 else s.posInvalid

/-! The modulator (R329). -/

/-- The legs of group `k` of channel `c`. -/
def groupLegs (s : State) (c k : Nat) : List Nat := (s.legsOf c).filter fun n => s.rd (F.LEGX_MAPA_GRP n) == k

/-- The link voltage of channel `c`: COUT of VDC of its group 0 (R312, R329). -/
def linkV (s : State) (c : Nat) : F32 := s.f32 (F.MOD_COUT (s.rd (F.LEGX_VDC (3 * c))))

/-- Leg `n` is the reference leg of the served machine channel (R147, R329). -/
def machRef (s : State) (n : Nat) : Bool :=
  let c := s.legCh n
  s.has Pg.MACH && s.enabled Pg.MACH && s.mapped n && s.chType c == 3 && s.rd F.MACH_CH == c && (s.legsOf c).head? == some n

/-- Leg `n` belongs to the served machine channel. -/
def machLeg (s : State) (n : Nat) : Bool :=
  let c := s.legCh n
  s.has Pg.MACH && s.enabled Pg.MACH && s.mapped n && s.chType c == 3 && s.rd F.MACH_CH == c

/-- An input of the modulator is not finite (R329). -/
def svmOdd (s : State) (c : Nat) : Bool :=
  !F32.isFin (s.linkV c) || !F32.isFin (s.f32 (F.CH_COMM c 4)) || !F32.isFin (s.f32 (F.CH_COMM c 5))

/-- SVM_COMPUTE (R329): the duties of the carrier period that begins now, the phases by the inverse transform of R185. -/
def svm (s : State) (c n : Nat) : State :=
  let vdc := s.linkV c
  let vd := s.f32 (F.CH_COMM c 4)
  let vq := s.f32 (F.CH_COMM c 5)
  let bad := !F32.isPos vdc || s.svmOdd c
  let x := F32.toRat vdc
  let vm := s.q F.MACH_VMARG * x
  let (vabs, s) := s.root (vm * vm / 3)
  let vlim := if vm < 0 then F32.neg vabs else vabs
  let (vmag, s) := s.root (F32.toRat vd * F32.toRat vd + F32.toRat vq * F32.toRat vq)
  let satd := F32.lt vlim vmag
  let sc : Rat := if satd && F32.toRat vmag != 0 then F32.toRat vlim / F32.toRat vmag else 1
  let (d, s) := if satd then s.rnd (F32.toRat vd * sc) else (vd, s)
  let (q, s) := if satd then s.rnd (F32.toRat vq * sc) else (vq, s)
  let we := s.q F.MACH_SPEED * (s.rd F.MACH_PP : Nat)
  let th := mkRat (s.shaftAngle + (Config.turns (we * mkRat (s.rd (F.LEG_ACT_PER n)) 8000000000)).toNat) (2 ^ 32)
  let v := (ixfOut 0 [d, q, 0] (cosAcc th) (sinAcc th)).map F32.toRat
  let hi := v.foldl max (v.getD 0 0)
  let lo := v.foldl min (v.getD 0 0)
  let v0 := -(hi + lo) / 2
  let (duty, s) := v.foldl (fun (p : List F32 × State) vk =>
    let (f, s) := p.2.rnd (if x = 0 then 0 else mkRat 1 2 + (vk + v0) / x)
    (p.1 ++ [F32.clamp f 0 F32.oneW], s)) ([], s)
  let s := (s.setBit F.MACH_VSAT satd).setBit F.MACH_VBAD bad
  { s with mach := { s.mach with vmag := vmag, vlim := vlim, vdc := vdc, duty := duty } }

/-- The factor of the regenerating bound (R331); 1 without a limit VDCMAX. -/
def regenFactor (s : State) (vdc : Rat) : Rat :=
  if !F32.isFin (s.f32 F.MACH_VDCMAX) then 1
  else
    let d := s.q F.MACH_VDCMAX - s.q F.MACH_VDCBRK
    if d ≤ 0 then 0 else max 0 (min 1 ((s.q F.MACH_VDCMAX - vdc) / d))

/-- The requested slots of channel `c`, as committed. -/
def reqSlot (s : State) (c k : Nat) : F32 := SMap.get (fun _ => 0) (s.ch c).req k

/-- DCDC channel `c` feeds the link of an enabled grid channel (R282). -/
def dcLinked (s : State) (c : Nat) : Bool :=
  let g := s.rd (F.CH_LINK c)
  s.chEn c && s.chType c == 2 && s.bit (F.CH_LINKEN c) && s.chEn g && s.isGrid g

/-- The committed slots of DCDC channel `c` take effect (R313). -/
def dcTake (s : State) (c : Nat) : State := s.setDc c { s.dc c with slots := (s.ch c).req }

/-- The factor of a ramp-down of R264 in progress; 1 without one. -/
def modeRamp (s : State) : Rat :=
  if !s.mode.ramp then 1
  else
    let d := s.rd F.SYS_STOPT * 500000
    if d = 0 then 0 else max 0 (1 - mkRat s.mode.rampT d)

/-- The factor on the available current of a grid channel and on the bounds of a DCDC channel: the ramp of SS1 (R384), else that of a
ramp-down (R281, R314). -/
def rampFactor (s : State) : Rat :=
  if s.rd F.SAFE_PHASE = 1 then
    let d := s.rd F.SAFE_RAMPT * 500000
    if d = 0 then 0 else max 0 (1 - mkRat (s.tick - s.safe.at0) d)
  else s.modeRamp

/-- The channel of MACH.CFG.CH is an enabled MACH channel (R385, R386), whether or not the unit is enabled. -/
def machOn (s : State) : Bool := s.has Pg.MACH && s.chEn (s.rd F.MACH_CH) && s.chType (s.rd F.MACH_CH) == 3

/-- The SS1 of R385 has channel `c` in hand. -/
def ss1Mach (s : State) (c : Nat) : Bool := s.rd F.SAFE_PHASE == 1 && s.machOn && s.rd F.MACH_CH == c

/-- The committed slot `k` of channel `c` as it reads: in SS1 slot 3 of the machine channel is the speed of the deceleration (R385). -/
def commWord (s : State) (c k : Nat) : Word :=
  if k = 3 && s.ss1Mach c then
    let w0 := F32.toRat s.safe.w0
    let w := max ((if w0 < 0 then -w0 else w0) - s.q F.SAFE_DECEL * ticksQ (s.tick - s.safe.at0)) 0
    Config.rounded s.free (if w0 < 0 then -w else w)
  else s.reg (F.CH_COMM c k).addr

/-- The ramp factor on the machine's grants: a stop of its channel (R335), else the ramp-down of R264. -/
def machRamp (s : State) : Rat :=
  match s.mach.stopAt with
  | none => s.modeRamp
  | some t =>
    let d := s.rd F.SYS_STOPT * 500000
    if d = 0 then 0 else max 0 (1 - mkRat (s.tick - t) d)

/-- FIELD_WEAKENING_UPDATE (R331, R332): id_fw, IMAX, c_q, r_lim and the granted currents, in one cycle. The reason is AGEING where the
request would have fitted with IRATED in place of E (log 20). -/
def machLimits (s : State) (c n : Nat) : State :=
  let m := s.mach
  let tp := mkRat (2 * s.rd (F.LEG_ACT_PER n)) 8000000000
  let (e, s) := s.rnd (s.q (F.CH_IRATED c) * s.q (F.CH_KAGE c))
  let s2 := s.reqSlot c 2
  let imax := if F32.toRat s2 = 0 then e else F32.fmin e s2
  let (ev, s) := if s.svmOdd c then (Config.freeWord s.free, s.fresh) else s.rnd (F32.toRat m.vmag - s.q F.MACH_FWTH * F32.toRat m.vlim)
  let idmin := s.f32 F.MACH_IDFWMIN
  let (x, s) := s.rnd (s.q F.MACH_IDFW - s.q F.MACH_KFW * F32.toRat ev * tp)
  let idfw := F32.clamp x idmin 0
  let fw := F32.eq idfw idmin
  let (y, s) := s.rnd (F32.toRat (s.reqSlot c 1) + F32.toRat idfw)
  let id := F32.clamp y (F32.neg imax) imax
  let (iql, s) := s.root (F32.toRat imax * F32.toRat imax - F32.toRat id * F32.toRat id)
  let wm := s.f32 F.MACH_SPEED
  let ceil := (fw && F32.lt 0 ev) || F32.lt (s.f32 F.MACH_WMAX) (F32.abs wm)
  let step := s.q F.MACH_KCEIL * tp
  let (z, s) := if ceil then s.rnd (s.q F.MACH_CQ - step) else s.rnd (s.q F.MACH_CQ + step)
  let cq := if s.ss1Mach c then 0 else if ceil then F32.fmax z 0 else F32.fmin z iql
  let (rl, s) := s.rnd (F32.toRat iql * s.regenFactor (F32.toRat m.vdc))
  let mot := F32.fmin cq iql
  let neg := if F32.le (F32.abs wm) (s.f32 F.MACH_CATCHTHR) then s.bit F.MACH_DIR else F32.lt wm 0
  let want := s.reqSlot c 0
  let isMot := F32.lt want 0 == neg
  let bound := if isMot then mot else rl
  let g0 := F32.clamp want (F32.neg bound) bound
  let ph := s.rd F.MACH_PHASE
  let reg := F32.fmin (s.f32 F.MACH_REVIQ) rl
  let g1 := if ph = 1 then 0 else if ph = 2 then (if F32.lt wm 0 then reg else F32.neg reg) else g0
  let d1 := if ph = 1 then 0 else id
  let k := s.machRamp
  let (giq, s) := if k = 1 then (g1, s) else s.rnd (F32.toRat g1 * k)
  let (gid, s) := if k = 1 then (d1, s) else s.rnd (F32.toRat d1 * k)
  let rated := if F32.toRat s2 = 0 then s.f32 (F.CH_IRATED c) else F32.fmin (s.f32 (F.CH_IRATED c)) s2
  let idr := F32.clamp y (F32.neg rated) rated
  let (au, s) := s.root (F32.toRat rated * F32.toRat rated - F32.toRat idr * F32.toRat idr)
  let fits := F32.toRat (F32.abs want) ≤ F32.toRat au * (if isMot then 1 else s.regenFactor (F32.toRat m.vdc))
  let was := s.bit F.MACH_SPDCEIL
  let now := ceil || F32.lt cq iql
  let byCeil := isMot && F32.lt cq iql && F32.lt cq (F32.abs want)
  let s := if s.mach.stopAt.isSome || s.sub c = 5 then s.wr (F.CH_RSNQ c) 5
    else if F32.eq g0 want then s.wr (F.CH_RSNQ c) 0
    else if byCeil then s
    else s.wr (F.CH_RSNQ c) (if fits then 4 else 1)
  let s := (((s.setBit F.MACH_FWLIM fw).setBit F.MACH_SPDCEIL now).wrF F.MACH_IDFW idfw).wrF F.MACH_CQ cq
  let s := if now && !was then s.ipulse Pg.MACH 0 else s
  let s := ((s.wrF (F.CH_COMM c 0) giq).wrF (F.CH_COMM c 1) gid).wrF (F.CH_COMM c 2) imax
  { s with mach := { s.mach with gid := gid, giq := giq, rlim := rl, iqlim := iql } }

/-- The unit's part in the reload of leg `n` (R329, R331). -/
def machReload (s : State) (n : Nat) : State :=
  if s.machRef n then (s.svm (s.legCh n) n).machLimits (s.legCh n) n else s

/-- The sampling windows of R330 in the carrier period of leg `n` that begins at `now`: each predicted decimation of a block in CARRIER
mode that names channel `c`, as the pair of its ends after `now`. A decimation lies SOFS MCLK cycles after or before an event of the
reference leg's carrier, at an edge of MCLK (R147); one at the period's end belongs to the period. -/
def quietWindows (s : State) (c n now : Nat) : List (Int × Int) :=
  let w : Int := s.rd F.MACH_TWMIN
  let r := ((s.legsOf c).head?).getD n
  let len : Int := max 1 (2 * s.rd (F.LEG_ACT_PER r))
  let zero : Int := ((s.leg r).ctrAt : Int) - (s.leg r).ctrPh
  let top : Int := 2 * s.rd (F.LEG_ACT_PER n)
  (List.range 4).flatMap fun m =>
    if s.rd (F.MOD_SMODE m) != 0 && s.rd (F.MOD_CH m) == c && s.bit (F.MOD_BEN m) && w != 0 then
      let o := sgn 8 (s.rd (F.MOD_SOFS m)) * (16 * s.rd (F.MOD_DIV m) : Nat)
      let first := zero + o + ((now - zero - o) / len - 1) * len
      let ev := (List.range 4).flatMap fun (k : Nat) =>
        let e := first + k * len
        if s.rd (F.MOD_SMODE m) = 2 then [e, e + len / 2] else [e]
      ((ev.map fun e => 16 * (s.mclkEdge m e : Int) - now).filter fun t => decide (0 < t) && decide (t ≤ top)).map fun t => (t - w, t)
    else []

/-- The shift of the high-side interval of half-width `cc` (R330): none needed, a shift, or none found. -/
def quietShift (per cc shmax dtr dtf : Nat) (win : List (Int × Int)) : Option Int :=
  let e1 : Int := (per : Int) - cc
  let e2 : Int := (per : Int) + cc
  let d1 : Int := max 1 dtr
  let d2 : Int := max 1 dtf
  let clear (x : Int) : Bool := win.all fun w =>
    (decide (e1 + x + d1 ≤ w.1) || decide (w.2 ≤ e1 + x)) && (decide (e2 + x + d2 ≤ w.1) || decide (w.2 ≤ e2 + x))
  if cc = 0 || per ≤ cc || clear 0 then some 0
  else
    let cand := win.flatMap fun w => [w.1 - d1 - e1, w.2 - e1, w.1 - d2 - e2, w.2 - e2]
    let ok := cand.filter fun x => clear x && decide (x.natAbs ≤ shmax) && decide (0 ≤ e1 + x) && decide (e2 + x < 2 * (per : Int))
    ok.foldl (fun b x => match b with
      | none => some x
      | some y => if x.natAbs < y.natAbs || (x.natAbs = y.natAbs && x < y) then some x else some y) none

/-- C of a leg of the machine channel with PER in use `per` (R329). -/
def machC (s : State) (n per : Nat) : Nat :=
  (F32.rneRat (F32.toRat (s.mach.duty.getD (s.rd (F.LEGX_MAPA_GRP n)) 0) * (per : Nat))).toNat

/-- The shift of leg `n` in its new period from `now`, with SHIFTCNT and TWMISS (R330). -/
def machShift (s : State) (n per cc now : Nat) : State :=
  let dta := s.rd (F.LEG_DTAGE n)
  match quietShift per cc (s.rd F.MACH_SHMAX) (s.rd (F.LEG_ACT_DTR n) + dta) (s.rd (F.LEG_ACT_DTF n) + dta) (s.quietWindows (s.legCh n) n now) with
  | none => ((s.setLeg n { s.leg n with shift := 0 }).sat F.MACH_TWMISS).ipulse Pg.MACH 3
  | some x =>
    let s := s.setLeg n { s.leg n with shift := x }
    if x = 0 then s else s.sat F.MACH_SHIFTCNT

/-! Start and reversal (R333 to R335). -/

/-- BRAKE and the driver it forces, which acts as if its EN were set: a lock-out of it is reported (R249, R334). -/
def machBrake (s : State) (on : Bool) : State :=
  let k := s.rd F.MACH_BRKGDO
  ((s.setBit F.MACH_BRAKE (on && s.bit F.MACH_BRKEN)).gdoUpdate k).uvReport (2 ≤ k)

/-- The PHASE of the served channel; RUN shows as sub-state RUN. -/
def machPhase (s : State) (ph : Nat) : State :=
  let c := s.rd F.MACH_CH
  let s := (s.wr F.MACH_PHASE ph).machBrake (ph == 2)
  if ph = 3 && s.sub c = 2 then s.wr (subF c) 3 else s

/-- A start refused (R333, R335). -/
def machRefuse (s : State) (res : Nat) : State := ((s.wr F.MACH_CMDRES res).sat F.MACH_REFCNT).ipulse Pg.MACH 1

/-- MACH_START_EVALUATION (R333). -/
def machEval (s : State) : State :=
  let wm := s.f32 F.MACH_SPEED
  let aw := F32.abs wm
  let same := F32.lt wm 0 == s.bit F.MACH_DIR
  if !s.bit F.MACH_PVALID then (s.wr F.MACH_RUN 0).machRefuse 2
  else if F32.le aw (s.f32 F.MACH_CATCHTHR) then (s.wr F.MACH_CMDRES 0).machPhase 3
  else if same || F32.le aw (s.f32 F.MACH_REVTHR) then (s.wr F.MACH_CMDRES 0).machPhase 1
  else if s.bit F.MACH_AUTOREV then (s.wr F.MACH_CMDRES 0).machPhase 2
  else (s.wr F.MACH_RUN 0).machRefuse 1

/-- The served channel enters START (R331, R333). -/
def machStart (s : State) : State :=
  let s := (s.wrF F.MACH_CQ s.mach.iqlim).wrF F.MACH_IDFW 0
  let s := { s with mach := { s.mach with stopAt := none } }
  if s.bit F.MACH_RUN then s.machEval else s

/-- The served channel leaves START, RUN and STOP: nothing is granted. -/
def machEnd (s : State) : State :=
  let c := s.rd F.MACH_CH
  (((({ s with mach := { s.mach with stopAt := none, gid := 0, giq := 0 } }).wr (F.CH_COMM c 0) 0).wr (F.CH_COMM c 1) 0)).machPhase 0

/-- A write of MACH.CMD (R333, R335). -/
def machCmdWrite (s : State) (v : Word) : State × Status :=
  let c := s.rd F.MACH_CH
  let ph := s.rd F.MACH_PHASE
  if ph = 1 || ph = 2 then (s, .busy)
  else
    let run := s.bit F.MACH_RUN
    let want := F.MACH_RUN.on v
    let flip := F.MACH_DIR.on v != s.bit F.MACH_DIR
    let deny := flip && run && s.machActive && F32.lt (s.f32 F.MACH_REVTHR) (F32.abs (s.f32 F.MACH_SPEED))
    let s := if deny then s.machRefuse 1 else s.setBit F.MACH_DIR (F.MACH_DIR.on v)
    let s := s.setBit F.MACH_RUN want
    if want && !run then
      let s := { s with mach := { s.mach with coast := false, stopAt := none } }
      if !(s.chType c == 3 && s.chEn c && s.released c) then (s, .ok)
      else if s.sub c = 1 || s.sub c = 5 then
        let s := (s.wr (subF c) 2).cellsAll
        (s.machStart, .ok)
      else (s.machEval, .ok)
    else if !want && run && (s.sub c = 2 || s.sub c = 3) && s.chType c == 3 then
      (({ s with mach := { s.mach with stopAt := some s.tick } }).wr (subF c) 5, .ok)
    else (s, .ok)

/-- The stop of the machine channel has lasted STOPT: it is IDLE and coasts (R335). -/
def machStopTick (s : State) : State :=
  match s.mach.stopAt with
  | none => s
  | some t =>
    if s.tick - t < s.rd F.SYS_STOPT * 500000 then s
    else
      let c := s.rd F.MACH_CH
      let s := { s with mach := { s.mach with coast := true } }
      ((if s.sub c = 5 then s.wr (subF c) 1 else s).machEnd).cellsAll

/-- The configuration of a machine channel allows PCTL.EN of its CH page (R323). -/
def machMayEn (s : State) (c : Nat) : Bool :=
  s.has Pg.MACH && s.enabled Pg.MACH && s.rd F.MACH_CH == c && (s.legsOf c).all (fun n => s.rd (F.LEG_MODE n) == 1) &&
  F32.isPos (s.f32 (F.CH_IRATED c))

/-- The ranges of the MACH page's words. -/
def machRange (s : State) (o : Nat) (v : Word) : Bool :=
  let fin := F32.isFin v
  let x := F32.toRat v
  if o = 0x40 then
    let pp := F.MACH_PP.of v
    let rpp := F.MACH_RPP.of v
    pp != 0 && 1 ≤ rpp && rpp ≤ 8 && !(F.MACH_SRC.on v && pp % rpp != 0)
  else if o = 0x44 then 16 ≤ F.MACH_LINES.of v
  else if o = 0x48 then F.MACH_ZOFS.of v < s.encSpan
  else if o = 0x50 then 4000 ≤ F.MACH_REXF.of v && F.MACH_REXF.of v ≤ 20000 && 10 ≤ F.MACH_RBW.of v
  else if o = 0x58 then 10 ≤ F.MACH_SPDWIN.of v
  else if o = 0x5C then fin && F32.le v (s.f32 F.MACH_REVTHR)
  else if o = 0x60 then fin && F32.le (s.f32 F.MACH_CATCHTHR) v
  else if o = 0x64 then fin || v == F32.infW false
  else if o = 0x68 || o = 0x74 || o = 0x80 then F32.isNonneg v
  else if o = 0x6C then fin && 1 ≤ 2 * x && x ≤ 1
  else if o = 0x70 then fin && 4 ≤ 5 * x && x ≤ 1
  else if o = 0x78 then fin && x ≤ 0
  else if o = 0x7C then F32.isPos v
  else if o = 0x84 then fin && F32.lt v (s.f32 F.MACH_VDCMAX)
  else if o = 0x88 then (fin || v == F32.infW false) && F32.lt (s.f32 F.MACH_VDCBRK) v
  else if o = 0x90 then 1 ≤ F.MACH_CATCHMS.of v
  else true

/-- The write of a word of the MACH page. -/
def machWrite (s : State) (a : Nat) (v : Word) : State × Status :=
  let o := a % 0x1000
  if o = 0xA0 then s.machCmdWrite v
  else if 0x40 ≤ o ∧ o ≤ 0x58 ∧ s.enabled Pg.MACH then (s, .busy)
  else if !s.machRange o v then (s, .range)
  else if o = 0x40 then
    let src := s.bit F.MACH_SRC
    let (s, st) := s.genWrite a v
    (if s.bit F.MACH_SRC != src then s.posInvalid else s, st)
  else s.genWrite a v

end State

/-- ENCODER_EDGE: the accepted levels of ENC_A and ENC_B become `a` and `b` (R325). -/
def execEncoderEdge (a b : Bool) (s : State) : Host.Outcome State Fault Refusal := .next (s.encEdge a b)

/-- ENCODER_INDEX: an accepted rising edge of ENC_Z (R325). -/
def execEncoderIndex (s : State) : Host.Outcome State Fault Refusal := .next s.encIndex

/-- ENCODER_SPEED_TIMEOUT: no edge for ZSPDT ms (R326). -/
def execEncoderSpeedTimeout (s : State) : Host.Outcome State Fault Refusal := .next s.encStill

/-- CATCH_ON_END: CATCHMS of zero grants have passed (R333). -/
def execCatchOnEnd (s : State) : Host.Outcome State Fault Refusal := .next (if s.rd F.MACH_PHASE = 1 then s.machPhase 3 else s)

/-- REGEN_END: the speed has fallen to REVTHR (R334). -/
def execRegenEnd (s : State) : Host.Outcome State Fault Refusal :=
  .next (if s.rd F.MACH_PHASE = 2 && F32.le (F32.abs (s.f32 F.MACH_SPEED)) (s.f32 F.MACH_REVTHR) then s.machPhase 3 else s)

end Sys2Proof.Machine
end

