-- ==== Sys2Proof/Machine/Prot.lean ====
section
/-! DEFINITION. Leg protection (R232 to R242) and the auxiliary gate drivers (R246 to R249). -/

namespace Sys2Proof.Machine
namespace State

/-! The shoot-through interlock (R236). -/

/-- A coincidence begins at leg `n` (R236): PROT.XON, XCNT, the source and ENn low. -/
def coincide (s : State) (n : Nat) : State :=
  if !s.has (Pg.LEG n) || s.bit (F.LEG_XON n) then s
  else
    let s := ((s.setBit (F.LEG_XON n) true).sat (F.LEG_XCNT n)).ipulse (Pg.LEG n) 8
    (s.cellUpdate n).raiseFlt (0x80 + 2 * n) 0 false

/-- A forced LEGn_XON (R237): XCNT, the source and ENn low for 8 ns. -/
def xonForce (s : State) (n : Nat) : State :=
  let s := (s.sat (F.LEG_XCNT n)).ipulse (Pg.LEG n) 8
  ((s.setLeg n { s.leg n with forceEnd := some (s.tick + 4) }).cellUpdate n).raiseFlt (0x80 + 2 * n) 0 true

/-- The coincidence ends: the cell takes the command that remains. -/
def coincideEnd (s : State) (n : Nat) : State :=
  if !s.bit (F.LEG_XON n) then s else (s.setBit (F.LEG_XON n) false).cellUpdate n

/-! Trip inputs (R238 to R242). -/

/-- RAW of input `i` follows its ball and function; LVL falls with it, and with the page's enable, without which no input acts
(R238, R239). -/
def tripSync (s : State) (i : Nat) : State :=
  let t := s.trip i
  let act := s.rd (F.TRIP_FUNC i) != 0 && t.ball == s.bit (F.TRIP_POL i)
  let s := s.setBit ((F.TRIP_RAW).at i) act
  if act && s.enabled Pg.TRIP then s else (s.setBit ((F.TRIP_LVL).at i) false).setTrip i { t with qualified := false }

/-- TRIP_INPUT_EDGE (R239, R240): activity inside a blanking window is counted once for the window. -/
def tripEdge (s : State) (i : Nat) (level : Bool) : State :=
  let s := (s.setTrip i { (s.trip i) with ball := level }).tripSync i
  let t := s.trip i
  if s.tripLive i && t.blankOpen && !t.activeSeen && s.rd (F.TRIP_FUNC i) = 1 then
    (s.sat (F.TRIP_BLANKCNT i)).setTrip i { t with activeSeen := true }
  else s

/-- The qualification of input `i`: LAT, QUALCNT, TRIP_INi and the override of GRP (R241). -/
def tripAct (s : State) (i : Nat) (forced : Bool) : State :=
  let s := ((s.latch ((F.TRIP_LAT).at i)).iraw Pg.TRIP 0 true).sat (F.TRIP_QUALCNT i)
  (s.demandTrip i (s.rd (F.TRIP_GRP i)) true).raiseFlt (0x70 + i) 0 forced

/-- TRIP_QUALIFY (R239, R241): FILT active samples, outside blanking for FUNC 1. FUNC 2 shows the level only. -/
def tripQualify (s : State) (i : Nat) : State :=
  let t := s.trip i
  let f := s.rd (F.TRIP_FUNC i)
  if !s.tripLive i || t.qualified || (f = 1 && t.blankOpen) then s
  else
    let s := (s.setBit ((F.TRIP_LVL).at i) true).setTrip i { t with qualified := true }
    if f = 1 then s.tripAct i false else s

/-- BLANK_WINDOW_CLOSE (R240). -/
def blankClose (s : State) (i : Nat) : State := s.setTrip i { (s.trip i) with blankOpen := false, activeSeen := false }

/-- A write of TRIP.STAT (R242): a cleared latch releases its override, or sets again while the input is qualified. -/
def tripStatWrite (s : State) (v : Word) : State × Status :=
  let s := s.each 8 fun s i =>
    if v.getLsbD i && s.rdBit F.TRIP_LAT i && !(s.trip i).qualified then
      (s.setBit ((F.TRIP_LAT).at i) false).demandTrip i 0 false
    else s
  (s.iraw Pg.TRIP 0 (s.rd F.TRIP_LAT != 0), .ok)

/-- A write of TRIP.CFGi (R238, R242). -/
def tripCfgWrite (s : State) (i a : Nat) (v : Word) : State × Status :=
  let f := (F.TRIP_FUNC i).of v
  let moved := f != s.rd (F.TRIP_FUNC i) || (F.TRIP_POL i).of v != s.rd (F.TRIP_POL i) || (F.TRIP_FILT i).of v != s.rd (F.TRIP_FILT i)
  if f = 3 || (F.TRIP_FILT i).of v = 0 then (s, .range)
  else if s.rd (F.TRIP_FUNC i) != 0 && moved && f != 0 then (s, .busy)
  else
    let (s, st) := s.genWrite a v
    let s := if f = 1 then s else s.blankClose i
    (s.tripSync i, st)

/-- The write of a word of the TRIP page. -/
def tripWrite (s : State) (a : Nat) (v : Word) : State × Status :=
  let o := a % 0x1000
  if o = 0xC0 then s.tripStatWrite (s.clears a v)
  else if 0x40 ≤ o ∧ o < 0xC0 ∧ o % 0x10 = 0 then s.tripCfgWrite ((o - 0x40) / 0x10) a v
  else s.genWrite a v

/-! Safe levels and auxiliary drivers in the LEGX page. -/

/-- A write of LEGX.SAFEn (R232, R235). -/
def safeLvlWrite (s : State) (n a : Nat) (v : Word) : State × Status :=
  let w := s.heldRwl a v
  let moved := (F.LEGX_SAFEL n).of w != s.rd (F.LEGX_SAFEL n) || (F.LEGX_BTTRIP n).of w != s.rd (F.LEGX_BTTRIP n) ||
    (F.LEGX_BTCHK n).of w != s.rd (F.LEGX_BTCHK n)
  if (F.LEGX_SAFEL n).of w = 3 then (s, .range)
  else if s.enabled (Pg.LEG n) && moved then (s, if w = v then .busy else .locked)
  else
    let (s, st) := s.genWrite a v
    (s.cellUpdate n, st)

/-- The levels of the two driver supplies show in STAT.UVLO (R52, R248). -/
def uvShow (s : State) : State := s.each 4 fun s k => s.setBit (F.LEGX_GDUVLO k) (s.gdo k).low

/-- A supply's lock-out begins or ends (R248, R249). -/
def uvlo (s : State) (hi low : Bool) : State :=
  let k := if hi then 2 else 0
  let s := (s.setGdo k { s.gdo k with low := low }).setGdo (k + 1) { s.gdo (k + 1) with low := low }
  let s := (s.setBit (F.LEGX_GDUVLO k) low).setBit (F.LEGX_GDUVLO (k + 1)) low
  let s := if low then s else s.setGdo k { (s.gdo k) with uvTold := false }
  ((s.gdoUpdate k).gdoUpdate (k + 1)).uvReport hi

/-- GDO_PWM_PERIOD_START (R246): PER and DUTY are sampled together. -/
def gdoPeriod (s : State) (k : Nat) : State :=
  if s.rd (F.LEGX_GDMODE k) != 1 || s.gdoForced k then s
  else
    let per := s.rd (F.LEGX_GDPER k)
    let on := s.rd (F.LEGX_GDDUTY k) * per / 65536
    (s.setGdo k { (s.gdo k) with per := per, on := on, phaseHi := on != 0 }).gdoUpdate k

/-- A write of a word of driver `k` (R246 to R248). -/
def gdoWrite (s : State) (k a : Nat) (v : Word) : State × Status :=
  let r := a % 0x10
  if r = 0 then
    let moved := (F.LEGX_GDMODE k).of v != s.rd (F.LEGX_GDMODE k) || (F.LEGX_CMPSEL k).of v != s.rd (F.LEGX_CMPSEL k)
    if (F.LEGX_GDMODE k).of v = 3 then (s, .range)
    else if s.gdoOn k && moved then (s, .busy)
    else
      let (s, st) := s.genWrite a v
      ((s.gdoUpdate k).uvReport (2 ≤ k), st)
  else if r = 4 then s.genIf a v (100 ≤ (F.LEGX_GDPER k).of v)
  else s.genWrite a v

end State

/-- SHOOT_THROUGH_COINCIDENCE: HI and LO are asserted together at the cell of leg `n` (R236). -/
def execShootThroughCoincidence (n : Fin 24) (s : State) : Host.Outcome State Fault Refusal := .next (s.coincide n)

/-- COINCIDENCE_END: the coincidence at leg `n` ends (R236). -/
def execCoincidenceEnd (n : Fin 24) (s : State) : Host.Outcome State Fault Refusal := .next (s.coincideEnd n)

/-- TRIP_INPUT_EDGE: the ball of trip input `i` takes a level (R239). -/
def execTripInputEdge (i : Fin 8) (level : Bool) (s : State) : Host.Outcome State Fault Refusal := .next (s.tripEdge i level)

/-- TRIP_QUALIFY: trip input `i` has been active for FILT samples (R241). -/
def execTripQualify (i : Fin 8) (s : State) : Host.Outcome State Fault Refusal := .next (s.tripQualify i)

/-- BLANK_WINDOW_CLOSE: the blanking window of trip input `i` closes (R240). -/
def execBlankWindowClose (i : Fin 8) (s : State) : Host.Outcome State Fault Refusal := .next (s.blankClose i)

/-- TRIP_LATCH_CLEAR: a write of TRIP.STAT (R242). -/
def execTripLatchClear (v : Word) (s : State) : Host.Outcome State Fault Refusal :=
  .next (s.hostWord 0x430C0 v fun s => s.tripStatWrite (s.clears 0x430C0 v))

/-- GDO_PWM_PERIOD_START: driver `k` starts a PWM period (R246). -/
def execGdoPwmPeriodStart (k : Fin 4) (s : State) : Host.Outcome State Fault Refusal := .next (s.gdoPeriod k)

/-- GDO_PWM_DUTY_END: the PWM on-time of driver `k` ends (R246). -/
def execGdoPwmDutyEnd (k : Fin 4) (s : State) : Host.Outcome State Fault Refusal :=
  .next ((s.setGdo k { (s.gdo k) with phaseHi := false }).gdoUpdate k)

/-- GDO_CHOP_CHANGE: driver `k` in CHOP follows its comparator (R246). -/
def execGdoChopChange (k : Fin 4) (s : State) : Host.Outcome State Fault Refusal := .next (s.gdoUpdate k)

/-- GDO_MIN_INTERVAL_END: the minimum interval of driver `k` ends (R246). -/
def execGdoMinIntervalEnd (k : Fin 4) (s : State) : Host.Outcome State Fault Refusal :=
  .next ((s.setGdo k { (s.gdo k) with minRun := false }).gdoUpdate k)

/-- GDO_UVLO: the supply of GDO0 and GDO1, or with `hi` of GDO2 and GDO3, falls below lock-out (R249). -/
def execGdoUvlo (hi : Bool) (s : State) : Host.Outcome State Fault Refusal := .next (s.uvlo hi true)

/-- VDRV_LOCKOUT_RELEASE: that supply rises above its lock-out level (R248). -/
def execVdrvLockoutRelease (hi : Bool) (s : State) : Host.Outcome State Fault Refusal := .next (s.uvlo hi false)

end Sys2Proof.Machine
end

