-- ==== Sys2Proof/Machine/Leg.lean ====
section
/-! DEFINITION. The legs' modulators (R200 to R231): commits and reloads, the CPWM counter, the TCM period engine with its fallback, the
identification slots, DIRECT, the bootstrap refresh and check, the SYNC chain and the leg map. Binary32 arithmetic rounds at each
operation (log 15). Instants are 16 × tick + `sub`, in units of 125 ps. -/

namespace Sys2Proof.Machine

/-- A time in seconds as a number of 125 ps units, to nearest, ties to even; an infinite one is longer than any limit. -/
def units (t : F32) : Nat :=
  if F32.isFin t then (F32.rneRat (F32.toRat t * 8000000000)).toNat else 2 ^ 40

/-- A number of 125 ps units as seconds. -/
def unitsF (n : Nat) : F32 := F32.ofRat (mkRat n 8000000000)

/-- Linear interpolation between 16 points at j × full / 15, the end value beyond the last (R204). -/
def interp (tab : Nat → F32) (full x : F32) : F32 :=
  if !F32.isPos full || !F32.isFin x then F32.nanW
  else
    let t := F32.div (F32.mul x (F32.ofNat 15)) full
    let j := (F32.toRat t).floor.toNat
    if !F32.isFin t || 15 ≤ j then tab 15
    else F32.add (tab j) (F32.mul (F32.sub (tab (j + 1)) (tab j)) (F32.sub t (F32.ofNat j)))

/-- The inputs of an evaluation (R204, R206). -/
structure TcmIn where
  vdc : F32
  v : F32
  i : F32
  l : F32
  ir : F32
  a : F32
  b : F32
deriving DecidableEq, Repr

namespace State

/-! Groups (R204, R215). -/

/-- The number of the group of leg `n`. -/
def legGrp (s : State) (n : Nat) : Nat := 3 * s.legCh n + s.rd (F.LEGX_MAPA_GRP n)

/-- The legs the map assigns to group `g`. -/
def grpLegs (s : State) (g : Nat) : List Nat := s.groupLegs (g / 3) (g % 3)

/-- The number of legs of group `g`, and of its active legs. -/
def nMap (s : State) (g : Nat) : Nat := (s.grpLegs g).length
def nAct (s : State) (g : Nat) : Nat := s.rd (F.LEGX_NACT g) + 1

/-- Σ IREF of group `g`, in leg order. -/
def grpSum (s : State) (g : Nat) : F32 := (s.grpLegs g).foldl (fun x n => F32.add x (s.f32 (F.LEG_ACT_IREF n))) 0

/-- The effective current I of leg `n` (R204, R216, R300, R309). -/
def iEff (s : State) (n : Nat) : F32 :=
  let g := s.legGrp n
  let na := F32.ofNat (s.nAct g)
  let x := if s.nAct g < s.nMap g then F32.div (s.grpSum g) na else s.f32 (F.LEG_ACT_IREF n)
  if s.afdHold (g / 3) (g % 3) then 0
  else if s.injects (g / 3) && !s.bit F.ISL_PMODE then F32.add x (F32.div (s.probeCurrent (g / 3) (g % 3)) na)
  else x

/-- v of R204 at the instant now + `sub` × 125 ps; before a second decimation the earlier result is free (log 6). -/
def tcmV (s : State) (n sub : Nat) : F32 × State :=
  let g := s.legGrp n
  let i := s.rd (F.LEGX_VIN g)
  let bk := s.blk (i / 6)
  let y := s.f32 (F.MOD_COUT i)
  let (v, s) :=
    if !s.bit (F.LEGX_VINT g) then (y, s)
    else
      let (y1, s) := if bk.decims < 2 then (Config.freeWord s.free, s.fresh) else ((s.min' i).hist.headD 0, s)
      let num := 16 * (s.tick - bk.tk) + sub + 8 * s.groupNs (i / 6)
      let den := 16 * (bk.tk - bk.tk1)
      (F32.add y (F32.div (F32.mul (F32.sub y y1) (F32.ofNat num)) (F32.ofNat den)), s)
  (if s.bit (F.LEGX_VREFPT g) then F32.sub v (F32.mul (s.f32 (F.MOD_COUT (s.rd (F.LEGX_VDC g)))) F32.halfW) else v, s)

/-- The inputs of an evaluation for leg `n`, none when R205 refuses them. -/
def tcmIn (s : State) (n sub : Nat) : Option TcmIn × State :=
  let g := s.legGrp n
  let vdc := s.f32 (F.MOD_COUT (s.rd (F.LEGX_VDC g)))
  let i := s.iEff n
  let (v, s) := s.tcmV n sub
  let l := F32.mul (interp (fun j => s.f32 (F.LEG_LTAB n j)) (s.f32 (F.LEG_LIFS n)) (F32.abs i)) (F32.add F32.oneW (s.f32 (F.LEG_LCORR n)))
  let ir := interp (fun j => s.f32 (F.LEG_IRTAB n j)) (s.f32 (F.LEG_RVFS n)) (F32.abs v)
  let h := F32.mul vdc F32.halfW
  if F32.isPos vdc && F32.isFin v && F32.isFin i && F32.isPos l && F32.isFin ir then
    (some ⟨vdc, v, i, l, ir, F32.sub h v, F32.add h v⟩, s)
  else (none, s)

/-! Commits and reloads (R225, R226). -/

/-- The shadow registers of leg `n`. -/
def shadowOf (s : State) (n : Nat) : Shadow :=
  let r := fun o => s.reg (Pg.LEG n + o)
  ⟨r 0x48, r 0x4C, r 0x50, r 0x54, r 0x58, r 0x5C, r 0x60⟩

/-- The active registers of leg `n` take a pending stage. -/
def shadowTo (s : State) (n : Nat) (h : Shadow) : State :=
  let w := fun (s : State) o v => s.setReg (Pg.LEG n + o) v
  w (w (w (w (w (w (w s 0x80 h.per) 0x84 h.ton) 0x88 h.toff) 0x8C h.cmp) 0x90 h.dtr) 0x94 h.dtf) 0x98 h.iref

/-- LATE_COMMIT (R226). -/
def legLate (s : State) (n : Nat) : State := ((s.latch (F.LEG_LATE n)).sat (F.LEG_LATECNT n)).iraw (Pg.LEG n) 0 true

/-- LEG_COMMIT (R225, R226): a commit in the cycle of a reload that has been made waits for the next one. Commits of one tick are one
(R20). -/
def legCommit (s : State) (n : Nat) : State :=
  let l := s.leg n
  let again := decide (l.cmTick = some s.tick)
  let l' := { l with prev := if again then l.prev else l.pend, pend := some (s.shadowOf n), cmTick := some s.tick }
  let s := (s.setLeg n l').wr (F.PEND (Pg.LEG n)) 1
  if l.rlTick = some s.tick && !again then s.legLate n else s

/-- A shadow register of leg `n` was written: a commit of this tick carries it (R20, R136). -/
def shadowWritten (s : State) (n : Nat) : State :=
  let l := s.leg n
  if l.cmTick = some s.tick && l.pend.isSome then s.setLeg n { l with pend := some (s.shadowOf n) } else s

/-- Leg `n` has transferred the channel commits it owed (R225). -/
def chDone (s : State) (n : Nat) : State :=
  s.each 8 fun s c =>
    let m := s.ch c
    if m.pend / 2 ^ n % 2 = 1 then
      let p := m.pend - 2 ^ n
      (s.setCh c { m with pend := p }).setBit (F.PEND (Pg.CH c)) (p != 0)
    else s

/-- A reload of leg `n`: the pending stage (or, with a commit in this cycle, the one before it), DTAGE and LOSTVS (R224 to R226, R449). -/
def reload (s : State) (n : Nat) : State :=
  let l := s.leg n
  let late := l.pend.isSome && l.cmTick = some s.tick && l.rlTick != some s.tick
  let use := if late then l.prev else l.pend
  let s := s.setLeg n { l with prev := none, pend := if late then l.pend else none, rlTick := some s.tick, lostNow := 0 }
  let s := match use with
    | some h => s.shadowTo n h
    | none => s
  let s := ((s.wr (F.LEG_DTAGE n) (s.rd F.AGE_DTAGE)).wrF (F.LEG_LOSTVS n) l.lostNow).setBit (F.PEND (Pg.LEG n)) late
  if late then s.legLate n else s.chDone n

/-! Commands. -/

/-- The modulator of leg `n` commands `v` at the instant `t` (R202, R203): a cut holds off the high side (R464), and a refresh ends with
the command HI (R223). -/
def setCmd (s : State) (n : Nat) (v : Lvl) (t : Nat) : State :=
  let l := s.leg n
  let v' := if v = .hi && l.cut then .lo else v
  ((s.setLeg n { l with modCmd := v', refresh := l.refresh && v' == .hi }).cellAt n t).cutAtStart n

/-- SYNC_OUT_PULSE (R230): the ball stands high for 40 ns. -/
def syncPulse (s : State) : State := { s.wrap F.LEGX_SYNCOUT with syncOutAt := some s.tick }

/-- SYNC_OUT stands high. -/
def syncPulsing (s : State) : Bool := s.syncOutAt.any fun t => decide (s.tick < t + 20)

/-- The Almanac target 0x07 (R230). -/
def syncTarget (s : State) : State := if s.rd F.LEGX_OUTSRC = 0 then s else s.syncPulse

/-- The inputs of an evaluation of leg `n` are bad: OFF until a period start succeeds (R205). -/
def legBad (s : State) (n sub : Nat) : State :=
  let s := (s.setBit (F.LEG_BADIN n) true).iraw (Pg.LEG n) 4 true
  (s.setLeg n { s.leg n with part := .none, slotNow := false }).setCmd n .off (16 * s.tick + sub)

/-- The evaluation succeeds. -/
def legGood (s : State) (n : Nat) : State := (s.setBit (F.LEG_BADIN n) false).iraw (Pg.LEG n) 4 false

/-! The TCM period engine (R206 to R213). -/

/-- The shortest interval in a switch state (R203). -/
def minInt (s : State) (n : Nat) (hi : Bool) : Nat :=
  max 384 (s.rd (if hi then F.LEG_ACT_DTR n else F.LEG_ACT_DTF n) + s.rd (F.LEG_DTAGE n))

/-- σ of a current: zero continues the present polarity (R209). -/
def sigmaNeg (s : State) (n : Nat) (i : F32) : Bool := if F32.lt i 0 then true else if F32.lt 0 i then false else s.bit (F.LEG_POL n)

/-- The nudge ε of R214 for a period of leg `n` that starts now. -/
def nudge (s : State) (n sub : Nat) : F32 :=
  let g := s.legGrp n
  let r := s.rd (F.LEGX_MAPA_POS n)
  match (s.grpLegs g).find? (fun k => s.rd (F.LEGX_MAPA_POS k) == 0) with
  | none => 0
  | some k =>
    let l := s.leg k
    if r = 0 || l.perLen = 0 then 0
    else
      let ph := mkRat (16 * s.tick + sub - l.perStart) l.perLen
      let e0 := mkRat r (s.nAct g) - (ph - (ph.floor : Rat))
      let e := if e0 ≤ -1 / 2 then e0 + 1 else if 1 / 2 < e0 then e0 - 1 else e0
      let x := F32.mul (s.f32 (F.LEGX_IGAIN g)) (F32.ofRat e)
      F32.clamp x (F32.ofRat (-1 / 20)) (F32.ofRat (1 / 20))

/-- SHED of the leader's period start (R215): the new number of active legs of group `g`. -/
def shedTo (s : State) (g : Nat) : Nat :=
  let c := g / 3
  let n := s.nAct g
  let nm := max 1 (s.nMap g)
  let sh := s.q (F.CH_SHED c)
  let ig := F32.abs (s.grpSum g)
  if sh ≤ 0 then nm
  else if !F32.isFin ig then n
  else
    let x := F32.toRat ig
    let req := max 1 (min nm (x / sh).ceil.toNat)
    if n < req then req
    else if x < ((n : Rat) - 1) * sh - s.q (F.CH_SHEDH c) then max 1 (n - 1) else n

/-- The number of active legs of group `g` becomes `k`: the change counts, and it spoils the windows of the group's slots (R216, R219). -/
def setAct (s : State) (g k : Nat) : State :=
  if k = s.nAct g then s
  else
    let s := (s.wr (F.LEGX_NACT g) (k - 1)).sat (F.LEGX_SHEDCNT g)
    (s.grpLegs g).foldl (fun s n => match (s.leg n).slot with
      | none => s
      | some m => s.setLeg n { s.leg n with slot := some { m with moved := true } }) s

/-- LEG_SHED at a period start of the leader (R215, R216). -/
def shed (s : State) (g : Nat) : State := s.setAct g (s.shedTo g)

/-- Leg `n` holds OFF from here: it is shed (R216). -/
def shedHold (s : State) (n sub : Nat) : State :=
  ((s.setLeg n { s.leg n with part := .none, driving := false, ctrOn := false }).wr (F.LEG_FB n) 0).setBit (F.LEG_SHED n) true
    |>.setCmd n .off (16 * s.tick + sub)

/-! Identification slots that fall due (R217, R219). -/

/-- The angle of channel `c`'s source (R217). -/
def idAngle (s : State) (c : Nat) : Nat := if s.rd (F.LEGX_ANGSRC c) = 2 then s.shaftAngle else s.gridAngle (s.rd (F.LEGX_ANGSRC c))

/-- What the group remembers of its slots. -/
def idOf (s : State) (g : Nat) : IdM := SMap.get (fun _ => {}) s.ids g
def setId (s : State) (g : Nat) (v : IdM) : State := { s with ids := SMap.set (fun _ => {}) s.ids g v }

/-- The source of group `g` has reached its slot since it was last looked at (R217), and what is remembered from here. -/
def idReached (s : State) (g : Nat) : Bool × IdM :=
  let c := g / 3
  let m := s.idOf g
  if s.rd (F.LEGX_ANGSRC c) = 3 then
    let p := s.rd (F.LEGX_IDPER c) * 500000
    match m.last with
    | none => (false, { m with last := some s.tick, prev := 0 })
    | some t => if p ≤ s.tick - t then (true, { m with last := some (t + p) }) else (false, m)
  else
    let a := s.idAngle c
    let d := (a + 2 ^ 32 + 1 - m.prev) % 2 ^ 32
    let x := (s.rd (F.LEGX_IDANG c) * 2 ^ 24 + 2 ^ 32 + 1 - m.prev) % 2 ^ 32
    (decide (m.prev ≠ 0 ∧ d < 2 ^ 31 ∧ 0 < x ∧ x ≤ d), { m with prev := a + 1, last := none })

/-- The slot of group `g` falls due when the source has reached it; with a shed leg next in the rotation it is skipped (R217, R219). -/
def idSync (s : State) (g : Nat) : State :=
  if !s.bit (F.LEGX_IDEN (g / 3)) then (if s.idOf g = {} then s else s.setId g {})
  else
    let r := s.idReached g
    let s := s.setId g { r.2 with due := r.2.due || r.1 }
    if r.1 && s.nAct g ≤ s.rd (F.LEGX_IDNEXT g) then (s.sat (F.LEGX_IDSKIP g)).setId g { s.idOf g with due := false } else s

/-- A slot is due for leg `n`, the next in the rotation, and is used up by the period that starts; and the state after (R217). -/
def idTake (s : State) (n : Nat) : Bool × State :=
  let g := s.legGrp n
  let s := s.idSync g
  let m := s.idOf g
  if m.due && s.rd (F.LEGX_MAPA_POS n) == s.rd (F.LEGX_IDNEXT g) then (true, s.setId g { m with due := false }) else (false, s)

/-- A due slot is not run (R219). -/
def idSkip (s : State) (n : Nat) (due : Bool) : State := if due then s.sat (F.LEGX_IDSKIP (s.legGrp n)) else s

/-- C of a leg in fallback (R213), none when its inputs are bad. -/
def fbC (s : State) (n sub : Nat) : Option (TcmIn × Nat) × State :=
  match s.tcmIn n sub with
  | (none, s) => (none, s)
  | (some t, s) =>
    let g := s.legGrp n
    let iph := s.f32 (F.MOD_COUT (s.rd (F.LEGX_IPH g)))
    let x := F32.sub t.i (F32.div iph (F32.ofNat (s.nAct g)))
    let d := F32.add F32.halfW (F32.div (F32.add t.v (F32.mul (s.f32 (F.LEGX_FBR g)) x)) t.vdc)
    if !F32.isFin d then (none, s)
    else (some (t, (F32.rneRat (F32.toRat (F32.clamp d 0 F32.oneW) * (s.rd (F.LEG_ACT_PER n) : Nat))).toNat), s)

/-- TCM_FALLBACK (R211): the counter starts here, at zero counting up after a positive period and at PER counting down after a negative
one (`was`), with the duty of this reload. The command stays, but for a duty at its limit: HI throughout or LO throughout (R213, R220). -/
def tcmFallback (s : State) (n sub : Nat) (was : Bool) : State :=
  let s := (((s.latch (F.LEG_TCEIL n)).wr (F.LEG_FB n) 1).sat (F.LEG_CEILCNT n)).iraw (Pg.LEG n) 3 true
  let s := s.setLeg n { s.leg n with ctrOn := true, ctrFirst := false, up := !was, part := .none, fbDue := false,
                                      ctrPh := if was then s.rd (F.LEG_ACT_PER n) else 0, ctrAt := 16 * s.tick + sub }
  match s.fbC n sub with
  | (none, s) => (s.setLeg n { s.leg n with cUse := 0 }).legBad n sub
  | (some (_, c), s) =>
    (s.setLeg n { s.leg n with cUse := c }).setCmd n (if c != 0 && (was || s.rd (F.LEG_ACT_PER n) ≤ c) then .hi else .lo) (16 * s.tick + sub)

/-- The mean of results; with one that is not finite, what their sum gives. -/
def meanF (l : List F32) : F32 :=
  if l.all F32.isFin then F32.ofRat ((l.map F32.toRat).sum / (max 1 l.length : Nat)) else l.foldl F32.add 0

/-- The mean of the latest `k` results of input `i`; a result there has not been is free (log 6). -/
def meanOf (s : State) (i k : Nat) : F32 × State :=
  let l := s.f32 (F.MOD_COUT i) :: (s.min' i).hist
  if l.length < k then (Config.freeWord s.free, s.fresh)
  else (meanF (l.take k), s)

/-- The slot of R217 begins in the period of leg `n` that starts: δ; ΔI_x and the baselines are kept, and the results that follow
belong to it (R218). -/
def slotBegin (s : State) (n t1 : Nat) (neg : Bool) (c1 l : F32) : Nat × State :=
  let g := s.legGrp n
  let delta := (F32.rneRat (mkRat (t1 * s.rd (F.LEGX_IDFRAC g)) 16)).toNat
  let dIx := F32.div (F32.mul c1 (unitsF delta)) l
  let (yb, s) := s.meanOf (s.rd (F.LEGX_IPH g)) (s.rd (F.LEGX_IDW g))
  let (yd, s) := s.meanOf (s.rd (F.LEGX_VDC g)) (s.rd (F.LEGX_IDW g))
  (delta, s.setLeg n { s.leg n with slotNow := true, slot := some { neg := neg, dIx := dIx, yb := yb, ybDc := yd } })

/-- The evaluation of t1 and of the whole period by the inputs `t`, in polarity `neg`, from a period that ended in the other polarity
(`seg`), from zero current (`zero`), or in a row with the last one (`cont`); `due` when the slot of the group is (R207 to R212, R214,
R217). -/
def tcmEval (s : State) (n sub : Nat) (t : TcmIn) (neg seg zero cont due : Bool) : State :=
  let c1 := if neg then t.b else t.a
  let c2 := if neg then t.a else t.b
  let si := if neg then F32.neg t.i else t.i
  let d0 := F32.mul F32.twoW (F32.add si t.ir)
  let eps := s.nudge n sub
  let irn := if F32.eq eps 0 then t.ir
    else F32.fmax (F32.add t.ir (F32.mul (F32.mul eps d0) F32.halfW)) (F32.mul t.ir F32.halfW)
  let cut := if seg then F32.div (F32.mul (F32.mul F32.twoW irn) t.l) c1 else if zero then F32.div (F32.mul irn t.l) c1 else 0
  let first := fun (d : F32) => max (s.minInt n (!neg)) (units (F32.sub (F32.div (F32.mul t.l d) c1) cut))
  let second := fun (d : F32) => max (s.minInt n neg) (units (F32.div (F32.mul t.l d) c2))
  let d1 := F32.mul F32.twoW (F32.add si irn)
  let t1 := first d1
  let t2 := second d1
  let hiInt := if neg then t2 else t1
  let now := 16 * s.tick + sub
  let was := s.bit (F.LEG_POL n)
  let s := s.setBit (F.LEG_POL n) neg
  if !F32.isPos t.a || !F32.isPos t.b || 400000 < t1 + t2 || (s.bit (F.LEG_DRVT n) && s.rd (F.LEG_BTMAX n) * 8000 < hiInt) || (s.leg n).fbDue then
    (s.tcmFallback n sub was).idSkip n due
  else
    let low := decide (t1 + t2 < 6640)
    let k := F32.mul t.l (F32.add (F32.div F32.oneW t.a) (F32.div F32.oneW t.b))
    let arg := F32.add (F32.mul irn irn) (F32.div (F32.mul (F32.mul F32.twoW si) (unitsF 6640)) k)
    let dl := if low then F32.add irn (F32.sqrt arg) else d1
    let t1 := if low then first dl else t1
    let s := if low then ((s.latch (F.LEG_TFLOOR n)).sat (F.LEG_FLOORCNT n)).iraw (Pg.LEG n) 2 true else s
    let s := s.setLeg n { s.leg n with perLen := if cont then now - (s.leg n).perStart else (s.leg n).perLen, perStart := now, floor := low }
    if low && !F32.isPos dl then
      let s := ((s.wr (F.LEG_LASTT1 n) 0).wr (F.LEG_LASTT2 n) 0).wr (F.LEG_LASTIDLE n) 6640
      ((s.setLeg n { s.leg n with part := .second, idle := true, t1 := 0 }).setCmd n .off now).idSkip n due
    else
      let run := due && !low && !seg && !zero
      let (delta, s) := if run then s.slotBegin n t1 neg c1 t.l else (0, s)
      let s := s.idSkip n (due && !run)
      let dx := match (s.leg n).slot with
        | some m => if (s.leg n).slotNow then F32.add dl m.dIx else dl
        | none => dl
      let s := s.setLeg n { s.leg n with part := .first, idle := false, t1 := t1 + delta, lHeld := t.l, dIHeld := dx }
      (s.wr (F.LEG_LASTT1 n) (t1 + delta)).setCmd n (if neg then .lo else .hi) now

/-- A TCM period of leg `n` starts, its reload already made; `zero` when it assumes zero current (R201, R208, R209, R216). -/
def tcmStart (s : State) (n sub : Nat) (zero : Bool) : State :=
  let g := s.legGrp n
  let l := s.leg n
  let now := 16 * s.tick + sub
  let s := if l.part != .none then s.wrap (F.LEG_PERCNT n) else s
  let s := if l.idle then s.setCmd n .off now else s
  let s := s.setLeg n { s.leg n with cut := false, idle := false, slotNow := false }
  let pos := s.rd (F.LEGX_MAPA_POS n)
  let s := if pos = 0 then s.shed g else s
  let (due, s) := s.idTake n
  if s.nAct g ≤ pos then (s.idSkip n due).shedHold n sub
  else
    let s := s.carrierEvent n now (2 * s.rd (F.LEG_ACT_PER n)) false
    let s := (s.setLeg n { s.leg n with driving := true }).setBit (F.LEG_SHED n) false
    match s.tcmIn n sub with
    | (none, s) => (s.legBad n sub).idSkip n due
    | (some t, s) =>
      let s := s.legGood n
      let neg := s.sigmaNeg n t.i
      s.tcmEval n sub t neg (!zero && l.part != .none && neg != s.bit (F.LEG_POL n)) (zero || l.part == .none) (l.part != .none) due

/-- TCM_PERIOD_START. -/
def tcmPeriod (s : State) (n sub : Nat) : State :=
  let l := s.leg n
  if s.rd (F.LEG_MODE n) != 2 || !s.legRuns n || (l.driving && s.bit (F.LEG_FB n)) || s.bit (F.LEG_SHED n) then s
  else
    let s := (s.setLeg n { l with ctrOn := false }).wr (F.LEG_FB n) 0
    (s.reload n).tcmStart n sub (!l.driving)

/-- LEG_RESTORE_START (R216). -/
def legRestore (s : State) (n sub : Nat) : State :=
  if s.rd (F.LEG_MODE n) != 2 || !s.legRuns n || !s.bit (F.LEG_SHED n) || s.nAct (s.legGrp n) ≤ s.rd (F.LEGX_MAPA_POS n) then s
  else (s.reload n).tcmStart n sub true

/-- TCM_SECOND_INTERVAL (R208, R212): t1 has ended. In the slot's period its predicted charge is known from here (R217). -/
def tcmSecond (s : State) (n sub : Nat) : State :=
  let l := s.leg n
  if s.rd (F.LEG_MODE n) != 2 || !l.driving || l.part != .first then s
  else
    match s.tcmIn n sub with
    | (none, s) => s.legBad n sub
    | (some t, s) =>
      let now := 16 * s.tick + sub
      let neg := s.bit (F.LEG_POL n)
      let c2 := if neg then t.a else t.b
      let raw := if F32.isPos c2 then units (F32.div (F32.mul l.lHeld l.dIHeld) c2) else 2 ^ 40
      let t2 := max (s.minInt n neg) raw
      let long := decide (400000 < l.t1 + t2)
      let t2 := if long then 400000 - l.t1 else t2
      let idle := if l.floor then 6640 - (l.t1 + t2) else 0
      let s := if long then (s.latch (F.LEG_TCEIL n)).iraw (Pg.LEG n) 3 true else s
      let s := (s.wr (F.LEG_LASTT2 n) t2).wr (F.LEG_LASTIDLE n) idle
      let slot := if !l.slotNow then l.slot
        else l.slot.map fun m => { m with qpred := F32.mul (F32.mul (unitsF (l.t1 + t2)) m.dIx) F32.halfW }
      let s := s.setLeg n { s.leg n with part := .second, fbDue := long, idle := decide (0 < idle), slotNow := false, slot := slot }
      let s := s.setCmd n (if neg then .hi else .lo) now
      if idle = 0 || !s.legRuns n then s
      else s.setLeg n { s.leg n with seq := (s.leg n).seq ++ [⟨now + t2, neg, false, false, true⟩] }

/-! The CPWM counter (R220, R221). -/

/-- C of leg `n` at a reload (R213, R221, R329); none drives OFF. -/
def cpwmC (s : State) (n sub : Nat) : Option Nat × State :=
  let per := s.rd (F.LEG_ACT_PER n)
  if s.rd (F.LEG_MODE n) = 2 then
    match s.fbC n sub with
    | (none, s) => (none, s)
    | (some (_, c), s) => (some c, s)
  else if s.machLeg n then
    if s.bit F.MACH_VBAD then (none, s) else (some (s.machC n per), s.machShift n per (s.machC n per) (16 * s.tick + sub))
  else if s.bit (F.LEG_ACT_RATIO n) then (some (s.rd (F.LEG_ACT_CMP n) % 65536 * per / 65536), s)
  else if per < s.rd (F.LEG_ACT_CMP n) then
    (some per, ((s.latch (F.LEG_CMPCLAMP n)).sat (F.LEG_CLAMPCNT n)).iraw (Pg.LEG n) 1 true)
  else (some (s.rd (F.LEG_ACT_CMP n)), s)

/-- The counter of leg `n` runs. -/
def ctrRuns (s : State) (n : Nat) : Bool := s.has (Pg.LEG n) && s.enabled (Pg.LEG n) && (s.leg n).ctrOn

/-- The reload of a counter and the command from then on; `top` at the peak. -/
def ctrReload (s : State) (n sub : Nat) (top : Bool) : State :=
  let now := 16 * s.tick + sub
  let s := (s.reload n).machReload n
  let s := if s.legRuns n then s.setLeg n { s.leg n with driving := true } else s
  let s := if top then s.setLeg n { s.leg n with ctrPh := s.rd (F.LEG_ACT_PER n) } else s
  let fb := s.rd (F.LEG_MODE n) == 2
  match s.cpwmC n sub with
  | (none, s) =>
    let s := s.setLeg n { s.leg n with cUse := 0 }
    if fb then s.legBad n sub else s.setCmd n .off now
  | (some c, s) =>
    let s := s.setLeg n { s.leg n with cUse := c }
    let s := if fb then s.legGood n else s
    s.setCmd n (if (if top then c != 0 else decide (s.rd (F.LEG_ACT_PER n) ≤ c) && c != 0) then .hi else .lo) now

/-- The fallback of leg `n` ends here: σ of I is now `neg`, other than the polarity it began in (R213). -/
def fbEnds (s : State) (n : Nat) (neg : Bool) : Bool :=
  let i := s.iEff n
  s.rd (F.LEG_MODE n) == 2 && s.legRuns n && F32.isFin i && s.sigmaNeg n i == neg && s.bit (F.LEG_POL n) != neg

/-- A TCM period starts where the fallback ends (R213). -/
def fbLeave (s : State) (n sub : Nat) : State :=
  let s := (s.setLeg n { s.leg n with ctrOn := false, part := .none }).wr (F.LEG_FB n) 0
  (s.reload n).tcmStart n sub true

/-- A period of the counter begins in fallback: the leader's demand is looked at, and a slot due for the leg is skipped (R215, R219). -/
def fbPeriod (s : State) (n : Nat) : State :=
  let s := if s.rd (F.LEGX_MAPA_POS n) = 0 && s.legRuns n then s.shed (s.legGrp n) else s
  let r := s.idTake n
  r.2.idSkip n r.1

/-- CPWM_COUNTER_ZERO. -/
def ctrZero (s : State) (n sub : Nat) : State :=
  if !s.ctrRuns n then s
  else
    let l := s.leg n
    let now := 16 * s.tick + sub
    let s := if l.ctrFirst then s else s.wrap (F.LEG_PERCNT n)
    let s := s.setLeg n { l with ctrFirst := false, up := true, cut := false, ctrPh := 0, ctrAt := now }
    let s := if s.rd F.LEGX_OUTSRC = 2 && s.rd F.LEGX_OUTLEG = n then s.syncPulse else s
    if s.fbEnds n true then s.fbLeave n sub
    else
      let fb := s.rd (F.LEG_MODE n) == 2
      let s := if fb then s.fbPeriod n else s
      let s := if fb && s.legRuns n && s.nAct (s.legGrp n) ≤ s.rd (F.LEGX_MAPA_POS n) then s.shedHold n sub else s.ctrReload n sub false
      s.carrierEvent n now (2 * s.rd (F.LEG_ACT_PER n)) false

/-- CPWM_PEAK. -/
def ctrPeak (s : State) (n sub : Nat) : State :=
  if !s.ctrRuns n || !(s.leg n).up then s
  else
    let now := 16 * s.tick + sub
    let s := s.setLeg n { s.leg n with up := false, ctrPh := s.rd (F.LEG_ACT_PER n), ctrAt := now }
    if s.fbEnds n false then s.fbLeave n sub
    else
      let s := if s.bit (F.LEG_RLDPK n) then s.ctrReload n sub true else s
      s.carrierEvent n now (2 * s.rd (F.LEG_ACT_PER n)) true

/-- The phase of the counter of leg `n` at the instant `t`: 0 to PER counting up, and then down to 2 × PER (R220, R229). -/
def ctrPhase (s : State) (n t : Nat) : Nat :=
  let l := s.leg n
  (l.ctrPh + (t - l.ctrAt)) % max 1 (2 * s.rd (F.LEG_ACT_PER n))

/-- CPWM_COMPARE_EDGE: c crosses PER − C, upwards while it counts up; with a shift the two edges lie about PER plus the shift (R330). -/
def ctrEdge (s : State) (n : Nat) : State :=
  let l := s.leg n
  let per := s.rd (F.LEG_ACT_PER n)
  let up := if l.shift = 0 then l.up else decide ((s.ctrPhase n (16 * s.tick) : Int) < per + l.shift)
  if !s.ctrRuns n || l.cUse = 0 || per ≤ l.cUse then s else s.setCmd n (if up then .hi else .lo) (16 * s.tick)

/-! DIRECT (R222). -/

/-- DIRECT_PERIOD_START. -/
def dirStart (s : State) (n sub : Nat) : State :=
  if s.rd (F.LEG_MODE n) != 3 || !s.legRuns n then s
  else
    let l := s.leg n
    let s := if l.part != .none then s.wrap (F.LEG_PERCNT n) else s
    let s := s.reload n
    let now := 16 * s.tick + sub
    let ton := s.rd (F.LEG_ACT_TON n)
    let toff := max (s.rd (F.LEG_ACT_TOFF n)) (6640 - ton)
    let s := if s.rd (F.LEG_ACT_TOFF n) < toff then (s.latch (F.LEG_TFLOOR n)).iraw (Pg.LEG n) 2 true else s
    let s := s.carrierEvent n now (ton + toff) false
    let l := s.leg n
    let s := s.setLeg n { l with driving := true, cut := false, part := .first, t1 := ton, toff := toff,
                                 perLen := if l.part != .none then now - l.perStart else l.perLen, perStart := now }
    s.setCmd n .hi now

/-- DIRECT_OFF_INTERVAL. -/
def dirOff (s : State) (n : Nat) : State :=
  let l := s.leg n
  if s.rd (F.LEG_MODE n) != 3 || !l.driving || l.part != .first then s
  else (s.setLeg n { l with part := .second }).setCmd n .lo (16 * s.tick)

/-! Identification (R218, R219, R444). -/

/-- CAPACITOR_ESTIMATE (R444) from the charge `q` of a slot of channel `c`. -/
def capEstimate (s : State) (c : Nat) (m : SlotM) (k : Nat) (ts q : F32) : State :=
  let ya := meanF (m.vdc.take k)
  let y1 := (m.vdc.getLast?).getD 0
  let cs := F32.div (F32.abs q) (F32.abs (F32.sub ya m.ybDc))
  if !F32.isPos cs then s
  else
    let mu := F32.ofRat 1000000
    let gain := F32.ofRat (1 / 64)
    let csu := F32.mul cs mu
    let old := s.f32 (F.AGE_CEST c)
    let new := if F32.eq old 0 then csu else F32.add old (F32.mul gain (F32.sub csu old))
    let s := if F32.eq old 0 && SMap.get (fun _ => (0 : F32)) s.age.cref c = 0 then
        { s with age := { s.age with cref := SMap.set (fun _ => 0) s.age.cref c csu } } else s
    let s := s.wrF (F.AGE_CEST c) new
    let half := F32.mul m.dIx F32.halfW
    let drop := F32.div (F32.mul ts m.dIx) (F32.mul F32.twoW (F32.div new mu))
    let es := F32.mul (F32.div (F32.sub (F32.abs (F32.sub y1 m.ybDc)) drop) half) (F32.ofNat 1000)
    let eo := s.f32 (F.AGE_ESR c)
    if F32.isFin es then s.wrF (F.AGE_ESR c) (F32.add eo (F32.mul gain (F32.sub es eo))) else s

/-- A capacitance estimate of leg `n` follows once its IDW results of VDC are there (R444). -/
def capDue (s : State) (n : Nat) : State :=
  match (s.leg n).cap with
  | none => s
  | some w => if w.slot.vdc.length < w.k then s else (s.setLeg n { s.leg n with cap := none }).capEstimate (s.legGrp n / 3) w.slot w.k w.ts w.q

/-- LCORR_UPDATE (R218, R219). -/
def lcorrUpdate (s : State) (n : Nat) : State :=
  let g := s.legGrp n
  match (s.leg n).slot with
  | none => s
  | some m =>
    let k := s.rd (F.LEGX_IDW g)
    if m.iph.length < k || (s.leg n).slotNow then s
    else
      let bk := s.blk (s.rd (F.LEGX_IPH g) / 6)
      let ts := F32.ofRat (ticksQ (bk.tk - bk.tk1))
      let sum := (m.iph.reverse.take k).foldl (fun a y => F32.add a (F32.sub y m.yb)) 0
      let qm0 := F32.mul ts sum
      let qm := if m.neg then F32.neg qm0 else qm0
      let s := s.setLeg n { s.leg n with slot := none }
      if !F32.isPos m.qpred || m.moved then s.sat (F.LEGX_IDSKIP g)
      else
        let rho := F32.div qm m.qpred
        let lc := s.f32 (F.LEG_LCORR n)
        let gain := F32.ofRat (mkRat 1 (2 ^ s.rd (F.LEGX_IDGS g)))
        let x := F32.add lc (F32.mul (F32.mul gain (F32.sub F32.oneW rho)) (F32.add F32.oneW lc))
        let q4 := F32.ofRat (1 / 4)
        let s := s.wrF (F.LEG_LCORR n) (F32.clamp x (F32.neg q4) q4)
        let s := ((s.sat (F.LEG_IDCNT n)).sat (F.LEGX_IDCNT g)).wr (F.LEGX_IDNEXT g) ((s.rd (F.LEGX_IDNEXT g) + 1) % s.nAct g)
        (s.setLeg n { s.leg n with cap := some { slot := m, k := k, ts := ts, q := qm } }).capDue n

/-- A result of VDC of group `g`, with those that a slot has. -/
def vdcJoin (s : State) (g m k : Nat) (t : SlotM) : SlotM :=
  let d := s.rd (F.LEGX_VDC g)
  if d / 6 = m && t.vdc.length < k then { t with vdc := s.f32 (F.MOD_COUT d) :: t.vdc } else t

/-- The results of a decimation reach the slots whose windows are open (R218, R444). -/
def slotCollect (s : State) (m : Nat) : State :=
  s.each 24 fun s n =>
    let g := s.legGrp n
    let s := match (s.leg n).cap with
      | none => s
      | some w => (s.setLeg n { s.leg n with cap := some { w with slot := s.vdcJoin g m w.k w.slot } }).capDue n
    match (s.leg n).slot with
    | none => s
    | some t =>
      let k := s.rd (F.LEGX_IDW g)
      let i := s.rd (F.LEGX_IPH g)
      let t := if i / 6 = m && t.iph.length < k then { t with iph := s.f32 (F.MOD_COUT i) :: t.iph } else t
      s.setLeg n { s.leg n with slot := some (s.vdcJoin g m k t) }

/-! Bootstrap (R223, R224, R244). -/

/-- Refreshes are enabled: BTEN reads 1 while DRVT is 1 (R223). -/
def btEn (s : State) (n : Nat) : Bool := s.bit (F.LEG_BTEN n) || s.bit (F.LEG_DRVT n)

/-- BOOTSTRAP_REFRESH (R223, R224). -/
def refreshBegin (s : State) (n : Nat) : State :=
  let l := s.leg n
  if !s.btEn n || !s.legRuns n || !l.driving || l.modCmd != .hi || l.refresh then s
  else
    let t := mkRat (s.rd (F.LEG_BTW n)) 100000000 +
      mkRat (s.rd (F.LEG_ACT_DTF n) + s.rd (F.LEG_ACT_DTR n) + 2 * s.rd (F.LEG_DTAGE n)) 16000000000
    let lost := F32.mul (s.f32 (F.MOD_COUT (s.rd (F.LEGX_VDC (s.legGrp n))))) (F32.ofRat t)
    let s := s.setLeg n { l with refresh := true, checkDue := false, lostNow := F32.add l.lostNow lost }
    (s.sat (F.LEG_REFRCNT n)).cellUpdate n

/-- BOOTSTRAP_REFRESH_END: BTW has run in full. -/
def refreshEnd (s : State) (n : Nat) : State :=
  let l := s.leg n
  if !l.refresh then s
  else
    let s := s.setLeg n { l with refresh := false, checkDue := s.bit (F.LEG_DRVT n) && s.bit (F.LEGX_BTCHK n) }
    (s.cellUpdate n).cutAtStart n

/-- Bootstrap exhaustion of leg `n` (R244, R245). -/
def bootLatch (s : State) (n : Nat) (forced : Bool) : State :=
  let s := ((s.wr (F.LEG_BOOTLAT n) 1).sat (F.LEG_BOOTCNT n)).iraw (Pg.LEG n) 9 true
  (s.cellUpdate n).raiseFlt (0x81 + 2 * n) 0 forced

/-- BOOTSTRAP_CHECK (R244). -/
def bootCheck (s : State) (n : Nat) : State :=
  let l := s.leg n
  if !l.checkDue then s
  else
    let s := s.setLeg n { l with checkDue := false }
    let i := s.rd (F.LEGX_BTTRIP n)
    if s.rd (F.TRIP_FUNC i) = 0 then s
    else
      let s := s.sat (F.LEG_BTCHKCNT n)
      if s.rdBit F.TRIP_LVL i then s.bootLatch n false else s

/-! The SYNC chain (R229, R230). -/

/-- SYNC_IN_EDGE (R229): an accepted edge counts, and the counters that take it are loaded 24 ns later. -/
def syncIn (s : State) (falling : Bool) : State :=
  let near := match s.syncAt with
    | some t => decide (s.tick - t < 100)
    | none => false
  if !s.bit F.LEGX_INEN || falling != s.bit F.LEGX_INPOL || near then s
  else
    let s := { s with syncAt := some s.tick }.wrap F.LEGX_SYNCIN
    let s := s.each 24 fun s n =>
      if s.rdBit F.LEGX_SYNCMASK n && s.rd (F.LEG_MODE n) = 1 then s.setLeg n { s.leg n with syncLoad := some (16 * s.tick + 192) } else s
    if s.rd F.LEGX_OUTSRC = 3 then s.syncPulse else s

/-- The load that SYNC_IN asked of the counter of leg `n` is made when it falls due (R229). -/
def syncDue (s : State) (n : Nat) : State :=
  match (s.leg n).syncLoad with
  | none => s
  | some t =>
    if 16 * s.tick < t then s
    else
      let l := { s.leg n with syncLoad := none }
      let s := s.setLeg n l
      if !s.ctrRuns n || s.rd (F.LEG_MODE n) != 1 then s
      else
        let per := s.rd (F.LEG_ACT_PER n)
        let p := s.rd (F.LEG_SYNCPH n)
        let c := if p ≤ per then p else 2 * per - p
        (s.setLeg n { l with up := decide (p ≤ per), ctrPh := p, ctrAt := t }).setCmd n (if per ≤ c + l.cUse && l.cUse != 0 then .hi else .lo) t

/-- What a tick brings to the modulator of leg `n`: an on-time that has begun (R464), a load by SYNC_IN (R229), and its group's slot
(R217). -/
def modTick (s : State) (n : Nat) : State := (s.cutAtStart n).syncDue n

/-! The leg map (R231). -/

/-- A staged entry of the map: channel, group and position; none when not VALID. -/
def staged (s : State) (n : Nat) : Option (Nat × Nat × Nat) :=
  if s.bit (F.LEGX_MAP_VALID n) then some (s.rd (F.LEGX_MAP_CH n), s.rd (F.LEGX_MAP_GRP n), s.rd (F.LEGX_MAP_POS n)) else none

/-- The entry in force. -/
def inForce (s : State) (n : Nat) : Option (Nat × Nat × Nat) :=
  if s.bit (F.LEGX_MAPA_VALID n) then some (s.rd (F.LEGX_MAPA_CH n), s.rd (F.LEGX_MAPA_GRP n), s.rd (F.LEGX_MAPA_POS n)) else none

/-- The size of a staged group. -/
def stagedSize (s : State) (c g : Nat) : Nat :=
  ((List.range 24).filter fun n => match s.staged n with | some (c', g', _) => c' == c && g' == g | none => false).length

/-- Channel `c` obeys R34 by the staged entries. -/
def ruleOk (s : State) (c : Nat) : Bool :=
  let a := s.stagedSize c 0
  let b := s.stagedSize c 1
  let d := s.stagedSize c 2
  let t := s.chType c
  (if t = 0 || t = 3 then a == b && b == d && a != 0 else if t = 1 then a == b && d == 0 && a != 0 else a != 0 && b == 0 && d == 0) && a ≤ 8

/-- The first failing test of R231 for leg `n`: bit 0 ABSENT, 1 RULE, 2 ENABLED, 3 POS. -/
def mapFault (s : State) (n : Nat) : Nat :=
  let moved := s.staged n != s.inForce n
  let en := fun (o : Option (Nat × Nat × Nat)) => match o with
    | some (c, _, _) => s.chEn c
    | none => false
  let f2 := if moved && (en (s.staged n) || en (s.inForce n)) then 4 else 0
  match s.staged n with
  | none => f2
  | some (c, g, p) =>
    let twin := (List.range 24).any fun m => m != n && s.staged m == some (c, g, p)
    (if !s.has (Pg.LEG n) || !s.has (Pg.CH c) then 1 else 0) + (if g = 3 || !s.ruleOk c then 2 else 0) + f2 +
      (if twin || s.stagedSize c g ≤ p then 8 else 0)

/-- MAPCTL.APPLY (R231). -/
def mapApply (s : State) : State :=
  let bad := fun b => (List.range 24).find? fun n => s.mapFault n / b % 2 == 1
  let fail := match bad 1, bad 2, bad 4, bad 8 with
    | some n, _, _, _ => some (3, n)
    | none, some n, _, _ => some (1, n)
    | none, none, some n, _ => some (2, n)
    | none, none, none, some n => some (4, n)
    | none, none, none, none => none
  match fail with
  | some (r, n) => ((s.wr F.LEGX_MAPRES r).wr F.LEGX_MAPIDX n).ipulse Pg.LEGX 0
  | none =>
    let grpOf := fun (o : Option (Nat × Nat × Nat)) => o.map fun x => (x.1, x.2.1)
    let moved := (List.range 24).filter fun n => s.staged n != s.inForce n
    let grps := (moved.flatMap fun n => (grpOf (s.staged n)).toList ++ (grpOf (s.inForce n)).toList).map fun x => 3 * x.1 + x.2
    let s := moved.foldl (fun s n =>
      let s := if grpOf (s.staged n) != grpOf (s.inForce n) then s.wrF (F.LEG_LCORR n) 0 else s
      s.setBit (F.LEG_SHED n) false) s
    let s := s.each 24 fun s n => s.setReg (0x38180 + 4 * n) (s.reg (0x38100 + 4 * n))
    let s := s.each 24 fun s g =>
      if grps.contains g then (s.setAct g (max 1 (s.nMap g))).wr (F.LEGX_IDNEXT g) 0 else s
    let s := ((s.wr F.LEGX_MAPRES 0).wr F.LEGX_MAPIDX 0).channelsUpdate false
    s.ipulse Pg.LEGX 0

/-! The writes of the LEG and LEGX pages. -/

/-- A write of a shadowed register of leg `n`, with its status (R20, R225). -/
def shadowed (n : Nat) (r : State × Status) : State × Status := (r.1.shadowWritten n, r.2)

/-- A host write of IREF (R134, R225): dropped and counted when the engine owns it. -/
def irefWrite (s : State) (n a : Nat) (v : Word) : State × Status :=
  if s.rdBit F.LEGX_IOWN n then (if s.mapped n then s.sat (F.CH_HOSTDROP (s.legCh n)) else s, .locked) else shadowed n (s.genWrite a v)

/-- An OUT stage's write of IREF (R134, R187). -/
def irefEngine (s : State) (n : Nat) (v : Word) : State :=
  if s.rdBit F.LEGX_IOWN n then (s.setReg (Pg.LEG n + 0x60) v).shadowWritten n
  else if s.mapped n then s.sat (F.CH_ENGDROP (s.legCh n)) else s

/-- The flags of LEGn.STAT drive the conditions of R139. -/
def legIraw (s : State) (n : Nat) : State :=
  let p := Pg.LEG n
  (((s.iraw p 0 (s.bit (F.LEG_LATE n))).iraw p 1 (s.bit (F.LEG_CMPCLAMP n))).iraw p 2 (s.bit (F.LEG_TFLOOR n))).iraw p 3 (s.bit (F.LEG_TCEIL n))

/-- The write of a word of the LEGn page. -/
def legWrite (s : State) (n a : Nat) (v : Word) : State × Status :=
  let o := a % 0x1000
  let x := v.toNat
  if o = 0x40 then
    if s.enabled (Pg.LEG n) && (F.LEG_MODE n).of v != s.rd (F.LEG_MODE n) then (s, .busy)
    else
      let (s, st) := s.genWrite a v
      (s.cellUpdate n, st)
  else if o = 0x44 then
    let (s, st) := s.genWrite a v
    (s.legIraw n, st)
  else if o = 0x48 then shadowed n (s.genIf a v (10000 ≤ x % 2 ^ 21 && x % 2 ^ 21 ≤ 2000000))
  else if o = 0x4C || o = 0x50 then shadowed n (s.genIf a v (384 ≤ x % 2 ^ 22 && x % 2 ^ 22 ≤ 4000000))
  else if 0x54 ≤ o ∧ o < 0x60 then shadowed n (s.genWrite a v)
  else if o = 0x60 then s.irefWrite n a v
  else if o = 0xA0 then
    let m := (F.LEG_BTMAX n).of v
    let w := (F.LEG_BTW n).of v
    s.genIf a v (20 ≤ m && m ≤ 2000 && 10 ≤ w && w ≤ 500)
  else if 0x100 ≤ o ∧ o < 0x140 then s.genIf a v (F32.isPos v)
  else if 0x140 ≤ o ∧ o < 0x180 then s.genIf a v (F32.isNonneg v)
  else if o = 0x180 then s.genIf a v (F32.isPos v)
  else if o = 0x184 then s.genIf a v (F32.isNonneg v)
  else if o = 0x18C then (if (F.LEG_CLR n).on v then s.wrF (F.LEG_LCORR n) 0 else s, .ok)
  else s.genWrite a v

/-- A write of MAPCTL. -/
def mapCtlWrite (s : State) (v : Word) : State × Status := (if F.LEGX_MAPAPPLY.on v then s.mapApply else s, .ok)

/-- The write of a word of the LEGX page. -/
def legxWrite (s : State) (a : Nat) (v : Word) : State × Status :=
  let o := a % 0x1000
  if o = 0x40 then s.mapCtlWrite v
  else if o = 0x4C then s.genIf a v (F.LEGX_OUTLEG.of v < 24)
  else if 0x60 ≤ o ∧ o < 0x80 then
    let c := (o - 0x60) / 4
    s.genIf a v ((F.LEGX_ANGSRC c).of v < 4 && (F.LEGX_IDPER c).of v != 0)
  else if 0x200 ≤ o ∧ o < 0x500 then
    let g := (o - 0x200) / 0x20
    let r := o % 0x20
    if r = 0 then
      s.genIf a v ((F.LEGX_IDFRAC g).of v != 0 && (F.LEGX_IPH g).of v < 24 && (F.LEGX_VDC g).of v < 24 && (F.LEGX_VIN g).of v < 24)
    else if r = 4 then s.genIf a v (F32.isNonneg v && decide (F32.toRat v ≤ 10))
    else if r = 0xC then s.genIf a v (2 ≤ (F.LEGX_IDW g).of v && (F.LEGX_IDW g).of v ≤ 64)
    else s.genWrite a v
  else if 0x800 ≤ o ∧ o < 0x860 then s.safeLvlWrite ((o - 0x800) / 4) a v
  else if 0xA00 ≤ o ∧ o < 0xA40 then s.gdoWrite ((o - 0xA00) / 0x10) a v
  else s.genWrite a v

/-! CHANNEL_COMMIT (R136, R225). -/

/-- Whether slot `k` of channel `c` reads a grant when committed (R271, R329). -/
def grantSlot (s : State) (c k : Nat) : Bool :=
  if s.isGrid c then k == 0 || k == 1 || k == 2 || k == 5 else if s.chType c = 3 then k < 3 else false

/-- The committed value of slot `k` of channel `c` becomes what the slot holds; a slot that reads a grant keeps showing it (R271). -/
def slotCommit (s : State) (c k : Nat) : State :=
  let v := s.reg (F.CH_SLOT c k).addr
  let m := s.ch c
  let s := s.setCh c { m with req := SMap.set (fun _ => 0) m.req k v }
  if s.grantSlot c k then s else s.setReg (F.CH_COMM c k).addr v

/-- The slots of a DCDC channel in force take a commit at once, unless the channel is linked (R313). -/
def dcCommit (s : State) (c : Nat) : State := if s.chType c = 2 && !s.dcLinked c then s.dcTake c else s

/-- Slot `k` of channel `c` was written: a commit of this tick carries it (R20, R136). -/
def slotWritten (s : State) (c k : Nat) : State := if (s.ch c).cmTick = some s.tick then (s.slotCommit c k).dcCommit c else s

/-- A commit of channel `c`: every slot's value, and the legs the map assigns to it. -/
def chCommit (s : State) (c : Nat) : State :=
  let s := (s.setCh c { s.ch c with cmTick := some s.tick }).each 16 fun s k => s.slotCommit c k
  let s := s.dcCommit c
  let s := if s.chType c = 2 then s.wr (F.CH_DONE c) 0 else s
  let legs := s.legsOf c
  let s := (s.setCh c { s.ch c with pend := legs.foldl (fun m n => m + 2 ^ n) 0 }).setBit (F.PEND (Pg.CH c)) (!legs.isEmpty)
  legs.foldl legCommit s

/-- A write of the SHDW register of a LEG or CH page. -/
def shdwWrite (s : State) (pg : Nat) (v : Word) : State × Status :=
  (if !(F.COMMIT pg).on v then s
   else if Pg.LEG 0 ≤ pg ∧ pg ≤ Pg.LEG 23 then s.legCommit ((pg - Pg.LEG 0) / 0x1000)
   else if Pg.CH 0 ≤ pg ∧ pg ≤ Pg.CH 7 then s.chCommit ((pg - Pg.CH 0) / 0x1000) else s, .ok)

end State

/-- LEG_COMMIT: a write of LEGn.SHDW with COMMIT set (R225). -/
def execLegCommit (n : Fin 24) (v : Word) (s : State) : Host.Outcome State Fault Refusal :=
  let v := (F.COMMIT (Pg.LEG n)).put v 1
  .next (s.hostWord (Pg.LEG n + 0x20) v fun s => s.onPage (Pg.LEG n) fun s => s.shdwWrite (Pg.LEG n) v)

/-- CHANNEL_COMMIT: a commit through CHc.COMMIT, by the host (a write of SHDW with COMMIT set) or by an OUT stage (R136). -/
def execChannelCommit (c : Fin 8) (host : Bool) (v : Word) (s : State) : Host.Outcome State Fault Refusal :=
  let v := (F.COMMIT (Pg.CH c)).put v 1
  .next (if host then s.hostWord (Pg.CH c + 0x20) v fun s => s.onPage (Pg.CH c) fun s => s.shdwWrite (Pg.CH c) v
    else if s.has (Pg.CH c) then s.chCommit c else s)

/-- CPWM_COUNTER_ZERO: the counter of leg `n` reaches zero, `sub` × 125 ps into the tick (R220). -/
def execCpwmCounterZero (n : Fin 24) (sub : Fin 16) (s : State) : Host.Outcome State Fault Refusal := .next (s.ctrZero n sub)

/-- CPWM_PEAK: the counter of leg `n` reaches PER (R220). -/
def execCpwmPeak (n : Fin 24) (sub : Fin 16) (s : State) : Host.Outcome State Fault Refusal := .next (s.ctrPeak n sub)

/-- CPWM_COMPARE_EDGE: the counter of leg `n` crosses PER − C (R220). -/
def execCpwmCompareEdge (n : Fin 24) (s : State) : Host.Outcome State Fault Refusal := .next (s.ctrEdge n)

/-- TCM_PERIOD_START of leg `n` (R208), `ns` nanoseconds and `sub` steps of 125 ps into its tick. -/
def execTcmPeriodStart (n : Fin 24) (ns : Fin 2) (sub : Fin 8) (s : State) : Host.Outcome State Fault Refusal :=
  .next (s.tcmPeriod n (8 * ns + sub))

/-- TCM_SECOND_INTERVAL: t1 of leg `n` ends (R208). -/
def execTcmSecondInterval (n : Fin 24) (sub : Fin 16) (s : State) : Host.Outcome State Fault Refusal := .next (s.tcmSecond n sub)

/-- LEG_RESTORE_START: the leader's predicted phase reaches the rank of leg `n` over n (R216). -/
def execLegRestoreStart (n : Fin 24) (sub : Fin 16) (s : State) : Host.Outcome State Fault Refusal := .next (s.legRestore n sub)

/-- DIRECT_PERIOD_START of leg `n` (R222). -/
def execDirectPeriodStart (n : Fin 24) (sub : Fin 16) (s : State) : Host.Outcome State Fault Refusal := .next (s.dirStart n sub)

/-- DIRECT_OFF_INTERVAL: TON of leg `n` ends (R222). -/
def execDirectOffInterval (n : Fin 24) (s : State) : Host.Outcome State Fault Refusal := .next (s.dirOff n)

/-- LCORR_UPDATE: IDW results have followed the slot of leg `n` (R218). -/
def execLcorrUpdate (n : Fin 24) (s : State) : Host.Outcome State Fault Refusal := .next (s.lcorrUpdate n)

/-- LCORR_CLEAR: a write of LEGn.LCORR's CLR (R219). -/
def execLcorrClear (n : Fin 24) (v : Word) (s : State) : Host.Outcome State Fault Refusal :=
  let v := (F.LEG_CLR n).put v 1
  .next (s.hostWord (Pg.LEG n + 0x18C) v fun s => s.onPage (Pg.LEG n) fun s => s.legWrite n (Pg.LEG n + 0x18C) v)

/-- BOOTSTRAP_REFRESH: the command of leg `n` has been HI for BTMAX (R223). -/
def execBootstrapRefresh (n : Fin 24) (s : State) : Host.Outcome State Fault Refusal := .next (s.refreshBegin n)

/-- BOOTSTRAP_REFRESH_END: the refresh of leg `n` has run its full BTW (R223). -/
def execBootstrapRefreshEnd (n : Fin 24) (s : State) : Host.Outcome State Fault Refusal := .next (s.refreshEnd n)

/-- BOOTSTRAP_CHECK: BTCHKD after a full refresh of leg `n` (R244). -/
def execBootstrapCheck (n : Fin 24) (s : State) : Host.Outcome State Fault Refusal := .next (s.bootCheck n)

/-- SYNC_IN_EDGE: an edge of SYNC_IN, 24 ns before its loads (R229). -/
def execSyncInEdge (falling : Bool) (s : State) : Host.Outcome State Fault Refusal := .next (s.syncIn falling)

end Sys2Proof.Machine
end

