-- ==== Sys2Proof/Machine/Dc.lean ====
section
/-! DEFINITION. The DCDC channels (R312 to R322): measurement, the extremum-seeking tracker with curtailment and the global scan, battery
mode and the start. Results whose number format is open are rounded by `Config.rounded` (log 5). -/

namespace Sys2Proof.Machine
namespace State

/-- Channel `c` is an enabled DCDC channel. -/
def isDc (s : State) (c : Nat) : Bool := s.chEn c && s.chType c == 2

/-- The source voltage and current of channel `c` (R312). -/
def dcV (s : State) (c : Nat) : F32 := s.f32 (F.MOD_COUT (s.rd (F.LEGX_VIN (3 * c))))
def dcI (s : State) (c : Nat) : F32 := s.f32 (F.MOD_COUT (s.rd (F.LEGX_IPH (3 * c))))

/-- The slots of channel `c` in force: those committed before the latest allocation run of the channel it is linked to, or, unlinked, those
last committed (R313, log 22). -/
def dcSlot (s : State) (c k : Nat) : F32 := SMap.get (fun _ => 0) (s.dc c).slots k

/-- P_lim = min(PLIM, PCAP), PCAP 0 meaning none (R314). -/
def dcPlim (s : State) (c : Nat) : F32 :=
  let cap := s.dcSlot c 5
  if F32.toRat cap = 0 then s.f32 (F.CH_PLIM c) else F32.fmin (s.f32 (F.CH_PLIM c)) cap

/-- The current target i_t of battery mode, and the one that sets V_ref and the bounds, 0 with DONE set (R320). -/
def battI (s : State) (c : Nat) : F32 := F32.clamp (s.dcSlot c 0) (F32.neg (s.dcSlot c 3)) (s.dcSlot c 4)
def battOn (s : State) (c : Nat) : F32 := if s.bit (F.CH_DONE c) then 0 else s.battI c

/-- The power demand P_d (R314, R317 to R320). -/
def dcPd (s : State) (c : Nat) : F32 :=
  if s.rd (F.CH_DCMODE c) = 1 then F32.mul (s.dcV c) (s.battI c)
  else if s.bit (F.CH_CURT c) then s.f32 (F.CH_PAVL c)
  else match (s.dc c).scan with
    | some t => t.ppre
    | none => (s.dc c).pd

/-- The start voltage target of R322 from V_oc, by the parameters in force (R313). -/
def dcTarget (s : State) (c : Nat) : F32 := F32.clamp (F32.mul (s.dc c).koc (s.dc c).vstart) (s.dc c).vmin (s.dc c).vmax

/-- The milliseconds since the channel entered START or its parameters were last taken. -/
def dcStartMs (s : State) (c : Nat) : Rat := mkRat (s.tick - (s.dc c).startTk.getD s.tick) 500000

/-- V_op now: it falls at SSRATE in the START of MPPT mode (R322). -/
def dcVop (s : State) (c : Nat) : F32 :=
  let d := s.dc c
  if s.rd (F.CH_DCMODE c) = 0 && d.startTk.isSome then F32.fmax (s.dcTarget c) (F32.sub d.vop (F32.mul d.ssrate (F32.ofRat (s.dcStartMs c))))
  else d.vop

/-- The parameters of the start take effect, at its begin and at a dither boundary (R313, log 22). -/
def dcLatch (s : State) (c : Nat) : State :=
  let v := s.dcVop c
  let d := s.dc c
  let d := if s.rd (F.CH_DCMODE c) = 0 && d.startTk.isSome then { d with vop := v, startTk := some s.tick } else d
  s.setDc c { d with koc := s.f32 (F.CH_KOC c), ssrate := s.f32 (F.CH_SSRATE c), vmin := s.f32 (F.CH_VMIN c)
                     vmax := s.f32 (F.CH_VMAX c), ssms := s.rd (F.CH_SSMS c) }

/-- V_ref (R314, R316, R320, R322). -/
def dcVref (s : State) (c : Nat) : F32 :=
  if s.rd (F.CH_DCMODE c) = 1 then
    let it := s.battOn c
    if F32.lt it 0 then s.dcSlot c 1 else if F32.lt 0 it then s.dcSlot c 2 else s.dcV c
  else if s.sub c = 2 then s.dcVop c
  else (s.dc c).vref

/-- The factor on the current bounds: the ramp of R264 or R384 and the battery start of R322. -/
def dcRamp (s : State) (c : Nat) : F32 :=
  let k := s.rampFactor
  let b : Rat := if s.rd (F.CH_DCMODE c) = 1 && s.sub c = 2 then min 1 (s.dcStartMs c / (max 1 (s.dc c).ssms : Nat)) else 1
  F32.ofRat (k * b)

/-- I_hi and I_lo (R314, R320). In MPPT the spec states no bounds: free values, the lower one never below 0 for BUCK and BOOST (log 22). -/
def dcIhi (s : State) (c : Nat) : F32 :=
  let x := if s.rd (F.CH_DCMODE c) = 1 then
      let it := s.battOn c
      if F32.lt 0 it then F32.fmin it (F32.div (s.dcPlim c) (s.dcV c)) else 0
    else (s.dc c).ihi
  F32.mul x (s.dcRamp c)
def dcIlo (s : State) (c : Nat) : F32 :=
  let x := if s.rd (F.CH_DCMODE c) = 1 then (if F32.lt (s.battOn c) 0 then s.battOn c else 0) else (s.dc c).ilo
  let y := F32.mul x (s.dcRamp c)
  if s.rd (F.CH_TOPO c) = 2 then y else F32.fmax y 0

/-! The tracker (R316 to R319). -/

/-- The channel has half-periods: MPPT mode in START, RUN, CURTAIL or STOP (R316, R322). -/
def dcRuns (s : State) (c : Nat) : Bool := s.isDc c && s.rd (F.CH_DCMODE c) == 0 && decide (2 ≤ s.sub c) && decide (s.sub c ≤ 5)

/-- Curtailment begins: PAVL and the demand are held (R318). -/
def curtBegin (s : State) (c : Nat) : State :=
  if s.bit (F.CH_CURT c) then s else (s.wrF (F.CH_PAVL c) (s.dc c).pd).wr (F.CH_CURT c) 1

/-- A scan is abandoned (R319). -/
def scanAbandon (s : State) (c : Nat) : State :=
  let d := s.dc c
  match d.scan with
  | none => s
  | some t => ((s.setDc c { d with vop := t.vop, scan := none, scanDue := false, open_ := false }).wr (F.CH_SCAN c) 0).sat (F.CH_SCANABN c)

/-- The voltage of scan point `j` (R319). -/
def scanV (s : State) (c j : Nat) : F32 × State :=
  let lo := s.q (F.CH_VMIN c)
  let hi := s.q (F.CH_VMAX c)
  s.rnd (lo + (j + 1 : Nat) * (hi - lo) / (s.rd (F.CH_SCANN c) + 2 : Nat))

/-- A period of the scan has ended. -/
def scanPeriod (s : State) (c : Nat) (t : ScanM) : State :=
  let d := s.dc c
  if 1 < t.left then s.setDc c { d with scan := some { t with left := t.left - 1 } }
  else
    let v := d.vref
    let (p, s) := s.rnd (t.sum / (max 1 t.cnt : Nat))
    let best := if t.cnt = 0 then t.best else match t.best with
      | none => some (p, v)
      | some (q, w) => if F32.lt q p then some (p, v) else some (q, w)
    if t.j < s.rd (F.CH_SCANN c) then
      let (v1, s) := s.scanV c (t.j + 1)
      s.setDc c { s.dc c with scan := some { t with j := t.j + 1, left := s.rd (F.CH_SCANDW c), sum := 0, cnt := 0, best := best }, vref := v1 }
    else
      let lim := F32.toRat t.ppre * (1 + s.q (F.CH_SCANMRG c))
      let s := match best with
        | some (q, w) =>
          if lim < F32.toRat q then (s.setDc c { s.dc c with vop := w, vmpp := w }).sat (F.CH_SCANMOVE c)
          else s.setDc c { s.dc c with vop := t.vop }
        | none => s.setDc c { s.dc c with vop := t.vop }
      let s := s.setDc c { s.dc c with scan := none, scanDue := false }
      ((s.wr (F.CH_SCAN c) 0).sat (F.CH_SCANCNT c)).ipulse (Pg.CH c) 8

/-- The start of a scan (R319): P_pre is the mean power of the last tracking period, which is P_d. -/
def scanStart (s : State) (c : Nat) : State :=
  let (v0, s) := s.scanV c 0
  let d := s.dc c
  (s.setDc c { d with scan := some { vop := d.vop, ppre := d.pd, j := 0, left := s.rd (F.CH_SCANDW c) }, vref := v0 }).wr (F.CH_SCAN c) 1

/-- MPPT_UPDATE and CURTAIL_UPDATE at the end of a valid period with the means `pp` and `pn` (R317, R318), neither in START (R322) nor in
STOP. A g that is NaN or infinite leaves V_op alone; the rest of the update stands (log 22). -/
def mpptUpdate (s : State) (c : Nat) (pp pn : F32) : State :=
  let d := s.dc c
  let (p, s) := s.rnd ((F32.toRat pp + F32.toRat pn) / 2)
  let plim := s.dcPlim c
  let s := s.setDc c { s.dc c with pbar := p }
  let s := if s.sub c = 3 && !s.bit (F.CH_CURT c) && F32.lt plim p then s.curtBegin c
    else if s.sub c = 3 && s.bit (F.CH_CURT c) && F32.le (s.f32 (F.CH_PAVL c)) plim then s.wr (F.CH_CURT c) 0 else s
  if !(s.sub c = 3 || s.sub c = 4) then s
  else if s.bit (F.CH_CURT c) then
    if !F32.isFin plim then s
    else
      let s := if F32.eq d.vop d.vmpp && F32.lt p plim then s.wrF (F.CH_PAVL c) p else s
      let (x, s) := s.rnd (s.q (F.CH_KCUR c) * (F32.toRat p - F32.toRat plim))
      let lim := s.f32 (F.CH_DVCUR c)
      let (v, s) := s.rnd (F32.toRat d.vop + F32.toRat (F32.clamp x (F32.neg lim) lim))
      s.setDc c { s.dc c with vop := F32.clamp v d.vmpp (s.f32 (F.CH_VMAX c)) }
  else
    let (g, s) := if F32.toRat d.dv = 0 || !F32.isFin pp || !F32.isFin pn then (F32.div (F32.sub pp pn) (F32.mul F32.twoW d.dv), s)
      else s.rnd ((F32.toRat pp - F32.toRat pn) / (2 * F32.toRat d.dv))
    let bad := !F32.isFin g
    let lim := s.f32 (F.CH_DVMAX c)
    let (x, s) := s.rnd (s.q (F.CH_KES c) * F32.toRat g)
    let (v, s) := s.rnd (F32.toRat d.vop + F32.toRat (F32.clamp x (F32.neg lim) lim))
    let v := if bad then d.vop else F32.clamp v (s.f32 (F.CH_VMIN c)) (s.f32 (F.CH_VMAX c))
    let s := if bad then s.sat (F.CH_BADCNT c) else s
    (s.setDc c { s.dc c with vop := v, vmpp := v, g := g, pd := p }).wrap (F.CH_UPDCNT c)

/-- A new half-period begins: positive with ΔV = DAMP × V_op, negative with the ΔV held (R316). -/
def halfStart (s : State) (c : Nat) (neg : Bool) : State :=
  let d := s.dc c
  let (dv, s) := if neg then (d.dv, s) else s.rnd (s.q (F.CH_DAMP c) * F32.toRat d.vop)
  let (v, s) := s.rnd (if neg then F32.toRat d.vop - F32.toRat dv else F32.toRat d.vop + F32.toRat dv)
  (s.setDc c { s.dc c with dv := dv, vref := v, neg := neg, open_ := true, t0 := s.tick, setl := s.rd (F.CH_SETL c) * 500
                           sum := 0, cnt := 0, void := neg && d.void }).setBit
    (F.CH_SIGN c) neg

/-- DITHER_BOUNDARY: a delivery of entry ALMIDX (R316). -/
def dcBoundary (s : State) (c : Nat) : State :=
  let s := s.dcLatch c
  if !s.dcRuns c then s
  else
    let d := s.dc c
    match d.scan with
    | some t =>
      let s := s.setDc c { d with neg := !d.neg, t0 := s.tick, setl := s.rd (F.CH_SETL c) * 500 }
      if d.neg then
        let s := s.scanPeriod c t
        if (s.dc c).scan.isNone then s.halfStart c false else s
      else s
    | none =>
      if !d.open_ then s.halfStart c false
      else
        let ns := 2 * (s.tick - d.t0)
        let bad := decide (ns < 500000) || decide (5000000 < ns) || d.cnt == 0
        let (m, s) := s.rnd (d.sum / (max 1 d.cnt : Nat))
        if !d.neg then (s.setDc c { s.dc c with pPos := m, void := bad }).halfStart c true
        else
          let s := if d.void || bad then s.sat (F.CH_DITHSKIP c) else s.mpptUpdate c d.pPos m
          if (s.dc c).scanDue && s.sub c = 3 && !s.bit (F.CH_CURT c) then
            let s := s.scanStart c
            s.setDc c { s.dc c with neg := false, t0 := s.tick, setl := s.rd (F.CH_SETL c) * 500 }
          else s.halfStart c false

/-- Every dither boundary of a delivery of Almanac entry `i` (R316). -/
def dcEntry (s : State) (i : Nat) : State :=
  s.each 8 fun s c => if s.isDc c && s.rd (F.CH_ALMIDX c) = i then s.dcBoundary c else s

/-- A decimation of block `m` reaches the channels it measures: the sums of R316 and R319, and CV (R320). -/
def dcSample (s : State) (m : Nat) : State :=
  s.each 8 fun s c =>
    if !s.isDc c || s.rd (F.LEGX_VIN (3 * c)) / 6 != m then s
    else if s.rd (F.CH_DCMODE c) = 1 then
      let it := s.battI c
      let lim := F32.mul (F32.abs it) (F32.ofRat (19 / 20))
      s.setBit (F.CH_CV c) (F32.lt it 0 && F32.le (F32.abs (s.dcI c)) lim)
    else
      let d := s.dc c
      let p := F32.mul (s.dcV c) (s.dcI c)
      if !(d.open_ || d.scan.isSome) || s.tick - d.t0 < d.setl then s
      else if !F32.isFin p then s.sat (F.CH_BADCNT c)
      else match d.scan with
        | some t => s.setDc c { d with scan := some { t with sum := t.sum + F32.toRat p, cnt := t.cnt + 1 } }
        | none => s.setDc c { d with sum := d.sum + F32.toRat p, cnt := d.cnt + 1 }

/-! Start and end (R322). -/

/-- DCDC_START: channel `c` enters START with V_op at V_oc (R322). -/
def dcStart (s : State) (c : Nat) : State :=
  let s := s.dcLatch c
  let voc := s.dcV c
  let bidir := s.rd (F.CH_TOPO c) == 2
  let hi := Config.freeWord s.free
  let lo := Config.freeWord (s.free + 1)
  let s := s.fresh.fresh
  s.setDc c { s.dc c with vop := voc, vstart := voc, startTk := some s.tick, open_ := false, scan := none, scanDue := false,
                          ihi := hi, ilo := if bidir then lo else F32.fmax lo 0 }

/-- DCDC_START_COMPLETE. -/
def dcStarted (s : State) (c : Nat) : State :=
  if !s.isDc c || s.sub c != 2 then s
  else
    let v := s.dcTarget c
    let s := if s.rd (F.CH_DCMODE c) = 0 then s.setDc c { s.dc c with vop := v, vmpp := v, vref := v, startTk := none }
      else s.setDc c { s.dc c with startTk := none }
    s.wr (subF c) 3

/-- Channel `c` leaves START, RUN or CURTAIL for another sub-state: V_op stays where the start has brought it, a scan is abandoned, and
curtailment ends (R318, R319, R322); CV stands for no channel that is off (R320). -/
def dcOut (s : State) (c : Nat) : State :=
  let v := s.dcVop c
  let d := s.dc c
  let s := if d.startTk.isSome then s.setDc c { d with vop := v, vref := v, startTk := none } else s
  let s := ((s.scanAbandon c).wr (F.CH_CURT c) 0)
  if s.isDc c then s else s.wr (F.CH_CV c) 0

/-- A change of mode or a withdrawal of release reaches the tracker of channel `c` (R319). -/
def dcBreak (s : State) (c : Nat) : State := if s.chType c = 2 then s.scanAbandon c else s

/-- CHARGE_TERMINATION (R321). -/
def chargeDone (s : State) (c : Nat) : State :=
  if !s.isDc c || s.rd (F.CH_DCMODE c) = 0 || !F32.lt (s.battOn c) 0 || !s.bit (F.CH_CV c) || !F32.le (F32.abs (s.dcI c)) (s.dcSlot c 6) then s
  else ((s.wr (F.CH_DONE c) 1).sat (F.CH_TERMCNT c)).ipulse (Pg.CH c) 9

/-- GLOBAL_SCAN_DUE (R319). -/
def scanFall (s : State) (c : Nat) : State :=
  if !s.isDc c || s.rd (F.CH_SCANPER c) = 0 || s.rd (F.CH_DCMODE c) = 1 || (s.dc c).scan.isSome then s
  else s.setDc c { s.dc c with scanDue := true }

/-- Leg `n` at place `k` of the group of channel `c` is served under peak-current control (R315). -/
def peakOk (s : State) (c n k : Nat) : Bool :=
  let m := s.rd (F.CH_PCMP c) + k
  m ≤ 15 && s.bit (F.CMP_EN m) && s.rd (F.CMP_ACT m) == 2 && s.rd (F.CMP_LEGGRP m) == 2 ^ n && s.rd (F.LEG_MODE n) == 1

/-- The configuration of a DCDC channel allows PCTL.EN of its CH page (R313). -/
def dcMayEn (s : State) (c : Nat) : Bool :=
  let lo := s.f32 (F.CH_VMIN c)
  let hi := s.f32 (F.CH_VMAX c)
  F32.isPos lo && F32.isFin hi && F32.lt lo hi && !(s.rd (F.CH_DCMODE c) == 1 && s.rd (F.CH_TOPO c) != 2) &&
  (!s.bit (F.CH_CTRL c) || (s.legsOf c).all fun n => s.peakOk c n (s.rd (F.LEGX_MAPA_POS n)))

/-- The ranges of the DC words of a CH page. -/
def dcRange (o : Nat) (v : Word) : Bool :=
  if o = 0x84 then inRange v (1 / 500) (1 / 50)
  else if o = 0x88 then inRange v 0 100
  else if o = 0x8C || o = 0x9C || o = 0xB0 then F32.isPos v
  else if o = 0x90 || o = 0x94 then F32.isFin v
  else if o = 0x98 then F32.isNonneg v
  else if o = 0xA0 then (F.CH_SETL 0).of v ≤ 400
  else if o = 0xA4 then (F.CH_SCANDW 0).of v != 0
  else if o = 0xA8 then inRange v 0 (1 / 2)
  else if o = 0xAC then inRange v (1 / 2) 1
  else if o = 0xB4 then (F.CH_TERMT 0).of v != 0 && (F.CH_SSMS 0).of v != 0
  else true

end State

/-- GLOBAL_SCAN_DUE: SCANPER minutes of channel `c` have passed (R319). -/
def execGlobalScanDue (c : Fin 8) (s : State) : Host.Outcome State Fault Refusal := .next (s.scanFall c)

/-- CHARGE_TERMINATION: the charge current of channel `c` has stayed at or below ITERM for TERMT s (R321). -/
def execChargeTermination (c : Fin 8) (s : State) : Host.Outcome State Fault Refusal := .next (s.chargeDone c)

/-- DCDC_START_COMPLETE: the start of channel `c` ends (R322). -/
def execDcdcStartComplete (c : Fin 8) (s : State) : Host.Outcome State Fault Refusal := .next (s.dcStarted c)

end Sys2Proof.Machine
end

