-- ==== Sys2Proof/Machine/Alloc.lean ====
section
/-! DEFINITION. The allocation unit (R270 to R282) and the virtual synchronous machines of the FORM unit (R283 to R288). The allocation's
number format is open (log 5); the FORM unit's arithmetic is binary32, rounded at each operation (R188, log 15). -/

namespace Sys2Proof.Machine

/-- 2π and the nominal frequency as binary32. -/
def tauF : F32 := 0x40C90FDB#32

namespace State

/-! The envelope (R273, R274). -/

/-- kt: the committed slot 6, clamped to [0, 1], a NaN counting as 0. -/
def kt (s : State) (c : Nat) : F32 :=
  let x := s.reqSlot c 6
  if F32.isNaN x then 0 else F32.clamp x 0 F32.oneW

/-- A finite demand, or 0 (R276). -/
def clean (x : F32) : F32 := if F32.isFin x then x else 0

/-- The factor kp (R272). -/
def kp (s : State) (c : Nat) : Rat := if s.chType c = 0 then 3 / 2 else 1 / 2

/-- The demands of channel `c` (R276, R284). -/
def demands (s : State) (c : Nat) : F32 × F32 × State :=
  if s.forming c || (s.has Pg.FORM && s.bit (F.FORM_FALLBK c)) then (clean (s.form c).dd, clean (s.form c).dq, s)
  else if s.bit (F.CH_DEMAND c) then
    let p := s.rd (F.CH_PORT c)
    let vd := F32.toRat (F32.fmax (s.grid p).out.vpd (s.f32 (F.GRID_VMIN p)))
    let k := s.kp c * vd
    let (d, s) := s.rnd (if k = 0 then 0 else F32.toRat (s.reqSlot c 3) / k)
    let (q, s) := s.rnd (if k = 0 then 0 else -(F32.toRat (s.reqSlot c 4)) / k)
    (if F32.isFin (s.reqSlot c 3) then clean d else 0, if F32.isFin (s.reqSlot c 4) then clean q else 0, s)
  else (clean (s.reqSlot c 0), clean (s.reqSlot c 1), s)

/-- A magnitude `x` with the sign of `y`. -/
def signed (x y : F32) : F32 := if y.getLsbD 31 then F32.neg (F32.abs x) else F32.abs x

/-- iq_ride of channel `c` (R295): the clamp is on the result of either case (log 23). With a base of 0 the spec states no voltage: a
free value. -/
def iqRide (s : State) (c : Nat) : F32 × State :=
  let p := s.rd (F.CH_PORT c)
  let pre := (s.ch c).iqPre
  let vb := s.q (F.RIDE_VBASE p)
  let du := if vb = 0 then F32.toRat (Config.freeWord s.free) else F32.toRat (s.grid p).out.vpmag / vb - 1
  let s := if vb = 0 then s.fresh else s
  let db := s.q F.RIDE_DB
  let ir := s.q (F.CH_IRATED c)
  let k := s.q F.RIDE_K
  let lim := s.q F.RIDE_IQMAX * ir
  let x := if !s.bit F.RIDE_KEN then F32.toRat pre else if du < -db then F32.toRat pre + k * (du + db) * ir
    else if db < du then F32.toRat pre + k * (du - db) * ir else F32.toRat pre
  let y := max (-lim) (min lim x)
  if y = F32.toRat pre then (pre, s) else s.rnd y

/-- √(A² − x²), 0 of a negative argument. -/
def rest (s : State) (a x : F32) : F32 × State := s.root (F32.toRat a * F32.toRat a - F32.toRat x * F32.toRat x)

/-- The limit on DCDC channel `d` ends: PLIM is +∞, the reason NONE, and CURTAIL ends (R282); a PCAP below the power available goes on to
hold the channel (R318). -/
def unlimit (s : State) (d : Nat) : State :=
  let s := ((s.wrF (F.CH_PLIM d) (F32.infW false)).wr (F.CH_RSNP d) 0).setBit ((F.ALLOC_CURTAIL).at d) false
  if s.sub d != 4 then s
  else
    let s := s.wr (subF d) 3
    if F32.lt (s.dcPlim d) (s.f32 (F.CH_PAVL d)) then s else s.wr (F.CH_CURT d) 0

/-- A channel that is not, or no longer, linked to an enabled grid channel counts as unlinked (R282). -/
def linkSync (s : State) : State :=
  let s := s.each 8 fun s d =>
    if s.dcLinked d || s.chType d != 2 then s
    else (if s.rdBit F.ALLOC_CURTAIL d then s.unlimit d else s).dcTake d
  s.iraw Pg.ALLOC 2 (s.rd F.ALLOC_CURTAIL != 0)

/-- DC_LINK_CURTAIL (R282): the DCDC channels linked to grid channel `g`. -/
def dcLink (s : State) (g : Nat) : State :=
  let linked := (List.range 8).filter fun d => s.dcLinked d && s.rd (F.CH_LINK d) == g
  let s := linked.foldl dcTake s
  let m := s.modeNow
  let base := F32.toRat (s.ch g).sigP
  let run := m == 3 || m == 4 || m == 5
  let (px, s) := s.rnd ((if run then max 0 base else 0) + s.q F.ALLOC_MARG)
  let s := s.setCh g { s.ch g with sigPX := px }
  let sum := (linked.map fun d => F32.toRat (s.dcPd d)).sum
  linked.foldl (fun s d =>
    let pd := F32.toRat (s.dcPd d)
    if F32.toRat px < sum && 0 < pd then
      let (lim, s) := s.rnd (F32.toRat px * pd / sum)
      let s := ((s.wrF (F.CH_PLIM d) lim).wr (F.CH_RSNP d) (s.rd (F.CH_RSNP g))).setBit ((F.ALLOC_CURTAIL).at d) true
      if s.sub d = 3 then ((s.dcBreak d).curtBegin d).wr (subF d) 4 else s
    else s.unlimit d) s

/-- The active reason joins RSNSEEN of the open interval of the channel's port (R350). -/
def mtrReason (s : State) (c r : Nat) : State :=
  let p := s.rd (F.CH_PORT c)
  let m := s.mtrPort p
  match m.ivals.reverse with
  | [] => s
  | v :: t => s.setMtrPort p { m with ivals := t.reverse ++ [{ v with rsn := v.rsn ||| 2 ^ r }] }

/-- The grants, reasons and signals of one run are written in one cycle (R271, R272, R275, R278). -/
def allocWrite (s : State) (c : Nat) (d q h : F32) (rp rq rh : Nat) (a : F32) : State :=
  let (room, s) := s.rnd (F32.toRat a - F32.toRat (F32.abs h))
  let lim := s.reqSlot c 2
  let s2 := if F32.toRat lim = 0 then room else F32.fmin room lim
  let s := ((s.wrF (F.CH_GID c) d).wrF (F.CH_GIQ c) q).wrF (F.CH_GIH c) h
  let s := (((s.wrF (F.CH_COMM c 0) d).wrF (F.CH_COMM c 1) q).wrF (F.CH_COMM c 2) s2).wrF (F.CH_COMM c 5) h
  let s := (((s.wr (F.CH_RSNP c) rp).wr (F.CH_RSNQ c) rq).wr (F.CH_RSNH c) rh).mtrReason c rp
  let v := F32.toRat (s.grid (s.rd (F.CH_PORT c))).out.vpd
  let (p, s) := s.rnd (s.kp c * v * F32.toRat d)
  let (qq, s) := s.rnd (-(s.kp c * v * F32.toRat q))
  let f := s.form c
  s.setCh c { s.ch c with sigP := p, sigQ := qq, sigTh := f.thv, sigW := f.wv, sigE := f.ev, lastRun := some s.tick }

/-- The end of a ramp-down: every grant of the grid channels is 0 (R281). -/
def grantsZero (s : State) : State :=
  s.each 8 fun s c =>
    if !(s.has (Pg.CH c) && s.isGrid c) then s
    else
      let s := s.clear [F.CH_GID c, F.CH_GIQ c, F.CH_GIH c, F.CH_AVAIL c, F.CH_COMM c 0, F.CH_COMM c 1, F.CH_COMM c 2, F.CH_COMM c 5]
      s.setCh c { s.ch c with sigP := 0, sigQ := 0 }

/-- The levels of ALLOC.STAT. -/
def allocStat (s : State) : State :=
  let s := s.iraw Pg.ALLOC 0 (s.rd F.ALLOC_DELAYED != 0)
  let s := s.iraw Pg.ALLOC 1 ((List.range 8).any fun c => s.rd (F.CH_RSNH c) == 6)
  s.iraw Pg.ALLOC 2 (s.rd F.ALLOC_CURTAIL != 0)

/-- DELAYED of channel `c`. -/
def setDelayed (s : State) (c : Nat) (v : Bool) : State := (s.setBit (F.CH_DELAYED c) v).setBit ((F.ALLOC_DELAYED).at c) v

/-- The limit of R279 on a delayed active grant: the previous one plus RAMP × dt. -/
def rampLim (s : State) (c : Nat) (on : Bool) (prev : F32) : Option F32 × State :=
  if !on then (none, s)
  else
    let dt := ticksQ (s.tick - ((s.ch c).lastRun.getD s.tick))
    let (lim, s) := s.rnd (F32.toRat (F32.abs prev) + s.q (F.CH_RAMP c) * dt)
    (some lim, s)

/-- The magnitude `x` under that limit, and whether it binds. -/
def under (lim : Option F32) (x : F32) : F32 × Bool :=
  match lim with
  | none => (x, false)
  | some l => if F32.lt l x then (l, true) else (x, false)

/-- The move from one signed grant towards another by no more than RAMP × dt (R286). -/
def stepped (s : State) (c : Nat) (prev x : F32) : F32 × Bool × State :=
  let dt := ticksQ (s.tick - ((s.ch c).lastRun.getD s.tick))
  let w := s.q (F.CH_RAMP c) * dt
  let (hi, s) := s.rnd (F32.toRat prev + w)
  let (lo, s) := s.rnd (F32.toRat prev - w)
  if F32.lt hi x then (hi, true, s) else if F32.lt x lo then (lo, true, s) else (x, false, s)

/-- VILIM of a forming channel (R284). -/
def setVilim (s : State) (c : Nat) (v : Bool) : State :=
  let s := if v && !s.bit (F.FORM_VILIM c) then s.sat (F.FORM_VILCNT c) else s
  let s := s.setBit (F.FORM_VILIM c) v
  let s := s.setForm c { s.form c with vilRun := v }
  s.iraw Pg.FORM 1 ((List.range 8).any fun d => s.bit (F.FORM_VILIM d))

/-- ALLOCATION_RUN of an enabled grid channel (R273 to R282). -/
def allocRun (s : State) (c : Nat) : State :=
  if !s.chEn c || !s.isGrid c then s
  else
    let s := s.wrap F.ALLOC_CNT
    let m := s.modeNow
    let mc := s.bit F.RIDE_MC
    if !(m == 3 || m == 4 || m == 5) || mc then
      let r := if mc then 2 else 0
      let s := s.allocWrite c 0 0 0 r r r (s.f32 (F.CH_AVAIL c))
      ((s.setDelayed c false).dcLink c).allocStat
    else
      let kt := s.almKt c (s.kt c)
      let kage := s.f32 (F.CH_KAGE c)
      let ir := s.q (F.CH_IRATED c)
      let fp : Rat := if s.probeEn c then s.q F.ISL_PAMP else 0
      let (e, s) := s.rnd (ir * F32.toRat (F32.fmin kt kage))
      let (a0, s) := s.rnd (max 0 (F32.toRat e - fp * F32.toRat e))
      let (au, s) := s.rnd (ir * (1 - fp))
      let k := s.rampFactor
      let (a, s) := if k = 1 then (a0, s) else s.rnd (F32.toRat a0 * k)
      let (dd, dq, s) := s.demands c
      let md := F32.abs dd
      let mq := F32.abs dq
      let dh := clean (s.reqSlot c 5)
      let why := fun (fits : Bool) => if k != 1 then 5 else if fits then (if F32.lt kt kage then 3 else 4) else 1
      let first := (s.ch c).entRamp
      let s := if first then (s.setDelayed c true).sat (F.CH_DLYCNT c) else s
      let s := s.setCh c { s.ch c with entRamp := false }
      let late := s.bit (F.CH_DELAYED c)
      let prev := if first then 0 else s.f32 (F.CH_GID c)
      let (lim, s) := s.rampLim c late prev
      let (d, q, rp, rq, s) :=
        if m = 5 then
          let (iq, s) := s.iqRide c
          let q := F32.fmin (F32.abs iq) a
          let (room, s) := s.rest a q
          let (p, bind) := under lim (F32.fmin md room)
          (signed p dd, signed q iq, if bind then 5 else if F32.eq p md then 0 else if k != 1 then 5 else 2,
            if F32.eq q (F32.abs iq) then 0 else why (F32.le (F32.abs iq) au), s)
        else if s.forming c then
          let (mag, s) := s.root (F32.toRat dd * F32.toRat dd + F32.toRat dq * F32.toRat dq)
          if F32.lt a mag then
            let f := F32.toRat a / F32.toRat mag
            let (d, s) := s.rnd (F32.toRat dd * f)
            let (q, s) := s.rnd (F32.toRat dq * f)
            let r := why (F32.le mag au)
            let (p, bind) := under lim (F32.abs d)
            (signed p dd, q, if bind then 5 else if F32.eq d dd then 0 else r, if F32.eq q dq then 0 else r, s.setVilim c true)
          else
            let (p, bind) := under lim md
            (signed p dd, dq, if bind then 5 else 0, 0, s.setVilim c false)
        else if !s.bit (F.CH_PRIO c) then
          let (p, bind) := under lim (F32.fmin md a)
          let (room, s) := s.rest a p
          let q := F32.fmin mq room
          let (roomU, s) := s.rest au (under lim (F32.fmin md au)).1
          (signed p dd, signed q dq, if bind then 5 else if F32.eq p md then 0 else why (F32.le md au),
            if F32.eq q mq then 0 else why (F32.le mq roomU), s)
        else
          let q := F32.fmin mq a
          let (room, s) := s.rest a q
          let (p, bind) := under lim (F32.fmin md room)
          let (roomU, s) := s.rest au (F32.fmin mq au)
          (signed p dd, signed q dq, if bind then 5 else if F32.eq p md then 0 else why (F32.le md roomU),
            if F32.eq q mq then 0 else why (F32.le mq au), s)
      let (d, q, rp, rq, s) :=
        if (s.ch c).fromForm && m = 3 then
          let (d', b1, s) := s.stepped c (s.f32 (F.CH_GID c)) d
          let (q', b2, s) := s.stepped c (s.f32 (F.CH_GIQ c)) q
          let s := s.setCh c { s.ch c with fromForm := b1 || b2 }
          (d', q', if b1 then 5 else rp, if b2 then 5 else rq, s)
        else (d, q, rp, rq, s)
      let (mag, s) := s.root (F32.toRat d * F32.toRat d + F32.toRat q * F32.toRat q)
      let fits := decide (F32.toRat mag + F32.toRat (F32.abs dh) ≤ F32.toRat a)
      let h := if fits then dh else 0
      let refused := !fits && F32.lt 0 (F32.abs dh)
      let s := if refused then (s.sat (F.CH_HREFCNT c)).latch ((F.ALLOC_HREF).at c) else s
      let s := if late && F32.eq (F32.abs d) md then s.setDelayed c false
        else if !late && (1 ≤ rp && rp ≤ 4) then (s.setDelayed c true).sat (F.CH_DLYCNT c) else s
      let s := (s.wrF (F.CH_ENV c) e).wrF (F.CH_AVAIL c) a
      let s := s.allocWrite c d q h rp rq (if refused then 6 else 0) a
      let s := if s.sub c = 2 then s.wr (subF c) 3 else s
      (s.dcLink c).allocStat

/-! The virtual synchronous machine (R283 to R287). -/

/-- ω0 of port `p`. -/
def omega0 (s : State) (p : Nat) : F32 := F32.mul tauF (F32.ofNat (s.fnom p))

/-- FORMING of channel `c` shows whether it forms. -/
def formStat (s : State) (c : Nat) : State := s.setBit (F.FORM_FORMING c) (s.forming c)

/-- A binary32 angle in turns, kept in [0, 1): what rounds to a whole turn is 0 (R272). -/
def wrapTurn (x : F32) : F32 := if F32.le F32.oneW x then 0 else x

/-- The turn of an angle in 2^-32 units. -/
def turnF (n : Nat) : F32 := wrapTurn (F32.ofRat (mkRat n (2 ^ 32)))

/-- An angle modulo one turn. -/
def modTurn (t : F32) : F32 := wrapTurn (F32.sub t (F32.ofInt (F32.toRat t).floor))

/-- The voltage vd, vq in the frame turned by φ (R283). -/
def formFrame (s : State) (c : Nat) (phi : Rat) : F32 × F32 :=
  let o := (s.grid (s.rd (F.CH_PORT c))).out
  let co := Config.cosTurns phi
  let si := Config.sinTurns phi
  (F32.sub (F32.mul o.vpd co) (F32.mul o.vpq si), F32.add (F32.mul o.vpd si) (F32.mul o.vpq co))

/-- The current demand of R283 for the voltage `v` in the machine's frame, with speed `w` and internal voltage `e`. -/
def formDemand (s : State) (c : Nat) (v : F32 × F32) (w e : F32) : F32 × F32 :=
  let rv := s.f32 (F.FORM_RV c)
  let x := F32.div (F32.mul (s.f32 (F.FORM_XV c)) w) (s.omega0 (s.rd (F.CH_PORT c)))
  let den := F32.add (F32.mul rv rv) (F32.mul x x)
  let ev := F32.sub e v.1
  (F32.div (F32.sub (F32.mul ev rv) (F32.mul v.2 x)) den,
   F32.div (F32.sub (F32.mul (F32.neg v.2) rv) (F32.mul ev x)) den)

/-- The electrical powers of R283 for the voltage `v`, with the grants of the previous run. -/
def formPower (s : State) (c : Nat) (v : F32 × F32) : F32 × F32 :=
  let id := s.f32 (F.CH_GID c)
  let iq := s.f32 (F.CH_GIQ c)
  let k := F32.ofRat (s.kp c)
  (F32.mul k (F32.add (F32.mul v.1 id) (F32.mul v.2 iq)), F32.mul k (F32.sub (F32.mul v.2 id) (F32.mul v.1 iq)))

/-- The droop value of E_v for a reactive power `qe` (R283). -/
def formDroop (s : State) (c : Nat) (qe : F32) : F32 :=
  let r := F32.div (F32.mul (s.f32 (F.FORM_MQ c)) (F32.sub (s.reqSlot c 4) qe)) (s.f32 (F.FORM_SBASE c))
  F32.mul (s.f32 (F.FORM_VNOM c)) (F32.add F32.oneW r)

/-- E_v with the offset of R286, its clamp, and the dead-bus rise (R287). -/
def formEv (s : State) (c : Nat) (qe : F32) : F32 :=
  let vn := s.f32 (F.FORM_VNOM c)
  let m := s.form c
  let e := F32.clamp (F32.add (s.formDroop c qe) m.eofs) (F32.mul (F32.ofRat (7 / 10)) vn) (F32.mul (F32.ofRat (13 / 10)) vn)
  match m.rise with
  | none => e
  | some t => F32.mul e (F32.ofRat (min 1 (mkRat (s.tick - t) (500000 * max 1 (s.rd (F.FORM_DEADT c))))))

/-- FORM_UPDATE of channel `c` at an update of its port (R283, R285). -/
def formUpdate (s : State) (c : Nat) : State :=
  let p := s.rd (F.CH_PORT c)
  let g := s.grid p
  let m := s.form c
  let th := mkRat g.thk (2 ^ 32)
  if s.forming c then
    let v := s.formFrame c (th - F32.toRat m.thv)
    let (pe, qe) := s.formPower c v
    let w0 := s.omega0 p
    let sb := s.f32 (F.FORM_SBASE c)
    let pm := F32.sub (s.reqSlot c 3) (F32.div (F32.mul sb (F32.sub m.wv w0)) (F32.mul w0 (s.f32 (F.FORM_MP c))))
    let wg := if s.bit (F.GRID_VALID p) then g.out.omega else m.wv
    let damp := F32.div (F32.mul (F32.mul (s.f32 (F.FORM_D c)) sb) (F32.sub m.wv wg)) w0
    let bk := s.blk (s.gridBlk p)
    let ts := F32.ofRat (ticksQ (bk.tk - bk.tk1))
    let num := F32.mul (F32.mul ts w0) (F32.sub (F32.sub pm pe) damp)
    let wv := F32.add m.wv (F32.div num (F32.mul (F32.mul F32.twoW (s.f32 (F.FORM_H c))) sb))
    let hz := fun (n : Nat) => F32.mul tauF (F32.ofRat (mkRat n 100))
    let wv := F32.clamp wv (hz (s.rd (F.GRID_FMIN p))) (hz (s.rd (F.GRID_FMAX p)))
    let t1 := modTurn (F32.add m.thv (F32.div (F32.mul wv ts) tauF))
    let ev := s.formEv c qe
    let (dd, dq) := s.formDemand c v wv ev
    let s := s.setForm c { m with thv := t1, wv := wv, ev := ev, dd := dd, dq := dq }
    (((s.wrF (F.FORM_OMEGAV c) wv).wrF (F.FORM_EV c) ev).wrF (F.FORM_PE c) pe).formStat c
  else if s.has Pg.FORM && s.bit (F.FORM_FALLBK c) && s.isGrid c then
    let v := s.formFrame c 0
    let (_, qe) := s.formPower c v
    let w := g.out.omega
    let (dd, dq) := s.formDemand c v w (s.formEv c qe)
    let mag := F32.sqrt (F32.add (F32.mul dd dd) (F32.mul dq dq))
    let small := s.modeNow == 4 && F32.le mag (F32.mul (F32.ofRat (9 / 10)) (s.f32 (F.CH_AVAIL c)))
    s.setForm c { m with thv := turnF g.thk, wv := w, retRun := small }
  else s

/-- An entry to fallback (R284); none during a dead-bus rise (R287). -/
def formFall (s : State) (c : Nat) (forced : Bool) : State :=
  if s.bit (F.FORM_FALLBK c) || (s.form c).rise.isSome then s
  else
    let s := (((s.wr (F.FORM_FALLBK c) 1).sat (F.FORM_FBCNT c)).setVilim c false).ipulse Pg.FORM 0
    let s := s.setForm c { s.form c with retRun := false }
    (s.formStat c).raiseFlt (0x38 + c) 0 forced

/-- FORM_FALLBACK (R284). -/
def formFallback (s : State) (c : Nat) : State := if s.forming c && (s.form c).vilRun then s.formFall c false else s

/-- FORM_FALLBACK_CLEAR (R285). -/
def formReturn (s : State) (c : Nat) : State :=
  if !(s.has Pg.FORM && s.bit (F.FORM_FALLBK c)) || s.modeNow != 4 || !(s.form c).retRun then s
  else
    let g := s.grid (s.rd (F.CH_PORT c))
    let s := s.setForm c { s.form c with thv := turnF g.thk, wv := g.out.omega, retRun := false }
    ((s.wr (F.FORM_FALLBK c) 0).wrF (F.FORM_OMEGAV c) g.out.omega).formStat c

/-- The enabled grid channels. -/
def gridChs (s : State) : List Nat := (List.range 8).filter fun c => s.chEn c && s.isGrid c

/-- |V+| of the port of channel `c` lies below its VDEAD (R287). -/
def deadNow (s : State) (c : Nat) : Bool := F32.lt (s.grid (s.rd (F.CH_PORT c))).out.vpmag (s.f32 (F.FORM_VDEAD c))

/-- DEAD_BUS_QUALIFIED for channel `c` (R287). -/
def deadQualify (s : State) (c : Nat) : State :=
  if s.has Pg.FORM && s.chEn c && s.isGrid c && s.deadNow c then s.setForm c { s.form c with deadOk := true } else s

/-- The dead-bus rule of R287 meets TRK. -/
def deadBusOk (s : State) : Bool :=
  s.has Pg.FORM && s.gridChs.all fun c => s.bit (F.FORM_EN c) && s.bit (F.FORM_DEADBUS c) && (s.form c).deadOk

/-- A voltage at or above VDEAD ends the qualification at that update. -/
def deadSync (s : State) (p : Nat) : State :=
  s.each 8 fun s c => if s.rd (F.CH_PORT c) = p && (s.form c).deadOk && !s.deadNow c then s.setForm c { s.form c with deadOk := false } else s

/-- FORM_TRANSFER (R286): the machine of channel `c` starts so that its first demand equals the present grant. The demands that a fallback
holds stay (R284). -/
def formTransfer (s : State) (c : Nat) : State :=
  let g := s.grid (s.rd (F.CH_PORT c))
  let id := s.f32 (F.CH_GID c)
  let iq := s.f32 (F.CH_GIQ c)
  let rv := s.f32 (F.FORM_RV c)
  let xv := s.f32 (F.FORM_XV c)
  let re := F32.add (F32.sub (F32.mul id rv) (F32.mul iq xv)) g.out.vpd
  let im := F32.add (F32.add (F32.mul id xv) (F32.mul iq rv)) g.out.vpq
  let mag := F32.sqrt (F32.add (F32.mul re re) (F32.mul im im))
  let arg := F32.div (Config.atan2 (F32.toRat im) (F32.toRat re)) tauF
  let t := modTurn (F32.add (turnF g.thk) arg)
  let v := s.formFrame c (mkRat g.thk (2 ^ 32) - F32.toRat t)
  let (_, qe) := s.formPower c v
  let eofs := F32.sub mag (s.formDroop c qe)
  let (dd, dq) := if s.bit (F.FORM_FALLBK c) then ((s.form c).dd, (s.form c).dq) else s.formDemand c v g.out.omega mag
  let s := s.setForm c { s.form c with thv := t, wv := g.out.omega, ev := mag, eofs := eofs, dd := dd, dq := dq, vilRun := false
                                       retRun := false, rise := none }
  (s.wrF (F.FORM_OMEGAV c) g.out.omega).wrF (F.FORM_EV c) mag

/-- The entry to FORM under the dead-bus rule (R287), of a channel in fallback too, whose demands stay held (R284, log 15). -/
def formDead (s : State) (c : Nat) : State :=
  let w := s.omega0 (s.rd (F.CH_PORT c))
  let m := s.form c
  let keep := s.bit (F.FORM_FALLBK c)
  let s := (s.setForm c { m with thv := 0, wv := w, ev := 0, eofs := 0, dd := if keep then m.dd else 0, dq := if keep then m.dq else 0
                                 vilRun := false, retRun := false, rise := some s.tick, deadOk := false }).wr (F.FORM_DEAD c) 1
  (s.wrF (F.FORM_OMEGAV c) w).wrF (F.FORM_EV c) 0

/-- DEAD_BUS_RISE_END (R287). -/
def formRisen (s : State) (c : Nat) : State := (s.setForm c { s.form c with rise := none }).wr (F.FORM_DEAD c) 0

/-- The FORM unit's part in an entry to FORM (`dead` under the dead-bus rule), in its end, and in an entry to RIDE. A rise that the entry
to RIDE ends is no fallback (R287, log 15). -/
def formEnter (s : State) (dead : Bool) : State :=
  s.each 8 fun s c =>
    if !(s.has Pg.FORM && s.isGrid c && s.bit (F.FORM_EN c)) then s
    else (if dead then s.formDead c else s.formTransfer c).formStat c
def formLeave (s : State) (ride follow : Bool) : State :=
  s.each 8 fun s c =>
    if s.bit (F.FORM_FORMING c) then
      let s := if follow then s.setCh c { s.ch c with fromForm := true } else s
      if (s.form c).rise.isSome then ((s.formRisen c).setVilim c false).formStat c
      else if ride then s.formFall c false else (s.setVilim c false).formStat c
    else if (s.form c).rise.isSome then s.formRisen c else s

/-- The configuration allows FORMc.CFG.EN (R288). -/
def formMayEn (s : State) (c : Nat) : Bool :=
  F32.isPos (s.f32 (F.FORM_SBASE c)) && F32.isPos (s.f32 (F.FORM_VNOM c)) && F32.isPos (s.f32 (F.FORM_H c)) &&
  !(F32.toRat (s.f32 (F.FORM_RV c)) == 0 && F32.toRat (s.f32 (F.FORM_XV c)) == 0)

/-- The write of a word of the FORM page (R288). -/
def formWrite (s : State) (a : Nat) (v : Word) : State × Status :=
  let o := a % 0x1000
  if o < 0x100 || 0x300 ≤ o then s.genWrite a v
  else
    let c := (o - 0x100) / 0x40
    let r := o % 0x40
    if r = 0 then
      if s.bit (F.FORM_FORMING c) then (s, .busy)
      else if (F.FORM_FBT c).of v = 0 || ((F.FORM_EN c).on v && !s.formMayEn c) then (s, .range)
      else
        let (s, st) := s.genWrite a v
        (s.formStat c, st)
    else if r = 4 then s.genIf a v (inRange v (1 / 10) 20)
    else if r = 8 then s.genIf a v (inRange v 0 1000)
    else if r = 0xC then s.genIf a v (inRange v (1 / 1000) 1)
    else if r = 0x10 then s.genIf a v (inRange v 0 1)
    else if r = 0x14 || r = 0x18 then s.genIf a v (F32.isFin v)
    else if r = 0x1C || r = 0x20 || r = 0x24 then s.genIf a v (F32.isNonneg v)
    else if r = 0x28 then s.genIf a v ((F.FORM_RETT c).of v != 0 && (F.FORM_DEADT c).of v != 0)
    else s.genWrite a v

/-! The writes of the CH and ALLOC pages. -/

/-- A write of a reference slot under the host's ownership (R134). -/
def slotPut (s : State) (c k a : Nat) (v : Word) : State × Status :=
  if s.rdBit (F.CH_OWNENG c) k then (s.sat (F.CH_HOSTDROP c), .locked)
  else
    let r := s.genWrite a v
    (r.1.slotWritten c k, r.2)

/-- A host write of a reference slot: over a setpoint's write of the same tick it has no effect (R372). -/
def slotWrite (s : State) (c k a : Nat) (v : Word) : State × Status :=
  if !s.rdBit (F.CH_OWNENG c) k && s.hwBits (F.CH_SLOT c k).addr != 0 then (s, .ok) else s.slotPut c k a v

/-- An OUT stage's write of a reference slot (R134). -/
def slotEngine (s : State) (c k : Nat) (v : Word) : State :=
  if s.rdBit (F.CH_OWNENG c) k then (s.setReg (F.CH_SLOT c k).addr v).slotWritten c k else s.sat (F.CH_ENGDROP c)

/-- A write of CHc.OWNER: DCLR clears both halves of DROPCNT (R134). -/
def chOwnerWrite (s : State) (c a : Nat) (v : Word) : State × Status :=
  let r := s.genWrite a v
  (if (F.CH_DCLR c).on v then r.1.clear [F.CH_HOSTDROP c, F.CH_ENGDROP c] else r.1, r.2)

/-- The write of a word of the CHc page. -/
def chWrite (s : State) (c a : Nat) (v : Word) : State × Status :=
  let o := a % 0x1000
  if o = 0x40 then s.chOwnerWrite c a v
  else if o = 0x48 || o = 0x4C then s.genIf a v (F32.isNonneg v)
  else if o = 0x50 then
    if s.enabled (Pg.CH c) then (s, .busy)
    else if (F.CH_TYPE c).of v = 3 && !s.has Pg.MACH then (s, .range)
    else
      let r := s.genWrite a v
      (r.1.linkSync.formStat c, r.2)
  else if o = 0x54 then s.genIf a v (F32.isNonneg (s.heldRwl a v))
  else if o = 0x58 then s.genIf a v (F32.isPos v)
  else if o = 0x80 then
    if s.enabled (Pg.CH c) && s.chType c = 2 then (s, .busy) else s.genIf a v ((F.CH_TOPO c).of v != 3)
  else if 0x84 ≤ o ∧ o ≤ 0xB4 then s.genIf a v (dcRange o v)
  else if 0x100 ≤ o ∧ o < 0x140 then s.slotWrite c ((o - 0x100) / 4) a v
  else s.genWrite a v

/-- The write of a word of the ALLOC page. -/
def allocPageWrite (s : State) (a : Nat) (v : Word) : State × Status :=
  if a % 0x1000 = 0x44 then s.genIf a v (F32.isFin v) else s.genWrite a v

end State

/-- ALLOCATION_RUN of channel `c` (R275, R277). -/
def execAllocationRun (c : Fin 8) (s : State) : Host.Outcome State Fault Refusal := .next (s.allocRun c)

/-- FORM_FALLBACK: VILIM of channel `c` has stayed set for FBT ms (R284). -/
def execFormFallback (c : Fin 8) (s : State) : Host.Outcome State Fault Refusal := .next (s.formFallback c)

/-- FORM_FALLBACK_CLEAR: the demand of channel `c` has stayed within 0.9 A for RETT ms (R285). -/
def execFormFallbackClear (c : Fin 8) (s : State) : Host.Outcome State Fault Refusal := .next (s.formReturn c)

/-- DEAD_BUS_QUALIFIED: |V+| of the port of channel `c` has stayed below VDEAD for DEADT ms (R287). -/
def execDeadBusQualified (c : Fin 8) (s : State) : Host.Outcome State Fault Refusal := .next (s.deadQualify c)

/-- DEAD_BUS_RISE_END: E_v of channel `c` has completed its rise (R287). -/
def execDeadBusRiseEnd (c : Fin 8) (s : State) : Host.Outcome State Fault Refusal :=
  .next (if (s.form c).rise.isSome then s.formRisen c else s)

end Sys2Proof.Machine
end

