-- ==== Sys2Proof/Machine/Ride.lean ====
section
/-! DEFINITION. The RIDE unit (R289 to R297): the measures of each update, the excursion test, the recovery band, the curves, momentary
cessation and the reconnection window. The measures' number format is open (log 5). -/

namespace Sys2Proof.Machine
namespace State

/-- The fields of port `p`. -/
def ulF (p : Nat) : Fld := if p = 0 then F.RIDE_UL0 else F.RIDE_UL1
def uhF (p : Nat) : Fld := if p = 0 then F.RIDE_UH0 else F.RIDE_UH1
def dfF (p : Nat) : Fld := if p = 0 then F.RIDE_DF0 else F.RIDE_DF1
def excF (p : Nat) : Fld := if p = 0 then F.RIDE_EXC0 else F.RIDE_EXC1

/-- The served ports. -/
def servedPorts (s : State) : List Nat := (List.range 2).filter fun p => s.served p

/-- The served ports as a mask. -/
def servedMask (s : State) : Nat := (if s.served 0 then 1 else 0) + (if s.served 1 then 2 else 0)

/-- The device time of the last update of port `p`. -/
def rideLast (s : State) (p : Nat) : Option Nat := if p = 0 then s.ride.last0 else s.ride.last1

/-- The reconnection window held at the last update of port `p` (R296). -/
def reconWindow (s : State) (p : Nat) : Bool := if p = 0 then s.ride.win0 else s.ride.win1

/-- Magnitude of an exact value. -/
def absQ (x : Rat) : Rat := if x < 0 then -x else x

/-- U_L, U_H and Δf of port `p` are formed (R289). With a base of 0 the spec states no quotient: free values (log 23). -/
def rideMeasure (s : State) (p : Nat) : State :=
  let o := (s.grid p).out
  let vb := s.q (F.RIDE_VBASE p)
  let (vn, s) := if s.rd (F.GRID_TYPE p) = 2 then (0, s)
    else s.root (F32.toRat o.vnd * F32.toRat o.vnd + F32.toRat o.vnq * F32.toRat o.vnq)
  let (ul, s) := if vb = 0 then (Config.freeWord s.free, s.fresh) else s.rnd ((F32.toRat o.vpmag - F32.toRat vn) / vb)
  let (uh, s) := if vb = 0 then (Config.freeWord s.free, s.fresh) else s.rnd ((F32.toRat o.vpmag + F32.toRat vn) / vb)
  let (df, s) := if s.bit (F.GRID_VALID p) then s.rnd (F32.toRat o.f - (s.fnom p : Nat)) else (s.f32 (dfF p), s)
  ((s.wrF (ulF p) ul).wrF (uhF p) uh).wrF (dfF p) df

/-- Port `p` lies beyond an entry threshold (R290). -/
def rideExc (s : State) (p : Nat) : Bool :=
  F32.lt (s.f32 (ulF p)) (s.f32 F.RIDE_ENTLV) || F32.lt (s.f32 F.RIDE_ENTHV) (s.f32 (uhF p)) ||
  F32.lt (s.f32 F.RIDE_ENTDF) (F32.abs (s.f32 (dfF p)))

/-- Port `p` lies in the recovery band (R291). -/
def rideBand (s : State) (p : Nat) : Bool :=
  (s.rideLast p).isSome && F32.isFin (s.f32 (ulF p)) && F32.isFin (s.f32 (uhF p)) &&
  decide (s.q F.RIDE_ENTLV + s.q F.RIDE_RHYSV ≤ s.q (ulF p)) && decide (s.q (uhF p) ≤ s.q F.RIDE_ENTHV - s.q F.RIDE_RHYSV) &&
  decide (absQ (s.q (dfF p)) ≤ s.q F.RIDE_ENTDF - s.q F.RIDE_RHYSF)

/-- The measures of port `p` lie inside the reconnection window with VALID set (R296). -/
def rideWindow (s : State) (p : Nat) : Bool :=
  s.bit (F.GRID_VALID p) && F32.le (s.f32 F.RIDE_RCLV) (s.f32 (ulF p)) && F32.le (s.f32 (uhF p)) (s.f32 F.RIDE_RCHV) &&
  F32.le (s.f32 F.RIDE_RCDFL) (s.f32 (dfF p)) && F32.le (s.f32 (dfF p)) (s.f32 F.RIDE_RCDFH)

/-- The points in use of curve `k`. -/
def ridePts (s : State) (k : Nat) : Nat :=
  s.rd (if k = 0 then F.RIDE_NLV else if k = 1 then F.RIDE_NHV else if k = 2 then F.RIDE_NLF else F.RIDE_NHF)

/-- The condition of point `j` of curve `k` at port `p` (R292). -/
def rideCond (s : State) (p k j : Nat) : Bool :=
  let l := s.f32 (F.RIDE_LEVEL k j)
  if k = 0 then F32.lt (s.f32 (ulF p)) l
  else if k = 1 then F32.lt l (s.f32 (uhF p))
  else if k = 2 then F32.lt (s.f32 (dfF p)) l
  else F32.lt l (s.f32 (dfF p))

/-- The timer of a point: none while it is not running, else its nanoseconds. -/
def rideTimer (s : State) (key : Nat) : Option Nat :=
  let v := SMap.get (fun _ => 0) s.ride.timers key
  if v = 0 then none else some (v - 1)
def setRideTimer (s : State) (key : Nat) (v : Option Nat) : State :=
  { s with ride := { s.ride with timers := SMap.set (fun _ => 0) s.ride.timers key (match v with | none => 0 | some n => n + 1) } }

/-- The timers of port `p` after `dt` nanoseconds of device time (R292). -/
def rideTimers (s : State) (p dt : Nat) : State :=
  s.each 64 fun s i =>
    let k := i / 16
    let j := i % 16
    let key := 64 * p + i
    if 2 ≤ k && !s.bit (F.GRID_VALID p) then s
    else if s.ridePts k ≤ j || !s.rideCond p k j then
      let s := s.setRideTimer key none
      { s with ride := { s.ride with crossed := s.ride.crossed.filter (· != key) } }
    else s.setRideTimer key (some ((s.rideTimer key).getD 0 + dt))

/-- MOMENTARY_CESSATION_BEGIN (R293, R294). -/
def mcBegin (s : State) : State :=
  let s := ((s.wr F.RIDE_MC 1).sat F.RIDE_MCCNT).ipulse Pg.RIDE 2
  (s.each 8 fun s c => if s.isGrid c && s.sub c == 3 then s.wr (subF c) 7 else s).channelsUpdate false

/-- MOMENTARY_CESSATION_END (R294): the ceased channels return to RUN, unless a transition that waits for the end of a safe stop holds
them (R264). -/
def mcEnd (s : State) : State :=
  let s := s.wr F.RIDE_MC 0
  (if s.modeNow = 5 && !s.ceaseHeld then s.each 8 fun s c => if s.isGrid c && s.sub c == 7 then s.wr (subF c) 3 else s else s).channelsUpdate false

/-- Momentary cessation at an update (R293): it begins in RIDE, and lasts, whatever the mode, until every served port lies inside its band.
None while PCTL.EN is clear (R290). -/
def rideMc (s : State) : State :=
  let ps := s.servedPorts.filter fun p => (s.rideLast p).isSome
  let lo := s.f32 F.RIDE_MCLV
  let hi := s.f32 F.RIDE_MCHV
  let h := s.q F.RIDE_RHYSV
  if !s.enabled Pg.RIDE then (if s.bit F.RIDE_MC then s.mcEnd else s)
  else if !s.bit F.RIDE_MC then
    if s.modeNow = 5 && s.bit F.RIDE_MCEN && ps.any (fun p => F32.lt (s.f32 (ulF p)) lo || F32.lt hi (s.f32 (uhF p))) then s.mcBegin else s
  else if ps.all (fun p => F32.isFin (s.f32 (ulF p)) && F32.isFin (s.f32 (uhF p)) &&
      decide (F32.toRat lo + h ≤ s.q (ulF p)) && decide (s.q (uhF p) ≤ F32.toRat hi - h)) then s.mcEnd
  else s

/-- The RIDE unit at an update of port `p` (R289 to R296). -/
def rideUpdate (s : State) (p : Nat) : State :=
  if !s.served p then s
  else
    let s := s.rideMeasure p
    let now := s.now64
    let dt := match s.rideLast p with
      | none => 0
      | some t => (max 0 (sdiff 64 now t)).toNat
    let w := s.rideWindow p
    let s := if p = 0 then { s with ride := { s.ride with last0 := some now, win0 := w } }
      else { s with ride := { s.ride with last1 := some now, win1 := w } }
    let exc := s.rideExc p
    let s := s.setBit (excF p) exc
    let s := if s.bit F.ISL_DECL && s.servedPorts.all (fun q => s.reconWindow q) then s.wr F.ISL_DECL 0 else s
    let s := if s.modeNow = 5 && s.enabled Pg.RIDE then s.rideTimers p dt else s
    let s := s.rideMc
    if s.modeNow = 5 then
      s.setBit F.RIDE_RECOV (s.servedPorts.all fun q => s.rideBand q)
    else if s.enabled Pg.RIDE && exc then s.modeDue 1
    else s

/-- Every served port has stayed in the recovery band, and no cessation is in force (R291). -/
def recovOk (s : State) : Bool := s.bit F.RIDE_RECOV && !s.bit F.RIDE_MC

/-- The points whose timers have reached TIME and that are not yet recorded, in the order of R292. -/
def rideDue (s : State) : List Nat :=
  (List.range 128).filter fun key =>
    let i := key % 64
    !s.ride.crossed.contains key && decide (i % 16 < s.ridePts (i / 16)) &&
    match s.rideTimer key with
    | none => false
    | some n => decide (s.rd (F.RIDE_TIME (i / 16) (i % 16)) * 1000 ≤ n)

/-- RIDE_CURVE_CROSSING (R292): the record names the first of the points that cross. -/
def rideCross (s : State) : State :=
  if s.modeNow != 5 || !s.enabled Pg.RIDE then s
  else
    match s.rideDue with
    | [] => s
    | key :: rest =>
      let i := key % 64
      let s := { s with ride := { s.ride with crossed := key :: rest ++ s.ride.crossed } }
      let s := (((s.latch F.RIDE_XVALID).wr F.RIDE_XCURVE (i / 16)).wr F.RIDE_XPT (i % 16)).wr F.RIDE_XPORT (key / 64)
      (((s.sat F.RIDE_CROSSCNT).ipulse Pg.RIDE 1).detect 0x34).modeDue 3

/-- The entry to RIDE (R290, R292, R295): the q grants of the last run are held and the timers are zero. -/
def rideEnter (s : State) : State :=
  let s := ((s.sat F.RIDE_ENTCNT).ipulse Pg.RIDE 0).wr F.RIDE_INRIDE 1
  let s := { s with ride := { s.ride with timers := [], crossed := [], t0 := s.tick } }
  s.each 8 fun s c => if s.isGrid c then s.setCh c { s.ch c with iqPre := s.f32 (F.CH_GIQ c) } else s

/-- Microseconds in the present or the last RIDE. -/
def rideElapsed (s : State) : Nat :=
  if s.bit F.RIDE_INRIDE then min ((s.tick - s.ride.t0) / 500) (2 ^ 32 - 1) else s.rd F.RIDE_ELAPSED

/-- The end of RIDE; a recovery counts. A momentary cessation in force goes on (R293). -/
def rideLeave (s : State) : State :=
  let s := s.wr F.RIDE_ELAPSED s.rideElapsed
  let s := s.clear [F.RIDE_INRIDE, F.RIDE_RECOV]
  if s.rd F.SYS_CAUSE = 2 then s.sat F.RIDE_RECCNT else s

/-- The orderings of R297. -/
def rideOrder (s : State) : Bool :=
  F32.lt 0 (s.f32 (F.RIDE_VBASE 0)) && F32.lt 0 (s.f32 (F.RIDE_VBASE 1)) && F32.le (s.f32 F.RIDE_MCLV) (s.f32 F.RIDE_ENTLV) &&
  F32.lt (s.f32 F.RIDE_ENTLV) F32.oneW && F32.lt F32.oneW (s.f32 F.RIDE_ENTHV) && F32.le (s.f32 F.RIDE_ENTHV) (s.f32 F.RIDE_MCHV) &&
  F32.lt (s.f32 F.RIDE_RCLV) (s.f32 F.RIDE_RCHV) && F32.lt (s.f32 F.RIDE_RCDFL) (s.f32 F.RIDE_RCDFH)

/-- The write of a word of the RIDE page (R297). A negative TIME is one with bit 31 set (log 23). -/
def rideWrite (s : State) (a : Nat) (v : Word) : State × Status :=
  let o := a % 0x1000
  if 0x44 ≤ o ∧ o ≤ 0x84 ∧ o ≠ 0x60 then
    let nonneg := o == 0x54 || o == 0x58 || o == 0x5C || o == 0x6C || o == 0x70 || o == 0x74
    let ok := F32.isFin v && (!nonneg || F32.isNonneg v)
    s.genIf a v (ok && (!s.enabled Pg.RIDE || (s.setReg a v).rideOrder))
  else if o = 0x60 then s.genIf a v (F.RIDE_RECT.of v != 0)
  else if o = 0x88 then
    if s.modeNow = 5 then (s, .busy)
    else s.genIf a v (F.RIDE_NLV.of v ≤ 16 && F.RIDE_NHV.of v ≤ 16 && F.RIDE_NLF.of v ≤ 16 && F.RIDE_NHF.of v ≤ 16)
  else if 0x200 ≤ o ∧ o < 0x400 then
    if s.modeNow = 5 then (s, .busy)
    else if o % 8 = 4 then s.genIf a v (decide (v.toNat < 2 ^ 31))
    else s.genIf a v (F32.isFin v && (decide (0x300 ≤ o) || F32.isNonneg v))
  else s.genWrite a v

end State

/-- RIDE_CURVE_CROSSING: a curve point's timer has reached TIME (R292). -/
def execRideCurveCrossing (s : State) : Host.Outcome State Fault Refusal := .next s.rideCross

end Sys2Proof.Machine
end

