-- ==== Sys2Proof/Machine/Isl.lean ====
section
/-! DEFINITION. The ISL unit (R298 to R310): the probe's windows, impedance estimation, the passive detectors, holdover with active
frequency drift, and the declaration of an island. The estimator's number format is open (log 5). -/

namespace Sys2Proof.Machine
namespace State

def armedF (p : Nat) : Fld := if p = 0 then F.ISL_ARMED0 else F.ISL_ARMED1

/-- The estimator of port `p`. -/
def zport (s : State) (p : Nat) : ZPort := if p = 0 then s.isl.z0 else s.isl.z1
def setZport (s : State) (p : Nat) (z : ZPort) : State :=
  if p = 0 then { s with isl := { s.isl with z0 := z } } else { s with isl := { s.isl with z1 := z } }

/-- The baseline of port `p` is cleared, and its run of failing windows with it (R305, log 23). -/
def islClear (s : State) (p : Nat) : State :=
  let s := s.clear [F.ISL_ZREFRE p, F.ISL_ZREFIM p, F.ISL_CONFCNT p, armedF p]
  s.setZport p { s.zport p with wins := 0 }
def islClearAll (s : State) : State := (s.islClear 0).islClear 1

/-- A change of the served ports clears the baselines (R305). -/
def islServed (s : State) : State :=
  if s.servedMask = s.isl.served then s
  else ({ s with isl := { s.isl with served := s.servedMask } }).islClearAll

/-- ISLAND_DECLARATION (R310). -/
def islDeclare (s : State) (src p : Nat) : State :=
  let s := ((s.wr F.ISL_DETSRC src).wr F.ISL_DETPORT p).sat F.ISL_ISLCNT
  if s.modeNow = 4 && s.bit F.ISL_FORMKEEP then s.latch F.ISL_FORMDET
  else ((((s.latch F.ISL_ISLDET).iraw Pg.ISL 0 true).wr F.ISL_DECL 1).detect 0x35).modeDue 4

/-- The passive detectors may act on port `p` (R307). -/
def passive (s : State) (p : Nat) : Bool :=
  (s.modeNow == 3 || s.modeNow == 4) && s.served p && s.bit (F.GRID_VALID p) &&
  match s.isl.passAt with
  | none => true
  | some t => decide (s.rd F.ISL_PASSBLK * 500000 ≤ s.tick - t)

/-- |Δf| exceeds AFDDF at port `p`. -/
def afdOut (s : State) (p : Nat) : Bool := F32.lt (s.f32 F.ISL_AFDDF) (F32.abs (s.f32 (dfF p)))

/-- The set of injecting channels of port `p` has changed since the window began (R304). -/
def injChanged (s : State) (p : Nat) : Bool :=
  (List.range 8).any fun c => s.rd (F.CH_PORT c) == p && s.isGrid c && s.injects c != (s.ch c).inj

/-- A change of the set of injecting channels spoils the window, though it be undone before the next update (R304). -/
def injSync (s : State) : State :=
  s.each 2 fun s p => if s.injChanged p then s.setZport p { s.zport p with bad := true } else s

/-- The ISL unit at an update of port `p`: the estimator (R303, R304), the runs of R307 and R309, and the vector-shift detector. -/
def islUpdate (s : State) (p : Nat) : State :=
  let s := s.islServed
  if !s.served p then s
  else
    let g := s.grid p
    let m := s.gridBlk p
    let ago := 2 * (s.tick - (s.blk m).tk) + s.groupNs m
    let t := s.timeAgo (ago : Nat)
    let phi := s.probePhaseAt (t / secUnits) (t % secUnits / 2 ^ 30)
    let co := F32.toRat (Config.cosTurns phi)
    let si := F32.toRat (Config.sinTurns phi)
    let al := F32.toRat g.alpha
    let be := F32.toRat g.beta
    let z := s.zport p
    let (re, s) := s.rnd (F32.toRat z.re + al * co + be * si)
    let (im, s) := s.rnd (F32.toRat z.im + be * co - al * si)
    let bad := z.bad || !s.bit (F.GRID_VALID p) || s.bit F.RIDE_MC || s.injChanged p
    let pas := s.passive p
    let roc := pas && s.bit F.ISL_RCEN && F32.lt (s.f32 F.ISL_ROCOFTH) (F32.abs g.out.rocof)
    let s := s.setZport p { s.zport p with re := re, im := im, m := z.m + 1, bad := bad, roc := roc }
    let afd := s.bit F.ISL_FBACT && (s.modeNow == 3 || s.modeNow == 5) && s.servedPorts.any fun q => s.afdOut q
    let s := { s with isl := { s.isl with afd := afd } }
    if pas && s.bit F.ISL_VSEN && F32.lt (s.f32 F.ISL_VSTH) (F32.abs g.out.vshift) then s.islDeclare 4 p else s

/-- ROCOF_DETECT (R307). -/
def rocofDetect (s : State) (p : Nat) : State := if s.passive p && (s.zport p).roc then s.islDeclare 3 p else s

/-- AFD_DECLARE (R309). -/
def afdDeclare (s : State) : State :=
  if !s.bit F.ISL_FBACT || !(s.modeNow == 3 || s.modeNow == 5) || !s.isl.afd then s
  else s.islDeclare 5 ((s.servedPorts.find? fun q => s.afdOut q).getD 0)

/-- The impedance test of an accepted window against the baseline: which of its two parts fail (R306). -/
def zTest (s : State) (p : Nat) (zr zi : F32) : Bool × Bool × State :=
  let a := F32.toRat zr
  let b := F32.toRat zi
  let c := s.q (F.ISL_ZREFRE p)
  let d := s.q (F.ISL_ZREFIM p)
  let (m, s) := s.root (a * a + b * b)
  let (r, s) := s.root (c * c + d * d)
  let ang := Config.atan2 (b * c - a * d) (a * c + b * d)
  (decide (s.q F.ISL_ZMTH * F32.toRat r < absQ (F32.toRat m - F32.toRat r)), F32.lt (s.f32 F.ISL_ZATH) (F32.abs ang), s)

/-- An accepted window of port `p` with result Z (R303 to R306). After the expiry of holdover it declares nothing (R308). -/
def zAccept (s : State) (p : Nat) (zr zi : F32) : State :=
  let s := (((s.wrF (F.ISL_ZRE p) zr).wrF (F.ISL_ZIM p) zi).sat (F.ISL_WINCNT p)).ipulse Pg.ISL 2
  let armed := s.bit (armedF p)
  let wins := (s.zport p).wins
  let ride := s.modeNow == 5
  if wins = 0 then
    if ride then s
    else
      let s := ((s.wrF (F.ISL_ZREFRE p) zr).wrF (F.ISL_ZREFIM p) zi).setZport p { s.zport p with wins := 1 }
      if s.rd F.ISL_ZINIT ≤ 1 then s.wr (armedF p) 1 else s
  else
    let test := s.bit F.ISL_ZEN && armed && !s.isl.told
    let (mag, ang, s) := if test then s.zTest p zr zi else (false, false, s)
    let fail := mag || ang
    let s :=
      if ride || (armed && !fail) then s
      else
        let k : Rat := mkRat 1 (2 ^ s.rd F.ISL_ZAVGS)
        let (r, s) := s.rnd (s.q (F.ISL_ZREFRE p) + k * (F32.toRat zr - s.q (F.ISL_ZREFRE p)))
        let (i, s) := s.rnd (s.q (F.ISL_ZREFIM p) + k * (F32.toRat zi - s.q (F.ISL_ZREFIM p)))
        (s.wrF (F.ISL_ZREFRE p) r).wrF (F.ISL_ZREFIM p) i
    let s := s.setZport p { s.zport p with wins := wins + 1 }
    let s := if s.rd F.ISL_ZINIT ≤ wins + 1 then s.wr (armedF p) 1 else s
    if !test then s
    else if !fail then s.wr (F.ISL_CONFCNT p) 0
    else
      let was := s.rd (F.ISL_CONFCNT p)
      let s := s.sat (F.ISL_CONFCNT p)
      if was < s.rd (F.ISL_CONFCNT p) && s.rd (F.ISL_CONFCNT p) = s.rd F.ISL_ZCONF then s.islDeclare (if mag then 1 else 2) p else s

/-- The end of the window of served port `p` (R303, R304). -/
def zWindow (s : State) (p : Nat) : State :=
  let z := s.zport p
  let cs := (List.range 8).filter fun c => s.isGrid c && s.rd (F.CH_PORT c) == p && (s.ch c).inj && s.injects c
  let x := (cs.map fun c => F32.toRat (s.ch c).ip).sum
  let (ic, s) := if x = 0 then (0, s) else s.rnd x
  let s := s.wrF (F.ISL_ICOH p) ic
  if z.bad || s.injChanged p || x = 0 then s.sat (F.ISL_REJCNT p)
  else if z.m = 0 then s.fresh.fresh.zAccept p (Config.freeWord s.free) (Config.freeWord (s.free + 1))
  else
    let k : Rat := (if s.rd (F.GRID_TYPE p) = 2 then 2 else 1) / ((z.m : Rat) * x)
    let (zr, s) := s.rnd (k * F32.toRat z.re)
    let (zi, s) := s.rnd (k * F32.toRat z.im)
    s.zAccept p zr zi

/-- A window boundary falls in this tick: N has reached a multiple of NCYC (R301). -/
def probeDue (s : State) : Bool := s.probeCycles != s.isl.cycles && s.probeCycles % s.rd F.ISL_NCYC == 0

/-- PROBE_WINDOW_BOUNDARY (R301 to R306, R308): the window ends, the reduction ends once time is locked again, and injection starts or
stops. -/
def probeBoundary (s : State) : State :=
  if !s.probeDue then s
  else
  let s := { s with isl := { s.isl with cycles := s.probeCycles } }.islServed
  let s := s.servedPorts.foldl (fun s p => s.zWindow p) s
  let s := if s.isl.fbEnd then
      ((({ s with isl := { s.isl with fbEnd := false } }).wr F.ISL_FBACT 0).iraw Pg.ISL 1 false).islClearAll
    else s
  let s := s.setBit F.ISL_INJON (s.bit F.ISL_INJ && !s.bit F.ISL_FBACT && !s.isl.told)
  let s := s.each 8 fun s c =>
    s.setCh c { s.ch c with ip := F32.mul (s.f32 F.ISL_PAMP) (s.f32 (F.CH_ENV c)), inj := s.injects c }
  s.each 2 fun s p =>
    (s.setZport p { s.zport p with re := 0, im := 0, m := 0, bad := false }).wr64 (F.ISL_WINTLO p) s.now64

/-! Holdover (R308). -/

/-- Both DLOCK bits have become clear, or one has been set. -/
def holdSync (s : State) : State :=
  let lost := s.rd F.TIME_DLOCK == 0
  if lost then
    if s.bit F.ISL_HOLD then s
    else ({ s with isl := { s.isl with holdAt := some s.tick, told := false } }).wr F.ISL_HOLD 1
  else
    let fin := s.isl.fbEnd || s.bit F.ISL_FBACT || s.isl.told
    ({ s with isl := { s.isl with holdAt := none, told := false, fbEnd := fin } }).wr F.ISL_HOLD 0

/-- HOLDLEFT: the seconds that remain of HOLDOVER. -/
def holdLeft (s : State) : Nat :=
  match s.isl.holdAt with
  | none => 0
  | some t => s.rd F.ISL_HOLDOVER - (s.tick - t) / 500000000

/-- HOLDOVER_EXPIRY (R308), once per episode. -/
def holdExpire (s : State) : State :=
  if !s.bit F.ISL_HOLD || s.isl.told then s
  else
    let s := { s with isl := { s.isl with told := true, fbEnd := false } }
    let s := if s.bit F.ISL_FBEN then
        (((s.wr F.ISL_FBACT 1).sat F.ISL_FBCNT).iraw Pg.ISL 1 true).islClearAll
      else s
    s.detect 0x36

/-- METHOD (R308). -/
def islMethod (s : State) : Nat :=
  if s.bit F.ISL_FBACT then 3
  else if s.isl.told then 2
  else if s.bit F.ISL_PEN && s.bit F.ISL_INJON then 1
  else if s.bit F.ISL_RCEN || s.bit F.ISL_VSEN then 2
  else 0

/-- Injection requested or withdrawn by the Almanac's target 0x06 (R301). -/
def probeInject (s : State) (on : Bool) : State := s.setBit F.ISL_INJ on

/-- The unit's words in shared RAM with PMODE 1 (R300), written at each tick. -/
def probeWords (s : State) : State :=
  if !s.bit F.ISL_PMODE then s
  else
    s.each 2 fun s p =>
      let inj := (List.range 8).any fun c => s.rd (F.CH_PORT c) == p && s.injects c
      let afd := fun (k : Nat) => s.bit F.ISL_FBACT && s.afdIn p (if s.rd (F.GRID_TYPE p) = 2 then 0 else k)
      let w := (List.range 3).map (fun (k : Nat) => if inj then Config.cosTurns (s.probePhase - mkRat k 3) else 0) ++
        (List.range 3).map (fun k => if afd k then 0 else F32.oneW) ++ [0, 0]
      (List.range 8).foldl (fun s i => s.write32 (0x300000 + 4 * (s.rd F.ISL_PRBRAM + 8 * p + i)) (w.getD i 0) false) s

/-- The write of a word of the ISL page. -/
def islPut (s : State) (a : Nat) (v : Word) : State × Status :=
  let o := a % 0x1000
  let on := s.bit F.ISL_INJON
  if o = 0x40 then
    if on && F.ISL_PMODE.on v != s.bit F.ISL_PMODE then (s, .busy)
    else if 0x3F0 < F.ISL_PRBRAM.of v then (s, .range)
    else
      let r := s.genWrite a v
      (if F.ISL_TESTISL.on v then r.1.islDeclare 6 0 else r.1, r.2)
  else if o = 0x48 then (if on then (s, .busy) else s.genIf a v (1000 ≤ v.toNat && v.toNat ≤ 500000))
  else if o = 0x4C then (if on then (s, .busy) else s.genIf a v (F.ISL_NCYC.of v != 0))
  else if o = 0x50 then s.genIf a v (inRange v (1 / 1000) (1 / 20))
  else if o = 0x54 || o = 0x58 || o = 0x60 || o = 0x68 || o = 0x74 then s.genIf a v (F32.isFin v)
  else if o = 0x5C then s.genIf a v (F.ISL_ZCONF.of v != 0 && F.ISL_ZINIT.of v != 0)
  else if o = 0x70 then s.genIf a v (inRange v 0 (1 / 5))
  else if o = 0x80 then
    let r := s.genWrite a v
    (r.1.iraw Pg.ISL 0 (r.1.bit F.ISL_ISLDET), r.2)
  else s.genWrite a v
def islWrite (s : State) (a : Nat) (v : Word) : State × Status :=
  let r := s.islPut a v
  (r.1.injSync, r.2)

end State

/-- INJECTION_REQUEST: a write of ISL.CTL (R301). -/
def execInjectionRequest (v : Word) (s : State) : Host.Outcome State Fault Refusal :=
  .next (s.hostWord (Pg.ISL + 0x40) v fun s => s.islWrite (Pg.ISL + 0x40) v)

/-- PROBE_WINDOW_BOUNDARY: the probe cycles reach a multiple of NCYC (R301). -/
def execProbeWindowBoundary (s : State) : Host.Outcome State Fault Refusal := .next s.probeBoundary

/-- ISLAND_TEST: a write of ISL.CTL with TESTISL set (R310). -/
def execIslandTest (v : Word) (s : State) : Host.Outcome State Fault Refusal :=
  let v := F.ISL_TESTISL.put v 1
  .next (s.hostWord (Pg.ISL + 0x40) v fun s => s.islWrite (Pg.ISL + 0x40) v)

/-- ROCOF_DETECT: |ROCOF| of port `p` has stayed above ROCOFTH for ROCT ms (R307). -/
def execRocofDetect (p : Fin 2) (s : State) : Host.Outcome State Fault Refusal := .next (s.rocofDetect p)

/-- HOLDOVER_EXPIRY: HOLDLEFT has reached 0 (R308). -/
def execHoldoverExpiry (s : State) : Host.Outcome State Fault Refusal := .next s.holdExpire

/-- AFD_DECLARE: |Δf| has stayed above AFDDF for AFDT ms under active frequency drift (R309). -/
def execAfdDeclare (s : State) : Host.Outcome State Fault Refusal := .next s.afdDeclare

end Sys2Proof.Machine
end

