-- ==== Sys2Proof/Machine/Stages.lean ====
section
/-! DEFINITION. One execution of a loop (R173 to R192): operands, the stages' arithmetic, exceptions and poison. Every operation rounds
once (R188); an expression the spec does not call fused is taken operation by operation from the left (log 24). -/

namespace Sys2Proof.Machine

/-- The descriptor and state RAM of loop `d` (R173), and shared RAM. -/
def descBase (d : Nat) : Nat := 0x100000 + 0x400 * d
def loopBase (d : Nat) : Nat := 0x200000 + 0x200 * d
def sharedBase : Nat := 0x300000

/-- A PI stage's integrators while the execution runs: its words, the increments of its elements and its limits (R182). -/
structure PiRun where
  s : Nat
  words : List Word
  incs : List F32
  lo : F32
  hi : F32

/-- What an execution has done so far: the state, the PI stages, the limits reached as stage, element (none: every element) and
whether the upper one, the number of numeric exceptions, whether it met poison, and whether it has ended early. -/
structure LoopAcc where
  s : State
  pis : List PiRun := []
  lims : List (Nat × Option Nat × Bool) := []
  num : Nat := 0
  pois : Bool := false
  stop : Bool := false

namespace State

/-! Operands (R177 to R179). -/

/-- A constant of R177. -/
def sigConst (a : Nat) : F32 :=
  if a = 0xFF01 then F32.oneW else if a = 0xFF02 then F32.neg F32.oneW else if a = 0xFF03 then F32.halfW
  else if a = 0xFF04 then sqrt32F else if a = 0xFF05 then tauF else 0

/-- Output `i` of the tracker of port `p`. -/
def sigGrid (s : State) (p i : Nat) : F32 :=
  let o := (s.grid p).out
  if i = 0 then o.omega else if i = 1 then o.f else if i = 2 then o.rocof else if i = 3 then o.vpd else if i = 4 then o.vpq
  else if i = 5 then o.vnd else if i = 6 then o.vnq else if i = 7 then o.vpmag else o.vshift

/-- Channel signal `i` of channel `c` (R272, R314); of one that no chapter lists the value is free (log 6). -/
def sigCh (s : State) (c i : Nat) : F32 :=
  if s.isGrid c then
    if i = 0 then s.f32 (F.CH_ENV c) else if i = 1 then s.f32 (F.CH_AVAIL c) else if i = 2 then (s.ch c).sigP
    else if i = 3 then (s.ch c).sigQ else if i = 4 then (s.ch c).sigTh else if i = 5 then (s.ch c).sigW
    else if i = 6 then (s.ch c).sigE else if i = 7 then (s.ch c).sigPX else 0
  else if s.chType c = 2 && i < 8 then
    if i = 0 then s.dcVref c else if i = 1 then s.dcIhi c else if i = 2 then s.dcIlo c else if i = 3 then s.dcPd c
    else if i = 4 then (s.dc c).g else if i = 5 then (s.dc c).pbar else if i = 6 then (s.dc c).vmpp else s.dcPlim c
  else Config.freeWord s.free

/-- MACH signal `i` (R336). -/
def sigMach (s : State) (i : Nat) : F32 :=
  let w := s.f32 F.MACH_SPEED
  let we := F32.mul (F32.ofNat (s.rd F.MACH_PP)) w
  if i = 0 then w else if i = 1 then we else if i = 2 then F32.ofRat (mkRat s.machAngle (2 ^ 32)) else if i = 3 then s.mach.gid
  else if i = 4 then s.mach.giq else if i = 5 then s.f32 F.MACH_IDFW else if i = 6 then F32.fmin (s.f32 F.MACH_CQ) s.mach.iqlim
  else if i = 7 then (if s.bit F.MACH_MTYPE then 0 else F32.mul we (s.f32 F.MACH_PSI)) else if i = 8 then s.mach.vmag
  else if i = 9 then s.mach.vlim else if i = 10 then s.mach.vdc else 0

/-- The signal at address `a` read by the execution `x`, with its poison: COUT of the trigger's block comes from the latch (R179). -/
def sigRead (s : State) (x : LoopRun) (a : Nat) : State × Word × Bool :=
  if a < 0x40 then s.read32 (loopBase x.d + 4 * a)
  else if 0x1000 ≤ a ∧ a < 0x2000 then s.read32 (loopBase ((a - 0x1000) / 0x40) + 4 * (a % 0x40))
  else if 0x2000 ≤ a ∧ a < 0x2018 then
    let n := a - 0x2000
    (s, if x.trig = n / 6 + 1 then x.cout.getD (n % 6) 0 else s.f32 (F.MOD_COUT n), false)
  else if 0x2100 ≤ a ∧ a < 0x2180 then (s, s.sigGrid ((a - 0x2100) / 0x40) (a % 0x40), false)
  else if 0x2200 ≤ a ∧ a < 0x2300 then
    let c := (a - 0x2200) / 0x20
    let i := a % 0x20
    if i < 16 then (s, s.commWord c i, false) else (s.fresh, s.sigCh c (i - 16), false)
  else if 0x2300 ≤ a ∧ a < 0x2318 then (s, s.f32 (F.LEG_LOSTVS (a - 0x2300)), false)
  else if 0x2400 ≤ a ∧ a < 0x2410 then (s, s.sigMach (a - 0x2400), false)
  else if 0x3000 ≤ a ∧ a < 0x3400 then s.read32 (sharedBase + 4 * (a - 0x3000))
  else (s, sigConst a, false)

/-- The address of element `k` of an operand (R178). -/
def sigAt (a : Nat) (stride : Bool) (k : Nat) : Nat := if 0xFF00 ≤ a then a else (a + (if stride then 4 * k else k)) % 2 ^ 16

/-- The `n` elements of an operand, a subnormal one read as zero (R188), and whether any is poisoned. -/
def operand (s : State) (x : LoopRun) (a : Nat) (stride : Bool) (n : Nat) : State × List Word × Bool :=
  (List.range n).foldl (fun r k =>
    let (s, v, p) := r.1.sigRead x (sigAt a stride k)
    (s, r.2.1 ++ [F32.flush v], r.2.2 || p)) (s, [], false)

/-! Stage records (R175). -/

/-- Fields of a stage record. -/
def stOp (w : List Word) : Nat := wordGet (w.getD 0 0) 31 28
def stW (w : List Word) : Nat := wordGet (w.getD 0 0) 27 26 + 1
def stStride (w : List Word) (i : Nat) : Bool := (w.getD 0 0).getLsbD (25 - i)
def stX (w : List Word) (hi lo : Nat) : Nat := wordGet (w.getD 0 0) hi lo
def stBack (w : List Word) : Nat := wordGet (w.getD 0 0) 11 8
def stAddr (w : List Word) (i : Nat) : Nat :=
  if i = 0 then wordGet (w.getD 1 0) 31 16 else if i = 1 then wordGet (w.getD 1 0) 15 0 else wordGet (w.getD 2 0) 31 16
def stT (w : List Word) : Nat := wordGet (w.getD 2 0) 15 0
def stKsel (w : List Word) (i : Nat) : Bool := (w.getD 0 0).getLsbD (18 + i)

/-- The address of coefficient `j` of gain set `g` of loop `d` (R173). -/
def gainAddr (d g j : Nat) : Nat := descBase d + 0x240 + 0x38 * g + 4 * j

/-- Parameter `i` with gain set `g`, the one in use or the one before, and its poison (R175, R190). A coefficient has the value it had when
the execution started (R176). -/
def param (s : State) (x : LoopRun) (w : List Word) (g i : Nat) : State × Word × Bool :=
  if stKsel w i then
    let j := (w.getD (3 + i) 0).toNat % 16
    let (s, _, p) := s.read32 (gainAddr x.d g j)
    let v := x.gain.getD ((if g = x.gset then 0 else 14) + j) (0, false)
    (s, F32.flush v.1, p || v.2)
  else (s, F32.flush (w.getD (3 + i) 0), false)

/-- The first `n` parameters with the set in use. -/
def params (s : State) (x : LoopRun) (w : List Word) (n : Nat) : State × List Word × Bool :=
  (List.range n).foldl (fun r i =>
    let (s, v, p) := r.1.param x w x.gset i
    (s, r.2.1 ++ [v], r.2.2 || p)) (s, [], false)

/-- The four state words of stage `k`, and their poison. -/
def stWords (s : State) (x : LoopRun) (k : Nat) : State × List Word × Bool :=
  let (s, l) := s.readWords (loopBase x.d + 0x100 + 0x10 * k) 4
  (s, l.map (·.1), l.any (·.2))

/-- Four words written together. -/
def put4 (s : State) (a : Nat) (l : List Word) (p : Bool) : State :=
  let w := fun (i : Nat) => (l.getD i 0).toNat
  (s.write64 a (w 0 + 2 ^ 32 * w 1) p).write64 (a + 8) (w 2 + 2 ^ 32 * w 3) p
def putWords (s : State) (x : LoopRun) (k : Nat) (l : List Word) : State := s.put4 (loopBase x.d + 0x100 + 0x10 * k) l false
def putSlot (s : State) (x : LoopRun) (k : Nat) (l : List Word) (p : Bool) : State := s.put4 (loopBase x.d + 0x10 * k) l p

/-! The stages' arithmetic. Each answers the elements of its output. -/

/-- SUM of element `k`: the used operands with their signs, from the left (R180). -/
def sumOut (sg : List Nat) (ops : List (List Word)) (k : Nat) : F32 :=
  let t := (List.range 3).filterMap fun (i : Nat) =>
    let v := (ops.getD i []).getD k 0
    if sg.getD i 0 = 1 then some v else if sg.getD i 0 = 3 then some (F32.neg v) else none
  match t with
  | [] => 0
  | a :: r => r.foldl F32.add a

/-- A step of PR on one element (R184): v1, v2 and the output. -/
def prStep (ts kr wc h e w v1 v2 : F32) : F32 × F32 × F32 :=
  let wh := F32.mul h w
  let v1' := F32.add v1 (F32.mul ts (F32.sub (F32.mul (F32.mul F32.twoW wc) (F32.sub e v1)) (F32.mul wh v2)))
  let v2' := F32.add v2 (F32.mul (F32.mul ts wh) v1')
  (v1', v2', F32.mul kr v1')

/-- A step of BIQ on one element (R180): s1, s2 and the output. -/
def biqStep (p : List Word) (a s1 s2 : F32) : F32 × F32 × F32 :=
  let c := fun (i : Nat) => p.getD i 0
  let y := F32.add (F32.mul (c 0) a) s1
  (F32.add (F32.sub (F32.mul (c 1) a) (F32.mul (c 3) y)) s2, F32.sub (F32.mul (c 2) a) (F32.mul (c 4) y), y)

/-- One element of a box limit (R183). -/
def boxLim (a lo hi : F32) : F32 := if F32.lt hi lo then lo else F32.clamp a lo hi

/-- The circle limit (R183). -/
def circLim (a : List Word) (r : F32) : List F32 :=
  let r := if F32.lt r 0 then 0 else r
  let m := F32.sqrt (F32.add (F32.mul (a.getD 0 0) (a.getD 0 0)) (F32.mul (a.getD 1 0) (a.getD 1 0)))
  if F32.lt r m then (a.take 2).map fun x => F32.div (F32.mul x r) m else a.take 2

/-! One stage. -/

/-- The outcome of a stage that computes `y` (R189, R190): poison, an exception, or the output with new state words. `ps` tells whether
its own state words are poisoned. -/
def stageEnd (acc : LoopAcc) (x : LoopRun) (k : Nat) (pois ps : Bool) (reads y : List F32) (nw : Option (List Word)) : LoopAcc × Bool :=
  if pois || ps then
    let s := if ps then acc.s.putWords x k [] else acc.s
    ({ acc with s := s.putSlot x k y true, pois := true }, false)
  else if !(reads.all F32.isFin && y.all F32.isFin) then ({ acc with num := acc.num + 1 }, false)
  else
    let s := acc.s.putSlot x k y false
    ({ acc with s := match nw with
                     | none => s
                     | some l => s.putWords x k l }, true)

/-- GAIN, SUM, SEL and FF: stages without state. -/
def stagePlain (acc : LoopAcc) (x : LoopRun) (k : Nat) (w : List Word) : LoopAcc :=
  let op := stOp w
  let n := stW w
  let sg := [stX w 17 16, stX w 15 14, stX w 13 12]
  let use := fun (i : Nat) => if op = 1 then i == 0 else if op = 2 then sg.getD i 0 != 0 else true
  let (s, ops, p1) := (List.range 3).foldl (fun r i =>
      if use i then
        let (s, v, p) := r.1.operand x (stAddr w i) (stStride w i) n
        (s, r.2.1 ++ [v], r.2.2 || p)
      else (r.1, r.2.1 ++ [[]], r.2.2)) (acc.s, ([] : List (List Word)), false)
  let (s, ps, p2) := s.params x w (if op = 1 || op = 11 then 2 else 0)
  let e := fun (i j : Nat) => (ops.getD i []).getD j 0
  let y := (List.range n).map fun (j : Nat) =>
    if op = 1 then F32.fma (ps.getD 0 0) (e 0 j) (ps.getD 1 0)
    else if op = 2 then sumOut sg ops j
    else if op = 9 then (if F32.le 0 (e 2 j) then e 0 j else e 1 j)
    else F32.add (F32.add (e 0 j) (F32.mul (ps.getD 0 0) (e 1 j))) (F32.mul (ps.getD 1 0) (e 2 j))
  (stageEnd { acc with s := s } x k (p1 || p2) false ops.flatten y none).1

/-- PI (R182, R192). -/
def stagePi (acc : LoopAcc) (x : LoopRun) (k : Nat) (w : List Word) : LoopAcc :=
  let n := stW w
  let (s, e, p1) := acc.s.operand x (stAddr w 0) (stStride w 0) n
  let (s, ps, p2) := s.params x w 4
  let (s, ko, p3) := if x.old = x.gset then (s, ps.getD 0 0, false) else s.param x w x.old 0
  let (s, ws, p4) := s.stWords x k
  let kp := ps.getD 0 0
  let lo := ps.getD 2 0
  let hi := ps.getD 3 0
  let xs := (List.range 4).map fun (j : Nat) =>
    if n ≤ j || x.old = x.gset then ws.getD j 0
    else F32.clamp (F32.add (ws.getD j 0) (F32.mul (F32.sub ko kp) (e.getD j 0))) lo hi
  let us := (List.range n).map fun (j : Nat) => F32.fma kp (e.getD j 0) (xs.getD j 0)
  let y := us.map fun u => F32.clamp u lo hi
  let (acc, ok) := stageEnd { acc with s := s } x k (p1 || p2 || p3) p4 e y (some xs)
  if !ok then acc
  else
    let ki := ps.getD 1 0
    let incs := (List.range n).map fun (j : Nat) => F32.mul (F32.mul ki x.ts) (e.getD j 0)
    let lims := (List.range n).flatMap fun (j : Nat) =>
      (if F32.le hi (us.getD j 0) then [(k, some j, true)] else []) ++ (if F32.le (us.getD j 0) lo then [(k, some j, false)] else [])
    { acc with pis := acc.pis ++ [{ s := k, words := xs, incs := incs, lo := lo, hi := hi }], lims := acc.lims ++ lims }

/-- PR and BIQ (R180, R184, R192). Four state words serve two elements: of a third the spec gives no state, and its output is free
(log 24). -/
def stageFilter (acc : LoopAcc) (x : LoopRun) (k : Nat) (w : List Word) : LoopAcc :=
  let pr := stOp w == 4
  let n := stW w
  let (s, e, p1) := acc.s.operand x (stAddr w 0) (stStride w 0) n
  let (s, om, p2) := if pr then s.operand x (stAddr w 1) (stStride w 1) n else (s, [], false)
  let (s, ps, p3) := s.params x w (if pr then 3 else 5)
  let (s, ko, p4) := if pr && x.old != x.gset then s.param x w x.old 0 else (s, ps.getD 0 0, false)
  let (s, ws, p5) := s.stWords x k
  let kr := ps.getD 0 0
  let scale := pr && x.old != x.gset && !(F32.eq ko 0) && !(F32.eq kr 0)
  let r := F32.div ko kr
  let st := fun (i : Nat) => if scale && i < 2 * n then F32.mul (ws.getD i 0) r else ws.getD i 0
  let go := fun (j : Nat) =>
    if pr then prStep x.ts kr (ps.getD 1 0) (ps.getD 2 0) (e.getD j 0) (om.getD j 0) (st (2 * j)) (st (2 * j + 1))
    else biqStep ps (e.getD j 0) (st (2 * j)) (st (2 * j + 1))
  let y := (List.range n).map fun (j : Nat) => if j < 2 then (go j).2.2 else Config.freeWord s.free
  let nw := (List.range 2).flatMap fun (j : Nat) => if j < n then [(go j).1, (go j).2.1] else [ws.getD (2 * j) 0, ws.getD (2 * j + 1) 0]
  (stageEnd { acc with s := s.fresh } x k (p1 || p2 || p3 || p4) p5 (e ++ om) y (some nw)).1

/-- DLY (R180). -/
def stageDly (acc : LoopAcc) (x : LoopRun) (k : Nat) (w : List Word) : LoopAcc :=
  let n := stW w
  let (s, e, p1) := acc.s.operand x (stAddr w 0) (stStride w 0) n
  let (s, ws, p2) := s.stWords x k
  (stageEnd { acc with s := s } x k p1 p2 e (ws.take n) (some (e ++ ws.drop n))).1

/-- LIM (R183). -/
def stageLim (acc : LoopAcc) (x : LoopRun) (k : Nat) (w : List Word) : LoopAcc :=
  let n := stW w
  let circ := stX w 17 17 == 1
  let opl := stX w 16 16 == 1
  let (s, a, p1) := acc.s.operand x (stAddr w 0) (stStride w 0) n
  let (s, b, p2) := if opl then s.operand x (stAddr w 1) (stStride w 1) (if circ then 1 else n) else (s, [], false)
  let (s, c, p3) := if opl && !circ then s.operand x (stAddr w 2) (stStride w 2) n else (s, [], false)
  let (s, ps, p4) := s.params x w (if opl then 0 else if circ then 1 else 2)
  let y := if circ then circLim a (if opl then b.getD 0 0 else ps.getD 0 0)
    else (List.range n).map fun (j : Nat) =>
      boxLim (a.getD j 0) (if opl then b.getD j 0 else ps.getD 0 0) (if opl then c.getD j 0 else ps.getD 1 0)
  let (acc, ok) := stageEnd { acc with s := s } x k (p1 || p2 || p3 || p4) false (a ++ b ++ c) y none
  if !ok || stX w 15 15 = 0 then acc
  else
    let lims := (List.range n).flatMap fun (j : Nat) =>
      if F32.lt (y.getD j 0) (a.getD j 0) then [(stBack w + j, none, true)]
      else if F32.lt (a.getD j 0) (y.getD j 0) then [(stBack w + j, none, false)] else []
    { acc with lims := acc.lims ++ lims }

/-- XFM and IXF (R185). -/
def stageXfm (acc : LoopAcc) (x : LoopRun) (k : Nat) (w : List Word) : LoopAcc :=
  let md := stX w 17 16
  let an := stX w 14 12
  let turn := md != 1
  let (s, a, p1) := acc.s.operand x (stAddr w 0) (stStride w 0) (if md = 2 then 2 else 3)
  let (s, b, p2) := if turn && an = 0 then s.operand x (stAddr w 1) (stStride w 1) 1 else (s, [], false)
  let (s, ps, p3) := s.params x w 2
  let th := (if an = 0 then F32.toRat (b.getD 0 0) else mkRat (x.ang.getD (an - 1) 0) (2 ^ 32)) + F32.toRat (ps.getD 1 0)
  let good := F32.isFin (ps.getD 1 0)
  let co := if good then cosAcc th else F32.nanW
  let si := if good then sinAcc th else F32.nanW
  let u := if stOp w = 7 then xfmOut md a co si else ixfOut md a co si
  let y := (u.take (if md = 2 then min 2 (stW w) else stW w)).map fun v => F32.mul v (ps.getD 0 0)
  (stageEnd { acc with s := s } x k (p1 || p2 || p3) false (a ++ b) y none).1

/-- The word an OUT stage writes to a target of class `cls` (R186). -/
def outConv (cls : Nat) (v : F32) : Word :=
  let n := F32.toIntRne v
  if cls = 4 then BitVec.ofNat 32 (min 4095 (max 0 n).toNat)
  else if cls = 5 then BitVec.ofNat 32 (min 65535 (max 0 n).toNat)
  else v

/-- The first index of an OUT target. -/
def outIdx (t : Nat) : Nat :=
  let c := t / 2 ^ 12
  if c = 2 then t % 32 else if c = 3 || c = 5 then t % 8 else if c = 4 then t % 16 else if c = 6 then t % 2 ^ 10 else t % 2 ^ 12

/-- The legs of interleave group `g` of channel `c`. -/
def loopGroup (s : State) (c g : Nat) : List Nat := (s.legsOf c).filter fun n => s.rd (F.LEGX_MAPA_GRP n) == g

/-- An OUT write to leg `n` by a loop of channel `c`: to a leg the map does not assign to the channel, another's or nobody's, it is dropped
and counted (R187; R134's leg that no channel claims is dropped by ownership, log 24). -/
def outLeg (s : State) (c n : Nat) (v : Word) : State :=
  if s.mapped n && s.legCh n == c then s.irefEngine n v else s.sat (F.CH_ENGDROP c)

/-- OUT words into shared RAM from word `i` on: two that fall in one 64-bit word are written together, without reading (R422). -/
def outShared (s : State) (i : Nat) : List Word → State
  | [] => s
  | [v] => s.write32 (sharedBase + 4 * i) v false
  | v :: w :: r =>
    if i % 2 = 0 then (s.write64 (sharedBase + 4 * i) (v.toNat + 2 ^ 32 * w.toNat) false).outShared (i + 2) r
    else (s.write32 (sharedBase + 4 * i) v false).outShared (i + 1) (w :: r)

/-- One OUT write (R186, R187): `i` is the index in target class `cls`. -/
def outWrite (s : State) (c cls i : Nat) (v : Word) : State :=
  if cls = 1 then s.slotEngine c i v
  else if cls = 2 then s.outLeg c i v
  else if cls = 3 then
    match s.loopGroup c i with
    | [] => s.sat (F.CH_ENGDROP c)
    | l => l.foldl (fun s n => s.outLeg c n v) s
  else if cls = 4 then s.dacEngine i v.toNat
  else if cls = 5 then s.slopeEngine i v.toNat
  else s

/-- OUT (R186, R187, R189, R190): the elements in order, then the commit. -/
def stageOut (acc : LoopAcc) (x : LoopRun) (w : List Word) : LoopAcc :=
  let n := stW w
  let (s, a, p) := acc.s.operand x (stAddr w 0) (stStride w 0) n
  let acc := { acc with s := s }
  if p then { acc with pois := true }
  else if !a.all F32.isFin then { acc with num := acc.num + 1 }
  else
    let c := stT w / 2 ^ 12
    let l := (List.range n).map fun (j : Nat) => outConv c (a.getD j 0)
    let i := outIdx (stT w)
    let s := if c = 6 then s.outShared i l else (List.range n).foldl (fun s (j : Nat) => s.outWrite x.ch c (i + j) (l.getD j 0)) s
    { acc with s := if stX w 17 17 = 1 then s.chCommit x.ch else s }

/-- Stage `k` of the execution: its record is read, and a poisoned word of it ends the execution (R190). -/
def stageRun (acc : LoopAcc) (x : LoopRun) (k : Nat) : LoopAcc :=
  if acc.stop then acc
  else
    let (s, l) := acc.s.readWords (descBase x.d + 0x40 + 0x20 * k) 8
    let acc := { acc with s := s }
    let w := l.map (·.1)
    if l.any (·.2) then { acc with pois := true, stop := true }
    else
      let op := stOp w
      if op = 3 then stagePi acc x k w
      else if op = 4 || op = 5 then stageFilter acc x k w
      else if op = 6 then stageLim acc x k w
      else if op = 7 || op = 8 then stageXfm acc x k w
      else if op = 10 then stageDly acc x k w
      else if op = 12 then stageOut acc x w
      else if op = 1 || op = 2 || op = 9 || op = 11 then stagePlain acc x k w
      else acc

/-- Every stage of the execution, in order (R180); none after a poisoned header. -/
def stagesRun (s : State) (x : LoopRun) : LoopAcc :=
  if x.dead then { s := s, pois := true, stop := true }
  else (List.range x.nstg).foldl (fun (a : LoopAcc) k => stageRun a x k) { s := s }

/-- A PI stage's words after the last stage: the increment, where it is not discarded, then the clamp (R182). -/
def piFinish (lims : List (Nat × Option Nat × Bool)) (p : PiRun) : Nat × List Word :=
  (p.s, (List.range 4).map fun (j : Nat) =>
    let v := p.words.getD j 0
    let inc := p.incs.getD j 0
    let hit := fun (up : Bool) => lims.contains (p.s, some j, up) || lims.contains (p.s, none, up)
    let drop := !F32.isFin inc || (F32.lt 0 inc && hit true) || (F32.lt inc 0 && hit false)
    if p.incs.length ≤ j then v else F32.clamp (if drop then v else F32.add v inc) p.lo p.hi)

end State
end Sys2Proof.Machine
end

