-- ==== Sys2Proof/Machine/Leng.lean ====
section
/-! DEFINITION. The loop engine's admission and dispatch (R176, R186, R187, R189 to R199). -/

namespace Sys2Proof.Machine
namespace State

/-- Loop `d` is in the active set. -/
def loopActive (s : State) (d : Nat) : Bool :=
  if d < 32 then s.rdBit F.LENG_ACTLO d else s.rdBit F.LENG_ACTHI (d - 32)

/-- What was admitted of loop `d`: tier, trigger and channel. -/
def loopInfo (s : State) (d : Nat) : Nat := SMap.get (fun _ => 0) s.leng.info d
def loopTier (s : State) (d : Nat) : Nat := s.loopInfo d % 4
def loopTrig (s : State) (d : Nat) : Nat := s.loopInfo d / 4 % 8
def loopCh (s : State) (d : Nat) : Nat := s.loopInfo d / 32

/-- The NUM bit of loop `d`. -/
def numF (d : Nat) : Fld := if d < 32 then (F.LENG_NUMLO).at d else (F.LENG_NUMHI).at (d - 32)

/-- The levels of the LENG page's conditions. -/
def lengLevels (s : State) : State :=
  let s := s.iraw Pg.LENG 0 (s.rd F.LENG_NUMLO != 0 || s.rd F.LENG_NUMHI != 0)
  let s := s.iraw Pg.LENG 1 (s.rd F.LENG_POISCH != 0)
  s.iraw Pg.LENG 3 ((List.range 64).any fun d => s.rd (F.LENG_SKIPCNT d) != 0 || s.rd (F.LENG_DEFCNT d) != 0 || s.rd (F.LENG_OVRCNT d) != 0)

/-! Triggers (R196 to R199). -/

/-- With a HARD or FIRM execution waiting and no lane free, every waiting SOFT execution is discarded (R197). -/
def lengShed (s : State) : State :=
  if s.leng.lanes.length < 4 || !(s.leng.wait.any fun e => decide (e.1 < 2)) then s
  else
    let soft := s.leng.wait.filter fun e => e.1 == 2
    let s := { s with leng := { s.leng with wait := s.leng.wait.filter fun e => e.1 != 2 } }
    soft.foldl (fun s e => s.sat (F.LENG_SKIPCNT e.2.2)) s

/-- Loop `d` is triggered (R197 to R199). -/
def loopTrigger (s : State) (d : Nat) : State :=
  if !s.enabled Pg.LENG || s.rung != 0 || !s.loopActive d then s
  else
    let tier := s.loopTier d
    let mine := s.leng.wait.filter fun e => e.2.2 == d
    let push := fun (s : State) => { s with leng := { s.leng with wait := s.leng.wait ++ [(tier, s.tick, d)] } }
    let s :=
      if mine.isEmpty then push s
      else if tier = 0 then (s.sat (F.LENG_OVRCNT d)).raiseFlt 0x29 (s.loopCh d) false
      else if tier = 2 then
        push (({ s with leng := { s.leng with wait := s.leng.wait.filter fun e => e.2.2 != d } }).satBy (F.LENG_SKIPCNT d) mine.length)
      else
        let s := if mine.length < 2 then s
          else
            let s := { s with leng := { s.leng with wait := s.leng.wait.erase (mine.headD (0, 0, 0)) } }
            (s.sat (F.LENG_SKIPCNT d)).raiseFlt 0x2A (s.loopCh d) false
        push (s.sat (F.LENG_DEFCNT d))
    s.lengShed.lengLevels

/-- The triggers of a sample ready of block `m` and of the Almanac's targets 0x01 and 0x02 (R198). -/
def loopReady (s : State) (m : Nat) : State :=
  s.each 64 fun s d => if s.loopActive d && s.loopTrig d == m + 1 then s.loopTrigger d else s
def loopTierGo (s : State) (t : Nat) : State :=
  s.each 64 fun s d => if s.loopActive d && s.loopTier d == t && s.loopTrig d == 0 then s.loopTrigger d else s

/-- Gating in EVE and VIGIL: waiting executions are discarded uncounted (R199). -/
def lengGate (s : State) : State := { s with leng := { s.leng with wait := [] } }

/-- Descent to FAST or DORMANT empties the active set (R199). -/
def lengEmpty (s : State) : State :=
  ({ s with leng := { s.leng with wait := [], info := [], first := [], unused := [] } }).clear [F.LENG_ACTLO, F.LENG_ACTHI, F.LENG_TLOAD]

/-! Admission (R193 to R195). -/

/-- The words of a header and of its stages, whether one is poisoned, and the state after the reads. -/
def descRead (s : State) (d : Nat) : State × List Word × List (List Word) × Bool :=
  let (s, h) := s.readWords (descBase d) 16
  let hw := h.map (·.1)
  if h.any (·.2) then (s, hw, [], true)
  else
    (List.range (wordGet (hw.getD 0 0) 19 16 + 1)).foldl (fun r k =>
      let (s, l) := r.1.readWords (descBase d + 0x40 + 0x20 * k) 8
      (s, r.2.1, r.2.2.1 ++ [l.map (·.1)], r.2.2.2 || l.any (·.2))) (s, hw, [], false)

/-- The cost of a stage (R180). -/
def stCost (w : List Word) : Nat :=
  let n := stW w
  let op := stOp w
  if op = 3 then 1 + 2 * n else if op = 4 then 1 + 3 * n else if op = 5 then 1 + 5 * n
  else if op = 6 then (if stX w 17 17 = 1 then 6 else 1 + n) else if op = 7 || op = 8 then 6 else if op = 11 then 2 + 2 * n
  else if op = 12 then 1 + n + stX w 17 17 else 1 + n

/-- The cost of a loop (R181). -/
def loopCost (st : List (List Word)) : Nat := 3 + (st.map stCost).sum

/-- A defined signal address (R177). -/
def sigOk (a : Nat) : Bool :=
  decide (a < 0x40) || (decide (0x1000 ≤ a) && decide (a < 0x2018)) || (decide (0x2100 ≤ a) && decide (a < 0x2180) && decide (a % 0x40 < 9)) ||
  (decide (0x2200 ≤ a) && decide (a < 0x2318)) || (decide (0x2400 ≤ a) && decide (a < 0x2410)) || (decide (0x3000 ≤ a) && decide (a < 0x3400)) ||
  (decide (0xFF00 ≤ a) && decide (a < 0xFF06))

/-- The signal's unit is present (R5). -/
def sigHere (s : State) (a : Nat) : Bool :=
  if 0x2200 ≤ a ∧ a < 0x2300 then s.has (Pg.CH ((a - 0x2200) / 0x20))
  else if 0x2300 ≤ a ∧ a < 0x2318 then s.has (Pg.LEG (a - 0x2300))
  else if 0x2400 ≤ a ∧ a < 0x2410 then s.has Pg.MACH
  else true

/-- Every signal address a stage reads (R175, R178, R185). -/
def stSigs (w : List Word) : List Nat :=
  let op := stOp w
  let n := stW w
  let go := fun (i n : Nat) => (List.range n).map (sigAt (stAddr w i) (stStride w i))
  if op = 2 then (if stX w 17 16 = 0 then [] else go 0 n) ++ (if stX w 15 14 = 0 then [] else go 1 n) ++ (if stX w 13 12 = 0 then [] else go 2 n)
  else if op = 4 then go 0 n ++ go 1 n
  else if op = 6 then go 0 n ++ (if stX w 16 16 = 0 then [] else if stX w 17 17 = 1 then go 1 1 else go 1 n ++ go 2 n)
  else if op = 7 || op = 8 then
    go 0 (if stX w 17 16 = 2 then 2 else 3) ++ (if stX w 14 12 = 0 && stX w 17 16 != 1 then go 1 1 else [])
  else if op = 9 || op = 11 then go 0 n ++ go 1 n ++ go 2 n
  else go 0 n

/-- The OUT target of a stage lies within its class (R186). -/
def outOk (w : List Word) : Bool :=
  let c := stT w / 2 ^ 12
  let last := outIdx (stT w) + stW w - 1
  if c = 1 then last < 16 else if c = 2 then last < 24 else if c = 3 then last < 3 else if c = 4 then last < 16
  else if c = 5 then last < 8 else if c = 6 then last < 0x400 else false

/-- The format of a stage is right (R193). "ANG 0 with no operand B" is an operand B that is no defined address (log 24). -/
def stFormat (w : List Word) : Bool :=
  let op := stOp w
  let x := fun (hi : Nat) => stX w hi (hi - 1)
  1 ≤ op && op ≤ 12 && stW w ≤ 3 &&
  ((List.range 5).all fun i => !stKsel w i || decide ((w.getD (3 + i) 0).toNat < 14)) &&
  (op != 2 || (x 17 != 2 && x 15 != 2 && x 13 != 2)) &&
  (!(op == 7 || op == 8) || (x 17 != 3 && stX w 14 12 < 4)) &&
  (op != 6 || stX w 17 17 = 0 || stW w = 2) && (op != 12 || outOk w) && (stSigs w).all sigOk

/-- The format of a header is right (R193). -/
def hdrFormat (h : List Word) : Bool :=
  let n := wordGet (h.getD 0 0) 22 20
  let bp := (List.range n).map fun (i : Nat) => h.getD (3 + i) 0
  wordGet (h.getD 0 0) 30 29 != 3 && wordGet (h.getD 0 0) 28 26 ≤ 4 && posNormal (h.getD 1 0) && sigOk (wordGet (h.getD 2 0) 15 0) &&
  ((List.range (n - 1)).all fun i => F32.lt (bp.getD i 0) (bp.getD (i + 1) 0)) && F32.isNonneg (h.getD 10 0)

/-- The code of the first check that a loop fails, 0 when none does (R193); within a loop the checks run in the order poison, format,
absent, channel, clock (log 24). -/
def loopCheck (s : State) (h : List Word) (st : List (List Word)) (pois : Bool) : Nat :=
  let c := wordGet (h.getD 0 0) 25 23
  let trig := wordGet (h.getD 0 0) 28 26
  let outs := st.filter fun w => stOp w == 12
  let legs := (outs.filter fun w => stT w / 2 ^ 12 == 2).flatMap fun w => (List.range (stW w)).map fun (k : Nat) => outIdx (stT w) + k
  let grps := (outs.filter fun w => stT w / 2 ^ 12 == 3).flatMap fun w => (List.range (stW w)).map fun (k : Nat) => outIdx (stT w) + k
  let shaft := st.any fun w => (stOp w == 7 || stOp w == 8) && stX w 14 12 == 3 && stX w 17 16 != 1
  if pois then 7
  else if !hdrFormat h || !st.all stFormat then 3
  else if !s.has (Pg.CH c) || !((wordGet (h.getD 2 0) 15 0 :: st.flatMap stSigs).all s.sigHere) || (shaft && !s.has Pg.MACH) ||
      !legs.all (fun n => s.has (Pg.LEG n)) then 4
  else if !legs.all (fun n => s.mapped n && s.legCh n == c) || grps.any (fun g => (s.loopGroup c g).isEmpty) then 5
  else if 1 ≤ trig && !s.bit (F.MOD_BEN (trig - 1)) then 8
  else 0

/-- The rate of a loop (R194). -/
def loopRate (s : State) (h : List Word) : Rat :=
  let trig := wordGet (h.getD 0 0) 28 26
  if trig = 0 then 1 / F32.toRat (h.getD 1 0)
  else mkRat 500000000 (max 1 (s.rd (F.MOD_DIV (trig - 1)) * s.rd (F.MOD_OSRC (trig - 1))))

/-- A loop submitted: its number, tier + 4 × TRIG + 32 × CH, cost and rate. -/
structure Submit where
  d : Nat
  info : Nat
  cost : Nat
  rate : Rat
deriving DecidableEq, Repr

/-- The checks of R193 over the submitted loops in index order: the refusal with its loop, or the loops. -/
def admCheck (s : State) : List Nat → List Submit → State × (Nat × Nat) × List Submit
  | [], l => (s, (0, 0), l)
  | d :: t, l =>
    let (s, h, st, pois) := s.descRead d
    let r := s.loopCheck h st pois
    if r != 0 then (s, (r, d), l)
    else
      let w := h.getD 0 0
      s.admCheck t (l ++ [{ d := d, info := wordGet w 30 29 + 4 * wordGet w 28 26 + 32 * wordGet w 25 23, cost := loopCost st,
                            rate := s.loopRate h }])

/-- A load in units of 0.01 %, rounded up; beyond 16 bits the greatest (log 24). -/
def loadUnits (u : Rat) : Nat := min 0xFFFF (u * 10000).ceil.toNat

/-- The load of a list of loops (R194). -/
def loadOf (l : List Submit) : Rat := (l.map fun x => (x.cost : Rat) * x.rate / 2000000000).sum

/-- The tier test (R194): 0, or the refusal with its loop. -/
def tierTest (l : List Submit) : Nat × Nat :=
  let hard := l.filter fun x => x.info % 4 == 0
  let cmax := (l.filter fun x => x.info % 4 != 0).foldl (fun m x => max m x.cost) 0
  let total := (hard.map (·.cost)).sum
  if (4 / 5 : Rat) < loadOf hard then (1, 0)
  else match hard.find? (fun x =>
      decide (1000000000 < ((20 + 2 * (cmax + (total - x.cost + 3) / 4 + x.cost) : Nat) : Rat) * x.rate)) with
    | some x => (2, x.d)
    | none => (0, 0)

/-- The new set takes effect (R195). -/
def admSwitch (s : State) (l : List Submit) : State :=
  let ds := l.map (·.d)
  let added := ds.filter fun d => !s.loopActive d
  let s := { s with leng := { s.leng with
      wait := s.leng.wait.filter fun e => ds.contains e.2.2
      info := l.foldl (fun (m : SMap Nat) (x : Submit) => SMap.set (fun _ => 0) m x.d x.info) []
      first := (s.leng.first.filter fun d => ds.contains d) ++ added
      unused := (s.leng.unused.filter fun d => ds.contains d) ++ added } }
  let s := added.foldl (fun s d =>
      let s := s.each 64 fun s i => s.write64 (loopBase d + 8 * i) 0 false
      s.clear [F.LENG_SKIPCNT d, F.LENG_DEFCNT d, F.LENG_NUMCNT d, F.LENG_OVRCNT d, F.LENG_SET d, F.LENG_RIDE d, F.LENG_REGION d,
        F.LENG_EXECCNT d]) s
  let s := l.foldl (fun s x => s.wr (F.LENG_COST x.d) x.cost) s
  let mask := (ds.map fun d => 2 ^ d).sum
  ((s.wr F.LENG_ACTLO (mask % 2 ^ 32)).wr F.LENG_ACTHI (mask / 2 ^ 32)).wr F.LENG_TLOAD (loadUnits (loadOf l))

/-- A write of LENG.ADMIT: GO submits the masks, unless an admission runs (R14, R193). -/
def admitWrite (s : State) (v : Word) : State × Status :=
  if !F.LENG_ADMGO.on v || s.leng.admitAt.isSome then (s, .ok)
  else
    let m := s.rd F.LENG_ADMLO + 2 ^ 32 * s.rd F.LENG_ADMHI
    ((({ s with leng := { s.leng with admitAt := some m } }).wr F.LENG_ADMGO 1).iraw Pg.LENG 2 false, .ok)

/-- ADMISSION_COMPLETE (R193 to R195). -/
def admDone (s : State) : State :=
  match s.leng.admitAt with
  | none => s
  | some m =>
    let s := { s with leng := { s.leng with admitAt := none } }
    let s :=
      if s.modeNow = 5 then (s.wr F.LENG_ADMRES 6).wr F.LENG_ADMIDX 0
      else
        let (s, (r, d), l) := s.admCheck ((List.range 64).filter fun d => m / 2 ^ d % 2 == 1) []
        if r != 0 then (s.wr F.LENG_ADMRES r).wr F.LENG_ADMIDX (if r = 8 then 0 else d)
        else
          let s := s.wr F.LENG_HLOAD (loadUnits (loadOf (l.filter fun x => x.info % 4 == 0)))
          let (r, d) := tierTest l
          let s := (s.wr F.LENG_ADMRES r).wr F.LENG_ADMIDX d
          if r = 0 then s.admSwitch l else s
    ((s.wr F.LENG_ADMGO 0).iraw Pg.LENG 2 true).lengLevels

/-! Executions. -/

/-- The region of the loop of `x` after the region signal (R191); `h` holds the header. -/
def loopRegion (s : State) (x : LoopRun) (h : List Word) : State :=
  let d := x.d
  let n := wordGet (h.getD 0 0) 22 20
  let r := s.rd (F.LENG_REGION d)
  let fst := s.leng.first.contains d
  if n = 0 then s.wr (F.LENG_REGION d) 0
  else
    let (s, x, pois) := s.sigRead x (wordGet (h.getD 2 0) 15 0)
    let bp := fun (i : Nat) => h.getD (3 + i) 0
    let hys := h.getD 10 0
    if pois || F32.isNaN x then s
    else if fst then s.wr (F.LENG_REGION d) ((List.range n).filter fun i => F32.le (bp i) x).length
    else
      let up := (List.range (n + 1)).filter fun q => decide (r < q) && F32.le (F32.add (bp (q - 1)) hys) x
      let dn := (List.range r).filter fun q => F32.lt x (F32.sub (bp q) hys)
      match up.getLast?, dn.head? with
      | some q, _ => s.wr (F.LENG_REGION d) q
      | none, some q => s.wr (F.LENG_REGION d) q
      | none, none => s

/-- The place of the first waiting execution: HARD, FIRM, SOFT, then the older trigger, then the lower loop (R196). -/
def loopNext (s : State) : Option (Nat × Nat × Nat) :=
  s.leng.wait.foldl (fun b e => match b with
    | none => some e
    | some f => if e.1 < f.1 || (e.1 == f.1 && (e.2.1 < f.2.1 || (e.2.1 == f.2.1 && e.2.2 < f.2.2))) then some e else b) none

/-- Coefficient `j` of gain set `g` of loop `d` as it stands, and whether its word is uncorrectable. -/
def gainNow (s : State) (d g j : Nat) : Word × Bool :=
  let a := gainAddr d g j
  if s.isInvalid a then (0, false)
  else
    let (v, ok) := s.mramWord (a / 8 * 8)
    (BitVec.ofNat 32 (if a / 4 % 2 = 0 then v else v / 2 ^ 32), !ok)

/-- The execution of loop `d` takes a lane: region and gain set, and what the execution reads from its start (R176, R179, R191, R192). -/
def loopRun (s : State) (d : Nat) : State :=
  let trig := s.loopTrig d
  let b := s.blk (trig - 1)
  let x : LoopRun := { d := d, ch := s.loopCh d, trig := trig, cout := b.cout
                       ang := if trig = 0 then [s.gridAngle 0, s.gridAngle 1, s.shaftAngle] else [b.ang0, b.ang1, b.shaft] }
  let lane := fun (s : State) (x : LoopRun) => { s with leng := { s.leng with lanes := s.leng.lanes ++ [x] } }
  let (s, hl) := s.readWords (descBase d) 11
  let h := hl.map (·.1)
  if hl.any (·.2) then lane s { x with dead := true }
  else
    let s := s.loopRegion x h
    let w := h.getD 0 0
    let ride := s.modeNow == 5 && w.getLsbD 15
    let g := if ride then wordGet w 14 12 else s.rd (F.LENG_REGION d)
    let old := if s.leng.unused.contains d then g else s.rd (F.LENG_SET d)
    let s := (s.wr (F.LENG_SET d) g).setBit (F.LENG_RIDE d) ride
    let s := { s with leng := { s.leng with first := s.leng.first.filter (· != d), unused := s.leng.unused.filter (· != d) } }
    let gain := (List.range 14).map (s.gainNow d g) ++ (List.range 14).map (s.gainNow d old)
    lane s { x with ts := h.getD 1 0, nstg := wordGet w 19 16 + 1, gset := g, old := old, gain := gain }

/-- LOOP_EXECUTION_START (R196): nothing starts while PCTL.EN is clear, outside RUN, or without a free lane. -/
def loopStart (s : State) : State :=
  if !s.enabled Pg.LENG || s.rung != 0 || 4 ≤ s.leng.lanes.length then s
  else match s.loopNext with
    | none => s
    | some e =>
      (({ s with leng := { s.leng with wait := s.leng.wait.erase e } }).loopRun e.2.2).lengShed.lengLevels

/-- LOOP_EXECUTION_END of loop `d` (R181, R186, R189, R190): the stages with their OUT writes, the integrators, the exceptions, and the
lane is free. -/
def loopEnd (s : State) (d : Nat) : State :=
  match s.leng.lanes.find? fun r => r.d == d with
  | none => s
  | some r =>
    let acc := ({ s with leng := { s.leng with lanes := s.leng.lanes.erase r } }).stagesRun r
    let ints := if acc.stop then [] else acc.pis.map (piFinish acc.lims)
    let s := ints.foldl (fun s e => s.put4 (loopBase d + 0x100 + 0x10 * e.1) e.2 false) acc.s
    let s := s.wrap (F.LENG_EXECCNT d)
    let s := if acc.num = 0 then s
      else
        let was := s.bit (numF d)
        let s := (s.satBy (F.LENG_NUMCNT d) acc.num).latch (numF d)
        if was then s else s.raiseFlt 0x20 r.ch false
    let s := if !acc.pois then s
      else
        let was := s.rdBit F.LENG_POISCH r.ch
        let s := s.latch ((F.LENG_POISCH).at r.ch)
        if was then s else s.detect (0x21 + r.ch)
    s.lengLevels

/-- A host write to a word of the loop RAMs that R176 refuses while the loop is active. -/
def lengGuard (s : State) (a : Nat) : Bool :=
  if 0x100000 ≤ a ∧ a < 0x110000 then
    let o := a % 0x400
    s.loopActive ((a - 0x100000) / 0x400) && !((decide (0xC ≤ o) && decide (o < 0x2C)) || decide (0x240 ≤ o))
  else if 0x200000 ≤ a ∧ a < 0x208000 then s.loopActive ((a - 0x200000) / 0x200)
  else false

/-- The write of a word of the LENG page. -/
def lengWrite (s : State) (a : Nat) (v : Word) : State × Status :=
  if a % 0x1000 = 0x40 then s.admitWrite v
  else
    let r := s.genWrite a v
    (r.1.lengLevels, r.2)

/-- LENG PCTL.SRST: the counters, NUM and POISCH. -/
def lengReset (s : State) : State :=
  let s := s.each 64 fun s d => s.clear [F.LENG_SKIPCNT d, F.LENG_DEFCNT d, F.LENG_NUMCNT d, F.LENG_OVRCNT d, F.LENG_EXECCNT d]
  (s.clear [F.LENG_NUMLO, F.LENG_NUMHI, F.LENG_POISCH]).lengLevels

end State

/-- ADMIT: a write of LENG.ADMIT with GO set (R193). -/
def execAdmit (v : Word) (s : State) : Host.Outcome State Fault Refusal :=
  let v := F.LENG_ADMGO.put v 1
  .next (s.hostWord (Pg.LENG + 0x40) v fun s => s.lengWrite (Pg.LENG + 0x40) v)

/-- ADMISSION_COMPLETE: the admission ends (R195). -/
def execAdmissionComplete (s : State) : Host.Outcome State Fault Refusal := .next s.admDone

/-- LOOP_EXECUTION_START: a lane takes the first waiting execution (R196). -/
def execLoopExecutionStart (s : State) : Host.Outcome State Fault Refusal := .next s.loopStart

/-- LOOP_EXECUTION_END: the oldest execution of loop `d` on a lane ends (R181). -/
def execLoopExecutionEnd (d : Fin 64) (s : State) : Host.Outcome State Fault Refusal := .next (s.loopEnd d)

end Sys2Proof.Machine
end

