-- ==== Sys2Proof/Machine/Mtr.lean ====
section
/-! DEFINITION. The MTR unit and the MTRE page (R337 to R355): metrology samples, energies, intervals, harmonics and pulses. The
measurements' number format is open (log 5). -/

namespace Sys2Proof.Machine
namespace State

/-- The MOD input of channel `k` (0 VA, 1 VB, 2 VC, 3 IA, 4 IB, 5 IC, 6 IN) of port `p`. -/
def mtrPin (s : State) (p k : Nat) : Nat :=
  s.rd (if k = 0 then F.MTR_VA p else if k = 1 then F.MTR_VB p else if k = 2 then F.MTR_VC p else if k = 3 then F.MTR_IA p
    else if k = 4 then F.MTR_IB p else if k = 5 then F.MTR_IC p else F.MTR_IN p)

/-- The channels port `p` uses (R337). -/
def mtrChs (s : State) (p : Nat) : List Nat :=
  if s.bit (F.MTR_TYPE p) then [0, 3]
  else [0, 1, 2, 3, 4, 5] ++ (if s.bit (F.MTR_INEN p) then [6] else [])

/-- The phases of port `p`. -/
def mtrPhases (s : State) (p : Nat) : Nat := if s.bit (F.MTR_TYPE p) then 1 else 3

/-- The group delay of the metrology filter of input VA in nanoseconds (R149). -/
def mtrDelay (s : State) (p : Nat) : Nat := if s.rd (F.MOD_DIV (s.mtrPin p 0 / 6)) = 50 then 324750 else 324875

/-- The nominal window (R341). -/
def mtrNominal (s : State) (p : Nat) : Nat := if s.bit (F.MTR_NFREQ p) then 267 else 320

/-- The window length in use (R340, R341). -/
def mtrNc (s : State) (p : Nat) : Nat :=
  let n := (s.mtrPort p).nc
  if n = 0 || s.bit (F.MTR_ZCTOF p) then s.mtrNominal p else n

/-- The ZCTOF level. -/
def mtrLevels (s : State) : State := s.iraw Pg.MTR 2 (s.bit (F.MTR_ZCTOF 0) || s.bit (F.MTR_ZCTOF 1))

/-! Intervals (R349, R350). -/

/-- An interval opens at device time `t`; one that a disable left open gives no record. -/
def ivalOpen (s : State) (p t : Nat) : State :=
  let m := s.mtrPort p
  let v : Ival := { topen := t, tick := s.tick, base := (List.range 8).map fun q => s.energyRaw p q, flags := if m.started then 0 else 32 }
  s.setMtrPort p { m with ivals := (m.ivals.filter fun v => v.tclose.isSome) ++ [v] }

/-- The open interval of port `p` changes. -/
def ivalLast (s : State) (p : Nat) (f : Ival → Ival) : State :=
  let m := s.mtrPort p
  match m.ivals.reverse with
  | [] => s
  | v :: t => s.setMtrPort p { m with ivals := t.reverse ++ [f v] }

/-- INTERVAL_CLOSE: the open interval ends and the next begins; two closes in one tick make one (R349). -/
def intervalClose (s : State) (p : Nat) : State :=
  if !s.bit (F.MTR_EN p) then s
  else match (s.mtrPort p).ivals.getLast? with
    | none => s.ivalOpen p s.now64
    | some v => if v.tick = s.tick && v.tclose.isNone && 1 < (s.mtrPort p).ivals.length then s
      else
        let s := s.ivalLast p fun v => { v with tclose := some s.now64 }
        (s.setMtrPort p { s.mtrPort p with started := true }).ivalOpen p s.now64

/-- The instant `t` lies in an interval [t_open, t_c), or after the opening of one that has no close yet (R68, R349). -/
def ivalHas (v : Ival) (t : Nat) : Bool :=
  match v.tclose with
  | none => decide (0 ≤ sdiff 64 t v.topen)
  | some c => inWindow 64 t v.topen c

/-- The energies rise by `d`, by register, within an interval. -/
def ivalGain (d : List Nat) (v : Ival) : Ival := { v with chg := (List.range 8).map fun q => v.chg.getD q 0 + (d.getD q 0 : Int) }

/-- The energies rise by `d` before an interval begins. -/
def ivalLift (d : List Nat) (v : Ival) : Ival := { v with base := (List.range 8).map fun q => v.base.getD q 0 + d.getD q 0 }

/-- A sample of instant `t` that raises the energies by `d` joins the interval that has its instant, which `f` brings up to date; every
later interval begins that much higher, so that the changes of consecutive intervals add up to that of the alias (R350). -/
def ivalJoin (t : Nat) (d : List Nat) (f : Ival → Ival) : List Ival → List Ival
  | [] => []
  | v :: l =>
    if ivalHas v t then f (ivalGain d v) :: l.map (ivalLift d)
    else (if sdiff 64 t v.topen < 0 then ivalLift d v else v) :: ivalJoin t d f l

/-- The change of the alias of register `q` across an interval, before the cut to 32 bits (R350). -/
def ivalDel (v : Ival) (q : Nat) : Int :=
  let mwh := fun (x : Int) => x / (1000 * 2 ^ 32)
  mwh ((v.base.getD q 0 : Int) + v.chg.getD q 0) - mwh (v.base.getD q 0)

/-- INTERVAL_RECORD_PUBLISH (R349, R350). -/
def ivalPublish (s : State) (p : Nat) : State :=
  let m := s.mtrPort p
  match m.ivals with
  | [] => s
  | v :: rest =>
    match v.tclose with
    | none => s
    | some tc =>
      let del := ivalDel v
      let ovf := (List.range 8).any fun q => decide ((2 ^ 32 : Int) ≤ del q)
      let span : Nat := (tc + 2 ^ 64 - v.topen) % 2 ^ 64
      let gap := decide ((v.nsamp : Rat) + 1 < mkRat ((span * 16000 : Nat) : Int) 1000000000)
      let fl := v.flags + (if ovf then 1 else 0) + (if gap then 8 else 0)
      let s := s.setMtrPort p { m with ivals := rest }
      let s := (s.wr64 (F.MTR_TOPENLO p) v.topen).wr64 (F.MTR_TCLOSELO p) tc
      let s := (List.range 8).foldl (fun s q =>
        s.wr (F.MTR_DEL p q) (if (2 ^ 32 : Int) ≤ del q then 2 ^ 32 - 1 else (del q % (2 ^ 32 : Int)).toNat)) (s.wr (F.MTR_NSAMP p) v.nsamp)
      let s := ((s.wrF (F.MTR_VMIN p) (v.vmin.getD 0)).wrF (F.MTR_VMAX p) v.vmax).wrF (F.MTR_PMAX p) v.pmax
      let s := ((s.wr (F.MTR_REVCNT p) (min v.rev 0xFFFF)).wr (F.MTR_RSNSEEN p) (v.rsn % 128)).wr (F.MTR_FLAGS p) fl
      (s.wrap (F.MTR_ISEQ p)).ipulse Pg.MTR p

/-! Pulses (R354, R355). -/

/-- The ticks of a number of 0.1 ms units. -/
def msTenth (n : Nat) : Nat := n * 50000

/-- PULSE_QUANTUM: one pulse is owed. -/
def pulseQuantum (s : State) (k : Nat) : State :=
  let u := s.pulse k
  let s := s.setPulse k { u with q0 := u.q1, q1 := some s.tick }
  if s.rd (F.MTR_PEND k) = 0xFFFF then ((s.sat (F.MTR_PLOST k)).ipulse Pg.MTR 4).detect 0x7C
  else s.wr (F.MTR_PEND k) (s.rd (F.MTR_PEND k) + 1)

/-- Owed quanta of a count, at most `n` of them. -/
def pulseDue (s : State) (k : Nat) : Nat → State
  | 0 => s
  | n + 1 =>
    let per := s.rd (F.MTR_PCONST k) * 2 ^ 32
    let u := s.pulse k
    if per = 0 || u.cnt < per then s else ((s.setPulse k { u with cnt := u.cnt - per }).pulseQuantum k).pulseDue k n

/-- An increment `d` of register `q` of port `p` reaches the pulse outputs that count it (R354). -/
def pulseCount (s : State) (p q d : Nat) : State :=
  s.each 2 fun s k =>
    if s.bit (F.MTR_PULEN k) && s.rd (F.MTR_PULPORT k) == p && s.rdBit (F.MTR_QMASK k) q then
      let u := s.pulse k
      let n := (u.cnt + d) / (max 1 (s.rd (F.MTR_PCONST k)) * 2 ^ 32)
      (s.setPulse k { u with cnt := u.cnt + d }).pulseDue k n
    else s

/-- The width of the next pulse in ticks (R355). -/
def pulseWidth (s : State) (k : Nat) : Nat :=
  let w := msTenth (s.rd (F.MTR_PWID k))
  match (s.pulse k).q0, (s.pulse k).q1 with
  | some a, some b => if 2 * w ≤ b - a then w else max ((b - a) / 2) (msTenth (s.rd (F.MTR_PWMIN k)))
  | _, _ => w

/-- PULSE_EMIT: an owed pulse starts on an idle ball. -/
def pulseEmit (s : State) (k : Nat) : State :=
  if !s.bit (F.MTR_PULEN k) || s.rd (F.MTR_PEND k) = 0 || (s.pulse k).active then s
  else
    let s := s.setPulse k { s.pulse k with active := true, width := s.pulseWidth k }
    (s.wr (F.MTR_PEND k) (s.rd (F.MTR_PEND k) - 1)).wrap (F.MTR_PCNT k)

/-- PULSE_END: the ball returns to idle. -/
def pulseEnd (s : State) (k : Nat) : State := s.setPulse k { s.pulse k with active := false }

/-! Samples. -/

/-- CYCLE_CROSSING (R340, R341): a crossing at `x` seconds. A block takes the HCYC that stood when it began (R351). -/
def mtrCross (s : State) (p : Nat) (x : Rat) : State :=
  let m := s.mtrPort p
  let s :=
    match m.xing with
    | none => s.setMtrPort p { m with xing := some x }
    | some x0 =>
      let tc := x - x0
      let n := (max 200 (min 400 (F32.rneRat (tc * 16000)))).toNat
      let s := s.setMtrPort p { m with xing := some x, nc := n }
      let s := if tc = 0 then s else s.wrQ (F.MTR_M_FREQ p) (1 / tc)
      s.wr (F.MTR_ZCTOF p) 0
  let m := s.mtrPort p
  let s :=
    if !s.bit F.MTR_HEN || s.bit (F.MTR_ZCTOF p) then s.setMtrPort p { m with blk := none, cyc := 0 }
    else match m.blk with
      | none => s.setMtrPort p { m with blk := some [], cyc := 0, hcyc := s.rd F.MTR_HCYC }
      | some b =>
        if m.cyc + 1 < m.hcyc then s.setMtrPort p { m with cyc := m.cyc + 1 }
        else s.setMtrPort p { m with done := some b, doneCyc := m.hcyc, blk := some [], cyc := 0, hcyc := s.rd F.MTR_HCYC }
  s.mtrLevels

/-- The cycle detector on value `v` of its phase (R340). -/
def mtrCycle (s : State) (p : Nat) (v : F32) : State :=
  let m := s.mtrPort p
  let x := F32.toRat v
  let th := s.q (F.MTR_GAIN p (s.rd (F.MTR_REFPH p))) / 256
  let m := if x ≤ 0 then { m with zle := some (s.tick, v), zab := none } else if m.zab.isNone then { m with zab := some (s.tick, v) } else m
  let s := s.setMtrPort p m
  if x < -th then s.setMtrPort p { m with armed := true }
  else match m.armed && decide (th ≤ x), m.zle, m.zab with
    | true, some (t1, v1), some (t2, v2) =>
      let d := F32.toRat v2 - F32.toRat v1
      let fr : Rat := if d = 0 then 0 else -(F32.toRat v1) / d
      (s.setMtrPort p { m with armed := false }).mtrCross p (ticksQ t1 + (ticksQ t2 - ticksQ t1) * fr)
    | _, _, _ => s

/-- The mean of a quantity over the last `n` samples, those before the enable counting as 0 (log 26). -/
def winMean (h : List (List F32)) (n : Nat) (f : List F32 → Rat) : Rat := ((h.take n).map f).sum / (max 1 n : Nat)

/-- The rms of R342 of channel `k`. -/
def mtrRms (s : State) (p k : Nat) (h : List (List F32)) (n : Nat) : F32 × State :=
  let o := s.q (F.MTR_RMSOFS p k)
  s.root (winMean h n (fun y => F32.toRat (y.getD k 0) * F32.toRat (y.getD k 0)) - o * o)

/-- The power factor of R342, 0 when the apparent power is 0. -/
def mtrPf (s : State) (p a : F32) : F32 × State :=
  if F32.toRat a = 0 || F32.toRat p = 0 then (0, s) else s.rnd (F32.toRat p / F32.toRat a)

/-- The quantities of phase `k` (R342); of a phase that a single-phase port does not use (R337) they are 0. -/
def mtrPhase (s : State) (p k : Nat) (h : List (List F32)) (n : Nat) : State :=
  if s.mtrPhases p ≤ k then s.clear [F.MTR_M_VRMS p k, F.MTR_M_IRMS p k, F.MTR_M_P p k, F.MTR_M_Q p k, F.MTR_M_S p k, F.MTR_M_PF p k]
  else
    let (v, s) := s.mtrRms p k h n
    let (i, s) := s.mtrRms p (3 + k) h n
    let (pk, s) := s.rnd (s.q (F.MTR_PGAIN p k) * winMean h n (fun y => F32.toRat (y.getD k 0) * F32.toRat (y.getD (3 + k) 0)) - s.q (F.MTR_POFS p k))
    let (qk, s) := s.rnd (s.q (F.MTR_QGAIN p k) * winMean h n (fun y => F32.toRat (y.getD (7 + k) 0)) - s.q (F.MTR_QOFS p k))
    let (sk, s) := if F32.toRat v * F32.toRat i = 0 then (0, s) else s.rnd (F32.toRat v * F32.toRat i)
    let (pf, s) := s.mtrPf pk sk
    let s := ((s.wrF (F.MTR_M_VRMS p k) v).wrF (F.MTR_M_IRMS p k) i).wrF (F.MTR_M_P p k) pk
    ((s.wrF (F.MTR_M_Q p k) qk).wrF (F.MTR_M_S p k) sk).wrF (F.MTR_M_PF p k) pf

/-- ENERGY_ACCUMULATE (R343 to R346): the registers of the quadrant of (P_E, Q_E), the pulses, and a reversal; `t` is the sample's
instant. With every phase contributing, the totals are PT, QT and ST. -/
def mtrEnergy (s : State) (p t : Nat) : State :=
  let ist := s.f32 (F.MTR_ISTART p)
  let on := (List.range (s.mtrPhases p)).filter fun k => !F32.lt (s.f32 (F.MTR_M_IRMS p k)) ist
  let s := s.wr (F.MTR_PHNL p) (7 - (on.map fun k => 2 ^ k).sum)
  let s := s.setBit (F.MTR_NOLOAD p) on.isEmpty
  let tot := fun (s : State) (f : Nat → Fld) (a : Fld) =>
    if on.length = s.mtrPhases p then (s.f32 a, s) else s.sumF (on.map fun k => s.f32 (f k))
  let (pe, s) := tot s (F.MTR_M_P p) (F.MTR_M_PT p)
  let (qe, s) := tot s (F.MTR_M_Q p) (F.MTR_M_QT p)
  let (se, s) := tot s (F.MTR_M_S p) (F.MTR_M_ST p)
  let x := F32.toRat pe
  let y := F32.toRat qe
  let units := fun (w : Rat) => Config.energyUnits ((if w < 0 then -w else w) * (125 / 7200) * (2 ^ 32 : Nat))
  let qd := if 0 ≤ x then (if 0 ≤ y then 2 else 5) else (if 0 ≤ y then 3 else 4)
  let add := fun (s : State) (q : Nat) (w : Rat) =>
    if w = 0 then s
    else
      let d := units w
      (s.setEnergy p q (s.energyRaw p q + d)).pulseCount p q d
  let m := s.mtrPort p
  let e0 := s.energyRaw p
  let s := if on.isEmpty then s else ((add s (if 0 ≤ x then 0 else 1) x) |> fun s => add s qd y |> fun s => add s (if 0 ≤ x then 6 else 7) (F32.toRat se))
  let rev := x != 0 && (match m.neg with
    | none => false
    | some n => n != decide (x < 0))
  let d := (List.range 8).map fun q => s.energyRaw p q - e0 q
  let vs := (List.range (s.mtrPhases p)).map fun k => s.f32 (F.MTR_M_VRMS p k)
  let ap := F32.abs pe
  let fl := (if s.bit (F.MTR_ZCTOF p) then 2 else 0) ||| (if on.isEmpty then 4 else 0)
  let m := s.mtrPort p
  let upd := fun (v : Ival) => { v with
    nsamp := v.nsamp + 1
    vmin := some (vs.foldl F32.fmin (v.vmin.getD (F32.infW false))), vmax := vs.foldl F32.fmax v.vmax
    pmax := F32.fmax v.pmax ap, rev := v.rev + (if rev then 1 else 0), flags := v.flags ||| fl }
  s.setMtrPort p { m with neg := if x = 0 then m.neg else some (decide (x < 0))
                          ivals := ivalJoin t d upd m.ivals }
      |> fun s => if m.snapTk = some s.tick then s.mtreTake p else s

/-- The first sample after a boot opens the interval: the one that stood open since the enable begins at its instant (R349). -/
def ivalSample (s : State) (p t : Nat) : State :=
  if (s.mtrPort p).sampled then s
  else
    let s := match (s.mtrPort p).ivals with
      | [] => s.ivalOpen p t
      | [_] => s.ivalLast p fun v => { v with topen := t }
      | _ => s
    s.setMtrPort p { s.mtrPort p with sampled := true }

/-- METROLOGY_SAMPLE of port `p`: `raw` holds the results of its seven channels and `lead` the instants of each after that of VA, in
nanoseconds (R338 to R346). VA is the reference and is not delayed; a delay below zero takes samples yet to come, and its value is open
(log 26). -/
def mtrSample (s : State) (p : Nat) (raw : List (BitVec 24)) (lead : List Int) : State :=
  let chs := s.mtrChs p
  if !s.bit (F.MTR_EN p) || s.rung != 0 || !(chs.all fun k => s.modRuns (s.mtrPin p k) && s.bit (F.MOD_METEN (s.mtrPin p k)) && (s.min' (s.mtrPin p k)).setM) then s
  else
    let r := (List.range 7).map fun k => if chs.contains k then (raw.getD k 0).toInt else 0
    let s := if chs.any (fun k => r.getD k 0 == 0x7FFFFF || r.getD k 0 == -0x800000) then
        ((s.latch (F.MTR_SAT p)).sat (F.MTR_SATCNT p)).detect (0x7A + p)
      else s
    let m := s.mtrPort p
    let hist := (r :: m.raw).take 32
    let (ys, s) := (List.range 7).foldl (fun a k =>
      let (l, s) := (a : List F32 × State)
      if !chs.contains k then (l ++ [0], s)
      else
        let dly : Rat := if k = 0 then 0 else mkRat (lead.getD k 0 * 16000) 1000000000 + mkRat (sgn 16 (s.rd (F.MTR_DLY p k))) 4096
        let (x, s) : Rat × State :=
          if dly = 0 then (mkRat (r.getD k 0) (2 ^ 23), s)
          else if dly < 0 then (F32.toRat (Config.freeWord s.free), s.fresh)
          else (F32.toRat (Config.delayed (hist.map fun z => z.getD k 0) dly), s)
        let (y, s) := s.rnd (s.q (F.MTR_GAIN p k) * x - s.q (F.MTR_OFS p k))
        (l ++ [y], s)) ([], s)
    let h0 := ys :: m.hist
    let (qs, s) := (List.range 3).foldl (fun a k =>
      let (l, s) := (a : List F32 × State)
      let hv := Config.hilbert ((h0.take 127).map fun y => y.getD k 0)
      let (q, s) := s.rnd (F32.toRat hv * F32.toRat ((h0.getD 63 []).getD (3 + k) 0))
      (l ++ [q], s)) ([], s)
    let h := ((ys ++ qs) :: m.hist).take 400
    let s := s.setMtrPort p { m with raw := hist, hist := h, blk := m.blk.map fun b => ys :: b }
    let s := s.mtrCycle p (ys.getD (s.rd (F.MTR_REFPH p)) 0)
    let n := s.mtrNc p
    let s := s.each 3 fun s k => s.mtrPhase p k h n
    let (irn, s) := if chs.contains 6 then s.mtrRms p 6 h n else (0, s)
    let sum := fun (s : State) (f : Nat → Fld) => s.sumF ((List.range 3).map fun k => s.f32 (f k))
    let (pt, s) := sum s (F.MTR_M_P p)
    let (qt, s) := sum s (F.MTR_M_Q p)
    let (st, s) := sum s (F.MTR_M_S p)
    let (pf, s) := s.mtrPf pt st
    let s := (((s.wrF (F.MTR_M_IRMSN p) irn).wrF (F.MTR_M_PT p) pt).wrF (F.MTR_M_QT p) qt).wrF (F.MTR_M_ST p) st
    let s := s.wrF (F.MTR_M_PFT p) pf
    let t := ns64 (s.timeAgo (s.mtrDelay p : Nat))
    (s.ivalSample p t).mtrEnergy p t

/-- MTR_ZCTO (R341): ZCTO ms after the enable or the last crossing. In an episode only a lone crossing begins the time anew; the source
is raised once per episode. -/
def mtrZcto (s : State) (p : Nat) : State :=
  let on := s.bit (F.MTR_ZCTOF p)
  if !s.bit (F.MTR_EN p) || (on && (s.mtrPort p).xing.isNone) then s
  else
    let s := s.setMtrPort p { s.mtrPort p with xing := none, nc := 0, blk := none, cyc := 0 }
    let s := (((s.wr (F.MTR_ZCTOF p) 1).wr (F.MTR_M_FREQ p) 0).sat (F.MTR_ZCTOCNT p)).mtrLevels
    if on then s else s.detect (0x78 + p)

/-! Harmonics (R351, R352). -/

/-- X_h of channel `k` over a block (R351), oldest sample first. -/
def harmonic (s : State) (b : List (List F32)) (cyc k h : Nat) : F32 × State :=
  let n := b.length
  let term := fun (f : Rat → BitVec 32) => ((List.range n).map fun (i : Nat) =>
    F32.toRat ((b.getD i []).getD k 0) * F32.toRat (f (mkRat (h * cyc * i) (max 1 n)))).sum
  let re := term Config.cosTurns
  let im := term Config.sinTurns
  s.root (2 * (re * re + im * im) / ((max 1 n * max 1 n : Nat) : Rat))

/-- HARMONIC_BLOCK_DONE: the results of port `p` go to shared RAM. -/
def harmonicDone (s : State) (p : Nat) : State :=
  let m := s.mtrPort p
  match m.done with
  | none => s
  | some rb =>
    let b := rb.reverse
    let cyc := m.doneCyc
    let seq := (m.seq + 1) % 2 ^ 32
    let s := s.setMtrPort p { m with done := none, seq := seq }
    let base := sharedBase + 4 * (s.rd F.MTR_HBASE + 360 * p)
    let put := fun (s : State) (i : Nat) (w : Word) => s.write32 (base + 4 * i) w false
    let s := put s 0 (BitVec.ofNat 32 seq)
    let s := (List.range 7).foldl (fun s k =>
      let (xs, s) := (List.range 50).foldl (fun a h =>
        let (x, s') := a.2.harmonic b cyc k (h + 1)
        (a.1 ++ [x], s')) (([] : List F32), s)
      let s := (List.range 50).foldl (fun s h => put s (1 + 50 * k + h) (xs.getD h 0)) s
      let (r, s) := s.root (((xs.drop 1).map fun x => F32.toRat x * F32.toRat x).sum)
      let x1 := F32.toRat (xs.getD 0 0)
      let (thd, s) := if x1 = 0 then (0, s) else s.rnd (F32.toRat r / x1)
      put s (351 + k) thd) s
    (put (put s 359 0) 358 (BitVec.ofNat 32 seq)).ipulse Pg.MTR 3

/-! Snapshot and preset (R347, R348). -/

/-- The snapshot of every energy register; an increment of the same tick still joins it (R347). -/
def mtreSnap (s : State) : State :=
  let s := s.each 2 fun s p => (s.mtreTake p).setMtrPort p { (s.mtreTake p).mtrPort p with snapTk := some s.tick }
  ((s.wr64 F.MTRE_SNAPTLO s.now64).wrap F.MTRE_SNAPSEQ).ipulse Pg.MTRE 0

/-- A write of PRESETCTL (R15, R348). -/
def presetWrite (s : State) (a : Nat) (v : Word) : State × Status :=
  if !F.MTRE_PRESETGO.on v then s.genWrite a v
  else if s.bit (F.LOCK Pg.MTRE) then (s, .locked)
  else if 1 < s.modeNow then (s, .range)
  else
    let (s, st) := s.genWrite a v
    let p := s.rd F.MTRE_PREPORT
    let q := s.rd F.MTRE_PREQ
    let x := s.rd64 F.MTRE_PRESETLO
    let old := s.energyRaw p q
    let s := s.setEnergy p q (x * 2 ^ 32)
    let d : Int := (s.energyRaw p q : Int) - (old : Int)
    let s := s.ivalLast p fun v => { v with
      flags := v.flags ||| 16, chg := (List.range 8).map fun i => v.chg.getD i 0 + (if i = q then d else 0) }
    (s.jrnlAdd 6 2 0 0 0 (8 * p + q) 0 x, st)

/-- The write of a word of the MTRE page. -/
def mtreWrite (s : State) (a : Nat) (v : Word) : State × Status :=
  let o := a % 0x1000
  if o = 0x40 then (if F.MTRE_SNAPGO.on v then s.mtreSnap else s, .ok)
  else if o = 0x50 then s.presetWrite a v
  else s.genWrite a v

/-- The write of PCFG of port `p` (R337). -/
def mtrPcfg (s : State) (p a : Nat) (v : Word) : State × Status :=
  if s.bit (F.MTR_EN p) then (s, .busy)
  else if (F.MTR_REFPH p).of v = 3 || (F.MTR_ZCTO p).of v = 0 || 1000 < (F.MTR_ZCTO p).of v then (s, .range)
  else
    let (t, st) := s.genWrite a v
    if !t.bit (F.MTR_EN p) then (t, st)
    else if !(t.mtrChs p).all (fun k => t.bit (F.MOD_METEN (t.mtrPin p k))) then (s, .range)
    else
      let m := t.mtrPort p
      let t := t.setMtrPort p { ivals := m.ivals, started := m.started, sampled := m.sampled, seq := m.seq }
      (t.ivalOpen p t.now64, st)

/-- The write of a word of the MTR page. -/
def mtrWrite (s : State) (a : Nat) (v : Word) : State × Status :=
  let o := a % 0x1000
  if 0x40 ≤ o ∧ o < 0x60 then
    let k := (o - 0x40) / 0x10
    if o % 0x10 = 0 then
      let w := (F.MTR_PWID k).of (s.heldRwl a v)
      let n := (F.MTR_PWMIN k).of (s.heldRwl a v)
      let ok := 1 ≤ n && 1 ≤ w && w ≤ 2550 && n ≤ w
      if !ok then (s, .range)
      else
        let (s, st) := s.genWrite a v
        (if s.bit (F.MTR_PULEN k) then s else s.setPulse k { s.pulse k with active := false }, st)
    else if o % 0x10 = 4 then s.genIf a v (1000 ≤ (s.heldRwl a v).toNat)
    else s.genWrite a v
  else if o = 0x60 then s.genIf a v (F.MTR_HCYC.of v != 0 && F.MTR_HBASE.of v + 720 ≤ 0x3F000)
  else if 0x100 ≤ o ∧ o < 0x900 then
    let p := (o - 0x100) / 0x400
    let r := (o - 0x100) % 0x400
    if r = 0 then s.mtrPcfg p a v
    else if r = 4 || r = 8 then
      if s.bit (F.MTR_EN p) then (s, .busy)
      else s.genIf a v ((List.range 4).all fun i => decide (v.toNat / 2 ^ (8 * i) % 32 < 24) || (r == 8 && i == 3))
    else if r = 0xC then s.genIf a v (F32.isNonneg (s.heldRwl a v))
    else if r = 0x10 then (if (F.MTR_ICLOSE p).on v then s.intervalClose p else s, .ok)
    else if 0x40 ≤ r ∧ r < 0xB0 then
      if r % 0x10 = 8 then s.genWrite a v else s.genIf a v (let w := s.heldRwl a v; if r % 0x10 = 0xC then F32.isNonneg w else F32.isFin w)
    else if 0xC0 ≤ r ∧ r < 0xF0 then s.genIf a v (F32.isFin (s.heldRwl a v))
    else s.genWrite a v
  else s.genWrite a v

/-- MTR PCTL.SRST. -/
def mtrReset (s : State) : State :=
  let s := s.each 2 fun s p =>
    (s.setMtrPort p { s.mtrPort p with armed := false, zle := none, zab := none, xing := none, nc := 0, blk := none, cyc := 0 }).clear
      [F.MTR_ZCTOCNT p, F.MTR_SATCNT p]
  s.each 2 fun s k => s.clear [F.MTR_PEND k, F.MTR_PLOST k, F.MTR_PCNT k]

end State

/-- METROLOGY_SAMPLE: the results of the seven channels of port `p`, and their instants after that of VA in nanoseconds (R149, R338). -/
def execMetrologySample (p : Fin 2) (raw : List (BitVec 24)) (lead : List Int) (s : State) : Host.Outcome State Fault Refusal :=
  .next (s.mtrSample p raw lead)

/-- MTR_ZCTO: ZCTO ms without a crossing at port `p` (R341). -/
def execMtrZcto (p : Fin 2) (s : State) : Host.Outcome State Fault Refusal := .next (s.mtrZcto p)

/-- INTERVAL_CLOSE: a write of ICTL of port `p` with ICLOSE set (R349). -/
def execIntervalClose (p : Fin 2) (v : Word) (s : State) : Host.Outcome State Fault Refusal :=
  let v := (F.MTR_ICLOSE p).put v 1
  .next (s.hostWord (0x48110 + 0x400 * p) v fun s => s.mtrWrite (0x48110 + 0x400 * p) v)

/-- INTERVAL_RECORD_PUBLISH: the last sample of the oldest closed interval of port `p` has been processed (R349). -/
def execIntervalRecordPublish (p : Fin 2) (s : State) : Host.Outcome State Fault Refusal := .next (s.ivalPublish p)

/-- HARMONIC_BLOCK_DONE: the analysis of port `p` completes (R352). -/
def execHarmonicBlockDone (p : Fin 2) (s : State) : Host.Outcome State Fault Refusal := .next (s.harmonicDone p)

/-- PULSE_EMIT on output `k`, 0 MPA and 1 MPQ (R355). -/
def execPulseEmit (k : Fin 2) (s : State) : Host.Outcome State Fault Refusal := .next (s.pulseEmit k)

/-- PULSE_END on output `k` (R355). -/
def execPulseEnd (k : Fin 2) (s : State) : Host.Outcome State Fault Refusal := .next (s.pulseEnd k)

/-- MTRE_SNAPSHOT: a write of MTRE.SNAP with GO set (R347). -/
def execMtreSnapshot (v : Word) (s : State) : Host.Outcome State Fault Refusal :=
  let v := F.MTRE_SNAPGO.put v 1
  .next (s.hostWord (Pg.MTRE + 0x40) v fun s => s.mtreWrite (Pg.MTRE + 0x40) v)

/-- ENERGY_PRESET: a write of MTRE.PRESETCTL with GO set (R348). -/
def execEnergyPreset (v : Word) (s : State) : Host.Outcome State Fault Refusal :=
  let v := F.MTRE_PRESETGO.put v 1
  .next (s.hostWord (Pg.MTRE + 0x50) v fun s => s.mtreWrite (Pg.MTRE + 0x50) v)

end Sys2Proof.Machine
end

