-- ==== Sys2Proof/Machine/Clock.lean ====
section
/-! DEFINITION. The PLL and its clock tests (R59 to R64), the time counters, leaps and domain switches (R65 to R75), the egress
timestamp FIFOs (R80) and the pulses per second (R81, R82). -/

namespace Sys2Proof.Machine
namespace State

/-- The test of R59 on staged values, in units of 2^-24 Hz × REFDIV: f_ref / REFDIV in 20 to 40 MHz and f_VCO in 3.996 to 4.004 GHz. -/
def pllOk (src refdiv n frac : Nat) : Bool :=
  let f := if src = 0 then 25000000 else 156250000
  let m := n * 2 ^ 24 + frac
  1 ≤ refdiv && refdiv ≤ 8 && 20000000 * refdiv ≤ f && f ≤ 40000000 * refdiv &&
  3996000000 * refdiv * 2 ^ 24 ≤ f * m && f * m ≤ 4004000000 * refdiv * 2 ^ 24

/-- A write of CLK.UPDATE (R60, R61). -/
def clkUpdWrite (s : State) (v : Word) : State × Status :=
  if !F.CLK_UPDGO.on v || s.bit F.CLK_UPDGO then (s, .ok)
  else
    let src := s.rd F.CLK_SRC
    let rd := s.rd F.CLK_REFDIV
    let n := s.rd F.CLK_N
    let fr := s.rd F.CLK_FRAC
    let moved := src != s.clk.src || rd != s.clk.refdiv
    if !pllOk src rd n fr || (moved && s.modeNow != 0) then (s, .range)
    else
      let s := { s with clk := { s.clk with src := src, refdiv := rd, n := n, frac := fr } }
      if moved then
        (({ s with clk := { s.clk with relocking := true, stopped := true } }.wr F.CLK_UPDGO 1).wr F.CLK_LOCK 0 |>.mclkSync, .ok)
      else (s, .ok)

/-- CLK_UNLOCK is raised unless a relock suspends the tests or no clock runs (R63, R64). -/
def clkUnlockRaise (s : State) : State := if s.clk.relocking || 3 ≤ s.rung then s else s.detect 0x03

/-- The selected reference runs: in every rung but DORMANT, which has no clock (R64, R95). -/
def refRuns (s : State) : Bool := s.rung < 4

/-- The relock of R61 ends: the outputs restart. -/
def clkRelocked (s : State) : State :=
  if !s.clk.relocking then s
  else
    let s := { s with clk := { s.clk with relocking := false, stopped := false } }
    (((s.wr F.CLK_LOCK 1).latch F.CLK_RELOCKED).wr F.CLK_UPDGO 0).mclkResume

/-! Time. -/

/-- The increment register of counter `k`. -/
def incFld (k : Nat) : Fld := if k = 0 then F.TIME_INCF else if k = 1 then F.TIME_INCA else F.TIME_INCB

/-- The servo of domain `d` (0 A, 1 B) has shown activity (R74). -/
def servoSeen (s : State) (d : Nat) : State :=
  if d = 0 then { s with time := { s.time with srvA := s.tick } } else { s with time := { s.time with srvB := s.tick } }

/-- A write of INCF, INCA or INCB (R66), which for A and B is activity of the domain (R74). -/
def incWrite (s : State) (k : Nat) (v : Word) : State × Status :=
  if 0x7FDF3B64 ≤ v.toNat ∧ v.toNat ≤ 0x8020C49C then
    let s := s.setReg (incFld k).addr v
    (if k = 0 then s else s.servoSeen (k - 1), .ok)
  else (s, .range)

/-- The signed difference of two counter values, the nearer way round. -/
def timeDiff (x y : Nat) : Int :=
  let d := ((x : Int) - (y : Int)) % (timeSpan : Int)
  if 2 * d < (timeSpan : Int) then d else d - (timeSpan : Int)

/-- The switch of device time to counter `k`, in its tick (R72, R73): the refusal's reason or the switch with its slew. -/
def timeSwitch (s : State) (k : Nat) : State :=
  if k = s.rd F.TIME_ACTIVE then s
  else
    let d := timeDiff (s.counter k) s.devTime
    let win := s.rd F.TIME_SLEWWIN
    if k = 3 then s.wr F.TIME_SWREF 3
    else if (k = 1 && !s.bit F.TIME_AEN) || (k = 2 && !s.bit F.TIME_BEN) then s.wr F.TIME_SWREF 2
    else if win * 500 * 2 ^ 30 < d.natAbs then s.wr F.TIME_SWREF 1
    else
      let s := { s with time := { s.time with slew := d, slewLen := win * 500000, slewAt := 0 } }
      (s.wr F.TIME_ACTIVE k).setBit F.TIME_SLEWING (d != 0)

/-- A value is written to ACTIVE: the switch is made, or refused, in the following tick (R72); a later write of the same tick takes its
place. -/
def activeWrite (s : State) (k : Nat) : State :=
  { s with time := { s.time with switchTo := if k = s.rd F.TIME_ACTIVE then none else some k } }

/-- TIME.CTL.SNAP (R65): device time, A, B, F and the 64-bit form in one tick. -/
def timeSnap (s : State) : State :=
  let s' := (((s.putTime 0x2060 s.devTime).putTime 0x2070 s.time.a).putTime 0x2080 s.time.b).putTime 0x2090 s.time.f
  s'.wr64 F.TIME_DT64LO s.now64

/-- A write of TIME.CTL: the snapshot of this tick, then the switch of the next (R65, R72). A refused switch shows in SWREF only, and
the write completes OK (log 12). -/
def timeCtlWrite (s : State) (v : Word) : State × Status :=
  let s := if F.TIME_SNAPGO.on v then s.timeSnap else s
  (s.activeWrite (F.TIME_ACTIVE.of v), .ok)

/-- A write of TIME.LEAPCTL (R70, R71): while a leap is pending its target is held; CANCEL withdraws it. -/
def leapCtlWrite (s : State) (v : Word) : State × Status :=
  let tgt := F.TIME_LEAPTGT.of v
  if s.bit F.TIME_LEAPARM then
    if F.TIME_LEAPCANCEL.on v then ((s.wr F.TIME_LEAPARM 0).wr F.TIME_LEAPPEND 0, .ok)
    else if tgt != s.rd F.TIME_LEAPTGT then (s, .busy) else (s, .ok)
  else if F.TIME_LEAPARM.on v then
    if tgt = 3 || 999999999 < (sgn 32 (s.rd F.TIME_LEAPNS)).natAbs then (s, .range)
    else (((s.wr F.TIME_LEAPTGT tgt).wr F.TIME_LEAPARM 1).wr F.TIME_LEAPPEND 1, .ok)
  else (s.wr F.TIME_LEAPTGT tgt, .ok)

/-- The entry in force `t` nanoseconds into the cycle, counted from entry `i`. -/
def gateAt (t i : Nat) : List Word → Nat
  | [] => i
  | [_] => i
  | w :: r => let n := w.toNat % 2 ^ 24 * 8; if t < n then i else gateAt (t - n) (i + 1) r

/-- The operative entries of port `p`. -/
def gateEnts (s : State) (p : Nat) : List Word := (List.range (s.rd (F.NETQ_OPLEN p))).map fun e => s.reg (F.NETQ_OPENT p e).addr

/-- The place of device time in the cycle of port `p`. -/
def gateOff (s : State) (p : Nat) : Nat :=
  (((s.now64 : Int) - ((s.port p).base : Int)) % ((s.port p).cyc : Int)).toNat

/-- A leap of device time moves the entry in force (R365) and marks the frames being filled (R374). -/
def netLeap (s : State) : State :=
  let s := s.each 2 fun s p =>
    let l := s.gateEnts p
    if l.isEmpty then s else s.wr (F.NETQ_OPIDX p) (gateAt (s.gateOff p) 0 l)
  s.each 8 fun s k => if (s.strm k).cur.isEmpty then s else s.setStrm k { s.strm k with leap := true }

/-- LEAP_APPLY (R70, R71): when device time has reached LEAPAT the offset is added, and the leap is journalled with its counter, its
offset and the time before it. One of device time moves the gates (R365). -/
def leapApply (s : State) : State :=
  if s.bit F.TIME_LEAPARM && reached 64 s.now64 (s.rd64 F.TIME_LEAPATLO) then
    let k := s.rd F.TIME_LEAPTGT
    let fr := s.rd F.TIME_LEAPFRAC
    let off : Int := sgn 32 (s.rd F.TIME_LEAPSEC) * (secUnits : Int) + sgn 32 (s.rd F.TIME_LEAPNS) * 2 ^ 30 + (fr * 2 ^ 14 : Nat)
    let s := if k = s.rd F.TIME_ACTIVE then { s with isl := { s.isl with z0 := { s.isl.z0 with bad := true }, z1 := { s.isl.z1 with bad := true } } } else s
    let s := s.jrnlAdd 5 k 0 0 0 0 fr (s.rd F.TIME_LEAPSEC * 2 ^ 32 + s.rd F.TIME_LEAPNS)
    let s := ((s.setCounter k (timeAdd (s.counter k) off)).wr F.TIME_LEAPARM 0).wr F.TIME_LEAPPEND 0
    if k = s.rd F.TIME_ACTIVE then s.netLeap else s
  else s

/-- The egress timestamp FIFO of port `p`. -/
def txFifo (s : State) (p : Nat) : List TxStamp := if p = 0 then s.time.fifoA else s.time.fifoB
def setTxFifo (s : State) (p : Nat) (l : List TxStamp) : State :=
  if p = 0 then { s with time := { s.time with fifoA := l } } else { s with time := { s.time with fifoB := l } }

/-- An egress timestamp is queued, or dropped and counted when the FIFO is full (R80). -/
def txPush (s : State) (p : Nat) (t : TxStamp) : State :=
  if (s.txFifo p).length < 8 then s.setTxFifo p (s.txFifo p ++ [t]) else s.sat (if p = 0 then F.TIME_OVFA else F.TIME_OVFB)

/-- A write of the transmit timestamp register: POP loads the oldest entry of the selected port. -/
def txPopWrite (s : State) (v : Word) : State × Status :=
  let p := F.TIME_TXPORT.of v
  let s := s.wr F.TIME_TXPORT p
  if !F.TIME_POP.on v then (s, .ok)
  else
    match s.txFifo p with
    | [] => (s.wr F.TIME_TXVALID 0, .ok)
    | t :: r =>
      let s := s.setTxFifo p r
      let s := ((((s.wr F.TIME_TXVALID 1).wr F.TIME_TXSRC t.src).wr F.TIME_TXMSGTYPE t.msgType).wr F.TIME_TXDOMAIN t.domain).wr
        F.TIME_TXSEQID t.seqId
      let sec := t.time / secUnits
      let sub := t.time % secUnits
      ((((s.wr F.TIME_TXSECLO sec).wr F.TIME_TXNS (sub / 2 ^ 30)).wr F.TIME_TXFRAC (sub % 2 ^ 30 / 2 ^ 14)).wr F.TIME_TXSECHI
        (sec / 2 ^ 32), .ok)

/-- A counter's time `sub` sixteenths of a tick after the last tick. -/
def subTick (s : State) (k sub : Nat) : Int := ((s.rd (incFld k) * sub / 16 : Nat) : Int)

/-- PPS_IN_EDGE (R81): `sub` is the place of the edge in its tick, in steps of 125 ps. The previous edge is the last
one that was captured: an ignored edge does not start the 100 ms anew (log 35). -/
def ppsIn (s : State) (falling : Bool) (sub : Nat) : State :=
  let near := match s.time.lastPps with
    | none => false
    | some t => decide (s.tick - t < 50000000)
  if !s.bit F.TIME_INEN || s.bit F.TIME_INEDGE != falling || near then s
  else
    let s := { s with time := { s.time with lastPps := some s.tick, ppsF := timeAdd s.time.f (s.subTick 0 sub) } }
    let s := s.putTime 0x2120 (timeAdd s.devTime (s.subTick (s.rd F.TIME_ACTIVE) sub))
    let s := s.putTime 0x2130 (timeAdd s.time.a (s.subTick 1 sub))
    let s := s.putTime 0x2140 (timeAdd s.time.b (s.subTick 2 sub))
    (s.wrap F.TIME_PPSCNT).latch F.TIME_PPSNEW

/-- The counter selected by OUTSRC; code 3 names none (R82, log 35). -/
def ppsSource (s : State) : Option Nat :=
  let k := s.rd F.TIME_OUTSRC
  if k = 0 then some s.devTime else if k = 1 then some s.time.a else if k = 2 then some s.time.b else none

/-- The number of whole seconds plus PPSOFS that a time has passed (R82). -/
def ppsIndex (s : State) (t : Nat) : Int := ((t : Int) - sgn 32 (s.rd F.TIME_PPSOFS) * 2 ^ 30) / (secUnits : Int)

/-- In each tick: a pulse is due when the source of PPS_OUT has passed a whole second plus PPSOFS since the tick before, one pulse however
many it has passed (R82). -/
def ppsTick (s : State) : State :=
  match s.ppsSource with
  | none => { s with time := { s.time with ppsMark := none } }
  | some t =>
    let i := s.ppsIndex t
    let new := s.bit F.TIME_OUTEN && s.time.ppsMark.any fun m => decide (m < i)
    { s with time := { s.time with ppsMark := some i, ppsDue := s.time.ppsDue || new } }

/-- PPS_OUT_PULSE (R82): a due pulse rises; PPSWIDTH is taken here. -/
def ppsPulse (s : State) : State :=
  if s.bit F.TIME_OUTEN && s.phase == .up && s.time.ppsDue then
    { s with time := { s.time with ppsOut := true, ppsDue := false, ppsEnd := s.tick + 500 * s.rd F.TIME_PPSWIDTH } }
  else s

/-- PPS_OUT_PULSE_END (R82). -/
def ppsFall (s : State) : State := if s.time.ppsEnd ≤ s.tick then { s with time := { s.time with ppsOut := false } } else s

/-- A change of the source or of the offset of PPS_OUT: the seconds are counted anew; with OUTEN clear the ball is low (R82). -/
def ppsMoved (s : State) : State :=
  let on := s.bit F.TIME_OUTEN
  { s with time := { s.time with ppsMark := none, ppsDue := s.time.ppsDue && on, ppsOut := s.time.ppsOut && on } }

/-- A write of a trigger slot's control word (R83). -/
def trgWrite (s : State) (n : Nat) (v : Word) : State × Status :=
  if s.bit (F.TIME_TRGARM n) then (s, .busy)
  else
    let arm := (F.TIME_TRGARM n).on v
    let t := (F.TIME_TRGTGT n).of v
    if arm && (t < 1 || 3 < t) then (s, .range)
    else
      let late := arm && reached 64 s.now64 (s.rd64 ⟨0x2160 + 0x10 * n, 31, 0⟩)
      let s := ((s.wr (F.TIME_TRGTGT n) t).wr (F.TIME_TRGARG n) ((F.TIME_TRGARG n).of v)).setBit (F.TIME_TRGARM n) arm
      ({ s with time := { s.time with trgAt := SMap.set (fun _ => 0) s.time.trgAt n (if late then s.tick + 1 else 0) } }, .ok)

/-- The write of a word of the TIME page whose effect is not the plain one (SERVO writes apart). -/
def timeWrite (s : State) (a : Nat) (v : Word) : State × Status :=
  let o := a % 0x1000
  if o = 0x40 then s.timeCtlWrite v
  else if o = 0x48 then s.genIf a v (1 ≤ v.toNat % 2 ^ 16 && v.toNat % 2 ^ 16 ≤ 60000)
  else if o = 0x50 then s.incWrite 0 v
  else if o = 0x54 then s.incWrite 1 v
  else if o = 0x58 then s.incWrite 2 v
  else if o = 0xB0 then s.leapCtlWrite v
  else if 0xB4 ≤ o ∧ o ≤ 0xC4 then (if s.bit F.TIME_LEAPARM then (s, .busy) else s.genWrite a v)
  else if o = 0xF0 then s.txPopWrite v
  else if o = 0x110 then
    let r := s.genWrite a v
    (r.1.ppsMoved, r.2)
  else if o = 0x114 then s.genIf a v (1 ≤ v.toNat % 2 ^ 19 && v.toNat % 2 ^ 19 ≤ 500000)
  else if o = 0x118 then
    let r := s.genIf a v ((sgn 32 v.toNat).natAbs ≤ 1000000)
    (r.1.ppsMoved, r.2)
  else if 0x160 ≤ o ∧ o < 0x1A0 then
    let n := (o - 0x160) / 0x10
    if o % 0x10 = 8 then s.trgWrite n v
    else if s.bit (F.TIME_TRGARM n) && o % 0x10 < 8 then (s, .busy) else s.genWrite a v
  else s.genWrite a v

/-- The write of a word of the CLK page. -/
def clkWrite (s : State) (a : Nat) (v : Word) : State × Status :=
  if a % 0x1000 = 0x4C then s.clkUpdWrite v else s.genWrite a v

/-- The increments of one tick: 20 in VIGIL's 40 ns tick (R66). -/
def tickLen (s : State) : Nat := if s.rung = 2 then 20 else 1

/-- Step 1 of R69: the counters advance (R66). -/
def timeCount (s : State) : State :=
  let m := s.tickLen
  { s with time := { s.time with
      f := timeAdd s.time.f ((m * s.rd F.TIME_INCF : Nat) : Int)
      a := timeAdd s.time.a ((m * s.rd F.TIME_INCA : Nat) : Int)
      b := timeAdd s.time.b ((m * s.rd F.TIME_INCB : Nat) : Int) } }

/-- Step 3 of R69: a due switch, whose slew begins here, or the slew step (R72). -/
def timeSlew (s : State) : State :=
  match s.time.switchTo with
  | some k => { s with time := { s.time with switchTo := none, slewAt := min s.time.slewLen (s.time.slewAt + s.tickLen) } }.timeSwitch k
  | none => { s with time := { s.time with slewAt := min s.time.slewLen (s.time.slewAt + s.tickLen) } }

/-- One tick of device time: the increments, a due leap, a due switch and the slew step (R69), and the seconds of PPS_OUT. Nothing counts
while the clock outputs are stopped, in FAST and DORMANT, and before the load at boot (R61, R75). -/
def timeTick (s : State) : State := if s.timeRuns then s.timeCount.leapApply.timeSlew.ppsTick else s

end State

/-- LEAP_APPLY: the due leap is applied (R70). -/
def execLeapApply (s : State) : Host.Outcome State Fault Refusal := .next s.leapApply

/-- CLK_UPDATE: a write of CLK.UPDATE (R60, R61). -/
def execClkUpdate (v : Word) (s : State) : Host.Outcome State Fault Refusal :=
  .next (s.hostWord 0x104C v fun s => s.clkUpdWrite v)

/-- CLK_RELOCK_DONE: the relock of R61 ends. -/
def execClkRelockDone (s : State) : Host.Outcome State Fault Refusal := .next s.clkRelocked

/-- CLK_RELOCK_TIMEOUT: LOCK still reads 0 200 µs after the update began (R64). -/
def execClkRelockTimeout (s : State) : Host.Outcome State Fault Refusal :=
  .next (if s.clk.relocking && !s.bit F.CLK_LOCK then s.detect 0x03 else s)

/-- CLK_REFLOSS: the selected reference has stopped for 4 µs (R63); nothing follows while it is already lost, nor in a rung in which it
does not run (R64). -/
def execClkRefloss (s : State) : Host.Outcome State Fault Refusal :=
  .next (if s.bit F.CLK_REFOK && s.refRuns then ((s.wr F.CLK_REFOK 0).wr F.CLK_HOLD 1).detect 0x02 else s)

/-- CLK_UNLOCK: the PLL loses lock (R63); in FAST and DORMANT no test runs (R64). -/
def execClkUnlock (s : State) : Host.Outcome State Fault Refusal :=
  .next (if s.bit F.CLK_LOCK && s.rung < 3 then (s.wr F.CLK_LOCK 0).clkUnlockRaise else s)

/-- CLK_FREQ_FAULT: the core clock has left its band for 10 µs (R63, R64). -/
def execClkFreqFault (s : State) : Host.Outcome State Fault Refusal := .next s.clkUnlockRaise

/-- REFERENCE_RETURN: the reference resumes, REFOK reads 1 and the hold ends (R63). -/
def execReferenceReturn (s : State) : Host.Outcome State Fault Refusal := .next ((s.wr F.CLK_REFOK 1).wr F.CLK_HOLD 0)

/-- TIME_INCREMENT_WRITE: a write of the increment of counter `k` (0 F, 1 A, 2 B; R66). -/
def execTimeIncrementWrite (k : Fin 3) (v : Word) (s : State) : Host.Outcome State Fault Refusal :=
  .next (s.hostWord (State.incFld k).addr v fun s => s.incWrite k v)

/-- LEAP_ARM: a write of LEAPCTL with ARM set (R70, R71). -/
def execLeapArm (v : Word) (s : State) : Host.Outcome State Fault Refusal :=
  let v := F.TIME_LEAPARM.put v 1
  .next (s.hostWord 0x20B0 v fun s => s.leapCtlWrite v)

/-- LEAP_CANCEL: a write of LEAPCTL with CANCEL set (R71). -/
def execLeapCancel (v : Word) (s : State) : Host.Outcome State Fault Refusal :=
  let v := F.TIME_LEAPCANCEL.put v 1
  .next (s.hostWord 0x20B0 v fun s => s.leapCtlWrite v)

/-- DOMAIN_SWITCH: a write of TIME.CTL with a value of ACTIVE (R72, R73). -/
def execDomainSwitch (v : Word) (s : State) : Host.Outcome State Fault Refusal :=
  .next (s.hostWord 0x2040 v fun s => s.timeCtlWrite v)

/-- SLEW_END: the residual has fallen to zero (R72). -/
def execSlewEnd (s : State) : Host.Outcome State Fault Refusal :=
  .next (if s.slewNow = 0 then s.wr F.TIME_SLEWING 0 else s)

/-- TIME_SNAP: a write of TIME.CTL with SNAP set (R65). -/
def execTimeSnap (v : Word) (s : State) : Host.Outcome State Fault Refusal :=
  let v := F.TIME_SNAPGO.put v 1
  .next (s.hostWord 0x2040 v fun s => s.timeCtlWrite v)

/-- TXTS_FIFO_POP: a write of the transmit timestamp register with POP set (R80). -/
def execTxtsFifoPop (v : Word) (s : State) : Host.Outcome State Fault Refusal :=
  let v := F.TIME_POP.put v 1
  .next (s.hostWord 0x20F0 v fun s => s.txPopWrite v)

/-- PPS_IN_EDGE: an edge of PPS_IN, `sub` × 125 ps into its tick (R81). -/
def execPpsInEdge (falling : Bool) (sub : Fin 16) (s : State) : Host.Outcome State Fault Refusal := .next (s.ppsIn falling sub)

/-- PPS_OUT_PULSE: PPS_OUT rises, when it is enabled and its source has passed a second (R82). -/
def execPpsOutPulse (s : State) : Host.Outcome State Fault Refusal := .next s.ppsPulse

/-- PPS_OUT_PULSE_END: PPS_OUT falls after PPSWIDTH (R82). -/
def execPpsOutPulseEnd (s : State) : Host.Outcome State Fault Refusal := .next s.ppsFall

/-- TRIGGER_SLOT_ARM: a write of the control word of slot `n` with ARM set (R83). -/
def execTriggerSlotArm (n : Fin 4) (v : Word) (s : State) : Host.Outcome State Fault Refusal :=
  let v := (F.TIME_TRGARM n).put v 1
  .next (s.hostWord (0x2168 + 0x10 * n) v fun s => s.trgWrite n v)

end Sys2Proof.Machine
end

