-- ==== Sys2Proof/Machine/Trig.lean ====
section
/-! DEFINITION. The trigger slots and their targets (R83), and the order of the time-driven steps within a tick (R69). -/

namespace Sys2Proof.Machine
namespace State

/-- CARRIER_RESTART of channel `c` (R83 target 1): a CPWM counter stands at zero counting up; a leg in fallback leaves it for a new
period, at once or, while its cell is held, in the tick of release (R201). Any other period ends as it would. A channel number above 7
names no leg (log 35). -/
def carrierRestart (s : State) (c : Nat) : State :=
  (s.legsOf c).foldl (fun s n =>
    let l := s.leg n
    let md := s.rd (F.LEG_MODE n)
    if md = 1 then
      (if s.ctrRuns n then
        (s.setLeg n { l with up := true, ctrFirst := true, ctrPh := 0, ctrAt := 16 * s.tick }).setCmd n
          (if s.rd (F.LEG_ACT_PER n) ≤ l.cUse && l.cUse != 0 then .hi else .lo) (16 * s.tick)
      else s)
    else if md = 2 && s.bit (F.LEG_FB n) then
      (if s.legRuns n then s.fbLeave n 0 else (s.setLeg n { l with ctrOn := false }).wr (F.LEG_FB n) 0)
    else s) s

/-- Slot `n` is armed and device time has reached its value, which in the tick of its arming it had not already (R83). -/
def trgDue (s : State) (n : Nat) : Bool :=
  s.bit (F.TIME_TRGARM n) && reached 64 s.now64 (s.rd64 ⟨0x2160 + 0x10 * n, 31, 0⟩) &&
  SMap.get (fun _ => 0) s.time.trgAt n != s.tick + 1

/-- Slot `n` fires when it is due, and clears ARM (R83). Target 3 writes the two bits of ACTIVE (log 35). -/
def trgOne (s : State) (n : Nat) : State :=
  if !s.trgDue n then s
  else
    let s := s.wr (F.TIME_TRGARM n) 0
    let t := s.rd (F.TIME_TRGTGT n)
    let arg := s.rd (F.TIME_TRGARG n)
    if t = 1 then s.carrierRestart arg else if t = 2 then s.mclkAlign else if t = 3 then s.activeWrite (arg % 4) else s

/-- What R69 puts before a step of the present tick: a due leap and the first `n` slots. -/
def timeOrder (s : State) (n : Nat) : State := s.leapApply.each n trgOne

/-- TRIGGER_SLOT_FIRE of slot `n`: after a due leap and the slots before it (R69). -/
def trgFire (s : State) (n : Nat) : State := (s.timeOrder n).trgOne n

end State

/-- TRIGGER_SLOT_FIRE: device time has reached the value of slot `n` (R83). -/
def execTriggerSlotFire (n : Fin 4) (s : State) : Host.Outcome State Fault Refusal := .next (s.trgFire n)

end Sys2Proof.Machine
end

