-- ==== Sys2Proof/Machine/Net.lean ====
section
/-! DEFINITION. The network ports and the switch (R356 to R367, R376): links, frames and their timestamps (R76 to R80), queues and
gates, the host rings. A frame is its bytes from DA on, without its FCS (log 27). -/

namespace Sys2Proof.Machine

/-! Frames. -/

/-- `n` bytes of a frame from offset `o`, most significant first. -/
def frAt (l : List Byte) (o n : Nat) : Nat := beVal ((l.drop o).take n)

/-- Bytes of a frame replaced from offset `o` on. -/
def frPut (l : List Byte) (o : Nat) (b : List Byte) : List Byte := l.take o ++ b ++ l.drop (o + b.length)

/-- The frame carries an IEEE 802.1Q tag; where its payload begins; its Ethertype; its PCP. -/
def frTag (l : List Byte) : Bool := frAt l 12 2 == 0x8100
def frHdr (l : List Byte) : Nat := if frTag l then 18 else 14
def frType (l : List Byte) : Nat := frAt l (frHdr l - 2) 2
def frPcp (l : List Byte) : Nat := frAt l 14 1 / 32

/-- The PTP message of a frame (Ethertype 0x88F7): its messageType and domainNumber. -/
def frPtp (l : List Byte) : Option (Nat × Nat) :=
  if frType l = 0x88F7 ∧ frHdr l + 34 ≤ l.length then some (frAt l (frHdr l) 1 % 16, frAt l (frHdr l + 4) 1) else none

/-- The message type of an event message. -/
def frEvent (l : List Byte) : Option Nat :=
  match frPtp l with
  | some (t, _) => if t < 4 then some t else none
  | none => none

/-- A MAC address from its two registers' fields. -/
def macOf (lo hi : Nat) : Nat := hi * 2 ^ 32 + lo

namespace State

/-- The device's own frames (R368): 1 setpoint, 2 streaming, 3 safety, 0 another. -/
def frKind (s : State) (l : List Byte) : Nat :=
  let h := frHdr l
  if frType l = s.rd F.NET_ETYPE ∧ frAt l h 1 = 1 ∧ h + 2 ≤ l.length ∧ frAt l (h + 1) 1 ≤ 3 then frAt l (h + 1) 1 else 0

/-- The device takes part in switching (R358). -/
def netUp (s : State) : Bool := s.phase == .up && s.rung ≤ 1

/-- Line rate of a mode, in tenths of a nanosecond a byte. -/
def byteTime (mode : Nat) : Nat := if mode = 1 then 8 else if mode = 2 then 32 else 80

/-! Links (R356, R358). -/

/-- LINK of port `p` falls; with MODE non-zero it counts and is raised (R358). -/
def linkFall (s : State) (p : Nat) : State :=
  if !s.bit (F.NET_PSTAT_LINK p) then s
  else
    let s := (s.wr (F.NET_PSTAT_LINK p) 0).ipulse Pg.NET p
    if s.rd (F.NET_PCFG_MODE p) = 0 then s else (s.sat (F.NET_PSTAT_LINKDN p)).detect (0x7D + p)

/-- Both SerDes go off (R358). -/
def netDown (s : State) : State := s.each 2 fun s p => (s.linkFall p).wr (F.NET_PSTAT_SYNC p) 0

/-- A write of a port's PCFG (R356). -/
def pcfgWrite (s : State) (p a : Nat) (v : Word) : State × Status :=
  let m := (F.NET_PCFG_MODE p).of v
  let old := s.rd (F.NET_PCFG_MODE p)
  if (m = 1 && s.variant == .vnk8232) || (m != 0 && !s.bit (F.NET_PSTAT_REFOK p)) then (s, .range)
  else
    let r := s.genWrite a v
    (if m != old then (r.1.linkFall p).wr (F.NET_PSTAT_SYNC p) 0 else r.1, r.2)

/-! Timestamps (R76, R77). -/

/-- The counter an event message is stamped on: 0 device time, 1 A, 2 B. -/
def stampCtr (s : State) (l : List Byte) : Nat :=
  match frPtp l with
  | some (_, d) =>
    if s.bit F.TIME_AEN && d == s.rd F.TIME_DOMNUMA then 1 else if s.bit F.TIME_BEN && d == s.rd F.TIME_DOMNUMB then 2 else 0
  | none => 0

/-- Counter `k` `n` steps of 125 ps after this tick, moved by `asym` × 2^-16 ns. -/
def stamp (s : State) (k : Nat) (n asym : Int) : Nat :=
  let inc := s.rd (incFld (if k = 0 then s.rd F.TIME_ACTIVE else k))
  let t := if k = 0 then s.devTime else s.counter k
  timeAdd t (n * (inc : Int) / 16 + asym * 2 ^ 14)

/-- The asymmetry registers of port `p`. -/
def ingAsym (s : State) (p : Nat) : Int := sgn 32 (s.rd (if p = 0 then F.TIME_PA_INGASYM else F.TIME_PB_INGASYM))
def egAsym (s : State) (p : Nat) : Int := sgn 32 (s.rd (if p = 0 then F.TIME_PA_EGASYM else F.TIME_PB_EGASYM))

/-! Gates (R364). -/

/-- The segments of a cycle as gate byte and nanoseconds: cut at the cycle's end, the last one lasting until it. -/
def gateSegs (cyc : Nat) : Nat → List Word → List (Nat × Nat)
  | _, [] => []
  | t, [w] => if t < cyc then [(w.toNat / 2 ^ 24, cyc - t)] else []
  | t, w :: r =>
    let n := w.toNat % 2 ^ 24 * 8
    if t < cyc then (w.toNat / 2 ^ 24, min n (cyc - t)) :: gateSegs cyc (t + n) r else []

/-- The segments left after `t` nanoseconds. -/
def segDrop : Nat → List (Nat × Nat) → List (Nat × Nat)
  | _, [] => []
  | t, (g, n) :: r => if t < n then (g, n - t) :: r else segDrop (t - n) r

/-- How long the gate of queue `q` stays open along the segments. -/
def segOpen (q : Nat) : List (Nat × Nat) → Nat
  | [] => 0
  | (g, n) :: r => if n = 0 then segOpen q r else if g / 2 ^ q % 2 = 1 then n + segOpen q r else 0

/-- A frame of `len` bytes, with its FCS, completes on port `p` at line rate within `t` nanoseconds. -/
def lineFits (s : State) (p len t : Nat) : Bool := (len + 4) * byteTime (s.rd (F.NET_PCFG_MODE p)) ≤ t * 10

/-- How long the gate of queue `q` stays open from a place in its cycle, the segments left of this cycle first; none: for ever. -/
def openFor (q : Nat) (here segs : List (Nat × Nat)) : Option Nat :=
  if segs.all fun e => e.1 / 2 ^ q % 2 == 1 then none else some (segOpen q (here ++ segs))

/-- The gate of queue `q` is open now, for the whole of a frame; a pending list takes over at its instant (R365); of an empty list the
state is free (log 6). -/
def gateFits (s : State) (p q len : Nat) : Bool :=
  if !s.bit (F.NETQ_GEN p) then true
  else if s.rd (F.NETQ_OPLEN p) = 0 then Config.freeBit s.free
  else
    let segs := gateSegs (s.port p).cyc 0 (s.gateEnts p)
    let here := openFor q (segDrop (s.gateOff p) segs) segs
    let now := (s.reg (F.NETQ_OPENT p (s.rd (F.NETQ_OPIDX p))).addr).toNat / 2 ^ (24 + q) % 2 == 1
    let long := match (s.port p).pend with
      | none => here
      | some g =>
        let left := (sdiff 64 g.start s.now64).toNat
        if here.any (· < left) then here
        else (openFor q [] (gateSegs g.cyc 0 g.ents)).map (left + ·)
    now && match long with
      | none => true
      | some t => s.lineFits p len t

/-- Some opening of the cycle takes the frame. -/
def gateEver (s : State) (p q len : Nat) : Bool :=
  let segs := gateSegs (s.port p).cyc 0 (s.gateEnts p)
  segs.all (fun e => e.1 / 2 ^ q % 2 == 1) ||
  (List.range segs.length).any fun i => s.lineFits p len (segOpen q ((segs.drop i) ++ segs))

/-! Queues (R361 to R363, R375). -/

/-- Samples of a stream are lost (R375). -/
def strmLost (s : State) (k n : Nat) : State :=
  let s := (s.satBy (F.STRM_LOST k) n).ipulse Pg.STRM k
  s.setStrm k { s.strm k with gap := true }

/-- The waiting copies of streaming frame `fs` of stream `k` change. -/
def strmCopies (s : State) (k fs : Nat) (g : QFrame → QFrame) : State :=
  { s with net := { s.net with q := s.net.q.map fun e => (e.1, e.2.map fun f => match f.strm with
      | some (k', n, _) => if k' = k && n = fs then g f else f
      | none => f) } }

/-- A frame of a queue is dropped (R363, R364); the samples of a streaming frame are counted once, whichever of its copies is dropped. -/
def queueDrop (s : State) (p q : Nat) (f : QFrame) : State :=
  let s := s.sat (F.NETQ_DROP p q)
  match f.strm with
  | some (k, fs, n) => if f.lost then s else (s.strmLost k n).strmCopies k fs fun f => { f with lost := true }
  | none => s

/-- Blocks of 256 bytes a frame takes, with its FCS. -/
def frBlocks (len : Nat) : Nat := (len + 4 + 255) / 256

/-- The first `n` free blocks from `b` on. -/
def pickBlocks (used : List Nat) : Nat → Nat → Nat → List Nat
  | 0, _, _ => []
  | _, 0, _ => []
  | fuel + 1, n + 1, b => if used.contains b then pickBlocks used fuel (n + 1) (b + 1) else b :: pickBlocks used fuel n (b + 1)

/-- The address of word `i` of a frame in its blocks. -/
def blkAddr (blks : List Nat) (i : Nat) : Nat := pktBase + 256 * blks.getD (i / 32) 0 + 8 * (i % 32)

/-- A stored frame enters queue `q` of port `p`, its words marked where `pois` says, or is dropped (R363). The blocks of the packet
buffers it takes are the first free ones (log 27). -/
def enqueue (s : State) (p q : Nat) (l : List Byte) (pois : List Bool) (f : QFrame) : State :=
  let used := (s.queue p q).foldl (fun n x => n + x.blks.length) 0
  let need := frBlocks l.length
  if s.rd (F.NETQ_QLIM p q) < used + need then s.queueDrop p q f
  else
    let taken := s.net.q.flatMap fun e => e.2.flatMap (·.blks)
    let b := pickBlocks taken 8192 need 0
    let s := s.each ((l.length + 7) / 8) fun s i =>
      s.write64 (blkAddr b i) (leVal ((l.drop (8 * i)).take 8)) (pois.getD i false)
    s.setQueue p q (s.queue p q ++ [{ f with len := l.length, blks := b }])

/-- A stored frame as the packet buffers hold it, and whether a word of it reads poisoned. -/
def frameRead (s : State) (f : QFrame) : State × List Byte × Bool :=
  let r := (List.range ((f.len + 7) / 8)).foldl (fun (r : State × List Byte × Bool) i =>
    let (s, d, p) := r.1.read64 (blkAddr f.blks i)
    (s, r.2.1 ++ leBytes 8 d, r.2.2 || p)) (s, [], false)
  (r.1, r.2.1.take f.len, r.2.2)

/-! Departure (R78 to R80). -/

/-- The frame leaves port `p` with its first bit `n` steps of 125 ps after this tick; `bad` inverts its FCS. The spec does not say whether
a Sync that the switch forwards is stamped one-step, nor whether a forwarded event message puts its stamp into the transmit FIFO: the model
does both for the device's own frames alone (log 27). Nor does it say which counter serves when PTPCFG changes while a forwarded frame waits:
the egress stamp takes the counter of the moment, the ingress stamp keeps its own (log 27). -/
def depart (s : State) (p : Nat) (l : List Byte) (f : QFrame) (bad : Bool) (n : Int) : State :=
  let h := frHdr l
  let sent := fun (s : State) (l : List Byte) => s.setPort p { s.port p with out := some (l, bad) }
  match frEvent l with
  | none => sent s l
  | some mt =>
    let k := s.stampCtr l
    let t := s.stamp k n (s.egAsym p)
    match f.src with
    | some ip =>
      if !s.bit F.TIME_TCEN then sent s l
      else
        let pd := if s.bit F.TIME_TCP2P && mt = 0 then s.rd (if ip = 0 then F.TIME_PA_PDLY else F.TIME_PB_PDLY) else 0
        let c : Int := sgn 64 (frAt l (h + 8) 8) + timeDiff t f.ts / 2 ^ 14 + (pd : Int)
        sent s (frPut l (h + 8) (beBytes 8 (unsgn 64 c)))
    | none =>
      if mt = 0 && s.bit (if p = 0 then F.TIME_OSA else F.TIME_OSB) && h + 44 ≤ l.length then
        let sub := t % secUnits
        let l := frPut l (h + 34) (beBytes 6 (t / secUnits) ++ beBytes 4 (sub / 2 ^ 30))
        let l := frPut l (h + 8) (beBytes 8 (unsgn 64 (sgn 64 (frAt l (h + 8) 8) + ((sub % 2 ^ 30 / 2 ^ 14 : Nat) : Int))))
        let fl := frAt l (h + 6) 1
        sent s (frPut l (h + 6) (beBytes 1 (fl - fl / 2 % 2 * 2)))
      else (sent s l).txPush p ⟨k, mt, frAt l (h + 4) 1, frAt l (h + 30) 2, t⟩

/-- Copies of a streaming frame that still wait. -/
def strmWaits (s : State) (k fseq : Nat) : Bool :=
  s.net.q.any fun e => e.2.any fun f => match f.strm with
    | some (k', n, _) => k' == k && n == fseq
    | none => false

/-- The queue port `p` sends from next (R364). -/
def txPick (s : State) (p : Nat) : Option Nat :=
  ([7, 6, 5, 4, 3, 2, 1, 0] : List Nat).find? fun q =>
    match s.queue p q with
    | [] => false
    | f :: _ => s.gateFits p q f.len

/-- The first streaming frame that leaves after a loss carries GAP, and so does its other copy (R374, R375). -/
def strmGap (s : State) (f : QFrame) (l : List Byte) : State × List Byte :=
  match f.strm with
  | none => (s, l)
  | some (k, fs, _) =>
    if !(f.gap || (s.strm k).gap) then (s, l)
    else
      let o := frHdr l + 6
      ((s.setStrm k { s.strm k with gap := false }).strmCopies k fs fun f => { f with gap := true }, frPut l o (beBytes 1 (frAt l o 1 ||| 1)))

/-- FRAME_TRANSMIT (R361, R364, R375). -/
def transmit (s : State) (p : Nat) (n : Int) : State :=
  if !s.netUp || !s.bit (F.NET_PSTAT_LINK p) then s
  else
    match s.txPick p with
    | none => s.fresh
    | some q =>
      match s.queue p q with
      | [] => s
      | f :: r =>
        let s := s.fresh.setQueue p q r
        let (s, l, pois) := s.frameRead f
        let s := if pois then s.sat F.NET_POISCNT else s
        let (s, l) := s.strmGap f l
        let s := (s.depart p l f pois n).wrap (F.NETQ_TXFRM p q)
        match f.strm with
        | some (k, fs, _) => if s.strmWaits k fs then s else s.wrap (F.STRM_FRAMES k)
        | none => s

/-! Reception (R359 to R361, R366, R376). -/

/-- The queue of a forwarded frame (R362). -/
def frQueue (s : State) (l : List Byte) : Nat :=
  let k := s.frKind l
  if k = 1 then s.rd F.NETQ_SPQ else if k = 3 then s.rd F.NETQ_SAFEQ else if k = 2 then s.rd F.NETQ_STRMQ
  else if frTag l then s.rd F.NETQ_PCPMAP / 16 ^ frPcp l % 8 else s.rd F.NETQ_PDEF

/-- The frame is written into the receive ring, or dropped when that is full (R366). -/
def ringWrite (s : State) (port : Nat) (k ts : Nat) (l : List Byte) : State :=
  if !s.enabled Pg.NET then s
  else
    let n := s.rd F.NET_RXN
    let i := s.rd F.NET_RXHEAD
    if n < 2 || (i + 1) % n == s.rd F.NET_RXTAIL then (s.sat F.NET_RXOVF).ipulse Pg.NET 3
    else
      let s := s.writeBytes (0x300000 + s.rd F.NET_RXBBASE + 2048 * i) l false
      let sub := ts % secUnits
      let d := leBytes 4 (port * 2 ^ 30 + k * 2 ^ 28 + (if frTag l then 2 ^ 27 else 0) + l.length) ++ leBytes 4 (sub / 2 ^ 30) ++
        leBytes 4 (ts / secUnits) ++ leBytes 4 (sub % 2 ^ 30 / 2 ^ 14 * 2 ^ 16 + ts / secUnits / 2 ^ 32)
      let s := s.writeBytes (0x300000 + s.rd F.NET_RXDBASE + 16 * i) d false
      (s.wr F.NET_RXHEAD ((i + 1) % n)).ipulse Pg.NET 2

/-- A frame delivered to the internal port: setpoint and safety frames go to their hardware by their own commands. -/
def deliver (s : State) (port k ts : Nat) (l : List Byte) : State :=
  let kd := s.frKind l
  if kd = 1 || kd = 3 then s else s.ringWrite port k ts l

/-- A frame may leave by port `o` (R359). -/
def mayForward (s : State) (o : Nat) (l : List Byte) : Bool :=
  let m := macOf (s.rd F.NET_SEGMASKLO) (s.rd F.NET_SEGMASKHI)
  s.bit F.NET_FWDEN && s.bit (F.NET_PSTAT_LINK o) &&
  (!s.bit (F.NET_PCFG_EDGE o) || (frAt l 6 6 &&& m) == (macOf (s.rd F.NET_SEGADDRLO) (s.rd F.NET_SEGADDRHI) &&& m))

/-- FRAME_RECEIVE on port `p`: `fcs` tells that its FCS is good, `ago` the steps of 125 ps since its timestamp point, `egr` those since
the same point left the other port if that was idle as the 22nd byte arrived. -/
def receive (s : State) (p : Nat) (l : List Byte) (fcs : Bool) (ago : Nat) (egr : Option Nat) : State :=
  if !s.netUp || s.rd (F.NET_PCFG_MODE p) = 0 || !s.bit (F.NET_PSTAT_LINK p) then s
  else
    let o := 1 - p
    let da := frAt l 0 6
    let own := macOf (s.rd F.NET_MACLO) (s.rd F.NET_MACHI)
    let group := da / 2 ^ 40 % 2 == 1
    let link := 0x0180C2000000 ≤ da && da ≤ 0x0180C200000F
    let fwd := da != own && !link && s.mayForward o l
    let k := s.stampCtr l
    let ts := s.stamp k (-(ago : Int)) (-(s.ingAsym p))
    let q := s.frQueue l
    let cut := fwd && egr.isSome && (s.queue o q).isEmpty && s.gateFits o q l.length &&
      s.rd (F.NET_PCFG_MODE p) ≤ s.rd (F.NET_PCFG_MODE o)
    let lim := s.rd F.NET_MAXLEN + (if frTag l then 4 else 0)
    let ctl := frType l = 0x8808
    let good := fcs && 64 ≤ l.length + 4 && l.length + 4 ≤ lim && !ctl
    let s := s.fresh
    let wake := s.rung = 1 && s.bit (wakeEn.at 4) && frType l = s.rd F.NET_WAKETYPE && (da == own || da == 2 ^ 48 - 1)
    let s := if good then s.sat (F.NET_RXFRM p) else s.sat (F.NET_RXERR p)
    if good && wake then s.wake 4
    else if ctl then s
    else
      let s := if !fwd then s
        else if cut then (s.depart o l { len := l.length, blks := [], src := some p, ctr := k, ts := ts } (!good) (-((egr.getD 0 : Nat) : Int))).wrap (F.NETQ_TXFRM o q)
        else if good then s.enqueue o q l [] { len := l.length, blks := [], src := some p, ctr := k, ts := ts }
        else s
      if good && (da == own || group) then s.deliver p k ts l else s

/-! Transmit ring (R367, R423). -/

/-- `n` bytes of shared RAM from byte offset `o`, with the poison of each 64-bit word. -/
def sharedBytes (s : State) (o n : Nat) : State × List Byte × List Bool :=
  let r := (List.range ((n + 7) / 8)).foldl (fun (r : State × List Byte × List Bool) i =>
    let (s, d, p) := r.1.read64 (0x300000 + (o + 8 * i) % 0x100000)
    (s, r.2.1 ++ leBytes 8 d, r.2.2 ++ [p])) (s, [], [])
  (r.1, r.2.1.take n, r.2.2)

/-- TX_DESCRIPTOR_PROCESS: the descriptor at TXHEAD. -/
def txDescriptor (s : State) : State :=
  let n := s.rd F.NET_TXN
  let i := s.rd F.NET_TXHEAD
  if !s.netUp || !s.enabled Pg.NET || n < 2 || i == s.rd F.NET_TXTAIL then s
  else
    let (s, d, pd) := s.read64 (0x300000 + s.rd F.NET_TXDBASE + 8 * i)
    let s := s.wr F.NET_TXHEAD ((i + 1) % n)
    let w : Word := BitVec.ofNat 32 d
    let len := wordGet w 15 0
    if pd || (wordGet w 31 29 = 0) || len < 60 || s.rd F.NET_MAXLEN < len + 4 then s.sat F.NET_TXBAD
    else
      let (s, l, pois) := s.sharedBytes (d / 2 ^ 32 / 8 * 8) len
      let q := wordGet w 28 26
      let send := !(s.frKind l = 1 && !s.bit F.NET_MASTER)
      let s := if send && w.getLsbD 31 then s.enqueue 0 q l pois { len := len, blks := [] } else s
      let s := if send && w.getLsbD 30 then s.enqueue 1 q l pois { len := len, blks := [] } else s
      if !w.getLsbD 29 then s
      else if pois.any id then s.sat F.NET_POISCNT
      else
        let k := s.stampCtr l
        s.fresh.deliver (if Config.freeBit s.free then 1 else 0) k (s.stamp k 0 0) l

/-! Gate lists (R364, R365). -/

/-- The present heads are at the head from the cycle's start on, gates in use, or are so no longer. -/
def headNote (s : State) (p : Nat) (on : Bool) : State :=
  s.each 8 fun s q => match s.queue p q with
    | f :: r => s.setQueue p q ({ f with held := on } :: r)
    | [] => s

/-- The first instant `base` + k × `cyc` that device time has not passed (R365). -/
def gateStart (s : State) (base cyc : Nat) : Nat :=
  let now := s.now64 + (if s.devTime % 2 ^ 30 = 0 then 0 else 1)
  let gone := (sdiff 64 now base).toNat
  (base + (gone + cyc - 1) / cyc * cyc) % 2 ^ 64

/-- A write of a port's list control word: INSTALL copies the admin list, or is refused (R365). -/
def gateWrite (s : State) (p a : Nat) (v : Word) : State × Status :=
  let n := (F.NETQ_ADMLEN p).of v
  let pend := s.bit (F.NETQ_PEND p)
  let inst := (F.NETQ_INSTALL p).on v
  let c := s.rd (F.NETQ_CYCLE p)
  if n = 0 || 32 < n then (s, .range)
  else if pend && (n != s.rd (F.NETQ_ADMLEN p) || inst) then (s, .busy)
  else if inst && (c < 1000 || 1000000000 < c || c % 8 != 0) then (s, .range)
  else
    let r := s.genWrite a v
    let s := if s.bit (F.NETQ_GEN p) then r.1 else r.1.headNote p false
    if !inst then (s, r.2)
    else
      let base := s.rd (F.NETQ_BASELO p) + 2 ^ 32 * s.rd (F.NETQ_BASEHI p)
      let g : GateList := { ents := (List.range n).map fun e => s.reg (F.NETQ_GATES p e).addr, cyc := c, base := base
                            start := s.gateStart base c }
      ((s.setPort p { s.port p with pend := some g }).setBit (F.NETQ_PEND p) true, r.2)

/-- The heads that found no opening during the whole cycle are dropped (R364). -/
def headDrops (s : State) (p : Nat) : State :=
  s.each 8 fun s q => match s.queue p q with
    | f :: r => if f.held && s.bit (F.NETQ_GEN p) && !s.gateEver p q f.len then (s.setQueue p q r).queueDrop p q f else s
    | [] => s

/-- GATE_LIST_OPERATIVE: the pending list becomes the operative one once device time has reached its instant; the old cycle is cut there,
and was whole where it ends just then (R364, R365). -/
def gateOperative (s : State) (p : Nat) : State :=
  match (s.port p).pend with
  | none => s
  | some g =>
    if !reached 64 s.now64 g.start then s
    else
      let s := if s.gateOff p < 2 then s.headDrops p else s
      let s := s.each 32 fun s e => s.setReg (F.NETQ_OPENT p e).addr (g.ents.getD e 0)
      let s := s.setPort p { s.port p with cyc := g.cyc, base := g.base, pend := none }
      let s := ((s.wr (F.NETQ_OPLEN p) g.ents.length).wr (F.NETQ_OPIDX p) (gateAt 0 0 g.ents)).setBit (F.NETQ_PEND p) false
      ((s.wrap (F.NETQ_CYCCNT p)).headNote p (s.bit (F.NETQ_GEN p))).ipulse Pg.NETQ p

/-- GATE_ENTRY_CHANGE: the entry in force ends; the next one, or a new cycle, begins (R364). -/
def gateNext (s : State) (p : Nat) : State :=
  let l := s.gateEnts p
  let i := s.rd (F.NETQ_OPIDX p)
  if l.isEmpty then s
  else
    let e := (l.take (i + 1)).foldl (fun n w => n + w.toNat % 2 ^ 24 * 8) 0
    if i + 1 < l.length && e < (s.port p).cyc then s.wr (F.NETQ_OPIDX p) (gateAt e 0 l)
    else (((s.wr (F.NETQ_OPIDX p) (gateAt 0 0 l)).wrap (F.NETQ_CYCCNT p)).headDrops p).headNote p (s.bit (F.NETQ_GEN p))

/-! The pages' writes. -/

/-- A write of the MDIO word (R357): a frame that begins keeps whether it reads, and GO during it has no further effect (R14). -/
def mdioWrite (s : State) (a : Nat) (v : Word) : State × Status :=
  let r := s.genWrite a v
  let s := r.1
  let read := s.rd F.NET_MDOP = 2 || (s.rd F.NET_MDOP = 3 && !s.bit F.NET_C22WR)
  (if F.NET_MDGO.on v && !s.bit F.NET_MDGO then { s with net := { s.net with mdRead := read } }.wr F.NET_MDGO 1 else s, r.2)

/-- An area of the rings lies below the digest area (R366). -/
def ringIn (base size : Nat) : Bool := base < 0xFC000 && base + size ≤ 0xFC000
def ringsOk (s : State) : Bool :=
  ringIn (s.rd F.NET_RXDBASE) (16 * s.rd F.NET_RXN) && ringIn (s.rd F.NET_RXBBASE) (2048 * s.rd F.NET_RXN) &&
  ringIn (s.rd F.NET_TXDBASE) (8 * s.rd F.NET_TXN)

/-- A write of a ring base or length. -/
def ringSet (s : State) (a : Nat) (v : Word) (ok : Bool) : State × Status :=
  if s.enabled Pg.NET then (s, .busy)
  else
    let r := s.genWrite a v
    if ok && r.1.ringsOk then r else (s, .range)

/-- The write of a word of the NET page. -/
def netWrite (s : State) (a : Nat) (v : Word) : State × Status :=
  let o := a % 0x1000
  if o = 0x40 || o = 0x44 then s.pcfgWrite ((o - 0x40) / 4) a v
  else if o = 0x48 then s.genIf a v (1518 ≤ F.NET_MAXLEN.of v && F.NET_MAXLEN.of v ≤ 2048)
  else if o = 0xA0 || o = 0xA4 || o = 0xB4 then s.ringSet a v (v.toNat % 64 = 0)
  else if o = 0xA8 then s.ringSet a v (2 ≤ F.NET_RXN.of v && F.NET_RXN.of v ≤ 512)
  else if o = 0xB8 then s.ringSet a v (2 ≤ F.NET_TXN.of v && F.NET_TXN.of v ≤ 512)
  else if o = 0xAC then s.genIf a v (F.NET_RXTAIL.of v < s.rd F.NET_RXN)
  else if o = 0xBC then s.genIf a v (F.NET_TXTAIL.of v < s.rd F.NET_TXN)
  else if o = 0x140 then s.mdioWrite a v
  else s.genWrite a v

/-- The write of a word of the NETQ page. -/
def netqWrite (s : State) (a : Nat) (v : Word) : State × Status :=
  let o := a % 0x1000
  if 0x100 ≤ o ∧ o < 0x500 then
    let p := (o - 0x100) / 0x200
    let r := (o - 0x100) % 0x200
    if r < 0x20 then
      let sum := (List.range 16).foldl (fun n i => n + s.rd (F.NETQ_QLIM (i / 8) (i % 8))) 0
      s.genIf a v (sum - s.rd (F.NETQ_QLIM p (r / 4)) + v.toNat % 2 ^ 16 ≤ 7168)
    else if r = 0x60 then s.gateWrite p a v
    else if (0x64 ≤ r ∧ r < 0x70) ∨ (0x80 ≤ r ∧ r < 0x100) then (if s.bit (F.NETQ_PEND p) then (s, .busy) else s.genWrite a v)
    else s.genWrite a v
  else s.genWrite a v

/-- A soft reset of the NET page clears the counters and the last SEQ (R376's page text). -/
def netReset (s : State) : State :=
  let s := { s with net := { s.net with seq := none } }
  let s := s.each 2 fun s p => s.clear [F.NET_PSTAT_LINKDN p, F.NET_RXERR p, F.NET_RXFRM p]
  s.clear [F.NET_POISCNT, F.NET_SPACC, F.NET_SPREF, F.NET_SPDUP, F.NET_SPREPL, F.NET_SPLATE, F.NET_SPMISS, F.NET_RXOVF, F.NET_TXBAD]

/-- A soft reset of the NETQ page clears the counters. -/
def netqReset (s : State) : State :=
  s.each 2 fun s p => (s.each 8 fun s q => s.clear [F.NETQ_DROP p q, F.NETQ_TXFRM p q]).wr (F.NETQ_CYCCNT p) 0

end State

/-- LINK_UP: the link of port `p` comes up (R356). -/
def execLinkUp (p : Fin 2) (s : State) : Host.Outcome State Fault Refusal :=
  .next (if !s.netUp || s.rd (F.NET_PCFG_MODE p) = 0 || s.bit (F.NET_PSTAT_LINK p) then s
    else ((s.wr (F.NET_PSTAT_SYNC p) 1).wr (F.NET_PSTAT_LINK p) 1).ipulse Pg.NET p)

/-- LINK_DOWN: the link of port `p` falls; `sync` tells that PCS lock is lost with it (R358). -/
def execLinkDown (p : Fin 2) (sync : Bool) (s : State) : Host.Outcome State Fault Refusal :=
  .next (let s := s.linkFall p; if sync then s.wr (F.NET_PSTAT_SYNC p) 0 else s)

/-- FRAME_RECEIVE: port `p` receives a frame, given from its DA on without FCS; `fcs` tells that the FCS is good; its timestamp point
passed `ago` × 125 ps before this tick; where the other port was idle as the 22nd byte arrived, `egr` × 125 ps have passed since that
point left there (R76, R359 to R361, R366, R376). -/
def execFrameReceive (p : Fin 2) (l : List Byte) (fcs : Bool) (ago : Nat) (egr : Option Nat) (s : State) :
    Host.Outcome State Fault Refusal := .next (s.receive p l fcs ago egr)

/-- FRAME_TRANSMIT: port `p` sends the next frame its gates allow, its timestamp point `sub` × 125 ps after this tick (R361, R364, R78 to R80). -/
def execFrameTransmit (p : Fin 2) (sub : Nat) (s : State) : Host.Outcome State Fault Refusal := .next (s.transmit p sub)

/-- TX_DESCRIPTOR_PROCESS: the device reads the descriptor at TXHEAD (R367). -/
def execTxDescriptorProcess (s : State) : Host.Outcome State Fault Refusal := .next s.txDescriptor

/-- GATE_LIST_INSTALL: a write of port `p`'s list control word with INSTALL set (R365). -/
def execGateListInstall (p : Fin 2) (v : Word) (s : State) : Host.Outcome State Fault Refusal :=
  let v := (F.NETQ_INSTALL p).put v 1
  .next (s.hostWord (0x59160 + 0x200 * p) v fun s => s.gateWrite p (0x59160 + 0x200 * p) v)

/-- GATE_LIST_OPERATIVE: port `p`'s pending list takes over (R365). -/
def execGateListOperative (p : Fin 2) (s : State) : Host.Outcome State Fault Refusal := .next (s.gateOperative p)

/-- GATE_ENTRY_CHANGE: the interval of the entry in force on port `p` ends (R364). -/
def execGateEntryChange (p : Fin 2) (s : State) : Host.Outcome State Fault Refusal := .next (s.gateNext p)

/-- MDIO_TRANSACTION: a write of the MDIO word with GO set (R357). -/
def execMdioTransaction (v : Word) (s : State) : Host.Outcome State Fault Refusal :=
  let v := F.NET_MDGO.put v 1
  .next (s.hostWord 0x58140 v fun s => s.mdioWrite 0x58140 v)

/-- MDIO_COMPLETE: the management frame ends; a read has got `d` (R357). -/
def execMdioComplete (d : BitVec 16) (s : State) : Host.Outcome State Fault Refusal :=
  .next (if !s.bit F.NET_MDGO then s
    else
      let s := s.wr F.NET_MDGO 0
      if s.net.mdRead then s.wr F.NET_MDDATA d.toNat else s)

end Sys2Proof.Machine
end

