-- ==== Sys2Proof/Machine/Hash.lean ====
section
/-! DEFINITION. SHAKE256 of FIPS 202, which R91, R393, R434 and R438 use. -/

namespace Sys2Proof.Machine
namespace Shake

/-- The 24 round constants of Keccak-f[1600]. -/
def roundConsts : List Nat :=
  [0x0000000000000001, 0x0000000000008082, 0x800000000000808A, 0x8000000080008000, 0x000000000000808B, 0x0000000080000001,
   0x8000000080008081, 0x8000000000008009, 0x000000000000008A, 0x0000000000000088, 0x0000000080008009, 0x000000008000000A] ++
  [0x000000008000808B, 0x800000000000008B, 0x8000000000008089, 0x8000000000008003, 0x8000000000008002, 0x8000000000000080,
   0x000000000000800A, 0x800000008000000A, 0x8000000080008081, 0x8000000000008080, 0x0000000080000001, 0x8000000080008008]

/-- The rotation offset of lane x + 5y. -/
def rotOffs : List Nat :=
  [0, 1, 62, 28, 27, 36, 44, 6, 55, 20, 3, 10, 43, 25, 39, 41, 45, 15, 21, 8, 18, 2, 61, 56, 14]

/-- Rotation of a 64-bit lane to the left. -/
def rotl (x n : Nat) : Nat := (x * 2 ^ n % 2 ^ 64) ||| (x / 2 ^ (64 - n))

/-- One round over 25 lanes. -/
def round (a : List Nat) (rc : Nat) : List Nat :=
  let g := fun (l : List Nat) i => l.getD i 0
  let c := (List.range 5).map fun x => g a x ^^^ g a (x + 5) ^^^ g a (x + 10) ^^^ g a (x + 15) ^^^ g a (x + 20)
  let d := (List.range 5).map fun x => g c ((x + 4) % 5) ^^^ rotl (g c ((x + 1) % 5)) 1
  let a1 := (List.range 25).map fun i => g a i ^^^ g d (i % 5)
  let b := (List.range 25).map fun i =>
    let src := (i % 5 + 3 * (i / 5)) % 5 + 5 * (i % 5)
    rotl (g a1 src) (g rotOffs src)
  let e := (List.range 25).map fun i =>
    let y := i / 5 * 5
    g b i ^^^ ((2 ^ 64 - 1 - g b (y + (i + 1 - y) % 5)) &&& g b (y + (i + 2 - y) % 5))
  match e with
  | [] => []
  | h :: t => (h ^^^ rc) :: t

/-- Keccak-f[1600]. -/
def permute (a : List Nat) : List Nat := roundConsts.foldl round a

/-- The padded message: the SHAKE suffix, zeros and the final bit, to a multiple of 136 bytes. -/
def pad (m : List Byte) : List Byte :=
  let r := 136 - m.length % 136
  if r = 1 then m ++ [0x9F#8] else m ++ [0x1F#8] ++ List.replicate (r - 2) 0#8 ++ [0x80#8]

/-- Absorption of one block of 136 bytes: 17 lanes. -/
def absorb (a : List Nat) (blk : List Byte) : List Nat :=
  permute ((List.range 25).map fun i => a.getD i 0 ^^^ (if i < 17 then leVal ((blk.drop (8 * i)).take 8) else 0))

/-- Absorption of `n` blocks. -/
def absorbAll : Nat → List Nat → List Byte → List Nat
  | 0, a, _ => a
  | n + 1, a, m => absorbAll n (absorb a (m.take 136)) (m.drop 136)

/-- `n` blocks of output. -/
def squeeze : Nat → List Nat → List Byte
  | 0, _ => []
  | n + 1, a => (a.take 17).flatMap (leBytes 8) ++ squeeze n (permute a)

end Shake

/-- The first `n` bytes of SHAKE256 over a message. -/
def shake256 (n : Nat) (m : List Byte) : List Byte :=
  let p := Shake.pad m
  (Shake.squeeze ((n + 135) / 136) (Shake.absorbAll (p.length / 136) (List.replicate 25 0) p)).take n

/-- H(x): the first 32 bytes of SHAKE256 over x. -/
def hash32 (m : List Byte) : List Byte := shake256 32 m

end Sys2Proof.Machine
end

