-- ==== Sys2Proof/Machine/ModeHooks.lean ====
section
/-! DEFINITION. What each unit does when the operating mode or a channel's sub-state changes, and the commands that change a sub-state
themselves. -/

namespace Sys2Proof.Machine
namespace State

/-- The word of SYS.CHSUB. -/
def subWord (s : State) : Nat := (s.reg (Pg.SYS + 0x5C)).toNat

/-- The units' part in the changes of sub-state since the last look: a DCDC or MACH channel that enters START starts (R322, R333), a
scan or curtailment ends when a DCDC channel leaves RUN and CURTAIL (R318, R319), and the machine ends when its channel leaves START, RUN and STOP. -/
def subSync (s : State) : State :=
  let old := s.subsSeen
  if old = s.subWord then s
  else
    let s := s.each 8 fun s c =>
      let was := old / 2 ^ (4 * c) % 8
      let is_ := s.sub c
      let ty := s.chType c
      let ran := was == 2 || was == 3 || was == 5
      if was = is_ then s
      else if ty = 2 then
        if is_ = 2 then s.dcStart c else if is_ = 3 || is_ = 4 then s else s.dcOut c
      else if ty = 3 && s.rd F.MACH_CH = c then
        if is_ = 2 then s.machStart else if ran && !(is_ == 2 || is_ == 3 || is_ == 5) then s.machEnd else s
      else s
    { s with subsSeen := s.subWord }.injSync

/-- The units' part in a change of mode from `old` to the present one: the probe's window (R304, R305), the scans (R319), the
ride-through unit, the forming channels and the end of the steps from FORM (R284 to R287), the passive detectors' hold (R307) and the enter-service ramp (R296). -/
def modeHooks (s : State) (old : Nat) : State :=
  let m := s.modeNow
  let s := { s with isl := { s.isl with z0 := { s.isl.z0 with bad := true }, z1 := { s.isl.z1 with bad := true } } }
  let s := s.each 8 fun s c => s.dcBreak c
  let s := if old = 5 && m != 5 then s.rideLeave else s
  let s := if m = 5 && old != 5 then s.rideEnter.planAbandon else s
  let s := if old = 3 then s.each 8 fun s c => s.setCh c { s.ch c with fromForm := false } else s
  let s := if old = 4 && m != 4 then s.formLeave (m == 5) (m == 3) else s
  let s := if m = 4 && old != 4 then
      s.formEnter (old == 2 && s.deadBusOk && !s.gridChs.all fun c => s.bit (F.GRID_VALID (s.rd (F.CH_PORT c))))
    else s
  let s := if m = 6 then s.islClearAll else s
  let s := if m = 3 || m = 4 then { s with isl := { s.isl with passAt := some s.tick } } else s
  let s := if (m = 3 || m = 4) && old = 2 && s.bit F.RIDE_ENTRAMP then
      s.gridChs.foldl (fun s c => s.setCh c { s.ch c with entRamp := true }) s
    else s
  s.subSync

end State

/-- LEG_MAP_APPLY: a write of LEGX.MAPCTL with APPLY set (R231). -/
def execLegMapApply (v : Word) (s : State) : Host.Outcome State Fault Refusal :=
  let v := F.LEGX_MAPAPPLY.put v 1
  .next ((s.hostWord (Pg.LEGX + 0x40) v fun s => s.mapCtlWrite v).subSync)

/-- MACH_RUN_COMMAND: a write of MACH.CMD with RUN set (R333). -/
def execMachRunCommand (v : Word) (s : State) : Host.Outcome State Fault Refusal :=
  let v := F.MACH_RUN.put v 1
  .next (s.hostWord 0x500A0 v fun s => s.onPage Pg.MACH fun s => s.machCmdWrite v).subSync

/-- MACH_DIRECTION_WRITE: a write of MACH.CMD that may reverse DIR (R335). -/
def execMachDirectionWrite (v : Word) (s : State) : Host.Outcome State Fault Refusal :=
  .next (s.hostWord 0x500A0 v fun s => s.onPage Pg.MACH fun s => s.machCmdWrite v).subSync

/-- MACH_STOP: a write of MACH.CMD with RUN clear (R335). -/
def execMachStop (v : Word) (s : State) : Host.Outcome State Fault Refusal :=
  let v := F.MACH_RUN.put v 0
  .next (s.hostWord 0x500A0 v fun s => s.onPage Pg.MACH fun s => s.machCmdWrite v).subSync

end Sys2Proof.Machine
end

