-- ==== Sys2Proof/Machine/Modes.lean ====
section
/-! DEFINITION. The mode controller (R258 to R269): permissives, requests, the hardware transitions, ramp-down and the end of a safe
stop. -/

namespace Sys2Proof.Machine
namespace State

/-! Permissives (R259). -/

def permBoot (s : State) : Bool := s.bit F.BOOT_DONE && s.rd F.BOOT_CODE == 0
def permHold (s : State) : Bool := !s.bit F.BOOT_FLTHOLD
def permFault (s : State) : Bool :=
  !(s.fltAny fun _ c => decide (3 ≤ c)) && (List.range 8).all fun c => s.sub c != 6
def permTrk (s : State) : Bool :=
  (List.range 8).all fun c => !(s.chEn c && s.isGrid c) || s.bit (F.GRID_VALID (s.rd (F.CH_PORT c)))
def permSafety (s : State) : Bool := !s.safeDemand

/-- SYS.PERMIT (R259). -/
def permit (s : State) : Nat :=
  (if s.permBoot then 1 else 0) + (if s.permHold then 2 else 0) + (if s.permFault then 4 else 0) + (if s.checkOk then 8 else 0) +
  (if s.rung = 0 then 16 else 0) + (if s.permTrk then 32 else 0) + (if s.permSafety then 64 else 0)

/-- The places of the causes in the order of R267. -/
def dueRank (cause : Nat) : Nat :=
  if cause = 5 then 0 else if cause = 4 then 1 else if cause = 3 then 2 else if cause = 1 then 3 else if cause = 2 then 4
  else if cause = 8 then 5 else if cause = 10 then 6 else 7

/-- The transition of `cause` may be made now: it leads from the mode, no safe stop runs, no other was made in this tick, and nothing due
goes before it (R264, R267). -/
def mayGo (s : State) (cause : Nat) : Bool :=
  leads cause s.modeNow && s.rd F.SAFE_PHASE != 1 && s.mode.hwAt != some s.tick && s.mode.due.all fun d => !(leads d s.modeNow && dueRank d < dueRank cause)

/-- Every change of mode: MODE, CAUSE and PRIOR, the journal's MODE record, IRAW bit 0, the channels' release and the units' part.
Transitions that no longer lead from the new mode are discarded (R267). -/
def setMode (s : State) (new cause : Nat) : State :=
  let old := s.modeNow
  let s := (s.wr F.SYS_MODE new).wr F.SYS_CAUSE cause
  let s := if new = 3 || new = 4 then s.wr F.SYS_PRIOR new else s
  let s := s.wr F.SYS_MOVING 0
  let s := { s with mode := { s.mode with ramp := false, rampT := 0, recon := 0, autoDue := false,
                                          hwAt := if cause = 0 then s.mode.hwAt else some s.tick,
                                          due := s.mode.due.filter fun d => leads d new } }
  let s := s.jrnlAdd 4 0 0 0 0 0 0 (old + 256 * new + 65536 * cause)
  let s := s.ipulse Pg.SYS 0
  let s := s.wr F.SYS_CEASESEC (if new = 6 then s.rd F.SYS_RECONT else 0)
  let s := if new = 5 || new = 6 then s else s.each 8 fun s c => if s.sub c = 7 then s.wr (subF c) 1 else s
  let s := s.channelsUpdate (new == 6)
  ((s.modeHooks old).stoSync).gdosAll

/-- A refused request (R261). -/
def modeRefuse (s : State) (r reason : Nat) : State :=
  (((s.wr F.SYS_MODEREF reason).wr F.SYS_REFREQ r).sat F.SYS_REFCNT).ipulse Pg.SYS 1

/-- The transition is one of the table of R260. -/
def reqAllowed (m r : Nat) : Bool :=
  (m == 0 && r == 1) || (m == 1 && r == 2) || ((m == 1 || m == 2 || m == 6) && r == 0) || ((m == 2 || m == 6) && r == 1) ||
  (m == 2 && (r == 3 || r == 4)) || (m == 3 && r == 4) || (m == 4 && r == 3) || ((m == 3 || m == 4) && r == 2)

/-- The first permissive of the transition that is not met, as a reason; 0 when all are met (R260, R261). -/
def reqPerm (s : State) (m r : Nat) : Nat :=
  let run := m == 2 && (r == 3 || r == 4)
  let swap := (m == 3 && r == 4) || (m == 4 && r == 3)
  let ready := m == 1 && r == 2
  if (m == 0 && r == 1 && !s.bit F.BOOT_DONE) || ((run || ready) && !s.permBoot) then 4
  else if ready && !s.permHold then 5
  else if (run || ready) && !s.permFault then 6
  else if (run || ready) && !s.checkOk then 7
  else if (run || ready || swap) && s.rung != 0 then 8
  else if (run || swap) && !(s.permTrk || (m == 2 && r == 4 && s.deadBusOk)) then 9
  else if run && !s.permSafety then 10
  else 0

/-- The ramp-down of R264 begins: MOVING, and the running channels show STOP. -/
def rampStart (s : State) : State :=
  let s := { s.wr F.SYS_MOVING 1 with mode := { s.mode with ramp := true, rampT := 0 } }
  s.each 8 fun s c => if 2 ≤ s.sub c && s.sub c ≤ 4 then s.wr (subF c) 5 else s

/-- A request for mode `r`, whose acceptance has the cause `cause` (R258, R260, R261). -/
def modeRequest (s : State) (r cause : Nat) : State :=
  let m := s.modeNow
  if r = m then s
  else if r = 4 && !s.has Pg.FORM then s.modeRefuse r 2
  else if !reqAllowed m r then s.modeRefuse r 1
  else if s.bit F.SYS_MOVING then s.modeRefuse r 3
  else
    let p := s.reqPerm m r
    if p != 0 then s.modeRefuse r p
    else if (m = 3 || m = 4) && r = 2 then s.rampStart
    else s.setMode r cause

/-- A write of SYS.MODEREQ completes OK whatever the outcome (R258). -/
def modeReqWrite (s : State) (v : Word) : State × Status := (s.modeRequest (F.SYS_MODEREQ.of v) 0, .ok)

/-- The conditions of R265 for the reconnection timer. -/
def reconOk (s : State) : Bool :=
  s.permTrk && s.permFault && s.permSafety && !s.bit F.ISL_DECL &&
  (List.range 2).all fun p =>
    !((List.range 8).any fun c => s.chEn c && s.isGrid c && s.rd (F.CH_PORT c) == p) || s.reconWindow p

/-- The mode to which the transition of a cause leads (R262). -/
def dueTo (s : State) (cause : Nat) : Nat :=
  if cause = 1 then (if s.mode.ramp then 2 else 5) else if cause = 2 then s.rd F.SYS_PRIOR
  else if cause = 8 || cause = 10 then 2 else 6

/-- The hardware transition of `cause` is made: a ramp-down leaves every grant 0 (R281), and RECONNECT brings AUTORES (R266). -/
def dueMake (s : State) (cause : Nat) : State :=
  let new := s.dueTo cause
  let s := { s with mode := { s.mode with due := s.mode.due.erase cause } }
  let s := if cause = 10 then s.grantsZero else s
  let s := s.setMode new cause
  if cause = 8 then { s with mode := { s.mode with autoDue := s.bit F.SYS_AUTORES } } else s

/-- A hardware transition that has fallen due is made, or waits (R264, R267). -/
def dueGo (s : State) (cause : Nat) : State := if s.mode.due.contains cause && s.mayGo cause then s.dueMake cause else s

/-- A hardware transition whose condition holds in this tick falls due, and is made or carried (R267). -/
def dueNow (s : State) (cause : Nat) : State := (s.modeDue cause).dueGo cause

/-- AUTORES: PRIOR is requested in the tick after RECONNECT, after every hardware transition that is due (R266, R267). -/
def autoGo (s : State) : State :=
  if s.mode.autoDue && s.mayGo 9 then
    ({ s with mode := { s.mode with autoDue := false } }).modeRequest (s.rd F.SYS_PRIOR) 9
  else s

/-- The transitions carried into a tick: the first in the order of R267 is made. -/
def dueTick (s : State) : State := ([5, 4, 3, 1, 2, 8, 10].foldl dueGo s).autoGo

/-- SAFE_STOP_END (R386): the ramps of R384 that have run out leave every grant 0 (R281), cells OFF, STO asserted, PHASE 2 and mode SAFE with the cause of the first demand. -/
def safeStopEnd (s : State) : State :=
  let s := if s.rampFactor = 0 then s.grantsZero else s
  let s := ((s.wr F.SAFE_PHASE 2).wr F.SAFE_ENV 0).stoSync
  s.setMode 7 (if s.safe.causeShut then 6 else 7)

/-- A demand for an immediate stop (R383): a stop that runs ends at once; otherwise one begins and ends. -/
def stopNow (s : State) (shutdown : Bool) : State :=
  if s.rd F.SAFE_PHASE = 1 then s.safeStopEnd
  else
    let s := s.safeStopBegin shutdown
    if s.rd F.SAFE_PHASE = 1 then s.safeStopEnd else s

end State

/-- MODE_REQUEST: a write of SYS.MODEREQ (R258, R260). -/
def execModeRequest (v : Word) (s : State) : Host.Outcome State Fault Refusal :=
  .next (s.hostWord 0x44 v fun s => s.modeReqWrite v)

/-- MODE_EXCURSION: FOLLOW or FORM to RIDE, outside a ramp-down (R262). -/
def execModeExcursion (s : State) : Host.Outcome State Fault Refusal := .next (if s.mode.ramp then s else s.dueGo 1)

/-- RAMPDOWN_EXCURSION: the ramp-down is abandoned and READY entered (R262). -/
def execRampdownExcursion (s : State) : Host.Outcome State Fault Refusal := .next (if s.mode.ramp then s.dueGo 1 else s)

/-- MODE_RECOVERY: RIDE back to PRIOR, once every served port has stayed in the recovery band (R291). -/
def execModeRecovery (s : State) : Host.Outcome State Fault Refusal := .next (if s.recovOk then s.dueNow 2 else s)

/-- MODE_CURVE: RIDE to CEASE (R262). -/
def execModeCurve (s : State) : Host.Outcome State Fault Refusal := .next (s.dueGo 3)

/-- MODE_ISLAND: FOLLOW, FORM or RIDE to CEASE (R262). -/
def execModeIsland (s : State) : Host.Outcome State Fault Refusal := .next (s.dueGo 4)

/-- MODE_TRIP: FOLLOW, FORM or RIDE to CEASE (R262). -/
def execModeTrip (s : State) : Host.Outcome State Fault Refusal := .next (s.dueGo 5)

/-- MODE_RECONNECT: RECONT seconds have passed without a break, CEASE to READY (R265). -/
def execModeReconnect (s : State) : Host.Outcome State Fault Refusal := .next (if s.reconOk then s.dueNow 8 else s)

/-- MODE_AUTORES: PRIOR is requested in the tick after RECONNECT (R266). -/
def execModeAutores (s : State) : Host.Outcome State Fault Refusal := .next s.autoGo

/-- MODE_RAMPDONE: the ramp-down of STOPT has ended (R264). -/
def execModeRampdone (s : State) : Host.Outcome State Fault Refusal := .next (if s.mode.ramp then s.dueNow 10 else s)

end Sys2Proof.Machine
end

