-- ==== Sys2Proof/Machine/Safety.lean ====
section
/-! DEFINITION. The safety island (R377 to R395): its demands, the monitors, SS1, the twin path, the parameter block and the release. -/

namespace Sys2Proof.Machine
namespace State

/-- SFAULT_N is low until the start-up test passes and while a latch of R379 is set; its condition is IRAW bit 3. -/
def sfaultSync (s : State) : State :=
  let low := !s.safe.tested || s.bit F.SAFE_SSDISCLAT || s.bit F.SAFE_STOFB || s.bit F.SAFE_MONDIV
  (s.setBit F.SAFE_SFAULT low).iraw Pg.SAFE 3 low

/-- A demand stands or falls: STO follows (R382). A new one begins a safe stop, immediate when `now` (R383). -/
def demandRise (s : State) (now : Bool) : State :=
  if now then (s.stopNow false).stoSync else (s.safeStopBegin false).stoSync

/-- The filtered level of an SSTOP input (R380). -/
def sstop (s : State) (b level : Bool) : State :=
  let s := { s with safe := if b then { s.safe with lvlB := level } else { s.safe with lvlA := level } }
  let dem := s.safe.lvlA || s.safe.lvlB
  let was := s.bit F.SAFE_SSDEM
  let s := s.setBit F.SAFE_SSDEM dem
  let s := if dem && !was then s.wake 6 else s
  if !s.safe.tested then s
  else if dem && !was then s.demandRise (s.bit F.SAFE_SSMODE) else s.stoSync

/-- A breach of R385: DECEL latches, SAFE_DECEL is raised and the stop becomes immediate. -/
def decelBreach (s : State) : State :=
  if s.rd F.SAFE_PHASE != 1 then s else ((s.latch F.SAFE_DECELLAT).detect 0x12).safeStopEnd

/-- PVALID of the machine channel has cleared since `s`: a breach in SS1 (R385). -/
def pvalidWatch (s t : State) : State := if s.bit F.MACH_PVALID && !t.bit F.MACH_PVALID && t.machOn then t.decelBreach else t

/-- SS1_EVALUATION (R385, R386): the envelope at t = k × 10 µs, the breach, and the end of the stop. -/
def ss1Eval (s : State) : State :=
  if s.rd F.SAFE_PHASE != 1 then s
  else
    let k := s.safe.t10
    let w := (F32.toRat (F32.abs (s.f32 F.MACH_SPEED)))
    let w0 := F32.toRat (F32.abs s.safe.w0)
    let env := max (w0 + s.q F.SAFE_WTOL - s.q F.SAFE_DECEL * (k : Rat) / 100000) (s.q F.SAFE_WZERO)
    let mach := s.machOn
    let s := { s with safe := { s.safe with t10 := k + 1 } }
    let s := s.wrQ F.SAFE_ENV env
    if s.safe.idle then s.safeStopEnd
    else if mach && env < w then s.decelBreach
    else if s.rd F.SAFE_TSS1 * 100 ≤ k then s.safeStopEnd
    else if s.rd F.SAFE_RAMPT * 100 ≤ k && (!mach || w ≤ s.q F.SAFE_WZERO) then s.safeStopEnd
    else s

/-- The monitors' own detection (R378): a latch, its source, STO at once, and the stop it demands. -/
def monFault (s : State) (lat : Fld) (src : Nat) : State :=
  let s := (s.latch lat).sfaultSync
  let s := if s.rd F.SAFE_PHASE = 0 then s.safeStopBegin true else s
  ((s.detect src).stopNow true).stoSync

/-! Twin-path frames (R387 to R392). -/

/-- A latching of TPLAT with its reason (R390). -/
def tpLatch (s : State) (reason : Nat) : State :=
  if !s.bit F.SAFE_TPEN || s.bit F.SAFE_TPLAT then s
  else
    let s := ((s.latch F.SAFE_TPLAT).wr F.SAFE_TPRSN reason).iraw Pg.SAFE 2 true
    (s.detect 0x11).demandRise false

/-- A demand seen in a valid copy (R391). -/
def tpDemand (s : State) (word : Nat) : State :=
  if !s.bit F.SAFE_TPEN || word % 4 = 0 then s
  else
    let was := s.bit F.SAFE_TPDEM
    let s := s.setBit F.SAFE_TPDEM true
    if word / 2 % 2 = 1 then s.demandRise true else if was then s else s.demandRise false

/-- What the accepted word and the copies of the open cycle demand together (R391). -/
def tpWord (s : State) : Nat :=
  s.rd F.SAFE_WORD ||| (match s.safe.cycle with
    | some c => if c.demand then beVal ((c.body.drop 2).take 2) else 0
    | none => 0)

/-- The open cycle ends single (R390). -/
def tpSingle (s : State) : State :=
  match s.safe.cycle with
  | none => s
  | some c =>
    let s := { s with safe := { s.safe with cycle := none, seqSeen := true, accepted0 := false } }
    let s := ((s.wr F.SAFE_LASTSEQ c.seq).sat F.SAFE_SINGLECNT).sat F.SAFE_SINGLETOT
    if s.rd F.SAFE_SINGLEMAX < s.rd F.SAFE_SINGLECNT then s.tpLatch 2 else s

/-- The format test of R387 on the 46 bytes after the Ethertype. -/
def tpFormat (l : List Byte) : Bool :=
  let z := fun (a n : Nat) => ((l.drop a).take n).all fun b => b == 0
  l.length == 46 && l.getD 0 0 == 1#8 && l.getD 1 0 == 3#8 && (l.getD 2 0 == 0#8 || l.getD 2 0 == 1#8) && z 3 1 &&
  decide (beVal ((l.drop 6).take 2) < 4) && z 24 4 && z 32 14 && beVal ((l.drop 28).take 4) == crc32 ((l.drop 4).take 24)

/-- TWIN_PATH_COPY (R388, R389). `pb` tells that the copy came on PB. -/
def tpCopy (s : State) (pb : Bool) (l : List Byte) : State :=
  if !tpFormat l then s.sat F.SAFE_CRCERR
  else
    let path := (l.getD 2 0).toNat
    if (path == 1) != pb then s.sat F.SAFE_PATHERR
    else
      let arr := s.rd F.NET_ARRID
      if beVal ((l.drop 4).take 2) != s.rd F.SAFE_SRCID || arr < beVal ((l.drop 20).take 2) || beVal ((l.drop 22).take 2) < arr
      then s
      else
        let seq := beVal ((l.drop 8).take 4)
        let word := beVal ((l.drop 6).take 2)
        let body := (l.drop 4).take 28
        let fresh := !s.safe.seqSeen || decide (0 < sdiff 32 seq (s.rd F.SAFE_LASTSEQ))
        let openNew := fun (s : State) =>
          ({ s with safe := { s.safe with cycle := some ⟨seq, path, body, word % 4 != 0⟩ } }).tpDemand word
        match s.safe.cycle with
        | none => if fresh then openNew s else s
        | some c =>
          if c.seq = seq then
            if c.path = path then s
            else
              let s := { s with safe := { s.safe with cycle := none, seqSeen := true } }
              let s := s.wr F.SAFE_LASTSEQ seq
              if c.body = body then
                let s := ((s.wr F.SAFE_WORD word).wr F.SAFE_SINGLECNT 0).tpDemand word
                let s := { s with safe := { s.safe with accepted0 := word == 0 } }
                if word = 0 then (s.setBit F.SAFE_TPDEM false).stoSync else s
              else
                let s := { s with safe := { s.safe with accepted0 := false } }
                ((s.sat F.SAFE_DISCNT).tpDemand word).tpLatch 1
          else if fresh && decide (0 < sdiff 32 seq c.seq) then openNew s.tpSingle
          else s

/-- A safety frame's payload for one path (R387, R392). -/
def tpPayload (s : State) (path : Nat) : List Byte :=
  let mid := beBytes 2 (s.rd F.NET_ARRID) ++ beBytes 2 (s.rd F.SAFE_TXWORD) ++ beBytes 4 (s.rd F.SAFE_TXSEQ) ++
    beBytes 8 s.now64 ++ beBytes 2 0 ++ beBytes 2 1023 ++ beBytes 4 0
  beBytes 1 1 ++ beBytes 1 3 ++ beBytes 1 path ++ beBytes 1 0 ++ mid ++ beBytes 4 (crc32 mid) ++ List.replicate 14 0#8

/-! The parameter block and its check (R393, R394). -/

/-- The check value of the block. -/
def safeCheck (s : State) : Nat :=
  leVal (shake256 4 ((List.range 32).flatMap fun i => leBytes 4 (s.reg (Pg.SAFE + 0x100 + 4 * i)).toNat))

/-- The range test of a word of the block. -/
def safeRange (o : Nat) (v : Word) : Bool :=
  if o = 0x100 then 1 ≤ F.SAFE_SSFILT.of v && 1 ≤ F.SAFE_SSDISC.of v && F.SAFE_SSDISC.of v ≤ 1000
  else if o = 0x104 then 1 ≤ F.SAFE_WDT.of v && F.SAFE_WDT.of v ≤ 100
  else if o = 0x108 then 1 ≤ F.SAFE_TLOSS.of v
  else if o = 0x10C then
    1 ≤ F.SAFE_TSS1.of v && 1 ≤ F.SAFE_RAMPT.of v && F.SAFE_RAMPT.of v ≤ 60000 && F.SAFE_RAMPT.of v ≤ F.SAFE_TSS1.of v
  else if o = 0x110 || o = 0x118 then F32.isPos v
  else if o = 0x114 then F32.isNonneg v
  else if o = 0x11C then F.SAFE_STODLY.of v ≤ 1000
  else true

/-- SAFETY_PARAMETER_WRITE: a write of a word of the block (R393, R394). TPEN that is set lets what the accepted word and the open cycle
demand act (R391). -/
def safeParamWrite (s : State) (a : Nat) (v : Word) : State × Status :=
  if 1 < s.modeNow then (s, if s.heldRwl a v = v then .busy else .locked)
  else if !s.locked a && !safeRange (a % 0x1000) v then (s, .range)
  else
    let (t, st) := s.genWrite a v
    let t := t.wr F.SAFE_CHECK t.safeCheck
    let t := if !t.bit F.SAFE_TPEN then t.setBit F.SAFE_TPDEM false else if s.bit F.SAFE_TPEN then t else t.tpDemand t.tpWord
    (if t.reg a = s.reg a then t else (t.wr F.SAFE_CVALID 0).stoSync, st)

/-- A write of CONFIRM (R394). -/
def confirmWrite (s : State) (v : Word) : State × Status :=
  if s.modeNow != 1 then (s, .busy)
  else
    let s := (s.wr F.SAFE_CONFIRM v.toNat).wr F.SAFE_CVALID 1
    (s.jrnlAdd 6 5 0 0 0 0 0 (s.rd F.SAFE_CHECK), .ok)

/-- A write of SAFE.STAT: the latches are cleared, SSDISC only while the inputs agree (R381), TPLAT only after an accepted cycle with
SAFEWORD 0 (R391). -/
def safeStatWrite (s : State) (v : Word) : State × Status :=
  let s := if F.SAFE_MONDIV.on v then s.setBit F.SAFE_MONDIV false else s
  let s := if F.SAFE_STOFB.on v then s.setBit F.SAFE_STOFB false else s
  let s := if F.SAFE_DECELLAT.on v then s.setBit F.SAFE_DECELLAT false else s
  let s := if F.SAFE_SSDISCLAT.on v && s.safe.lvlA == s.safe.lvlB then s.setBit F.SAFE_SSDISCLAT false else s
  let s := if F.SAFE_TPLAT.on v && s.safe.accepted0 then
      ((s.setBit F.SAFE_TPLAT false).wr F.SAFE_TPRSN 0).iraw Pg.SAFE 2 false else s
  (s.sfaultSync.stoSync, .ok)

/-- The reason a release is refused for, 0 when it is not (R395). -/
def relReason (s : State) : Nat :=
  if s.modeNow != 7 || s.rd F.SAFE_PHASE != 2 then 1
  else if s.safeDemand then 2
  else if s.bit F.SAFE_SSDISCLAT || s.bit F.SAFE_STOFB || s.bit F.SAFE_MONDIV || s.bit F.SAFE_DECELLAT then 3
  else if !s.checkOk then 4
  else if s.fltAny fun _ c => c == 4 then 5
  else 0

/-- A write of RELEASE (R395); a refusal shows in RELREF and the write completes OK (log 12). -/
def releaseWrite (s : State) (v : Word) : State × Status :=
  if F.SAFE_RELKEY.of v != 0xC35A then (s, .range)
  else if !F.SAFE_RELGO.on v then (s, .ok)
  else
    let r := s.relReason
    if r != 0 then ((s.wr F.SAFE_RELREF r).sat F.SAFE_RELREFCNT, .ok)
    else (((((s.wr F.SAFE_PHASE 0).sat F.SAFE_RELCNT).ipulse Pg.SAFE 1).setMode 1 11), .ok)

/-- The write of a word of the SAFE page. -/
def safeWrite (s : State) (a : Nat) (v : Word) : State × Status :=
  let o := a % 0x1000
  if o = 0x40 then s.safeStatWrite (s.clears a v)
  else if o = 0x48 then s.confirmWrite v
  else if o = 0x50 then s.releaseWrite v
  else if o = 0x70 then s.genIf a v (1 ≤ F.SAFE_TXPER.of v && F.SAFE_TXPER.of v ≤ 1000)
  else if 0x100 ≤ o && o < 0x180 then s.safeParamWrite a v
  else s.genWrite a v

end State

/-- SSTOP_INPUT_CHANGE: the filtered level of SSTOP_A (or, with `b`, SSTOP_B) becomes `level` (R380, R383). -/
def execSstopInputChange (b level : Bool) (s : State) : Host.Outcome State Fault Refusal := .next (s.sstop b level)

/-- SSTOP_DISCREPANCY: exactly one input has demanded for SSDISC ms (R381). -/
def execSstopDiscrepancy (s : State) : Host.Outcome State Fault Refusal :=
  .next (if s.safe.lvlA != s.safe.lvlB then ((s.latch F.SAFE_SSDISCLAT).sfaultSync).detect 0x10 else s)

/-- SS1_EVALUATION: the next evaluation of the envelope, 10 µs after the last (R385, R386). -/
def execSs1Evaluation (s : State) : Host.Outcome State Fault Refusal := .next s.ss1Eval

/-- MONITOR_DIVERGENCE: the monitors have disagreed for more than 5 µs (R378). -/
def execMonitorDivergence (s : State) : Host.Outcome State Fault Refusal := .next (s.monFault F.SAFE_MONDIV 0x14)

/-- STO_FEEDBACK_MISMATCH: an STO ball has differed from its command for more than 2 µs (R378). -/
def execStoFeedbackMismatch (s : State) : Host.Outcome State Fault Refusal := .next (s.monFault F.SAFE_STOFB 0x13)

/-- RESOLVER_SAMPLE: the resolver's signals in mV at the excitation peak (R327). A PVALID that it clears during SS1 is a breach (R385). -/
def execResolverSample (sn cs : Int) (s : State) : Host.Outcome State Fault Refusal :=
  .next (s.pvalidWatch (s.resolver sn cs))

/-- SAFETY_STARTUP_TEST_PASS: the start-up test passes with the filtered levels `a` and `b`; demands act from now on, and one that
stands begins its stop as if it arose now, at once where it is an immediate one (R379, R383). It is not made while the rails hold the device in reset, nor with TMODE high (R38, R40). -/
def execSafetyStartupTestPass (a b : Bool) (s : State) : Host.Outcome State Fault Refusal :=
  if s.safe.tested || s.phase == .down || s.tmode then .next s
  else
    let s := { s with safe := { s.safe with tested := true, lvlA := a, lvlB := b } }
    let s := (s.setBit F.SAFE_SSDEM (a || b)).sfaultSync
    let latch := s.bit F.SAFE_MONDIV || s.bit F.SAFE_STOFB
    let now := ((a || b) && s.bit F.SAFE_SSMODE) || (s.bit F.SAFE_TPDEM && s.tpWord / 2 % 2 == 1) || latch
    .next (if s.safeDemand then s.demandRise now
      else if latch then (s.stopNow true).stoSync
      else if s.safe.shutDemand then s.safeStopBegin true else s.stoSync)

/-- STO_HOLD_END: STODLY ms after the release reached both balls the cell hold ends (R382). -/
def execStoHoldEnd (s : State) : Host.Outcome State Fault Refusal :=
  .next (if s.bit F.SAFE_STOA || s.bit F.SAFE_STOB then s
    else ({ s with safe := { s.safe with hold := false } }).cellsAll.gdosAll)

/-- TWIN_PATH_COPY: the 46 bytes after the Ethertype of a safety frame received on PA or, with `pb`, on PB (R388, R389). -/
def execTwinPathCopy (pb : Bool) (l : List Byte) (s : State) : Host.Outcome State Fault Refusal := .next (s.tpCopy pb l)

/-- TWIN_PATH_WINDOW_CLOSE: the window of the open cycle closes with one copy (R390). -/
def execTwinPathWindowClose (s : State) : Host.Outcome State Fault Refusal := .next s.tpSingle

/-- TWIN_PATH_LOSS: TLOSS ms have passed without a copy that opens or completes a cycle (R390). -/
def execTwinPathLoss (s : State) : Host.Outcome State Fault Refusal := .next (s.tpLatch 3)

/-- TPLAT_CLEAR: a write of SAFE.STAT with TPLAT set (R391). -/
def execTplatClear (v : Word) (s : State) : Host.Outcome State Fault Refusal :=
  let v := F.SAFE_TPLAT.put v 1
  .next (s.hostWord 0xB040 v fun s => s.safeStatWrite (s.clears 0xB040 v))

/-- SAFETY_PARAMETER_WRITE: a write of word `w` of the safety parameter block (R393). -/
def execSafetyParameterWrite (w : Fin 32) (v : Word) (s : State) : Host.Outcome State Fault Refusal :=
  .next (s.hostWord (0xB100 + 4 * w) v fun s => s.safeParamWrite (0xB100 + 4 * w) v)

/-- SAFETY_CONFIRM: a write of SAFE.CONFIRM (R394). -/
def execSafetyConfirm (v : Word) (s : State) : Host.Outcome State Fault Refusal :=
  .next (s.hostWord 0xB048 v fun s => s.confirmWrite v)

/-- SAFE_RELEASE: a write of SAFE.RELEASE (R395). -/
def execSafeRelease (v : Word) (s : State) : Host.Outcome State Fault Refusal :=
  .next (s.hostWord 0xB050 v fun s => s.releaseWrite v)

end Sys2Proof.Machine
end

