-- ==== Sys2Proof/Machine/Array.lean ====
section
/-! DEFINITION. The array: setpoint frames (R368 to R372), the streams (R373 to R375) and the safety frames the device sends (R392). -/

namespace Sys2Proof.Machine
namespace State

/-! Setpoints. -/

/-- A setpoint frame is refused for reason `r` (R370). -/
def spRefuse (s : State) (r : Nat) : State := ((s.sat F.NET_SPREF).wr F.NET_SPLAST r).ipulse Pg.NET 4

/-- The writes of a setpoint payload as channel, slot and value (R369). -/
def spWrites (l : List Byte) (n : Nat) : List (Nat × Nat × Word) :=
  (List.range n).map fun w => (frAt l (24 + 8 * w) 1, frAt l (25 + 8 * w) 1, BitVec.ofNat 32 (frAt l (28 + 8 * w) 4))

/-- SETPOINT_FRAME_RECEIVE: the checks of R370 in order, on the sender's address and the bytes after the Ethertype. -/
def spReceive (s : State) (sa : Nat) (l : List Byte) : State :=
  let nw := frAt l 21 1
  let slot := frAt l 20 1
  let ws := spWrites l nw
  let seq := frAt l 4 4
  let ta := frAt l 8 8
  let id := s.rd F.NET_ARRID
  if l.length < 24 + 8 * nw || frAt l 1 1 != 1 || nw = 0 || 8 < nw || 15 < slot || !(ws.all fun w => w.1 ≤ 7 && w.2.1 ≤ 15) then
    s.spRefuse 1
  else if id < frAt l 16 2 || frAt l 18 2 < id then s
  else if s.bit F.NET_MACCHK && sa != macOf (s.rd F.NET_MASTERMACLO) (s.rd F.NET_MASTERMACHI) then s.spRefuse 2
  else if (match s.net.seq with | none => false | some q => decide (sdiff 32 seq q ≤ 0)) then s.sat F.NET_SPDUP
  else if !(ws.all fun w => s.has (Pg.CH w.1)) then s.spRefuse 3
  else if ta != 0 && decide (((s.rd F.NET_STALE * 1000 : Nat) : Int) < sdiff 64 s.now64 ta) then s.spRefuse 4
  else
    let s := { s with net := { s.net with seq := some seq } }
    let s := s.sat F.NET_SPACC
    let s := if s.bit (F.NET_ARMED slot) then s.sat F.NET_SPREPL else s
    let s := ((s.wr (F.NET_ARMED slot) 1).setBit (F.NET_STAGED slot) (ta = 0)).wr (F.NET_NW slot) nw
    let s := (s.wr (F.NET_CMT slot) (frAt l 22 1)).wr (F.NET_SRCID slot) (frAt l 2 2)
    let late := ta != 0 && reached 64 s.now64 ta
    let s := s.setSp slot { tapply := ta, writes := ws, late := if late then some s.tick else none }
    if late then s.sat F.NET_SPLATE else s

/-- A slot empties (R371). -/
def spEmpty (s : State) (n : Nat) : State :=
  (s.setSp n {}).clear [F.NET_ARMED n, F.NET_STAGED n, F.NET_NW n, F.NET_CMT n, F.NET_SRCID n]

/-- The shadow of slot `k` of channel `c` has a setpoint's value for this tick (R372). -/
def spNote (s : State) (c k : Nat) : State := { s with hwSet := SMap.set (fun _ => 0) s.hwSet (F.CH_SLOT c k).addr (BitVec.allOnes 32) }

/-- Slots are applied together, in the order given: their writes, then the commits of the union of their CMT fields (R372). -/
def spApply (s : State) (l : List Nat) : State :=
  let cmt := l.foldl (fun m n => m ||| s.rd (F.NET_CMT n)) 0
  let ws := l.flatMap fun n => (s.sp n).writes
  let s := l.foldl (fun s n =>
    ((s.sp n).writes.foldl (fun s w => (s.slotPut w.1 w.2.1 (F.CH_SLOT w.1 w.2.1).addr w.2.2).1) s).spEmpty n) s
  let s := ws.foldl (fun s w => if s.rdBit (F.CH_OWNENG w.1) w.2.1 then s else s.spNote w.1 w.2.1) s
  s.each 8 fun s c => if cmt / 2 ^ c % 2 = 1 && s.has (Pg.CH c) then s.chCommit c else s

/-- An armed slot is due: device time has reached its TAPPLY; accepted with TAPPLY reached, from the next tick on (R371). -/
def spReady (s : State) (n : Nat) : Bool :=
  s.bit (F.NET_ARMED n) && !s.bit (F.NET_STAGED n) && reached 64 s.now64 (s.sp n).tapply && (s.sp n).late != some s.tick

/-- The armed slots that are due are applied, or emptied and counted outside RUN (R371), after the steps that R69 puts before them. -/
def spDue (s : State) : State :=
  let s := s.timeOrder 4
  let due := (List.range 16).filter s.spReady
  if s.rung = 0 then s.spApply due else due.foldl (fun s n => (s.spEmpty n).sat F.NET_SPMISS) s

/-- The Almanac target 0x09 on slot `n` (R371). -/
def spStaged (s : State) (n : Nat) : State :=
  if s.bit (F.NET_ARMED (n % 16)) && s.bit (F.NET_STAGED (n % 16)) then s.spApply [n % 16] else s.sat F.NET_SPMISS

/-! Streams. -/

/-- The bytes of a stream's frame, GAP left for its departure (R374, R375). -/
def strmBytes (s : State) (k : Nat) : List Byte :=
  let m := s.strm k
  let n := s.rd (F.STRM_NSIG k) + 1
  beBytes 6 (macOf (s.rd (F.STRM_DALO k)) (s.rd (F.STRM_DAHI k))) ++ beBytes 6 (macOf (s.rd F.NET_MACLO) (s.rd F.NET_MACHI)) ++
  beBytes 2 (s.rd F.NET_ETYPE) ++ beBytes 1 1 ++ beBytes 1 2 ++ beBytes 2 (s.rd F.NET_ARRID) ++ beBytes 1 k ++ beBytes 1 n ++
  beBytes 1 (if m.leap then 2 else 0) ++ beBytes 1 0 ++ beBytes 2 m.cur.length ++ beBytes 2 0 ++
  beBytes 4 (s.rd (F.STRM_FSEQ k)) ++ beBytes 8 m.t0 ++
  m.cur.flatMap fun r => beBytes 4 (r.1 % 2 ^ 31 + (if r.2.1 then 2 ^ 31 else 0)) ++ r.2.2.flatMap fun w => beBytes 4 w.toNat

/-- A frame padded to the shortest length of R357. -/
def padFrame (l : List Byte) : List Byte := l ++ List.replicate (60 - l.length) 0#8

/-- STREAM_FRAME_QUEUE: the frame being filled is queued on the marked ports (R373, R374). -/
def strmQueue (s : State) (k : Nat) : State :=
  let m := s.strm k
  if m.cur.isEmpty then s
  else
    let l := padFrame (s.strmBytes k)
    let f : QFrame := { len := l.length, blks := [], strm := some (k, s.rd (F.STRM_FSEQ k), m.cur.length) }
    let s := s.setStrm k { m with cur := [], leap := false }
    let q := s.rd F.NETQ_STRMQ
    let t := if s.bit (F.STRM_PA k) then s.enqueue 0 q l [] f else s
    let lost := s.bit (F.STRM_PA k) && (t.queue 0 q).length == (s.queue 0 q).length
    let t := if s.bit (F.STRM_PB k) then t.enqueue 1 q l [] { f with lost := lost } else t
    t.wrap (F.STRM_FSEQ k)

/-- The frames of a stream that wait in the queues, each counted once. -/
def strmHeld (s : State) (k : Nat) : Nat :=
  let l := s.net.q.flatMap fun e => e.2.filterMap fun f => match f.strm with
    | some (k', n, _) => if k' = k then some n else none
    | none => none
  l.eraseDups.length

/-- The signals of a sample, and whether one is poisoned; of an address relative to a loop the value is free (log 6). -/
def strmSignals (s : State) (k : Nat) : State × List Word × Bool :=
  let b := s.rd (F.STRM_BLK k)
  let x : LoopRun := { d := 0, ch := 0, trig := b + 1, cout := (s.blk b).cout }
  (List.range (s.rd (F.STRM_NSIG k) + 1)).foldl (fun r j =>
    let a := r.1.rd (F.STRM_SIG k j)
    let (s, w, p) := if a < 0x40 then (r.1.fresh, Config.freeWord r.1.free, false) else r.1.sigRead x a
    (s, r.2.1 ++ [w], r.2.2 || p)) (s, [], false)

/-- STREAM_SAMPLE of stream `k` (R373, R375). -/
def strmSample (s : State) (k : Nat) : State :=
  let m := s.strm k
  let s := s.setStrm k { m with total := m.total + 1, done := m.total + 1 == s.rd (F.STRM_NTOTAL k) }
  if m.cur.isEmpty && 2 ≤ s.strmHeld k then s.strmLost k 1
  else
    let (s, ws, p) := s.strmSignals k
    let m := s.strm k
    let m := if m.cur.isEmpty then { m with t0 := s.now64, tk0 := s.tick } else m
    let s := s.setStrm k { m with cur := m.cur ++ [(s.tick - m.tk0, p, ws)] }
    if s.rd (F.STRM_NSAMP k) ≤ (s.strm k).cur.length then s.strmQueue k else s

/-- The sample-ready event of block `b` at every stream (R373). -/
def streams (s : State) (b : Nat) : State :=
  s.each 8 fun s k =>
    let m := s.strm k
    if !s.bit (F.STRM_EN k) || s.rd (F.STRM_BLK k) != b || m.done then s
    else if !m.started && s.bit (F.STRM_ARMT k) && !reached 64 s.now64 (s.rd64 (F.STRM_TSTARTLO k)) then s
    else
      let s := s.setStrm k { m with started := true, div := (m.div + 1) % s.rd (F.STRM_DIV k) }
      if m.div = 0 then s.strmSample k else s

/-- A write of a stream's first word (R373). -/
def strmCtl (s : State) (k a : Nat) (v : Word) : State × Status :=
  let on := (F.STRM_EN k).on v
  let was := s.bit (F.STRM_EN k)
  let n := (F.STRM_NSIG k).of v + 1
  let ns := (F.STRM_NSAMP k).of v
  if was && (v.toNat % 2 ^ 31 != (s.reg a).toNat % 2 ^ 31) then (s, .busy)
  else if ns = 0 || 184 < ns then (s, .range)
  else if on && !was && (!((List.range n).all fun j => sigOk (s.rd (F.STRM_SIG k j))) || s.rd F.NET_MAXLEN < 18 + 24 + ns * (4 + 4 * n)) then
    (s, .range)
  else
    let r := s.genWrite a v
    (if on && !was then r.1.setStrm k { (r.1.strm k) with cur := [], leap := false, total := 0, div := 0, started := false, done := false } else r.1, r.2)

/-- The write of a word of the STRM page. -/
def strmWrite (s : State) (a : Nat) (v : Word) : State × Status :=
  let o := a % 0x1000
  if 0x100 ≤ o ∧ o < 0x500 then
    let k := (o - 0x100) / 0x80
    let r := (o - 0x100) % 0x80
    if r = 0 then s.strmCtl k a v
    else if 0x1C ≤ r ∧ r < 0x40 then s.genWrite a v
    else if s.bit (F.STRM_EN k) then (s, .busy)
    else if r = 4 then s.genIf a v ((F.STRM_DIV k).of v != 0 && (F.STRM_FLUSH k).of v != 0)
    else s.genWrite a v
  else s.genWrite a v

/-- A soft reset of the STRM page clears the counters and FSEQ. -/
def strmReset (s : State) : State := s.each 8 fun s k => s.clear [F.STRM_FSEQ k, F.STRM_LOST k, F.STRM_FRAMES k]

/-- SAFETY_FRAME_PRODUCE (R392): a new cycle's copies leave on PA and PB in queue SAFEQ. -/
def safetyProduce (s : State) : State :=
  if !s.bit F.SAFE_TXEN then s
  else
    let s := s.wrap F.SAFE_TXSEQ
    let hd := beBytes 6 (macOf (s.rd F.NET_ARRMCLO) (s.rd F.NET_ARRMCHI)) ++ beBytes 6 (macOf (s.rd F.NET_MACLO) (s.rd F.NET_MACHI)) ++
      beBytes 2 (s.rd F.NET_ETYPE)
    s.each 2 fun s p => let l := hd ++ s.tpPayload p; s.enqueue p (s.rd F.NETQ_SAFEQ) l [] { len := l.length, blks := [] }

end State

/-- SETPOINT_FRAME_RECEIVE: a setpoint frame delivered to the internal port, as its source address and the bytes after the Ethertype
(R369, R370). -/
def execSetpointFrameReceive (sa : BitVec 48) (l : List Byte) (s : State) : Host.Outcome State Fault Refusal :=
  .next (s.spReceive sa.toNat l)

/-- SETPOINT_APPLY: the armed slots whose TAPPLY is reached are applied (R371, R372). -/
def execSetpointApply (s : State) : Host.Outcome State Fault Refusal := .next s.spDue

/-- STREAM_FRAME_QUEUE: FLUSH µs have passed since the first sample of stream `k`'s frame (R373). -/
def execStreamFrameQueue (k : Fin 8) (s : State) : Host.Outcome State Fault Refusal := .next (s.strmQueue k)

/-- SAFETY_FRAME_PRODUCE: PERIOD ms have passed (R392). -/
def execSafetyFrameProduce (s : State) : Host.Outcome State Fault Refusal := .next s.safetyProduce

end Sys2Proof.Machine
end

