-- ==== Sys2Proof/Machine/Padc.lean ====
section
/-! DEFINITION. The precision converters (R154 to R162). -/

namespace Sys2Proof.Machine
namespace State

/-- VREF_READY (R154). -/
def vrefReady (s : State) : State := if s.enabled Pg.PADC || s.enabled Pg.CMP then s.wr F.PADC_VRDY 1 else s

/-- A live accumulator. -/
def padcAcc (s : State) (c e : Nat) : Acc := SMap.get (fun _ => {}) (s.conv c).acc e

/-- Entry `e` of converter `c` begins. -/
def padcEntry (s : State) (c e : Nat) : State :=
  (s.wr (F.PADC_CUR c) e).setConv c { (s.conv c) with rep := 0, start := s.padcAcc c e }

/-- The converters run: in RUN and EVE, until a descent beyond EVE begins (R162). -/
def padcRung (s : State) : Bool := s.rung ≤ 1 && s.phase == .up && !(s.boot.descend.any fun r => decide (2 ≤ r))

/-- A start of converter `c`'s sequence, `byStart` when START asked for it; starts of one tick make one (R157). -/
def padcStart (s : State) (c : Nat) (byStart : Bool) : State :=
  if !(s.enabled Pg.PADC && s.bit (F.PADC_EN c) && s.padcRung) || (s.conv c).startAt = some s.tick then s
  else
    let s := s.setConv c { s.conv c with startAt := some s.tick }
    if s.bit (F.PADC_RUN c) || s.bit (F.PADC_CALBUSY c) then (s.sat (F.PADC_OVRCNT c)).ipulse Pg.PADC 2
    else ((s.setConv c { s.conv c with byStart := byStart }).wr (F.PADC_RUN c) 1).padcEntry c 0

/-- The gain in use for entry `e` (R161). -/
def padcGain (s : State) (c e : Nat) : Nat :=
  if s.bit F.PADC_XEN && s.bit (F.PADC_SHARED c e) then s.rd F.PADC_XGAIN else s.rd (F.PADC_GAIN c e)

/-- The corrected value of a raw result (R158); the rounding of the division by 2^22 is open (log 5). -/
def padcCorrect (s : State) (c g : Nat) (raw : Int) : Int :=
  let x := (raw - sgn 24 (s.rd (F.PADC_CALOFS c g))) * (s.rd (F.PADC_CALGAIN c g) : Int)
  let q := x / 2 ^ 22
  let q := if x % 2 ^ 22 != 0 && Config.freeBit s.free then q + 1 else q
  max (-0x800000) (min 0x7FFFFF q)

/-- An accumulator takes one more result (R158). -/
def Acc.take (a : Acc) (v : Int) : Acc := { sum := a.sum + v, cnt := a.cnt + 1, min := min a.min v, max := max a.max v }

/-- The snapshot registers of entry `e` of converter `c` (R160). -/
def snapPut (s : State) (c e : Nat) (a : Acc) : State :=
  ((((s.wr (F.PADC_SUMLO c e) (unsgn 64 a.sum)).wr (F.PADC_SUMHI c e) (unsgn 64 a.sum / 2 ^ 32)).wr (F.PADC_CNT c e) a.cnt).wr
    (F.PADC_MIN c e) (unsgn 32 a.min)).wr (F.PADC_MAX c e) (unsgn 32 a.max)

/-- What the last snapshot captured of entry `e` of converter `c`. -/
def snapOf (s : State) (c e : Nat) : Acc := SMap.get (fun _ => {}) (s.conv c).snapAcc e

/-- The shared entry of converter `c` with its captured mean, truncated towards zero; none while its CNT is 0 (R161). -/
def padcMean (s : State) (c : Nat) : Option Int :=
  match (List.range 16).find? fun e => s.bit (F.PADC_SHARED c e) with
  | none => none
  | some e => let a := s.snapOf c e; if a.cnt = 0 then none else some (Int.tdiv a.sum (a.cnt : Int))

/-- PADC_CROSS_CHECK (R161), made when the tick of the snapshot is over: a result that completes in it belongs to the snapshot (R160). -/
def padcCross (s : State) : State :=
  if !s.bit F.PADC_XEN then s
  else
    match s.padcMean 0, s.padcMean 1 with
    | some a, some b =>
      let s := s.wr F.PADC_XDIFF (unsgn 32 (a - b))
      if s.rd F.PADC_XTOL < (a - b).natAbs then (s.ipulse Pg.PADC 0).detect 0x59 else s
    | _, _ => s.sat F.PADC_XSKIP

/-- A snapshot was taken in the tick that ends: its comparison is made. -/
def padcTickEnd (s : State) : State := if (s.conv 0).snapAt = some s.tick then s.padcCross else s

/-- The result `v` of entry `e` of converter `c`: the live accumulator takes it, or in the tick of a snapshot that cleared the
accumulators the snapshot alone (R158, R160). -/
def padcResult (s : State) (c e : Nat) (v : Int) : State :=
  let inSnap := decide ((s.conv c).snapAt = some s.tick)
  let a := s.padcAcc c e
  let b := s.snapOf c e
  let full := (if inSnap then b else a).cnt == 0xFFFFFFFF
  if full then s.iraw Pg.PADC 3 true
  else
    let s := if inSnap && s.bit F.PADC_SNAPCLR then s
      else s.setConv c { (s.conv c) with acc := SMap.set (fun _ => {}) (s.conv c).acc e (Acc.take a v) }
    if !inSnap then s
    else
      let s := s.setConv c { (s.conv c) with snapAcc := SMap.set (fun _ => {}) (s.conv c).snapAcc e (Acc.take b v) }
      s.snapPut c e (Acc.take b v)

/-- PADC_CONVERSION_DONE (R158). -/
def padcDone (s : State) (c : Nat) (raw : Int) : State :=
  if !s.bit (F.PADC_RUN c) || !s.padcRung then s
  else
    let e := s.rd (F.PADC_CUR c)
    let v := s.padcCorrect c (s.padcGain c e) raw
    let s := s.fresh
    let s := s.setConv c { s.conv c with last := SMap.set (fun _ => 0) (s.conv c).last e v }
    let s := s.padcResult c e v
    let k := s.conv c
    if k.rep < s.rd (F.PADC_REPS c e) then s.setConv c { k with rep := k.rep + 1 }
    else if e < s.rd (F.PADC_LAST c) then s.padcEntry c (e + 1)
    else if s.bit (F.PADC_CONT c) then s.padcEntry c 0
    else s.wr (F.PADC_RUN c) 0

/-- A write of a converter's CTL (R155, R157, R159); CALGO is judged before START. -/
def padcCtlWrite (s : State) (c a : Nat) (v : Word) : State × Status :=
  let run := s.bit (F.PADC_RUN c)
  if 8 < (F.PADC_RATE c).of v then (s, .range)
  else if run && ((F.PADC_RATE c).of v != s.rd (F.PADC_RATE c) || (F.PADC_LAST c).of v != s.rd (F.PADC_LAST c) ||
      (F.PADC_CONT c).of v != s.rd (F.PADC_CONT c)) then (s, .busy)
  else
    let (s, _) := s.genWrite a v
    let s := if s.bit (F.PADC_EN c) then s else (s.wr (F.PADC_RUN c) 0).wr (F.PADC_CALBUSY c) 0
    let cal := (F.PADC_CALGO c).on v
    let may := s.enabled Pg.PADC && s.bit (F.PADC_EN c) && s.padcRung
    let st : Status := if cal && run then .busy else .ok
    let s := if cal && !run && may then s.wr (F.PADC_CALBUSY c) 1 else s
    (if (F.PADC_START c).on v then s.padcStart c true else s, st)

/-- PADC_CALIBRATION_DONE (R159): the offsets and gains the calibration found. -/
def padcCalDone (s : State) (c : Nat) (res : List (Nat × Nat)) : State :=
  if !s.bit (F.PADC_CALBUSY c) || !s.padcRung then s
  else (s.each 8 fun s g => (s.wr (F.PADC_CALOFS c g) (res.getD g (0, 0)).1).wr (F.PADC_CALGAIN c g) (res.getD g (0, 0)).2).wr
    (F.PADC_CALBUSY c) 0

/-- PADC_SNAPSHOT (R160). -/
def padcSnap (s : State) : State :=
  let s := s.each 2 fun s c => (s.setConv c { s.conv c with snapAt := some s.tick, snapAcc := (s.conv c).acc }).each 16 fun s e =>
    s.snapPut c e (s.padcAcc c e)
  let s := (s.wr64 F.PADC_SNAPTLO s.now64).wrap F.PADC_SNAPSEQ
  let s := s.ipulse Pg.PADC 1
  if s.bit F.PADC_SNAPCLR then (s.each 2 fun s c => s.setConv c { (s.conv c) with acc := [], start := {} }).iraw Pg.PADC 3 false else s

/-- A write of SNAP (R160). -/
def padcSnapWrite (s : State) (v : Word) : State × Status :=
  let s := s.wr F.PADC_SNAPCLR (F.PADC_SNAPCLR.of v)
  (if F.PADC_SNAPGO.on v then s.padcSnap else s, .ok)

/-- PADC_SEQUENCE_ABANDON (R162): the entry in progress contributes nothing. A calibration in progress ends without a result, and counts
nowhere (log 14). -/
def padcAbandon (s : State) : State :=
  s.each 2 fun s c =>
    let s := s.wr (F.PADC_CALBUSY c) 0
    if s.bit (F.PADC_RUN c) then
      let k := s.conv c
      let s := s.setConv c { k with resume := s.bit (F.PADC_CONT c)
                                    acc := SMap.set (fun _ => {}) k.acc (s.rd (F.PADC_CUR c)) k.start }
      (s.wr (F.PADC_RUN c) 0).sat (F.PADC_ABANCNT c)
    else s

/-- Ascent: a CONT sequence resumes at entry 0 (R162). -/
def padcResume (s : State) : State :=
  s.each 2 fun s c =>
    if (s.conv c).resume then (s.setConv c { (s.conv c) with resume := false }).padcStart c false else s

/-- An entry's inputs are valid (R156); the taps are the codes 14 to 20 (log 14). -/
def padcInputs (inp inn : Nat) : Bool :=
  inp ≤ 21 && inn ≤ 13 && !(14 ≤ inp && inp ≤ 20 && inn != 12)

/-- The write of a word of the PADC page. -/
def padcWrite (s : State) (a : Nat) (v : Word) : State × Status :=
  let o := a % 0x1000
  if o = 0x40 then
    (if F.PADC_EXT.of v != s.rd F.PADC_EXT && (s.enabled Pg.PADC || s.enabled Pg.CMP) then (s, .busy) else s.genWrite a v)
  else if o = 0x44 then
    let x := F.PADC_XIN.of v
    if 21 < x then (s, .range)
    else if x != s.rd F.PADC_XIN && (s.bit (F.PADC_RUN 0) || s.bit (F.PADC_RUN 1)) then (s, .busy) else s.genWrite a v
  else if o = 0x50 then s.padcSnapWrite v
  else if 0x100 ≤ o ∧ o < 0x900 then
    let c := (o - 0x100) / 0x400
    let r := (o - 0x100) % 0x400
    if r = 0 then s.padcCtlWrite c a v
    else if 0x40 ≤ r ∧ r < 0x80 then
      let e := (r - 0x40) / 4
      let two := (F.PADC_SHARED c e).on v && (List.range 16).any fun k => k != e && s.bit (F.PADC_SHARED c k)
      if !padcInputs ((F.PADC_INP c e).of v) ((F.PADC_INN c e).of v) || two then (s, .range)
      else if s.bit (F.PADC_RUN c) then (s, .busy) else s.genWrite a v
    else s.genWrite a v
  else s.genWrite a v

end State

/-- VREF_READY: the reference has settled (R154). -/
def execVrefReady (s : State) : Host.Outcome State Fault Refusal := .next s.vrefReady

/-- PADC_START: a write of converter `c`'s CTL with START set (R157). -/
def execPadcStart (c : Fin 2) (v : Word) (s : State) : Host.Outcome State Fault Refusal :=
  let v := (F.PADC_START c).put v 1
  .next (s.hostWord (0x41100 + 0x400 * c) v fun s => s.padcCtlWrite c (0x41100 + 0x400 * c) v)

/-- ASTART_EDGE: an edge of ASTART starts the sequences whose TRIG and ASPOL take it (R157). -/
def execAstartEdge (falling : Bool) (s : State) : Host.Outcome State Fault Refusal :=
  .next (s.each 2 fun s c =>
    if s.rd (F.PADC_TRIG c) % 2 = 1 && s.bit (F.PADC_ASPOL c) == falling then s.padcStart c false else s)

/-- PADC_CONVERSION_DONE: converter `c` makes the 24-bit raw result `raw` (R158). -/
def execPadcConversionDone (c : Fin 2) (raw : BitVec 24) (s : State) : Host.Outcome State Fault Refusal :=
  .next (s.padcDone c raw.toInt)

/-- PADC_CALIBRATE: a write of converter `c`'s CTL with CALGO set (R159). -/
def execPadcCalibrate (c : Fin 2) (v : Word) (s : State) : Host.Outcome State Fault Refusal :=
  let v := (F.PADC_CALGO c).put v 1
  .next (s.hostWord (0x41100 + 0x400 * c) v fun s => s.padcCtlWrite c (0x41100 + 0x400 * c) v)

/-- PADC_CALIBRATION_DONE: converter `c`'s calibration finds the offset and gain of each of the eight gains (R159). -/
def execPadcCalibrationDone (c : Fin 2) (res : List (Nat × Nat)) (s : State) : Host.Outcome State Fault Refusal :=
  .next (s.padcCalDone c res)

/-- PADC_SNAPSHOT: a write of PADC.SNAP with GO set (R160). -/
def execPadcSnapshot (v : Word) (s : State) : Host.Outcome State Fault Refusal :=
  let v := F.PADC_SNAPGO.put v 1
  .next (s.hostWord 0x41050 v fun s => s.padcSnapWrite v)

end Sys2Proof.Machine
end

