-- ==== Sys2Proof/Machine/Almanac.lean ====
section
/-! DEFINITION. The Almanac (R25 to R33): comparison of the entries, delivery of their targets, and the transfer of entries. -/

namespace Sys2Proof.Machine

/-- An entry of the Almanac RAM as its two words. -/
structure AlmEnt where
  lo : Nat
  hi : Nat
deriving DecidableEq, Repr

/-- Its fields. -/
def AlmEnt.en (e : AlmEnt) : Bool := e.lo / 2 ^ 31 % 2 == 1
def AlmEnt.base (e : AlmEnt) : Nat := e.lo / 2 ^ 28 % 8
def AlmEnt.rep (e : AlmEnt) : Nat := e.lo / 2 ^ 26 % 4
def AlmEnt.k (e : AlmEnt) : Nat := e.lo / 2 ^ 16 % 1024
def AlmEnt.tgt (e : AlmEnt) : Nat := e.lo / 2 ^ 8 % 256
def AlmEnt.arg (e : AlmEnt) : Nat := e.lo % 256
def AlmEnt.angle (e : AlmEnt) : Nat := e.lo / 2 ^ 32
def AlmEnt.time (e : AlmEnt) : Nat := e.lo / 2 ^ 32 + 2 ^ 32 * (e.hi % 2 ^ 32)
def AlmEnt.step (e : AlmEnt) : Nat := e.hi / 2 ^ 32
def AlmEnt.ival (e : AlmEnt) : Nat := e.step % 2 ^ 31 * (if e.step / 2 ^ 31 = 1 then 1000000 else 1)

namespace State

/-- Where entry `i` lies. -/
def almAddr (i : Nat) : Nat := almBase + 16 * i

/-- The bit of entry `i` in ALM.ARMED0 to ALM.ARMED7. -/
def almArm (i : Nat) : Fld := ⟨0x10080 + 4 * (i / 32), i % 32, i % 32⟩

/-- The entries that a comparison has to look at, in index order: every other one holds zeros and clean check bits, and is disabled. -/
def almOn (s : State) : List Nat :=
  let l := (s.mem.filter fun c => almBase ≤ c.1 && c.1 < almBase + 0x1000).map (fun c => (c.1 - almBase) / 16) ++
    (s.chk.filter fun c => almBase ≤ 8 * c.1 && 8 * c.1 < almBase + 0x1000).map (fun c => (8 * c.1 - almBase) / 16)
  if l.isEmpty then [] else (List.range 256).filter l.contains

/-- A word the comparison reads: a correctable error is corrected, and of a poisoned word there is none (R419, R420, R423). A mark counts in
POISRD once, at the first comparison that finds it, and not again in each tick (log 25). -/
def almWord (s : State) (a : Nat) : State × Option Nat :=
  let met := s.alm.met.contains (a / 8)
  if s.synd a = 0xFF#8 then (if met then s else { (s.read64 a).1 with alm := { s.alm with met := a / 8 :: s.alm.met } }, none)
  else
    let s := if met then { s with alm := { s.alm with met := s.alm.met.filter (· != a / 8) } } else s
    let (s, d, p) := s.read64 a
    (s, if p then none else some d)

/-- Entry `i` when it is enabled and not poisoned. Its second word is read only when the first enables it. -/
def almEnt (s : State) (i : Nat) : State × Option AlmEnt :=
  match s.almWord (almAddr i) with
  | (s, some lo) =>
    if lo / 2 ^ 31 % 2 = 0 then (s, none)
    else
      let (s, b) := s.almWord (almAddr i + 8)
      (s, b.map fun hi => ⟨lo, hi⟩)
  | (s, none) => (s, none)

/-- The angle of a base (R25, R30): GRID0, GRID1 or the shaft. -/
def almAngle (s : State) (b : Nat) : Nat :=
  if b = 3 then (if s.bit F.MACH_REV then (2 ^ 32 - s.shaftAngle) % 2 ^ 32 else s.shaftAngle) else s.gridAngle (b - 1)

/-- The angle of a base is valid (R29). -/
def almValid (s : State) (b : Nat) : Bool := b == 3 || s.bit (F.GRID_VALID (b - 1))

/-- The tick has counted the present firing of entry `i` as missed, or no longer has. -/
def almMissed (s : State) (i : Nat) (on : Bool) : State :=
  let l := s.alm.missed.filter (· != i)
  { s with alm := { s.alm with missed := if on then i :: l else l } }

/-- Entry `i` fires: its once or interval rule acts (R26 to R28), and it falls due unless its k-th count withholds it. -/
def almFire (s : State) (i : Nat) (e : AlmEnt) : State × Bool :=
  let now := s.now64
  let a := almAddr i
  if e.base = 0 then
    if e.rep = 3 && e.ival != 0 then
      let d := (now + 2 ^ 64 - e.time) % 2 ^ 64
      let t := (e.time + (d / e.ival + 1) * e.ival) % 2 ^ 64
      ((s.write64 a (e.lo % 2 ^ 32 + t % 2 ^ 32 * 2 ^ 32) false).write64 (a + 8) (t / 2 ^ 32 + e.step * 2 ^ 32) false, true)
    else ((s.write64 a (e.lo - 2 ^ 31) false).wr (almArm i) 0, true)
  else if e.rep = 0 then ((s.write64 a (e.lo - 2 ^ 31) false).wr (almArm i) 0, true)
  else if e.rep = 1 then (s.wr (almArm i) 0, true)
  else if e.rep = 2 then
    let c := SMap.get (fun _ => 0) s.alm.count i
    (({ s with alm := { s.alm with count := SMap.set (fun _ => 0) s.alm.count i ((c + 1) % max e.k 1) } }).wr (almArm i) 0, c == 0)
  else (s.write64 a (e.lo % 2 ^ 32 + (e.angle + e.step) % 2 ^ 32 * 2 ^ 32) false, true)

/-- Entry `i` fires and joins the due list, unless it is dropped in a rung other than RUN (R32). -/
def almGo (s : State) (i : Nat) (e : AlmEnt) (due : List (Nat × Nat × Nat)) : State × List (Nat × Nat × Nat) :=
  let r := s.almFire i e
  if !r.2 then (r.1, due)
  else if r.1.rung != 0 && e.tgt != 0x0A then (r.1.sat F.ALM_MISSCNT, due)
  else (r.1, due ++ [(i, e.tgt, e.arg)])

/-- How far the angle of the entry's base lies past its value. -/
def almPast (s : State) (e : AlmEnt) : Nat := (s.almAngle e.base + 2 ^ 32 - e.angle) % 2 ^ 32

/-- The angle lies within the firing range, or in the range that arms again (R27). -/
def almNear (d : Nat) : Bool := decide (d < 0x40000000)
def almBack (d : Nat) : Bool := decide (0x80000000 ≤ d ∧ d < 0xC0000000)

/-- A forward jump since the last comparison has carried the angle 2^30 or more past the value (R27). -/
def almJump (s : State) (e : AlmEnt) : Bool :=
  let d := s.almPast e
  let p := SMap.get (fun _ => 0) s.alm.prev e.base
  let j := (s.almAngle e.base + 2 ^ 32 + 1 - p) % 2 ^ 32
  decide (p ≠ 0 ∧ j < 0x80000000 ∧ d < j ∧ d < 0x80000000) && !almNear d

/-- The comparison of an enabled entry on an angle base (R27 to R29). With the angle invalid, an entry that stays ready counts one missed
firing for each time the angle enters its range; one that waits to be armed again counts none (log 25). -/
def almAngleCheck (s : State) (fire : Bool) (i : Nat) (e : AlmEnt) (due : List (Nat × Nat × Nat)) : State × List (Nat × Nat × Nat) :=
  let d := s.almPast e
  let s := if almBack d then s.almMissed i false else s
  let ready := s.bit (almArm i) && !s.alm.missed.contains i
  if !s.almValid e.base then (if ready && almNear d then (s.sat F.ALM_MISSCNT).almMissed i true else s, due)
  else if ready && almNear d then (if fire then s.almGo i e due else (s, due))
  else if ready && s.almJump e then (s.sat F.ALM_MISSCNT, due)
  else (if almBack d then s.wr (almArm i) 1 else s, due)

/-- The comparison of one entry in this tick; `fire` when the tick is one of deliveries. The due list grows at its end. -/
def almCheck (fire : Bool) (r : State × List (Nat × Nat × Nat)) (i : Nat) : State × List (Nat × Nat × Nat) :=
  let x := r.1.almEnt i
  match x.2 with
  | none => (x.1, r.2)
  | some e =>
    if e.base = 0 then (if fire && reached 64 x.1.now64 e.time then x.1.almGo i e r.2 else (x.1, r.2))
    else if 3 < e.base || x.1.rung != 0 then (x.1, r.2)
    else x.1.almAngleCheck fire i e r.2

/-- Every entry compared in one tick, then each base's angle noted. -/
def almScan (s : State) (fire : Bool) : State × List (Nat × Nat × Nat) :=
  if s.phase != .up || 3 ≤ s.rung then (s, [])
  else
    let on := s.almOn
    if on.isEmpty then ({ s with alm := { s.alm with prev := [] } }, [])
    else
      let (s, due) := on.foldl (almCheck fire) (s, [])
      ({ s with alm := { s.alm with prev := [(1, s.almAngle 1 + 1), (2, s.almAngle 2 + 1), (3, s.almAngle 3 + 1)] } }, due)

/-- A delivered target (the table of ALM.W0). -/
def almTarget (s : State) (t arg : Nat) : State :=
  if t = 1 then s.loopTierGo arg
  else if t = 2 then s.loopTrigger arg
  else if t = 3 then (if 2 ≤ s.rd (F.PADC_TRIG (arg % 2)) then s.padcStart (arg % 2) false else s)
  else if t = 4 then (((s.padcSnap).gridSnap 0).gridSnap 1).mtreSnap
  else if t = 5 then s.intervalClose (arg % 2)
  else if t = 6 then s.probeInject (arg % 2 == 1)
  else if t = 7 then s.syncTarget
  else if t = 8 then s.stRequest (arg % 16) false
  else if t = 9 then s.spStaged arg
  else if t = 0x0A then s.wake 0
  else if t = 0x0B then s.planRequest
  else s

/-- A delivery (R31, R316). Only a delivery sets LASTV (log 25). -/
def almDeliver (s : State) (x : Nat × Nat × Nat) : State :=
  (((s.wr F.ALM_LASTV 1).wr F.ALM_LASTIDX x.1).almTarget x.2.1 x.2.2).dcEntry x.1

/-- The firings left over from earlier ticks that may still be delivered: outside RUN only the WAKE target, each other one being dropped
and counted (R32). -/
def almLeft (s : State) : State × List (Nat × Nat × Nat) :=
  let l := if s.rung = 0 then s.alm.left else s.alm.left.filter fun x => x.2.1 == 0x0A
  (s.satBy F.ALM_MISSCNT (s.alm.left.length - l.length), l)

/-- ALMANAC_DELIVERY: the entries fall due and at most four targets are delivered, those left over first (R31), after the steps that R69
puts before the Almanac's. In FAST and DORMANT it does not run (R32); firings left over at such a descent are kept and treated after the
ascent (log 25). -/
def almTick (s : State) : State :=
  if s.phase != .up || 3 ≤ s.rung then s
  else
    let r := (s.timeOrder 4).almLeft
    let (s, due) := r.1.almScan true
    let s := s.satBy F.ALM_LATECNT (min 4 r.2.length)
    let l := r.2 ++ due
    (l.take 4).foldl almDeliver { s with alm := { s.alm with left := l.drop 4 } }

/-- A write with EN set is refused (R33). -/
def almBad (s : State) (e : AlmEnt) : Bool :=
  3 < e.base || e.tgt = 0 || 0x0B < e.tgt || (e.rep = 2 && e.k = 0) || (e.base = 0 && (e.rep = 1 || e.rep = 2)) ||
  (e.base = 0 && e.rep = 3 && e.ival = 0) || (e.base != 0 && e.rep = 3 && (e.step = 0 || 2 ^ 31 < e.step)) ||
  (e.base = 3 && !s.has Pg.MACH)

/-- An entry written in the last tick holds from here on, its poisoned words marked (R420), and is armed (R27, R28, R33). ARMED of an entry
stored with EN clear reads 0, and that of a once entry clears when it fires (log 25). -/
def almStore (s : State) (x : AlmNew) : State :=
  let a := almAddr x.idx
  let s := ((s.write64 a x.lo x.pLo).write64 (a + 8) x.hi x.pHi).setBit (almArm x.idx) (x.lo / 2 ^ 31 % 2 == 1)
  { s with alm := { s.alm with count := SMap.set (fun _ => 0) s.alm.count x.idx 0, missed := s.alm.missed.filter (· != x.idx) } }

/-- The entries written in the last tick. -/
def almLand (s : State) : State := s.alm.fresh.foldl almStore { s with alm := { s.alm with fresh := [] } }

/-- Whether the pair of words W0 and W1, or W2 and W3, holds poisoned data. -/
def almPoisoned (s : State) (hi : Bool) : Bool := if hi then 4 ≤ s.ecc.almPoison else s.ecc.almPoison % 4 != 0

/-- An entry copied to W0 to W3 (R33), with its poison (R423). -/
def almShow (s : State) (lo hi : Nat) (pLo pHi : Bool) : State :=
  { (s.wr64 F.ALM_EN lo).wr64 F.ALM_VHI hi with ecc := { s.ecc with almPoison := (if pLo then 3 else 0) + (if pHi then 12 else 0) } }

/-- A write of ALM.ACC (R33). What an earlier host word wrote holds by now (log 32). -/
def almAccWrite (s : State) (v : Word) : State × Status :=
  let s := s.almLand
  let i := s.rd F.ALM_IDX
  let a := almAddr i
  let w := fun (o : Nat) => (s.reg (0x10048 + o)).toNat
  let e : AlmEnt := ⟨w 0 + 2 ^ 32 * w 4, w 8 + 2 ^ 32 * w 12⟩
  let bad := F.ALM_WR.on v && e.en && s.almBad e
  let s := if !F.ALM_WR.on v then s
    else if bad then s.sat F.ALM_REFCNT
    else { s with alm := { s.alm with fresh := s.alm.fresh.filter (·.idx != i) ++ [⟨i, e.lo, e.hi, s.almPoisoned false, s.almPoisoned true⟩] } }
  let s := if !F.ALM_RD.on v then s
    else match s.alm.fresh.find? (·.idx == i) with
      | some x => s.almShow x.lo x.hi x.pLo x.pHi
      | none =>
        let (s, lo, p) := s.read64 a
        let (s, hi, p') := s.read64 (a + 8)
        s.almShow lo hi p p'
  (s, if bad then .range else .ok)

/-- The write of a word of the ALM page. -/
def almWrite (s : State) (a : Nat) (v : Word) : State × Status :=
  let o := a % 0x1000
  if o = 0x44 then s.almAccWrite v
  else if 0x48 ≤ o ∧ o < 0x58 then
    let b := 2 ^ ((o - 0x48) / 4)
    ({ s with ecc := { s.ecc with almPoison := s.ecc.almPoison - s.ecc.almPoison / b % 2 * b } }).genWrite a v
  else s.genWrite a v

/-- A soft reset of the ALM page clears the three counters. -/
def almReset (s : State) : State := s.clear [F.ALM_LATECNT, F.ALM_MISSCNT, F.ALM_REFCNT]

end State

/-- ALMANAC_ENTRY_WRITE: a write of ALM.ACC with WR set (R33). -/
def execAlmanacEntryWrite (v : Word) (s : State) : Host.Outcome State Fault Refusal :=
  let v := F.ALM_WR.put v 1
  .next (s.hostWord 0x10044 v fun s => s.almAccWrite v)

/-- ALMANAC_ENTRY_READ: a write of ALM.ACC with RD set (R33). -/
def execAlmanacEntryRead (v : Word) (s : State) : Host.Outcome State Fault Refusal :=
  let v := F.ALM_RD.put v 1
  .next (s.hostWord 0x10044 v fun s => s.almAccWrite v)

/-- ALMANAC_DELIVERY: the comparisons of a tick in which an entry falls due or a firing is left over (R26 to R32). -/
def execAlmanacDelivery (s : State) : Host.Outcome State Fault Refusal := .next s.almTick

end Sys2Proof.Machine
end

