-- ==== Sys2Proof/Machine/Ecc.lean ====
section
/-! DEFINITION. The checker's test writes and the scrubber (R426, R427). -/

namespace Sys2Proof.Machine
namespace State

/-- A write of ECC.CTL: TGO is judged by TESTEN as it stands before the write (R426). -/
def eccCtlWrite (s : State) (v : Word) : State × Status :=
  let (t, st) := s.genWrite (Pg.ECC + 0x40) v
  if !F.ECC_TGO.on v then (t, st)
  else if !s.bit F.ECC_TESTEN then (t, .locked)
  else if 1 < s.modeNow then (t, .busy)
  else
    let k := s.rd F.ECC_TARR
    let o := s.rd F.ECC_TOFS
    if 4 < k || arraySize k ≤ o then (t, .range)
    else
      let d := s.rd F.ECC_TDATALO + 2 ^ 32 * s.rd F.ECC_TDATAHI
      (t.store64 (arrayBase k + o) d (BitVec.ofNat 8 (s.rd F.ECC_TCHK ^^^ eccCheck d)), st)

/-- The write of a word of the ECC page. -/
def eccWrite (s : State) (a : Nat) (v : Word) : State × Status :=
  let o := a % 0x1000
  if o = 0x40 then s.eccCtlWrite v
  else if o = 0x60 then s.genIf a v (F.ECC_TOFS.of v % 8 == 0)
  else s.genWrite a v

/-- SCRUB_READ (R427): the word at the scrubber's place is read, and the place moves on; after MRAM a pass ends. -/
def scrub (s : State) : State :=
  if s.rd F.ECC_SCRUBRATE = 0 || 1 < s.rung || s.phase != .up then s
  else
    let k := s.ecc.arr
    let a := arrayBase k + s.ecc.ofs
    let s := if s.isInvalid a then s else (s.read64 a).1
    let o := s.ecc.ofs + 8
    if o < arraySize k then { s with ecc := { s.ecc with ofs := o } }
    else
      let s := { s with ecc := { s.ecc with arr := if k < 5 then k + 1 else 0, ofs := 0 } }
      if k < 5 then s else (s.wrap F.ECC_PASSCNT).ipulse Pg.ECC 2

end State

/-- SCRUB_READ: the scrubber reads its next word (R427). -/
def execScrubRead (s : State) : Host.Outcome State Fault Refusal := .next s.scrub

/-- ECC_TEST_WRITE: a write of ECC.CTL with TGO set (R426). -/
def execEccTestWrite (v : Word) (s : State) : Host.Outcome State Fault Refusal :=
  let v := F.ECC_TGO.put v 1
  .next (s.hostWord 0x8040 v fun s => s.eccCtlWrite v)

end Sys2Proof.Machine
end

