-- ==== Sys2Proof/Machine/Decim.lean ====
section
/-! DEFINITION. What a decimation of a block starts (R146, R148, R179, R198, R373), the update of a grid tracker with all that follows
it (R251), and the leg thermal model's tick (R443). -/

namespace Sys2Proof.Machine
namespace State

/-- The latest result of input `n` joins its earlier ones before the next is made. -/
def modShift (s : State) (n : Nat) : State :=
  if s.modRuns n && (s.min' n).setC then
    let i := s.min' n
    s.setMin n { i with hist := (s.f32 (F.MOD_COUT n) :: i.hist).take 64 }
  else s

/-- The magnitude of input `n`'s result joins the mean of R443. -/
def modMagnitude (s : State) (n : Nat) : State :=
  if s.modRuns n && (s.min' n).setC then
    let i := s.min' n
    let y := s.f32 (F.MOD_COUT n)
    if F32.isFin y then s.setMin n { i with absSum := i.absSum + F32.toRat (F32.abs y), absCnt := i.absCnt + 1 }
    else s.setMin n { i with absBad := true }
  else s

/-- The latch of R179 and the ticks of the decimation. -/
def blkLatch (s : State) (m : Nat) : State :=
  let b := s.blk m
  s.setBlk m { b with
    cout := (blkIns m).map fun n => s.f32 (F.MOD_COUT n)
    ang0 := s.gridAngle 0
    ang1 := s.gridAngle 1
    shaft := s.shaftAngle
    tk1 := b.tk
    tk := s.tick
    decims := min 2 (b.decims + 1) }

/-- CONTROL_DECIMATION of block `m` (R146 to R148, R153): the inputs take the samples `bits` that precede the edge; nothing follows off
the schedule of the block or while none of its enabled inputs has settled. -/
def decimation (s : State) (m : Nat) (bits : List (List Bool)) : State :=
  let s := (blkIns m).foldl (fun s n => s.modSamples n (bits.getD (n % 6) [])) s
  if !s.bit (F.MOD_RUN m) || !s.decimDue m then s
  else
    let cycles := (s.tick - (s.blk m).tk) / max 1 (s.rd (F.MOD_DIV m))
    let near := (s.blk m).decims != 0 && s.decimSkip m cycles
    let s := s.decimServe m
    if !((blkIns m).any fun n => s.modRuns n && (s.min' n).setC) then s
    else if near then (s.sat (F.MOD_CNT m)).ipulse Pg.MOD 2
    else
      let s := ((blkIns m).foldl modShift s).decimate m
      let s := ((blkIns m).foldl modMagnitude s).blkLatch m
      (((s.slotCollect m).dcSample m).loopReady m).streams m

/-- GRID_TRACKER_UPDATE of port `p` (R251), the forming channels of the port (R283), and the units that take each update (R289, R304). -/
def trackerUpdate (s : State) (p : Nat) : State :=
  if !s.gridOn p then s
  else
    let s := s.gridCore p
    let s := s.each 8 fun s c => if s.has (Pg.CH c) && s.isGrid c && s.rd (F.CH_PORT c) == p then s.formUpdate c else s
    ((s.deadSync p).rideUpdate p).islUpdate p

/-- The leg model of leg `n` (R443); an interval without a result holds the rise (log 28). -/
def legModelOf (s : State) (n : Nat) : State :=
  let c := s.legCh n
  if !s.mapped n || !s.bit (F.AGE_CHEN c) then s
  else
    let g := s.legGrp n
    let i := s.min' (s.rd (F.LEGX_IPH g))
    let shed := s.nAct g ≤ s.rd (F.LEGX_MAPA_POS n)
    let r := SMap.get (fun _ => 0) (s.conv (s.rd (F.AGE_HSADC c))).last (s.rd (F.AGE_HSENT c))
    if shed then s.legModel n 0 r
    else if i.absBad || i.absCnt = 0 then s
    else
      let (x, s) := s.rnd (i.absSum / ((i.absCnt * s.nAct g : Nat) : Rat))
      s.legModel n x r

/-- LEG_MODEL_TICK: every leg, in RUN and EVE (R442), then the means start anew (R443). -/
def legModelTick (s : State) : State :=
  (if 2 ≤ s.rung then s else s.each 24 legModelOf).each 24 fun s n => s.setMin n { s.min' n with absSum := 0, absCnt := 0, absBad := false }

end State

/-- CONTROL_DECIMATION: a decimation edge of block `m`; `bits` holds for each of its inputs the samples taken since the last command that
told of its samples, in their order (R142, R144, R146). -/
def execControlDecimation (m : Fin 4) (bits : List (List Bool)) (s : State) : Host.Outcome State Fault Refusal :=
  .next (s.decimation m bits)

/-- GRID_TRACKER_UPDATE: the tracker of port `p` updates (R251). -/
def execGridTrackerUpdate (p : Fin 2) (s : State) : Host.Outcome State Fault Refusal := .next (s.trackerUpdate p)

/-- LEG_MODEL_TICK: 10 ms have passed (R443). -/
def execLegModelTick (s : State) : Host.Outcome State Fault Refusal := .next s.legModelTick

end Sys2Proof.Machine
end

