-- ==== Sys2Proof/Machine/FaultCmds.lean ====
section
/-! DEFINITION. The fault collector's and the journal's commands: acknowledgement, grace expiry, journal writes and user records
(R398, R405 to R408, R411 to R416). -/

namespace Sys2Proof.Machine
namespace State

/-- The lowest class source `n` may be given, 0 standing for NOTE (R398). -/
def fltFloor (n : Nat) : Nat :=
  match RegMap.fltClass n with
  | none => 0
  | some d => if (0x10 ≤ n ∧ n ≤ 0x14) || d = 3 || d = 4 then d else 0

/-- A write of FLT.SRCn (R398). -/
def srcWrite (s : State) (n : Nat) (v : Word) : State × Status :=
  let a := Pg.FLT + 0x400 + 4 * n
  let c := (F.FLT_CLASS n).of v
  let fl := fltFloor n
  if RegMap.fltClass n = none then (s, .ok)
  else if !s.locked a && (c = 5 || c = 6 || (c = 7 && fl != 0) || (c < fl)) then (s, .range)
  else s.genWrite a v

/-- A write of FLT.ACK (R407). -/
def ackWrite (s : State) (v : Word) : State × Status := (s.fltAck v, .ok)

/-- The write of a word of the FLT page. -/
def fltWrite (s : State) (a : Nat) (v : Word) : State × Status :=
  let o := a % 0x1000
  if o = 0x48 then s.ackWrite v
  else if o = 0x58 then s.genIf a v (s.locked a || (F32.isFin v && F32.le 0 v && F32.le v F32.oneW))
  else if 0x400 ≤ o ∧ o < 0x800 then s.srcWrite ((o - 0x400) / 4) v
  else s.genWrite a v

/-- The record in the course of writing ends: it lies in the ring at its place (R411), its place in the queue is free, and a failed
read-back raises JRNL_MRAM (R414, R428). -/
def jrnlWritten (s : State) (good : Bool) : State :=
  match s.jrnl.queue with
  | [] => s
  | r :: t =>
    let s := s.mramWrite (0x800000 + 32 * (r.seq % 4096)) r.bytes
    let s := ({ s with jrnl := { s.jrnl with queue := t } }).wr F.JRNL_QDEPTH t.length
    let s := s.ipulse Pg.JRNL 0
    if good then s else s.detect 0x07

/-- A write of JRNL.USERCTL (R416). -/
def userWrite (s : State) (v : Word) : State × Status :=
  let s := s.wr F.JRNL_USERCODE (F.JRNL_USERCODE.of v)
  if F.JRNL_USERGO.on v then
    (s.jrnlAdd 7 (s.rd F.JRNL_USERCODE) 0 0 0 0 0 (s.rd F.JRNL_USERDHI * 2 ^ 32 + s.rd F.JRNL_USERDLO), .ok)
  else (s, .ok)

/-- The write of a word of the JRNL page. -/
def jrnlWrite (s : State) (a : Nat) (v : Word) : State × Status :=
  if a % 0x1000 = 0x4C then s.userWrite v else s.genWrite a v

end State

/-- GRACE_EXPIRY: the grace timer of source `n` expires (R405), after those of lower sources in this tick (R406). -/
def execGraceExpiry (n : Fin 256) (s : State) : Host.Outcome State Fault Refusal := .next (s.graceRun n)

/-- FAULT_ACK: a write of FLT.ACK with GO set (R407). -/
def execFaultAck (v : Word) (s : State) : Host.Outcome State Fault Refusal :=
  let v := F.FLT_ACKGO.put v 1
  .next (s.hostWord 0x6048 v fun s => s.ackWrite v)

/-- FAULT_ACK_ALL: a write of FLT.ACK with ALL set (R407). -/
def execFaultAckAll (v : Word) (s : State) : Host.Outcome State Fault Refusal :=
  let v := F.FLT_ACKALL.put v 1
  .next (s.hostWord 0x6048 v fun s => s.ackWrite v)

/-- JOURNAL_RECORD_WRITTEN: the write of the oldest queued record and its read-back end; `good` tells that they match (R414, R428). -/
def execJournalRecordWritten (good : Bool) (s : State) : Host.Outcome State Fault Refusal := .next (s.jrnlWritten good)

/-- JOURNAL_USER_APPEND: a write of JRNL.USERCTL with GO set (R416). -/
def execJournalUserAppend (v : Word) (s : State) : Host.Outcome State Fault Refusal :=
  let v := F.JRNL_USERGO.put v 1
  .next (s.hostWord 0x704C v fun s => s.userWrite v)

end Sys2Proof.Machine
end

