-- ==== Sys2Proof/Machine/Keeper.lean ====
section
/-! DEFINITION. The keeper domain (R102 to R117): measurements and shedding, the checkpoints, keeper time and the crossing writes. -/

namespace Sys2Proof.Machine
namespace State

/-! Checkpoints (R108 to R113). -/

/-- The journal form of an open record, as a checkpoint holds it (R112, R411). -/
def openBytes (s : State) (n : Nat) : List Byte :=
  let r := s.fltRec n
  JRec.bytes { seq := r.seq, time := r.time, kind := 1, src := n, cls := s.rd (F.FLT_CUR n)
               flags := r.flags % 16 + 16 + (if s.bit (F.FLT_RESTORED n) && r.flags / 2 % 2 = 0 then 2 else 0)
               dclass := r.dclass, scope := r.scope, aux := 0, data := r.iraw }

/-- The open records in the checkpoint's order: highest class first, then oldest first (R112). -/
def openSorted (s : State) : List Nat :=
  let l := (s.flt.filter fun e => e.2.isOpen).map (·.1)
  l.mergeSort fun x y =>
    let cx := s.rd (F.FLT_CUR x)
    let cy := s.rd (F.FLT_CUR y)
    decide (cy < cx) || (cx == cy && decide ((s.fltRec x).order ≤ (s.fltRec y).order))

/-- A checkpoint's bytes 0x000 to 0x1F7 (R112). -/
def ckptBody (s : State) (kind rail : Nat) (time : Nat) : List Byte :=
  let recs := (s.openSorted.take 4).map fun n => s.openBytes n
  let b := [0x56#8, 0x4E#8, 0x4B#8, 0x43#8] ++ leBytes 4 (s.rd F.KEEP_CKSEQ) ++ leBytes 8 time ++ leBytes 1 kind ++ leBytes 1 rail ++
    leBytes 1 s.fltCount ++ List.replicate 13 0#8 ++
    ((List.range 16).flatMap fun i => leBytes 8 (s.energy (i / 8) (i % 8))) ++
    ((List.range 16).flatMap fun i => leBytes 1 (s.energyWrap (i / 8) (i % 8))) ++
    (recs.flatten ++ List.replicate (128 - 32 * recs.length) 0#8) ++ s.deltaBytes
  b ++ leBytes 4 (crc32 b) ++ List.replicate 4 0#8

/-- The address of a checkpoint slot (R110). -/
def ckptAddr (slot : Nat) : Nat := 0x820000 + 0x200 * slot

/-- A checkpoint begins (R110): its SEQ is used up, and the slot's commit word is cleared. -/
def ckptBegin (s : State) (kind rail time : Nat) : State :=
  let body := s.ckptBody kind rail time
  let slot := s.rd F.KEEP_NEXTSLOT
  let s := s.mramWrite (ckptAddr slot + 0x1F8) (leBytes 8 0)
  let s := (s.wrap F.KEEP_CKSEQ).wrap F.KEEP_NEXTSLOT
  { s.wr F.KEEP_CKBUSY 1 with keep := { s.keep with ckpt := some (slot, body) } }

/-- A checkpoint that no other blocks (R110). -/
def ckptStart (s : State) (kind : Nat) : State :=
  if s.bit F.KEEP_CKBUSY then s else s.ckptBegin kind 0 (if s.timeRuns then s.now64 else 0)

/-- The checkpoint in progress ends with its body and then its commit word written (R109, R110). -/
def ckptEnd (s : State) : State :=
  match s.keep.ckpt with
  | none => s
  | some (slot, body) =>
    let s := s.mramWrite (ckptAddr slot) body
    let s := s.mramWrite (ckptAddr slot + 0x1F8) ((body.drop 0x1F0).take 4 ++ (body.drop 4).take 4)
    { (s.wr F.KEEP_CKBUSY 0).wr F.KEEP_CKREQ 0 with keep := { s.keep with ckpt := none } }

/-- The SEQ and body of a complete slot (R111): only a commit word that is not readable is set aside for that. -/
def ckptSlot (s : State) (slot : Nat) : Option (Nat × List Byte) :=
  let b := s.mramAny (ckptAddr slot) 0x1F8
  let c := s.mramWord (ckptAddr slot + 0x1F8)
  let crc := leVal ((b.drop 0x1F0).take 4)
  let seq := leVal ((b.drop 4).take 4)
  if c.2 && leVal (b.take 4) = 0x434B4E56 && crc = crc32 (b.take 0x1F0) && c.1 = seq * 2 ^ 32 + crc then some (seq, b) else none

/-- The latest complete checkpoint (R111). -/
def ckptLatest (s : State) : Option (Nat × List Byte) :=
  (List.range 8).foldl (fun best k =>
    match s.ckptSlot k, best with
    | some c, none => some c
    | some c, some b => if 0 < sdiff 32 c.1 b.1 then some c else some b
    | none, b => b) none

/-! Registers (R107, R108, R116). -/

/-- VRESVMIN in millivolts for a store: the least whole number whose square reaches (1200 + 40 × ESR/10)² + 80 × 10⁶ / C (R108). -/
def vresvMin (cstore esr : Nat) : Nat :=
  let a := 1200 + 4 * esr
  let x := a * a * cstore + 80000
  let r := F32.isqrt (x / cstore)
  if r * r * cstore < x then r + 1 else r

/-- A word the keeper refuses with RANGE (R107, R108 and the tables). -/
def keepRange (s : State) (o : Nat) (v : Word) : Bool :=
  if o = 0x40 then F.KEEP_ICHG.of v != 3
  else if o = 0x4C then F.KEEP_VCUT2.of v < F.KEEP_VCUT1.of v && 1100 ≤ F.KEEP_VCUT2.of v
  else if o = 0x50 then s.rd F.KEEP_VRESVMIN ≤ F.KEEP_VRESV.of v && F.KEEP_VRESV.of v ≤ s.rd F.KEEP_VTERM
  else if o = 0x54 then
    F.KEEP_CSTORE.of v != 0 && vresvMin (F.KEEP_CSTORE.of v) (F.KEEP_ESR.of v) ≤ max (s.rd F.KEEP_VRESV) (s.rd F.KEEP_VRESVMIN)
  else if o = 0x58 then 1800 ≤ F.KEEP_VTERM.of v && F.KEEP_VTERM.of v ≤ 2700
  else if o = 0x5C then F.KEEP_DAWNT.of v != 0
  else true

/-- A host write to a KEEP register (R116): dropped BUSY while one crosses, or refused, or begins to cross. The header and the fields
of the main logic take their part at once. -/
def keepWrite (s : State) (a : Nat) (v : Word) : State × Status :=
  let o := a % 0x1000
  if o < 0x40 then s.genWrite a v
  else if s.bit F.KEEP_XBUSY then (s, .busy)
  else if !s.keepRange o v then (s, .range)
  else
    let s := if o = 0x40 then
        let s := s.wr F.KEEP_CKPER (F.KEEP_CKPER.of v)
        if F.KEEP_CKREQ.on v && !s.bit F.KEEP_CKBUSY then (s.wr F.KEEP_CKREQ 1).ckptStart 3 else s
      else s
    ({ s.wr F.KEEP_XBUSY 1 with keep := { s.keep with crossing := some (a, v) } }, .ok)

/-- STAT.HARV and STAT.MAINCHG from the controls and the last measurement (R102 to R104, R116). -/
def keepCharge (s : State) : State :=
  let room := decide (s.rd F.KEEP_VSCAP < s.rd F.KEEP_VTERM)
  let s := s.setBit F.KEEP_HARV (s.bit F.KEEP_HARVEN && room && (if s.bit F.KEEP_COLD then decide (165 ≤ s.rd F.KEEP_HVIN) else s.keep.above))
  s.setBit F.KEEP_MAINCHG (s.keep.vddOk && room && s.rd F.KEEP_ICHG != 0)

/-- KEEP_WRITE_ARRIVAL (R116). A write that reaches a halted keeper is lost, and XBUSY clears (log 41). -/
def keepArrive (s : State) : State :=
  match s.keep.crossing with
  | none => s
  | some (a, v) =>
    let s := { s.wr F.KEEP_XBUSY 0 with keep := { s.keep with crossing := none } }
    if s.keep.halted then s
    else if a % 0x1000 = 0x40 then
      let s := ((((s.wr F.KEEP_ALMEN (F.KEEP_ALMEN.of v)).wr F.KEEP_DAWNEN (F.KEEP_DAWNEN.of v)).wr F.KEEP_VKEEPEN
        (F.KEEP_VKEEPEN.of v)).wr F.KEEP_ICHG (F.KEEP_ICHG.of v)).wr F.KEEP_HARVEN (F.KEEP_HARVEN.of v)
      let s := if F.KEEP_KTSET.on v then s.wr F.KEEP_KTSET 1 else s
      let s := if F.KEEP_KTSNAP.on v then s.wr F.KEEP_KTSNAP 1 else s
      let s := if s.bit F.KEEP_DAWNEN then s else s.wr F.KEEP_DAWN 0
      (s.setBit F.KEEP_VKEEPON (s.bit F.KEEP_VKEEPEN && !s.keep.low1)).keepCharge
    else
      let s := (s.genWrite a v).1
      if a % 0x1000 = 0x54 then s.wr F.KEEP_VRESVMIN (vresvMin (s.rd F.KEEP_CSTORE) (s.rd F.KEEP_ESR)) else s

/-! Measurements (R103 to R106). -/

/-- A threshold crossed falling at `th`, clearing `up` above it (R105): 50 mV. -/
def fell (was : Bool) (v th up : Nat) : Bool := if v < th then true else if th + up ≤ v then false else was

/-- A measurement (R105): VSCAP in mV, HV_IN in 2 mV steps, VDD_IO in its range, HV_IN above the harvester's set point. -/
def keepMeasure (s : State) (vscap hvin : Nat) (vdd above : Bool) : State :=
  if s.keep.halted then s
  else
    let s := (s.wr F.KEEP_VSCAP vscap).wr F.KEEP_HVIN hvin
    let cold := if s.bit F.KEEP_COLD then decide (vscap < 1100) else decide (vscap < 1000)
    let s := s.setBit F.KEEP_COLD cold
    let s := s.setBit F.KEEP_LOWRESV (fell (s.bit F.KEEP_LOWRESV) vscap (s.rd F.KEEP_VRESV) 50)
    let low1 := fell s.keep.low1 vscap (s.rd F.KEEP_VCUT1) 50
    let low2 := fell s.keep.low2 vscap (s.rd F.KEEP_VCUT2) 50
    let dawnLow := fell s.keep.dawnLow hvin (s.rd F.KEEP_DAWNV) 25
    let s := { s with keep := { s.keep with low1 := low1, low2 := low2, vddOk := vdd, above := above, dawnLow := dawnLow, halted := decide (vscap < 1000)
                                            rfGone := s.keep.rfGone || decide (vscap < 700) } }
    let s := s.setBit F.KEEP_VKEEPON (s.bit F.KEEP_VKEEPEN && !low1)
    let s := if low2 || s.keep.halted then s.wr F.KEEP_KTVALID 0 else s
    let s := s.keepCharge
    if dawnLow || s.keep.halted then s.wr F.KEEP_DAWN 0 else s

/-- KEEPER_RESTART (R106): VSCAP has recovered; `low` is the least it fell to. Below 0.70 V the domain starts from cold: every
register takes its reset value, the register file is zero and RFLOST is set. The fields of the main logic stay, and so do the write that
crosses and the checkpoint in progress. Until then the file reads as before the fall (log 41). -/
def keepRestart (s : State) (low : Nat) : State :=
  if !s.keep.halted then s
  else if s.keep.rfGone || low < 700 then
    let t := { s with regs := s.regs.filter fun e => !(0x4040 ≤ e.1 && e.1 < 0x5000)
                      keep := { crossing := s.keep.crossing, ckpt := s.keep.ckpt, bootRef := s.keep.bootRef } }
    let t := [F.KEEP_CKPER, F.KEEP_CKREQ, F.KEEP_CKBUSY, F.KEEP_XBUSY].foldl (fun t f => t.wr f (s.rd f)) t
    t.latch F.KEEP_RFLOST
  else { s with keep := { s.keep with halted := false } }

/-! Keeper time (R114, R115). -/

/-- Keeper time advances by `n` crystal counts, which may be negative (R114). -/
def keepAdd (s : State) (n : Int) : State :=
  let t := ((s.keep.sec * 32768 + s.keep.sub : Nat) : Int) + n
  let t := (t % ((2 ^ 48 * 32768 : Nat) : Int)).toNat
  { s with keep := { s.keep with sec := t / 32768, sub := t % 32768 } }

/-- Keeper time runs: it is valid and the keeper is not halted (R106, R114). -/
def keepRuns (s : State) : Bool := !s.keep.halted && !s.keep.low2 && s.bit F.KEEP_KTVALID

/-- Keeper time over one 2 ns tick of the model: 32 768 counts a second. -/
def keepTick (s : State) : State :=
  if !s.keepRuns then s
  else
    let p := s.keep.phase + 65536
    if p < 1000000000 then { s with keep := { s.keep with phase := p } }
    else ({ s with keep := { s.keep with phase := p - 1000000000 } }).keepAdd 1

/-- Keeper time in the counters' units (R75). -/
def keepTime (s : State) : Nat := s.keep.sec * secUnits + s.keep.sub * secUnits / 32768

/-- The load of F, A and B from keeper time, or zero when it is invalid (R75). -/
def loadCounters (s : State) : State :=
  let t := if s.bit F.KEEP_KTVALID then s.keepTime else 0
  { s with time := { s.time with f := t, a := t, b := t, slew := 0, slewLen := 0, slewAt := 0, switchTo := none, ppsMark := none, loaded := true } }

end State

/-- KEEPER_MEASUREMENT: the measurement of every 250 ms (R105, R106). -/
def execKeeperMeasurement (vscap hvin : Fin 4096) (vdd above : Bool) (s : State) : Host.Outcome State Fault Refusal :=
  .next (s.keepMeasure vscap hvin vdd above)

/-- KEEPER_RESTART: VSCAP recovers from a fall to `low` mV (R106). -/
def execKeeperRestart (low : Fin 4096) (s : State) : Host.Outcome State Fault Refusal := .next (s.keepRestart low)

/-- KEEPER_TRIM_ADJUST: 1 000 000 crystal cycles have passed and TRIM counts are added (R114). -/
def execKeeperTrimAdjust (s : State) : Host.Outcome State Fault Refusal :=
  .next (if s.keepRuns then s.keepAdd (sgn 8 (s.rd F.KEEP_TRIM)) else s)

/-- PERIODIC_CHECKPOINT: CKPER minutes have passed in RUN (R113). -/
def execPeriodicCheckpoint (s : State) : Host.Outcome State Fault Refusal :=
  .next (if s.rd F.KEEP_CKPER != 0 && s.rung = 0 && s.phase == .up then s.ckptStart 2 else s)

/-- CHECKPOINT_REQUEST: a write of KEEP.CTL with CKREQ set (R113). -/
def execCheckpointRequest (v : Word) (s : State) : Host.Outcome State Fault Refusal :=
  let v := F.KEEP_CKREQ.put v 1
  .next (s.hostWord 0x4040 v fun s => s.keepWrite 0x4040 v)

/-- CHECKPOINT_COMPLETE: the checkpoint in progress is written; `good` tells that its read-back matches (R110, R428). A merge that waits
for it follows (R446). -/
def execCheckpointComplete (good : Bool) (s : State) : Host.Outcome State Fault Refusal :=
  .next (if s.keep.ckpt = none then s else (if good then s.ckptEnd else s.ckptEnd.detect 0x07).planMerge)

/-- KEEPER_TIME_SET: keeper time is loaded from the seconds and nanoseconds of device time at a crystal edge (R114). While VSCAP lies below
VCUT2 the request stays pending (log 41). -/
def execKeeperTimeSet (s : State) : Host.Outcome State Fault Refusal :=
  .next (if s.bit F.KEEP_KTSET && !s.keep.halted && !s.keep.low2 then
      let t := s.devTime
      let s := { s with keep := { s.keep with sec := t / secUnits, sub := t % secUnits / 2 ^ 30 * 32768 / 1000000000, phase := 0 } }
      (s.wr F.KEEP_KTVALID 1).wr F.KEEP_KTSET 0
    else s)

/-- KEEPER_TIME_SNAP: keeper time is captured into KEEP.KT (R114). -/
def execKeeperTimeSnap (s : State) : Host.Outcome State Fault Refusal :=
  .next (if s.bit F.KEEP_KTSNAP then
      (((s.wr F.KEEP_KTSECLO s.keep.sec).wr F.KEEP_KTSECHI (s.keep.sec / 2 ^ 32)).wr F.KEEP_KTSUB s.keep.sub).wr F.KEEP_KTSNAP 0
    else s)

/-- KEEPER_ALARM: keeper time has reached KALM; the alarm fires once (R115). -/
def execKeeperAlarm (s : State) : Host.Outcome State Fault Refusal :=
  .next (if s.bit F.KEEP_ALMEN && s.keepRuns &&
        reached 48 s.keep.sec (s.rd F.KEEP_KALMLO + 2 ^ 32 * s.rd F.KEEP_KALMHI) then
      let s := s.wr F.KEEP_ALMEN 0
      if s.phase == .down then s.latch ((F.KEEP_KWSRC).at 2) else s.wake 5
    else s)

/-- DAWN_DETECT: HV_IN has stayed above DAWNV for DAWNT seconds, as measured (R105, R115). -/
def execDawnDetect (s : State) : Host.Outcome State Fault Refusal :=
  .next (if s.bit F.KEEP_DAWNEN && !s.keep.halted && !s.keep.dawnLow then
      let s := s.wr F.KEEP_DAWN 1
      if s.phase == .down then s.latch ((F.KEEP_KWSRC).at 1) else s.wake 2
    else s)

/-- WAKE_N_LOW: with the main rails absent it is recorded in KWSRC; otherwise the wake logic takes it (R99, R115). A halted keeper does
neither (R106). -/
def execWakeNLow (s : State) : Host.Outcome State Fault Refusal :=
  .next (if s.keep.halted then s else if s.phase == .down then s.latch ((F.KEEP_KWSRC).at 0) else s.wake 1)

/-- KEEP_WRITE: a host write to a KEEP register at word `w` of its page (R116). -/
def execKeepWrite (w : Fin 1024) (v : Word) (s : State) : Host.Outcome State Fault Refusal :=
  .next (s.hostWord (0x4000 + 4 * w) v fun s => s.keepWrite (0x4000 + 4 * w) v)

/-- KEEP_WRITE_ARRIVAL: the crossing write reaches the keeper (R116). -/
def execKeepWriteArrival (s : State) : Host.Outcome State Fault Refusal := .next s.keepArrive

end Sys2Proof.Machine
end

