-- ==== Sys2Proof/Machine/Sec.lean ====
section
/-! DEFINITION. The roots in the fuses, the GQ image and its checks, fuse operations and attestation (R430 to R441, R462). -/

namespace Sys2Proof.Machine

/-- A GQ image's header and payload (R434). -/
structure Gq where
  type : Nat
  root : Nat
  svn : Nat
  varmask : Nat
  bind : Nat
  pub : List Byte
  sig : List Byte
  digest : List Byte
  payload : List Byte
deriving DecidableEq, Repr

/-- The result of the checks of R436. -/
inductive GqRes where
  | ok | sigfail | rollback | noowner
deriving DecidableEq, Repr

/-- The device ID (R438). -/
def devId : Nat := leVal ((hash32 ((List.range 1793).map fun i => Config.idKey i)).take 8)

/-- The vendor root as bytes (R430). -/
def vendorBytes : List Byte := (List.range 8).flatMap fun i => leBytes 4 (Config.vendorRoot i).toNat

/-- Step 1 of R436: the format of R434. -/
def gqParse (b : List Byte) : Option Gq :=
  let w := fun o n => leVal ((b.drop o).take n)
  let z := fun o n => ((b.drop o).take n).all fun x => x == 0
  let type := w 6 1
  let plen := w 8 4
  if 0xC48 ≤ b.length && w 0 4 == 0x31495147 && w 4 2 == 1 && 1 ≤ type && type ≤ 5 && w 7 1 ≤ 1 && plen != 0 && plen % 8 == 0 &&
      w 0xC 1 ≤ 64 && w 0xD 1 < 8 && z 0xE 2 && z 0x20 32 && z 0x741 7 && b.length == 0xC48 + plen then
    let pl := b.drop 0xC48
    some { type := type, root := w 7 1, svn := w 0xC 1, varmask := w 0xD 1, bind := w 0x10 8, pub := (b.drop 0x40).take 1793
           sig := (b.drop 0x748).take 1280, digest := hash32 (b.take 0x748 ++ pl), payload := pl }
  else none

/-- The VARMASK bit and report code of a variant. -/
def Variant.code : Variant → Nat
  | .vnk8256 => 0
  | .vnk8248 => 1
  | .vnk8232 => 2

namespace State

/-- Owner slot `k` has a bit blown without VALID (R430). -/
def torn (s : State) : Bool := (s.sec.fuse.slot0 != 0 && !s.sec.fuse.v0) || (s.sec.fuse.slot1 != 0 && !s.sec.fuse.v1)

/-- The active owner root: 0 none, 1 slot 0, 2 slot 1 (R430); none while the device is sealed (R462). -/
def ownerActive (s : State) : Nat :=
  if s.boot.sealSt = 2 then 0 else if s.sec.fuse.v1 then 2 else if s.sec.fuse.v0 then 1 else 0

/-- The active owner root's bytes; zeros when there is none. -/
def ownerBytes (s : State) : List Byte :=
  let a := s.ownerActive
  leBytes 32 (if a = 1 then s.sec.fuse.slot0 else if a = 2 then s.sec.fuse.slot1 else 0)

/-- The anti-rollback counter `k` (R430). -/
def arb (s : State) (k : Nat) : Nat :=
  if k = 0 then s.sec.fuse.c0 else if k = 1 then s.sec.fuse.c1 else if k = 2 then s.sec.fuse.c2 else s.sec.fuse.c3

/-- ARBCNT. -/
def arbCnt (s : State) : Nat := s.arb 0 + 2 ^ 8 * s.arb 1 + 2 ^ 16 * s.arb 2 + 2 ^ 24 * s.arb 3

/-- Setting counter `k`. -/
def setArb (s : State) (k v : Nat) : State :=
  let f := s.sec.fuse
  let f := if k = 0 then { f with c0 := v } else if k = 1 then { f with c1 := v } else if k = 2 then { f with c2 := v }
    else { f with c3 := v }
  { s with sec := { s.sec with fuse := f } }

/-- SEC.STAT bits [4:0]. -/
def secStat (s : State) : Nat :=
  s.ownerActive + (if s.sec.fuse.v0 then 4 else 0) + (if s.sec.fuse.v1 then 8 else 0) + (if s.torn then 16 else 0)

/-- The SVN of the loaded image of TYPE `t` (SVNLD). -/
def svnFld (t : Nat) : Fld :=
  if t = 1 then F.SEC_SVNMICRO else if t = 2 then F.SEC_SVNCFG else if t = 3 then F.SEC_SVNDESC else F.SEC_SVNDATA

/-- Steps 2 to 7 of R436 on an image of the right format. -/
def gqCheck (s : State) (g : Gq) : GqRes :=
  if g.varmask / 2 ^ s.variant.code % 2 = 0 || (g.bind != 0 && g.bind != devId) then .sigfail
  else if (g.root == 0) != (g.type == 1) then .sigfail
  else if g.root = 1 && s.ownerActive = 0 then .noowner
  else if hash32 g.pub != (if g.root = 0 then vendorBytes else s.ownerBytes) then .sigfail
  else if !Config.sigVerify g.pub g.sig g.digest then .sigfail
  else if g.type != 5 && g.svn < s.arb (g.type - 1) then .rollback
  else .ok

/-- An image's D and SVN take their places in the report (R437). -/
def gqLoaded (s : State) (g : Gq) : State :=
  let c := s.sec
  let c := if g.type = 1 then { c with digMicro := g.digest } else if g.type = 2 then { c with digCfg := g.digest }
    else if g.type = 3 then { c with digDesc := g.digest } else if g.type = 4 then { c with digData := c.digData ++ [g.digest] } else c
  let s := { s with sec := c }
  if g.type = 5 then s else s.wr (svnFld g.type) g.svn

/-- A fuse operation, load or attestation is in progress (R433, R437). -/
def secBusy (s : State) : Bool := s.bit F.SEC_FBUSY || s.bit F.SEC_LBUSY || s.bit F.SEC_ABUSY

/-! Fuse operations (R431, R433, R436). -/

/-- The slot OP 1 fuses: the lowest with no bit blown, unless slot 0 is valid or the device is sealed. -/
def blankSlot (s : State) : Option Nat :=
  if s.sec.fuse.v0 || s.boot.sealSt = 2 then none
  else if s.sec.fuse.slot0 = 0 then some 0
  else if s.sec.fuse.slot1 = 0 && !s.sec.fuse.v1 then some 1 else none

/-- The staged hash OWNSTG. -/
def ownStg (s : State) : Nat := leVal ((List.range 8).flatMap fun i => leBytes 4 (s.rd (F.SEC_OWNSTG i)))

/-- A write of SEC.FUSE; a refusal shows in FUSESTAT and the write completes OK (log 12). -/
def fuseCtlWrite (s : State) (v : Word) : State × Status :=
  let op := F.SEC_FUSEOP.of v
  let k := F.SEC_FUSECTR.of v
  let res := fun r => (s.wr F.SEC_FUSERES r, Status.ok)
  if F.SEC_FUSEGO.on v && s.locked Pg.SEC then (s, .locked)
  else if F.SEC_FUSEKEY.of v != 0x5A3C || op = 0 || op = 3 then (s, .range)
  else if !F.SEC_FUSEGO.on v then (s, .ok)
  else if 1 < s.modeNow then res 1
  else if s.secBusy then res 4
  else if op = 1 then
    match s.blankSlot with
    | none => res 2
    | some n => ({ (s.wr F.SEC_FUSERES 0).wr F.SEC_FBUSY 1 with sec := { s.sec with fop := some (1, n, s.ownStg) } }, .ok)
  else if s.rd (svnFld (k + 1)) = 0xFF then res 3
  else if s.rd (svnFld (k + 1)) ≤ s.arb k then res 0
  else ({ (s.wr F.SEC_FUSERES 0).wr F.SEC_FBUSY 1 with sec := { s.sec with fop := some (2, k, s.rd (svnFld (k + 1))) } }, .ok)

/-- The fuses take their last bits: an owner slot with its VALID bit, or a counter's value (R430, R433). -/
def fuseBlow (s : State) (op k v : Nat) : State :=
  if op = 1 then
    let f := s.sec.fuse
    { s with sec := { s.sec with fuse :=
        if k = 0 then { f with slot0 := f.slot0 ||| v, v0 := true } else { f with slot1 := f.slot1 ||| v, v1 := true } } }
  else s.setArb k v

/-- A descent to rung `r` begins (R96). One to VIGIL or deeper stops the converters at once (R162). -/
def descBegin (s : State) (r : Nat) : State :=
  let s := { s.wr F.SYS_RUNGMOVING 1 with boot := { s.boot with descend := some r, descWait := none } }
  if 2 ≤ r then s.padcAbandon else s

/-- FUSE_OPERATION_DONE (R433): a descent requested meanwhile begins. -/
def fuseDone (s : State) : State :=
  match s.sec.fop with
  | none => s
  | some (op, k, v) =>
    let s := s.fuseBlow op k v
    let s := ({ s with sec := { s.sec with fop := none } }.wr F.SEC_FBUSY 0).ipulse Pg.SEC 2
    match s.boot.descWait with
    | none => s
    | some r => s.descBegin r

/-- Some bits of `v`, chosen by `r`, and at least one where `v` has one: its lowest. -/
def someBits (r v : Nat) : Nat := if r &&& v = 0 then v - (v &&& (v - 1)) else r &&& v

/-- A reset or power fail during a fuse operation (R433): the bits already blown stay; which ones they are is open (log 6). A slot is left
torn, with some bits of the hash; a counter shows a value between the old and the new one. -/
def fuseCut (s : State) : State :=
  match s.sec.fop with
  | none => s
  | some (op, k, v) =>
    let r := leVal ((List.range 8).flatMap fun i => leBytes 4 (Config.freeWord (s.free + i)).toNat)
    let f := s.sec.fuse
    let f := if op = 1 then (if k = 0 then { f with slot0 := f.slot0 ||| someBits r v } else { f with slot1 := f.slot1 ||| someBits r v }) else f
    let s := { s with free := s.free + 8, sec := { s.sec with fop := none, fuse := f } }
    if op = 1 then s else s.setArb k (s.arb k + r % (v - s.arb k + 1))

/-! Loading through the host (R437): the request. -/

/-- The image in shared RAM as the load reads it: none when a word of it is poisoned. -/
def imageRead (s : State) : State × Option (List Byte) := s.readBytes (0x300000 + s.rd F.SEC_LOFS) (s.rd F.SEC_LLEN)

/-- The TYPE of an image as read. -/
def imageType (l : Option (List Byte)) : Nat := ((l.getD []).getD 6 0#8).toNat

/-- A write of LOAD (R437); a refusal shows in LDSTAT and the write completes OK (log 12). The image is read in the tick of the request: the
words that LOFS, LLEN and shared RAM take later are no part of the load (R14, log 31). -/
def loadWrite (s : State) (v : Word) : State × Status :=
  let a := Pg.SEC + 0x100
  if !F.SEC_LOADGO.on v then s.genWrite a v
  else if s.locked a then (s, .locked)
  else
    let s := (s.genWrite a v).1
    let ofs := s.rd F.SEC_LOFS
    let res := fun r => (s.wr F.SEC_LDRES r, Status.ok)
    if 1 < s.modeNow then res 5
    else if s.secBusy then res 6
    else if 0xFC000 < ofs + s.rd F.SEC_LLEN || ofs % 8 != 0 then res 4
    else
    let (s, img) := s.imageRead
    let type := imageType img
    let resT := fun r => ((s.wr F.SEC_LDRES r).wr F.SEC_LDTYPE type, Status.ok)
    if type = 3 && (s.reg F.LENG_ACTLO.addr != 0 || s.reg F.LENG_ACTHI.addr != 0) then resT 6
    else if type = 4 || (type = 1 && s.rd F.BOOT_CODE = 0) then resT 7
    else if type = 5 && (s.boot.sealSt = 2 || !s.sec.fuse.v0 || s.sec.fuse.slot1 != 0 || s.sec.fuse.v1) then resT 8
    else ({ s.wr F.SEC_LBUSY 1 with sec := { s.sec with load := img } }, .ok)

/-! Attestation (R440, R441). -/

/-- The first 256 bytes of a report. -/
def reportBytes (s : State) : List Byte :=
  let flags := s.ownerActive + (if s.torn then 4 else 0) + (if s.rd F.BOOT_CODE = 0 then 0 else 8) + (if s.checkOk then 16 else 0)
  let dig := fun (l : List Byte) => if l = [] then List.replicate 32 0#8 else l
  [0x47#8, 0x51#8, 0x41#8, 0x31#8] ++ leBytes 2 1 ++ leBytes 2 flags ++ leBytes 8 devId ++
    ((List.range 8).flatMap fun i => leBytes 4 (s.rd (F.SEC_NONCE i))) ++ leBytes 8 s.now64 ++ leBytes 4 (s.rd F.SEC_ATTSEQ + 1) ++
    leBytes 1 s.modeNow ++ leBytes 1 s.rung ++ leBytes 1 (s.rd F.BOOT_CODE) ++ leBytes 1 s.variant.code ++
    dig s.sec.digMicro ++ dig s.sec.digCfg ++ dig s.sec.digDesc ++
    dig (if s.sec.digData = [] then [] else hash32 s.sec.digData.flatten) ++ s.ownerBytes ++
    leBytes 4 (s.reg 0x9050).toNat ++ leBytes 4 s.arbCnt ++ leBytes 4 (s.rd F.SAFE_CHECK) ++ leBytes 4 (s.rd F.JRNL_NEXTSEQ) ++ s.ageSum

/-- A write of ATT (R440); the report's values are taken in the same tick. -/
def attWrite (s : State) (v : Word) : State × Status :=
  if !F.SEC_ATTGO.on v || s.bit F.SEC_ABUSY then (s, .ok)
  else if !s.bit F.SEC_IDOK then (s.wr F.SEC_ATTRES 1, .ok)
  else if s.bit F.SEC_FBUSY || s.bit F.SEC_LBUSY then (s.wr F.SEC_ATTRES 2, .ok)
  else if 1 < s.rung then (s.wr F.SEC_ATTRES 3, .ok)
  else ({ (s.wr F.SEC_ATTRES 0).wr F.SEC_ABUSY 1 with sec := { s.sec with report := s.reportBytes } }, .ok)

/-- ATTESTATION_DONE (R440): the signature is added, every word of the window changes at once and ATTSEQ advances. -/
def attDone (s : State) : State :=
  if !s.bit F.SEC_ABUSY then s
  else
    let sg := (Config.sigMake s.free (hash32 s.sec.report) ++ List.replicate 1280 0#8).take 1280
    let b := s.sec.report ++ sg
    let s := s.fresh.each 384 fun s i => s.wr (F.SEC_REPORT i) (leVal ((b.drop (4 * i)).take 4))
    ((s.wr F.SEC_ABUSY 0).wrap F.SEC_ATTSEQ).ipulse Pg.SEC 1

/-- The write of a word of the SEC page. -/
def secWrite (s : State) (a : Nat) (v : Word) : State × Status :=
  let o := a % 0x1000
  if o = 0xC0 then s.fuseCtlWrite v
  else if o = 0x100 then s.loadWrite v
  else if o = 0x10C then (if F.SEC_CFGEVALID.on (s.clears a v) then s.setReg a 0 else s, .ok)
  else if o = 0x140 then s.attWrite v
  else s.genWrite a v

end State

/-- FUSE_OWNER_ROOT: a write of SEC.FUSE with OP 1 and GO (R431, R433). -/
def execFuseOwnerRoot (v : Word) (s : State) : Host.Outcome State Fault Refusal :=
  let v := F.SEC_FUSEOP.put (F.SEC_FUSEGO.put v 1) 1
  .next (s.hostWord 0x90C0 v fun s => s.fuseCtlWrite v)

/-- FUSE_ADVANCE_COUNTER: a write of SEC.FUSE with OP 2 and GO (R433, R436). -/
def execFuseAdvanceCounter (v : Word) (s : State) : Host.Outcome State Fault Refusal :=
  let v := F.SEC_FUSEOP.put (F.SEC_FUSEGO.put v 1) 2
  .next (s.hostWord 0x90C0 v fun s => s.fuseCtlWrite v)

/-- FUSE_OPERATION_DONE: the fuse operation in progress ends (R433). -/
def execFuseOperationDone (s : State) : Host.Outcome State Fault Refusal := .next s.fuseDone

/-- IMAGE_LOAD: a write of SEC.LOAD with GO set (R437). -/
def execImageLoad (v : Word) (s : State) : Host.Outcome State Fault Refusal :=
  let v := F.SEC_LOADGO.put v 1
  .next (s.hostWord 0x9100 v fun s => s.loadWrite v)

/-- ATTESTATION_REQUEST: a write of SEC.ATT with GO set (R440). -/
def execAttestationRequest (v : Word) (s : State) : Host.Outcome State Fault Refusal :=
  let v := F.SEC_ATTGO.put v 1
  .next (s.hostWord 0x9140 v fun s => s.attWrite v)

/-- ATTESTATION_DONE: the report is signed (R440). -/
def execAttestationDone (s : State) : Host.Outcome State Fault Refusal := .next s.attDone

end Sys2Proof.Machine
end

