-- ==== Sys2Proof/Machine/Reset.lean ====
section
/-! DEFINITION. The resets (R84 to R86) and the power fail (R45, R46, R109). -/

namespace Sys2Proof.Machine
namespace State

/-- The registers a reset leaves unchanged (R85): BOOT.CAUSE, SYS.WAKESRC, the keeper's registers and file, and MWEAR (R429). -/
def regKept (a : Nat) : Bool := a == 0x3044 || a == 0x10C || (0x4040 ≤ a && a < 0x5000) || (0x8400 ≤ a && a < 0x8800)

/-- The MRAM window. -/
def inMram (a : Nat) : Bool := 0x800000 ≤ a && a < 0x840000

/-- RESET_EFFECTS (R85): every register takes its reset value, the mode becomes INERT and the rung RUN. The MRAM, the fuses, the keeper
domain with the write that crosses to it, BOOT.CAUSE and SYS.WAKESRC stay, and so do the levels that the balls carry from outside, VDRV below its lock-out among them (R52),
and the instruction in the TAP (log 35). `b` is the cause's bit in BOOT.CAUSE, which it sets when the reset is released. -/
def resetTo (s : State) (ph : Phase) (b : Nat) : State :=
  let s := s.fuseCut
  let t := { State.reset with
    variant := s.variant, phase := ph, tmode := s.tmode, regs := s.regs.filter (fun e => regKept e.1)
    mem := s.mem.filter (fun e => inMram e.1), chk := s.chk.filter (fun e => inMram (8 * e.1))
    keep := { s.keep with ckpt := none }
    boot := { cause := s.boot.cause ||| 2 ^ b, lost := s.boot.lost, dark := s.boot.dark
              digestEvent := s.boot.digestEvent, sealSt := s.boot.sealSt, sealRef := s.boot.sealRef, jtag := s.boot.jtag }
    sec := { fuse := s.sec.fuse }, safe := {}
    mach := { a := s.mach.a, b := s.mach.b }, free := s.free, tick := s.tick, pending := s.pending }
  let t := t.each 8 fun t i => t.setTrip i { ball := (s.trip i).ball }
  let t := t.each 4 fun t k => t.setGdo k { low := (s.gdo k).low }
  let t := t.each 4 fun t k => t.setBit (F.LEGX_GDUVLO k) (s.gdo k).low
  let t := t.clear [F.KEEP_CKPER, F.KEEP_CKREQ, F.KEEP_CKBUSY]
  (t.wr F.SYS_SEALREF s.boot.sealRef.toNat).setBit F.SYS_SEALED (s.boot.sealSt == 2)

/-- The MRAM records in the course of writing are completed: a journal record and a checkpoint (R86). -/
def recordsEnd (s : State) : State :=
  let s := match s.jrnl.queue with
    | [] => s
    | r :: _ => s.mramWrite (0x800000 + 32 * (r.seq % 4096)) r.bytes
  s.ckptEnd

/-- The journal record in the course of writing stays incomplete: its place holds open values and a CRC that fails (R86, log 6). A
checkpoint's commit word is clear already (R110). -/
def recordsTorn (s : State) : State :=
  match s.jrnl.queue with
  | [] => s
  | r :: _ =>
    let body := (List.range 7).flatMap fun i => leBytes 4 (Config.freeWord (s.free + i)).toNat
    { s with free := s.free + 7 }.mramWrite (0x800000 + 32 * (r.seq % 4096)) (body ++ leBytes 4 (crc32 body ^^^ 0xFFFFFFFF))

/-- A pin or software reset: the records being written are completed first (R86). -/
def resetSoft (s : State) (b : Nat) : State := s.recordsEnd.resetTo .booting b

/-- A write of SYS.RSTREQ. -/
def rstWrite (s : State) (v : Word) : State × Status :=
  if F.SYS_RSTKEY.of v != 0xA5C3 then (s, .range)
  else if F.SYS_RSTGO.on v then (s.resetSoft 3, .ok) else (s, .ok)

/-- What the rails stand at: those that have fallen, and VDD_IO below 0.8 V (R41, R43). -/
def railsFell (s : State) (rails : Nat) (dark : Bool) : State := { s with boot := { s.boot with lost := s.boot.lost ||| rails, dark := dark } }

/-- The burst of R109 once VSCAP is measured: the records in progress and the checkpoint when it reaches VRESV; otherwise nothing is
written, and KEEP_CKREF is due at the next boot. -/
def burst (s : State) (rails vscap : Nat) : State :=
  if s.rd F.KEEP_VRESV ≤ vscap && !s.keep.halted then
    (s.recordsEnd.ckptBegin 1 rails (if s.timeRuns then s.now64 else 0)).ckptEnd
  else
    let s := (s.recordsTorn.latch F.KEEP_CKREF).sat F.KEEP_REFCNT
    { s with keep := { s.keep with bootRef := true } }

/-- BROWN_OUT (R45, R46, R109): the keeper measures (R105) and makes its burst; the outputs are safe and the main logic in reset. A further
rail that falls meanwhile adds nothing but its own loss. -/
def brownOut (s : State) (rails vscap hvin : Nat) (vdd above dark : Bool) : State :=
  if s.phase == .down then s.railsFell rails dark
  else (((s.keepMeasure vscap hvin vdd above).burst rails vscap).resetTo .down 1).railsFell rails dark

/-- The device leaves reset with every rail above its release level (R44). After a dip of some rails only, the cause is BROWN; when all
rails have come from below their trip levels it is a power-on, which clears the other causes (R84). -/
def powerOn (s : State) (tmode : Bool) : State :=
  if s.phase == .down && s.boot.lost != 31 then
    { s with phase := .booting, tmode := tmode, boot := { s.boot with lost := 0, dark := false } }
  else
    let s := (s.setReg 0x3044 0).resetTo .booting 0
    { s with tmode := tmode, boot := { s.boot with cause := 1, lost := 0, dark := false } }

end State

/-- POWER_ON_RESET: every main rail has stayed above its release level for 2 ms with RESET_N high; `tmode` is the level of TMODE (R40,
R44, R84). -/
def execPowerOnReset (tmode : Bool) (s : State) : Host.Outcome State Fault Refusal := .next (s.powerOn tmode)

/-- BROWN_OUT: the main rails of the mask `rails` (bit per rail, as in R44 from the top) fall in one instant (R45), and the keeper finds
`x`. -/
def execBrownOut (rails : Fin 32) (x : KeepIn) (s : State) : Host.Outcome State Fault Refusal :=
  .next (s.brownOut rails x.vscap x.hvin x.vdd x.above x.dark)

/-- PIN_RESET: RESET_N has been low for 1 µs or more and is released, TMODE at the level `tmode` (R40, R84, R86). -/
def execPinReset (tmode : Bool) (s : State) : Host.Outcome State Fault Refusal :=
  .next (if s.phase == .down then s else { s.resetSoft 2 with tmode := tmode })

/-- SOFTWARE_RESET: a write of SYS.RSTREQ with GO set (R84). -/
def execSoftwareReset (v : Word) (s : State) : Host.Outcome State Fault Refusal :=
  let v := F.SYS_RSTGO.put v 1
  .next (s.hostWord 0x110 v fun s => s.rstWrite v)

end Sys2Proof.Machine
end

