-- ==== Sys2Proof/Machine/Images.lean ====
section
/-! DEFINITION. The boot headers (R88 to R90) and the entries of a header that load without host writes: MICROCODE, DESCRIPTOR and DATA
(R91). -/

namespace Sys2Proof.Machine

/-! Boot headers (R89). -/

/-- `n` bytes at offset `o`, least significant first. -/
def hdrAt (b : List Byte) (o n : Nat) : Nat := leVal ((b.drop o).take n)

/-- A valid header (R88). -/
def hdrOk (b : List Byte) : Bool :=
  120 ≤ b.length && hdrAt b 0 4 == 0x424B4E56 && hdrAt b 4 2 == 1 && hdrAt b 6 2 == 0x78 && hdrAt b 0x74 4 == crc32 (b.take 0x74)

def hdrSeq (b : List Byte) : Nat := hdrAt b 8 4
def hdrEnts (b : List Byte) : Nat := hdrAt b 0x12 1

/-- Entry `i`: its TYPE, whether it is REQUIRED, its OFFSET and its LENGTH. -/
def entType (b : List Byte) (i : Nat) : Nat := hdrAt b (0x14 + 12 * i) 1
def entReq (b : List Byte) (i : Nat) : Bool := entType b i == 1 || hdrAt b (0x15 + 12 * i) 1 % 2 == 1
def entOfs (b : List Byte) (i : Nat) : Nat := hdrAt b (0x18 + 12 * i) 4
def entLen (b : List Byte) (i : Nat) : Nat := hdrAt b (0x1C + 12 * i) 4

/-- The used entries of TYPE `t` among the first `n`. -/
def entCount (b : List Byte) (t : Nat) : Nat := ((List.range (hdrEnts b)).filter fun i => entType b i == t).length

/-- The images of two entries overlap. -/
def entOverlap (b : List Byte) (i j : Nat) : Bool :=
  i != j && entType b i != 0 && entType b j != 0 && entOfs b i < entOfs b j + entLen b j && entOfs b j < entOfs b i + entLen b i

/-- An entry in its stated range (R89). One of TYPE 0 names no image: its OFFSET is not tested (log 36). -/
def entOk (b : List Byte) (i : Nat) : Bool :=
  entType b i ≤ 4 && hdrAt b (0x15 + 12 * i) 1 ≤ 1 && hdrAt b (0x16 + 12 * i) 2 == 0 &&
  (entType b i == 0 || (entOfs b i % 0x1000 == 0 && 0x2000 ≤ entOfs b i))

/-- The layout test of R90, on the NENT entries the header uses (log 36). -/
def layoutOk (b : List Byte) : Bool :=
  let l := List.range (hdrEnts b)
  hdrAt b 0xD 1 ≤ 2 && hdrAt b 0xE 1 ≤ 31 && (hdrAt b 0xF 1 == 3 || hdrAt b 0xF 1 == 4) && 5 ≤ hdrAt b 0x11 1 && hdrAt b 0x11 1 ≤ 40 &&
  1 ≤ hdrEnts b && hdrEnts b ≤ 8 && hdrAt b 0x13 1 == 0 && l.all (entOk b) &&
  entCount b 1 == 1 && entCount b 2 ≤ 1 && entCount b 3 ≤ 1 && !(l.any fun i => l.any fun j => entOverlap b i j)

/-- Of two headers, the one the device tries first, and the other when it may follow (R88, R92): copy A is false. -/
def hdrOrder (a b : List Byte) : List (Bool × List Byte) :=
  if hdrOk a && hdrOk b then
    if hdrSeq a = hdrSeq b then [(false, a)]
    else if 0 < sdiff 32 (hdrSeq b) (hdrSeq a) then [(true, b), (false, a)] else [(false, a), (true, b)]
  else if hdrOk a then [(false, a)] else if hdrOk b then [(true, b)] else []

/-- The digests of the 64 KiB blocks of a DATA payload (R91), `n` bounding their number. -/
def blockDigests : Nat → List Byte → List Byte
  | 0, _ => []
  | n + 1, l => if l.isEmpty then [] else hash32 (l.take 65536) ++ blockDigests n (l.drop 65536)

namespace State

/-- The image of an entry as the flash gives it: none when the read fails. -/
def entImage (b : List Byte) (i : Nat) (imgs : List (Nat × List Byte)) : Option (List Byte) :=
  match imgs.find? fun e => e.1 == entOfs b i with
  | none => none
  | some e => if e.2.length < entLen b i then none else some (e.2.take (entLen b i))

/-- The result of the checks of an entry (R91, R436): the image, or RES 2 NOOWNER, 3 SIGFAIL, 4 ROLLBACK, 5 RANGE, 6 RDERR. -/
def entCheck (s : State) (b : List Byte) (i : Nat) (imgs : List (Nat × List Byte)) : Nat × Option Gq :=
  let t := entType b i
  if t != 1 && s.ownerActive == 0 then (2, none)
  else match entImage b i imgs with
    | none => (6, none)
    | some l => match gqParse l with
      | none => (3, none)
      | some g =>
        let used := (s.boot.dataEnts.map fun e => e.2.1).sum
        let lim := if t = 1 then 45056 else if t = 3 then 65536 else if t = 4 then 33554432 - used else g.payload.length
        if g.type != t then (3, none)
        else match s.gqCheck g with
          | .sigfail => (3, none)
          | .rollback => (4, none)
          | .noowner => (2, none)
          | .ok => if lim < g.payload.length then (5, none) else (1, some g)

/-- The places of digests in use. -/
def digestsUsed (s : State) : Nat := (s.boot.dataEnts.map fun e => (e.2.1 + 65535) / 65536).sum

/-- The payload of a MICROCODE, DESCRIPTOR or DATA entry is applied (R91). Digests beyond the 512 places are not kept (log 36). -/
def entApply (s : State) (i : Nat) (g : Gq) : State :=
  if g.type = 1 then { s with boot := { s.boot with micro := g.payload } }
  else if g.type = 3 then s.writeBytes 0x100000 g.payload false
  else if g.type = 4 then
    let k := s.digestsUsed
    let s := s.writeBytes (0x3FC000 + 32 * k) (blockDigests (512 - k) g.payload) false
    { s with boot := { s.boot with dataEnts := s.boot.dataEnts ++ [(i, g.payload.length, k)] } }
  else s

/-- BOOT.ENTi. -/
def entRecord (s : State) (i t res : Nat) : State := (s.wr (F.BOOT_ENTTYPE i) t).wr (F.BOOT_ENTRES i) res

/-- DESCRIPTOR and DATA entries of the header that booted are loaded again from the flash (R100). One that fails, REQUIRED or not, is
recorded, and the reload goes on (log 36). -/
def reloadImages (s : State) (imgs : List (Nat × List Byte)) : State :=
  let b := s.boot.hdr
  let s := { s with boot := { s.boot with dataEnts := [] }, sec := { s.sec with digData := [] } }
  (List.range (hdrEnts b)).foldl (fun s i =>
    let t := entType b i
    if t < 3 then s
    else match s.entCheck b i imgs with
      | (r, none) => s.entRecord i t r
      | (r, some g) => ((s.entApply i g).gqLoaded g).entRecord i t r) s

/-! The copy of a DATA block (R93). -/

/-- A write of BOOT.DLCTL: ENT and BLK are stored; GO does nothing while a copy is in progress. -/
def dlctlWrite (s : State) (v : Word) : State × Status :=
    let s := (s.wr F.BOOT_DLENT (F.BOOT_DLENT.of v)).wr F.BOOT_DLBLK (F.BOOT_DLBLK.of v)
    if !F.BOOT_DLGO.on v || s.bit F.BOOT_DLGO then (s, .ok)
    else match s.boot.dataEnts.find? fun e => e.1 == s.rd F.BOOT_DLENT with
      | none => (s.wr F.BOOT_DLRES 1, .ok)
      | some e =>
        if (e.2.1 + 65535) / 65536 ≤ s.rd F.BOOT_DLBLK then (s.wr F.BOOT_DLRES 1, .ok)
        else ({ s.wr F.BOOT_DLGO 1 with boot := { s.boot with copy := some (s.rd F.BOOT_DLENT, s.rd F.BOOT_DLBLK, s.rd F.BOOT_DLDST) } }, .ok)

/-- The write of a word of the BOOT page. -/
def bootWrite (s : State) (a : Nat) (v : Word) : State × Status :=
  if a % 0x1000 = 0x80 then s.dlctlWrite v
  else if a % 0x1000 = 0x84 then s.genIf a v (F.BOOT_DLDST.of v < 15)
  else s.genWrite a v

/-- The copy ends with the block's bytes, none when the flash read failed (R93). -/
def copyDone (s : State) (l : Option (List Byte)) : State :=
  match s.boot.copy with
  | none => s
  | some (ent, blk, dst) =>
    let s := { s.wr F.BOOT_DLGO 0 with boot := { s.boot with copy := none } }
    match l, s.boot.dataEnts.find? fun e => e.1 == ent with
    | some l, some e =>
      let n := min 65536 (e.2.1 - 65536 * blk)
      let l := l.take n
      let s := s.writeBytes (0x300000 + 65536 * dst) l false
      let (s, d) := s.readBytes (0x3FC000 + 32 * (e.2.2 + blk)) 32
      if l.length = n ∧ some (hash32 l) = d then s.wr F.BOOT_DLRES 0
      else ((s.invalidate (0x300000 + 65536 * dst) 65536).wr F.BOOT_DLRES 2).detect 0x05
    | _, _ => s.wr F.BOOT_DLRES 3

end State

/-- DATA_BLOCK_COPY: a write of BOOT.DLCTL with GO set (R93). -/
def execDataBlockCopy (v : Word) (s : State) : Host.Outcome State Fault Refusal :=
  let v := F.BOOT_DLGO.put v 1
  .next (s.hostWord 0x3080 v fun s => s.dlctlWrite v)

/-- DATA_BLOCK_COPY_DONE: the copy in progress ends; `l` holds the block's bytes as read, none when the flash read failed (R93). -/
def execDataBlockCopyDone (l : Option (List Byte)) (s : State) : Host.Outcome State Fault Refusal := .next (s.copyDone l)

end Sys2Proof.Machine
end

