-- ==== Sys2Proof/Machine/Rungs.lean ====
section
/-! DEFINITION. The power ladder (R95 to R101) and the servo's watchdog (R74). -/

namespace Sys2Proof.Machine
namespace State

/-! Descent. -/

/-- The reason that refuses a descent to rung `r` (R96): 1 MODE, 2 BOOT, 3 NOWAKE, 4 BUSY; 0 none. A move already in progress, or a descent
that waits, counts as BUSY (log 29). -/
def rungReason (s : State) (r : Nat) : Nat :=
  let m := s.modeNow
  if m != 0 && m != 2 && m != 7 then 1
  else if !s.bit F.BOOT_DONE || s.bit F.BOOT_DLGO then 2
  else if !((List.range 8).any fun b => wakeUsable r b && s.bit (wakeEn.at b)) then 3
  else if s.bit F.TIME_LEAPPEND || s.bit F.CLK_UPDGO || s.jrnlDepth != 0 || s.bit F.KEEP_CKBUSY || s.bit F.SYS_RUNGMOVING || s.boot.descWait.isSome then 4
  else 0

/-- A write of SYS.RUNG (R96). While a fuse operation runs the descent waits for its end (R433). -/
def rungWrite (s : State) (v : Word) : State × Status :=
  let r := F.SYS_RUNGREQ.of v
  if 4 < r then (s, .range)
  else if r = s.rung then (s, .ok)
  else if r < s.rung then (if s.rung ≤ 2 then (s.ascend 3).wr F.SYS_RUNGREQ 0 else s, .ok)
  else
    let reason := s.rungReason r
    if reason != 0 then (s.wr F.SYS_RUNGREF reason, .ok)
    else
      let s := s.wr F.SYS_RUNGREQ r
      (if s.bit F.SEC_FBUSY then { s with boot := { s.boot with descWait := some r } } else s.descBegin r, .ok)

/-! The MRAM context area (R98). -/

/-- The trailer's magic. -/
def ctxMagic : List Byte := [0x56#8, 0x4E#8, 0x4B#8, 0x52#8]

/-- The retention image as MRAM holds it; none when a word is not readable. -/
def ctxImage (s : State) : Option (List Byte) :=
  match s.mramBytes 0x826000 0xA000, s.mramBytes 0x833000 0x6000 with
  | some a, some b => some (a ++ b)
  | _, _ => none

/-- The image matches the digest of its trailer. -/
def ctxWhole (s : State) : Bool :=
  match s.mramBytes 0x839000 64 with
  | none => false
  | some t => t.take 4 == ctxMagic && (match s.ctxImage with
    | none => false
    | some m => hash32 m == t.drop 32)

/-- Descent to DORMANT: the retention image, its parts in their places, then the trailer with the next sequence number. The spec does not
lay the image out: its bytes are open (log 6). -/
def ctxSave (s : State) : State :=
  let m := (List.range 0x10000).map (Config.imageByte s.free)
  let n := leVal (s.mramAny 0x839004 4) + 1
  ((s.fresh.mramWrite 0x826000 (m.take 0xA000)).mramWrite 0x833000 (m.drop 0xA000)).mramWrite 0x839000
    (ctxMagic ++ leBytes 4 (n % 2 ^ 32) ++ List.replicate 24 0#8 ++ hash32 m)

/-- The return-seal zeroes the area and its trailer (R459), which counts as writes of its words (R429). -/
def ctxZero (s : State) : State :=
  let area := fun a => (0x826000 ≤ a && a < 0x830000) || (0x833000 ≤ a && a < 0x839040)
  let s := { s with mem := s.mem.filter (fun x => !area x.1), chk := s.chk.filter (fun x => !area (8 * x.1)) }
  let s := (List.range 40).foldl (fun s b => s.satBy (F.ECC_MWEAR (152 + b)) 128) s
  let s := (List.range 24).foldl (fun s b => s.satBy (F.ECC_MWEAR (204 + b)) 128) s
  s.satBy (F.ECC_MWEAR 228) 8

/-- RUNG_DESCENT_COMPLETE (R95, R97). -/
def descentDone (s : State) (r : Nat) : State :=
  let s := { s with boot := { s.boot with descend := none } }
  let s := s.wr F.SYS_RUNG r
  let s := s.setBit F.SYS_RUNGMOVING s.boot.ascend.isSome
  let s := (s.mclkSync.each 2 fun s p => s.validClear p true).posDescent.lengGate
  let s := if 2 ≤ r then s.netDown.padcAbandon else s
  let s := if 3 ≤ r then (s.stoSync.cellsAll.each 16 fun s n => if s.cmpOn n then s else s.cmpOff n).lengEmpty.graceHalt else s
  if r = 4 then s.ctxSave else s

/-! Ascent. -/

/-- The memories after FAST and DORMANT (R100): descriptor and state RAM hold zeros, no word of shared RAM or the packet buffers is valid,
and no DESCRIPTOR or DATA image counts as loaded until the reload (R441). -/
def refill (s : State) : State :=
  let s := ((s.fillArray 2).fillArray 3).invalidate 0x300000 0x100000
  let s := s.invalidate pktBase 0x200000
  let s := (s.wr F.SEC_SVNDESC 0xFF).wr F.SEC_SVNDATA 0xFF
  { s with net := { s.net with q := [] }, sec := { s.sec with digDesc := [], digData := [] } }

/-- What every ascent starts again: the converters, the trackers (R257), the machine's position, the safety outputs and the auxiliary
drivers (R248). -/
def resumeUnits (s : State) : State :=
  let s := s.each 2 fun s p => s.gridRestart p true
  (s.padcResume.posSync.stoSync.gdosAll).subSync

/-- ASCENT_COMPLETE (R100): `lat` is the exit latency in 0.1 µs. From DORMANT the retention image in MRAM is checked first; the full boot of a
mismatch takes the level of TMODE (R40, log 35). -/
def ascentDone (s : State) (tmode : Bool) (lat : Word) : State :=
  let r := s.rung
  if r = 4 && !s.ctxWhole then
    let s := { s with boot := { s.boot with digestEvent := true } }
    { s.resetTo .booting 4 with tmode := tmode }
  else
    let s := { s with boot := { s.boot with ascend := none } }
    let s := (((s.wr F.SYS_RUNG 0).wr F.SYS_RUNGMOVING 0).wr F.SYS_RUNGREQ 0).setReg F.SYS_EXITUS.addr lat
    let s := if 3 ≤ r then
        let s := (((s.wr F.TIME_ACTIVE 0).wr F.TIME_SLEWING 0).wr F.TIME_DLOCK 0).wr F.CLK_LOCK 1
        ((s.holdSync.loadCounters.latch F.BOOT_WAKE).wr F.BOOT_DONE 0).refill.graceResume
      else s
    let s := if r = 4 then (s.mramTouch 0x826000 0xA000).mramTouch 0x833000 0x6040 else s
    s.resumeUnits

/-! The servo (R74). -/

/-- A write of the DLOCK word: a 1 in a domain's bit is activity of that domain. -/
def servoWrite (s : State) (v : Word) : State × Status :=
  let r := s.genWrite 0x205C v
  let s := r.1.each 2 fun s d => if v.getLsbD d then s.servoSeen d else s
  (s.holdSync, r.2)

/-- SRVWDT ms have passed without activity of domain `d`. -/
def servoSilent (s : State) (d : Nat) : Bool :=
  s.rd F.TIME_SRVWDT != 0 && decide (s.rd F.TIME_SRVWDT * 500000 ≤ s.tick - (if d = 0 then s.time.srvA else s.time.srvB))

/-- The lock of domain `d` (0 A, 1 B) lapses, which raises TIME_DLOSS. -/
def servoLapse (s : State) (d : Nat) : State :=
  if !s.servoSilent d || !s.rdBit F.TIME_DLOCK d then s else ((s.wr (F.TIME_DLOCK.at d) 0).detect 0x04).holdSync

end State

/-- RUNG_REQUEST: a write of SYS.RUNG (R96). -/
def execRungRequest (v : Word) (s : State) : Host.Outcome State Fault Refusal :=
  .next (s.hostWord 0x100 v fun s => s.rungWrite v)

/-- RUNG_DESCENT_COMPLETE: the last step of the descent ends (R97). -/
def execRungDescentComplete (s : State) : Host.Outcome State Fault Refusal :=
  .next (match s.boot.descend with
    | none => s
    | some r => s.descentDone r)

/-- WAKE_EVENT: a happening at wake source `b`, its bit in SYS.WAKEEN (R99). -/
def execWakeEvent (b : Fin 8) (s : State) : Host.Outcome State Fault Refusal := .next (s.wake b)

/-- ASCENT_COMPLETE: the ascent ends (R100), TMODE at the level `tmode`; `lat` is the exit latency in 0.1 µs. -/
def execAscentComplete (tmode : Bool) (lat : Word) (s : State) : Host.Outcome State Fault Refusal :=
  .next (if s.boot.ascend.isSome && s.boot.descend.isNone then s.ascentDone tmode lat else s)

/-- DESCRIPTOR_RELOAD_DONE: the DESCRIPTOR and DATA entries have been loaded again; `imgs` holds the images by their flash offset, one
that is missing being unreadable (R100). -/
def execDescriptorReloadDone (imgs : List (Nat × List Byte)) (s : State) : Host.Outcome State Fault Refusal :=
  .next (if s.bit F.BOOT_DONE || s.phase != .up then s else (s.reloadImages imgs).wr F.BOOT_DONE 1)

/-- SERVO_LOCK_WRITE: a write of TIME.DLOCK (R74). -/
def execServoLockWrite (v : Word) (s : State) : Host.Outcome State Fault Refusal :=
  .next (s.hostWord 0x205C v fun s => s.servoWrite v)

/-- SERVO_WATCHDOG_EXPIRY: SRVWDT ms have passed without activity of domain `d`, 0 A or 1 B (R74). -/
def execServoWatchdogExpiry (d : Fin 2) (s : State) : Host.Outcome State Fault Refusal := .next (s.servoLapse d)

end Sys2Proof.Machine
end

