-- ==== Sys2Proof/Machine/PageCtl.lean ====
section
/-! DEFINITION. The common page header (R137): what setting and clearing PCTL.EN does, the soft reset of each unit, and forced
sources (R410). -/

namespace Sys2Proof.Machine
namespace State

/-- Whether a write that sets PCTL.EN of the page at `pg` is accepted (R250, R297, R313, R323). -/
def mayEn (s : State) (pg : Nat) : Bool :=
  let q := pg / 0x1000
  let i := RegMap.instOf q
  match RegMap.unitOf q with
  | 0x12 => s.gridMayEn i
  | 0x14 => s.rideOrder
  | 0x18 => if s.chType i = 2 then s.dcMayEn i else if s.chType i = 3 then s.machMayEn i else true
  | _ => true

/-- A CH page's enable changes: setting it clears BOOTLAT of the channel's legs (R245) and ends FAULT (R269). -/
def chEnable (s : State) (c : Nat) (rise : Bool) : State :=
  let s := if rise then
      let s := (s.legsOf c).foldl (fun s n => (s.wr (F.LEG_BOOTLAT n) 0).iraw (Pg.LEG n) 9 false) s
      if s.sub c = 6 then s.wr (subF c) 0 else s
    else s
  (s.subUpdate false c).linkSync.islServed.cellsAll.fltLevels

/-- A LEG page's enable changes: a CPWM counter starts at zero counting up, or stops (R201). -/
def legEnable (s : State) (n : Nat) (rise : Bool) : State :=
  let l := s.leg n
  let s := if rise then
      (if s.rd (F.LEG_MODE n) = 1 then s.setLeg n { l with ctrOn := true, ctrFirst := true, up := true, ctrPh := 0, ctrAt := 16 * s.tick } else s)
    else (s.setLeg n { l with ctrOn := false, part := .none }).wr (F.LEG_FB n) 0
  s.cellUpdate n

/-- The enable of the page at `pg` has changed; `rise` when it was set. -/
def enHook (s : State) (pg : Nat) (rise : Bool) : State :=
  let q := pg / 0x1000
  let i := RegMap.instOf q
  match RegMap.unitOf q with
  | 0x12 => if rise then s.gridRestart i false else s.validClear i false
  | 0x14 => if !rise && s.bit F.RIDE_MC then s.mcEnd else s
  | 0x18 => s.chEnable i rise
  | 0x20 => s.legEnable i rise
  | 0x28 => s.mclkSync
  | 0x29 => if rise then s else s.each 2 fun s c => (s.wr (F.PADC_RUN c) 0).wr (F.PADC_CALBUSY c) 0
  | 0x2A => s.each 16 fun s n => if s.cmpOn n then s else s.cmpOff n
  | 0x2B => s.each 8 fun s k => s.tripSync k
  | 0x38 => if rise then (({ s with mach := { s.mach with zseen := false } }).posSync) else s
  | _ => s

/-! Soft resets. -/

/-- A LEG page's soft reset: counters, STAT flags, and the modulator under R201. BOOTLAT stays (R245). -/
def legReset (s : State) (n : Nat) : State :=
  let s := s.clear [F.LEG_FLOORCNT n, F.LEG_CEILCNT n, F.LEG_LATECNT n, F.LEG_CLAMPCNT n, F.LEG_REFRCNT n, F.LEG_IDCNT n, F.LEG_PERCNT n,
    F.LEG_XCNT n, F.LEG_BOOTCNT n, F.LEG_BTCHKCNT n, F.LEG_LATE n, F.LEG_CMPCLAMP n, F.LEG_TFLOOR n, F.LEG_TCEIL n, F.LEG_FB n]
  let l := s.leg n
  let s := s.setLeg n { l with part := .none, driving := false, cut := false, idle := false, floor := false, slotNow := false
                               ctrOn := l.ctrOn && s.rd (F.LEG_MODE n) == 1, ctrFirst := true, up := true, ctrPh := 0
                               ctrAt := 16 * s.tick }
  (s.legIraw n).cellUpdate n

/-- A MOD soft reset: every running filter starts anew, and the latches and the skip counters clear. A run of equal samples that still
holds sets its bit again (R143). -/
def modReset (s : State) : State :=
  let all := BitVec.ofNat 32 0xFFFFFF
  let s := s.each 4 fun s m =>
    let s := s.wr (F.MOD_CNT m) 0
    if s.bit (F.MOD_RUN m) then ((blkIns m).foldl modRestart s).modStat m else s
  ((s.ocClear all).1.stuckClear all).1

/-- A PADC soft reset: sequences, accumulators, snapshots and counters. -/
def padcReset (s : State) : State :=
  let s := (s.clear [F.PADC_SNAPSEQ, F.PADC_SNAPTLO, F.PADC_SNAPTHI, F.PADC_XSKIP]).iraw Pg.PADC 3 false
  s.each 2 fun s c =>
    let s := (s.setConv c {}).clear [F.PADC_RUN c, F.PADC_CUR c, F.PADC_OVRCNT c, F.PADC_ABANCNT c]
    s.each 16 fun s e =>
      let s := s.clear [F.PADC_SUMLO c e, F.PADC_SUMHI c e, F.PADC_CNT c e]
      (s.setReg (F.PADC_MIN c e).addr 0x7FFFFF#32).setReg (F.PADC_MAX c e).addr 0xFF800000#32

/-- A CMP soft reset: TRIPSTAT, STFAIL and every counter. -/
def cmpReset (s : State) : State :=
  let s := (s.tripstatWrite (BitVec.ofNat 32 0xFFFF)).1
  let s := (s.clear [F.CMP_STFAIL, F.CMP_HOSTDROP, F.CMP_ENGDROP, F.CMP_STREF, F.CMP_STRUN]).iraw Pg.CMP 1 false
  s.each 16 fun s n => s.wr (F.CMP_EVTCNT n) 0

/-- A CH page's soft reset (R463). -/
def chReset (s : State) (c : Nat) : State :=
  let s := s.clear [F.CH_HOSTDROP c, F.CH_ENGDROP c, F.CH_DLYCNT c, F.CH_HREFCNT c]
  if s.chType c = 2 then
    s.clear [F.CH_SCANCNT c, F.CH_SCANMOVE c, F.CH_SCANABN c, F.CH_DITHSKIP c, F.CH_BADCNT c, F.CH_TERMCNT c, F.CH_UPDCNT c, F.CH_DONE c]
  else s

/-- PAGE_SOFT_RESET of the page at `pg`; a unit whose chapter defines none changes nothing. -/
def softReset (s : State) (pg : Nat) : State :=
  let q := pg / 0x1000
  let i := RegMap.instOf q
  match RegMap.unitOf q with
  | 0x06 => s.clear [F.HIF_ABSENTCNT, F.HIF_CRCCNT, F.HIF_BUSYCNT, F.HIF_ABORTCNT]
  | 0x07 => s.clear [F.FLT_ESCCNT, F.FLT_SECCNT, F.FLT_RAISECNT]
  | 0x08 => s.clear [F.JRNL_DROPCNT, F.JRNL_NSUPP, F.JRNL_BADCNT]
  | 0x09 => (s.each 6 fun s k => s.clear [F.ECC_CECNT k, F.ECC_UECNT k]).clear [F.ECC_POISRD, F.ECC_PASSCNT, F.ECC_LASTVALID]
  | 0x0A => (s.clear [F.SEC_LDRES, F.SEC_LDTYPE, F.SEC_FUSERES, F.SEC_ATTRES]).setReg 0x910C 0
  | 0x0B => s.clear [F.AGE_RUNCNT, F.AGE_ABNCNT]
  | 0x0C => s.clear [F.SAFE_SINGLECNT, F.SAFE_SINGLETOT, F.SAFE_DISCNT, F.SAFE_PATHERR, F.SAFE_CRCERR, F.SAFE_DEMCNT, F.SAFE_RELCNT,
      F.SAFE_RELREFCNT]
  | 0x10 => s.almReset
  | 0x11 => s.lengReset
  | 0x12 => (s.gridRestart i false).clear [F.GRID_ZCCNT i, F.GRID_UNLCNT i, F.GRID_ZCTOCNT i]
  | 0x13 => s.clear [F.ALLOC_HREF, F.ALLOC_CNT]
  | 0x14 => s.clear [F.RIDE_ENTCNT, F.RIDE_MCCNT, F.RIDE_CROSSCNT, F.RIDE_RECCNT, F.RIDE_XVALID]
  | 0x15 => ((s.each 2 fun s p => s.clear [F.ISL_WINCNT p, F.ISL_REJCNT p]).clear [F.ISL_ISLCNT, F.ISL_FBCNT]).islClearAll
  | 0x16 => s.each 8 fun s c => s.clear [F.FORM_FBCNT c, F.FORM_VILCNT c]
  | 0x18 => s.chReset i
  | 0x20 => s.legReset i
  | 0x28 => s.modReset
  | 0x29 => s.padcReset
  | 0x2A => s.cmpReset
  | 0x2B => s.each 8 fun s k => s.clear [F.TRIP_QUALCNT k, F.TRIP_BLANKCNT k]
  | 0x30 => s.mtrReset
  | 0x38 => s.clear [F.MACH_REFCNT, F.MACH_ENCERR, F.MACH_ZERR, F.MACH_TWMISS, F.MACH_SHIFTCNT, F.MACH_HOMED]
  | 0x40 => s.netReset
  | 0x41 => s.netqReset
  | 0x42 => s.strmReset
  | _ => s

/-- A write of PCTL of the page at `pg`: LOCK, then EN, then SRST; a refused EN drops the whole word (log 10). -/
def pctlWrite (s : State) (pg : Nat) (v : Word) : State × Status :=
  let en := (F.EN pg).on v
  let was := s.bit (F.EN pg)
  if en && !was && !s.mayEn pg then (s, .range)
  else
    let s := if (F.LOCK pg).on v then s.wr (F.LOCK pg) 1 else s
    let s := s.setBit (F.EN pg) en
    let s := if en != was then s.enHook pg en else s
    (if (F.SRST pg).on v then s.softReset pg else s, .ok)

/-! Forced sources. -/

/-- FFORCE bit `b` of the page at `pg` (R410): the source is raised with FORCED, and the unit acts where its chapter says so (R151,
R166, R237, R241, R244, R284). -/
def forceBit (s : State) (pg b : Nat) : State :=
  match RegMap.fltOfForce (pg / 0x1000) b with
  | none => s
  | some n =>
    if 0x40 ≤ n ∧ n < 0x58 then s.ocTrip (n - 0x40) true
    else if 0x60 ≤ n ∧ n < 0x70 then s.cmpTrip (n - 0x60) true
    else if 0x70 ≤ n ∧ n < 0x78 then s.tripAct (n - 0x70) true
    else if 0x38 ≤ n ∧ n < 0x40 ∧ !s.bit (F.FORM_FALLBK (n - 0x38)) ∧ (s.form (n - 0x38)).rise.isNone then s.formFall (n - 0x38) true
    else if 0x80 ≤ n ∧ n % 2 = 0 then s.xonForce ((n - 0x80) / 2)
    else if 0x80 ≤ n then s.bootLatch ((n - 0x80) / 2) true
    else s.raiseFlt n 0 true

/-- A bit of FFORCE takes its place among others by the number of its source (R406). -/
def forcePut (pg b : Nat) : List Nat → List Nat
  | [] => [b]
  | c :: l =>
    if (RegMap.fltOfForce (pg / 0x1000) b).getD 256 < (RegMap.fltOfForce (pg / 0x1000) c).getD 256 then b :: c :: l else c :: forcePut pg b l

/-- The bits set in a word written to FFORCE, in the order of their sources. -/
def forceBits (pg : Nat) (v : Word) : List Nat := ((List.range 32).filter v.getLsbD).foldl (fun l b => forcePut pg b l) []

/-- A write of FFORCE: the sources of a tick are raised in ascending order (R406, R410). -/
def forceWrite (s : State) (pg : Nat) (v : Word) : State × Status :=
  if !s.bit F.FLT_FEN then (s, .locked) else ((forceBits pg v).foldl (fun s b => s.forceBit pg b) s, .ok)

end State
end Sys2Proof.Machine
end

