-- ==== Sys2Proof/Machine/HostRegs.lean ====
section
/-! DEFINITION. The effect of one written word on its target (R127): the register pages, the memory windows, the return-seal
(R458 to R460). -/

namespace Sys2Proof.Machine
namespace State

/-! The return-seal. -/

/-- The seal word in MRAM (R459): its state and reference. Its bits are not laid down, so the bytes stored are free (log 6). -/
def sealWord (s : State) (st : Nat) (ref : Word) : State :=
  let b := leBytes 4 (Config.freeWord s.free).toNat ++ leBytes 4 (Config.freeWord (s.free + 1)).toNat
  let s := ({ s with free := s.free + 2 }).mramWrite 0x825800 b
  { s with boot := { s.boot with sealSt := st, sealRef := ref } }

/-- The seal word is cleared (R459). -/
def sealClear (s : State) : State :=
  let s := s.mramWrite 0x825800 (leBytes 8 0)
  { s with boot := { s.boot with sealSt := 0, sealRef := 0 } }

/-- A write of SYS.SEAL (R458). -/
def sealWrite (s : State) (v : Word) : State × Status :=
  let res := fun r => (s.wr F.SYS_SEALRES r, Status.ok)
  if F.SYS_SEAL_KEY.of v != 0xC3A5 then (s, .range)
  else if !F.SYS_SEAL_GO.on v then (s, .ok)
  else if s.modeNow != 0 then res 1
  else if s.secBusy || s.bit F.AGE_BUSY || s.bit F.KEEP_CKBUSY || s.bit F.SYS_SEALING then res 2
  else if s.boot.sealSt = 2 then res 3
  else (((s.wr F.SYS_SEALRES 0).wr F.SYS_SEALING 1).sealWord 1 (BitVec.ofNat 32 (s.rd F.SYS_SEALREF)), .ok)

/-- The data of EVENT 0x04 (R460). -/
def sealData (s : State) : Nat := s.boot.sealRef.toNat + 2 ^ 32 * s.rd F.AGE_LSEQ

/-- The record of the seal is journalled after those that wait, and read back (R459, R460). -/
def sealRecord (s : State) (good : Bool) : State :=
  let s := (List.range s.jrnlDepth).foldl (fun s _ => s.jrnlWritten true) s
  (s.jrnlAdd 6 4 0 0 0 0 0 s.sealData).jrnlWritten good

/-- What the seal zeroes (R459 step 3). -/
def sealZero (s : State) : State :=
  let s := (s.mramWrite 0x820000 (List.replicate 4096 0#8)).ctxZero
  let s := (s.invalidate 0x300000 0x100000).invalidate pktBase 0x200000
  let s := ((s.fillArray 2).fillArray 3).fillArray 4
  s.each 16 fun s i => s.setEnergy (i / 8) (i % 8) 0

/-- SEAL_COMPLETE (R459): a failed read-back leaves all else unchanged; otherwise the data goes and the device resets, SEALED. -/
def sealDone (s : State) (good : Bool) : State :=
  if !s.bit F.SYS_SEALING then s
  else
    let s := s.sealRecord good
    if good then (s.sealZero.sealWord 2 s.boot.sealRef).resetSoft 3
    else ((s.sealClear).wr F.SYS_SEALING 0).wr F.SYS_SEALRES 4

/-! The pages whose words need no unit of their own. -/

/-- The write of a word of the SYS page. -/
def sysWrite (s : State) (a : Nat) (v : Word) : State × Status :=
  let o := a % 0x1000
  if o = 0x44 then s.modeReqWrite v
  else if o = 0x50 then
    let r := s.genWrite a v
    (r.1.channelsUpdate false, r.2)
  else if o = 0x58 then s.genIf a v (1 ≤ F.SYS_STOPT.of v && F.SYS_STOPT.of v ≤ 60000)
  else if o = 0x100 then s.rungWrite v
  else if o = 0x110 then s.rstWrite v
  else if o = 0x1C0 then s.sealWrite v
  else s.genWrite a v

/-- A write of HIF.FENCE (R132): GO holds the words accepted after it while any accepted before it waits, and reads 1 meanwhile;
a second one meanwhile has no effect (R14). -/
def fenceGoWrite (s : State) (v : Word) : State × Status :=
  if !F.HIF_FENCEGO.on v || s.bit F.HIF_FENCEGO then (s, .ok)
  else
    let k := s.hif.fenceOut
    let s := { s with hif := { s.hif with fenceOut := k + 1, fenceIn := max s.hif.fenceIn (k + 1) } }
    (s.setBit F.HIF_FENCEGO (s.hif.buf.any fun w => w.fence ≤ k), .ok)

/-- The write of a word of the HIF page. -/
def hifWrite (s : State) (a : Nat) (v : Word) : State × Status :=
  let o := a % 0x1000
  if o = 0x40 then s.genIf a v (1 ≤ F.HIF_HRDYTH.of v && F.HIF_HRDYTH.of v ≤ 64)
  else if o = 0x48 then s.fenceGoWrite v
  else if o = 0x4C then (if F.HIF_WEVALID.on (s.clears a v) then s.setReg a 0 else s, .ok)
  else s.genWrite a v

/-- The write of a register beyond the header. -/
def unitWrite (s : State) (a : Nat) (v : Word) : State × Status :=
  let q := a / 0x1000
  let i := RegMap.instOf q
  match RegMap.unitOf q with
  | 0x01 => s.sysWrite a v
  | 0x02 => s.clkWrite a v
  | 0x03 => if a % 0x1000 = 0x5C then s.servoWrite v else s.timeWrite a v
  | 0x04 => s.bootWrite a v
  | 0x05 => s.keepWrite a v
  | 0x06 => s.hifWrite a v
  | 0x07 => s.fltWrite a v
  | 0x08 => s.jrnlWrite a v
  | 0x09 => s.eccWrite a v
  | 0x0A => s.secWrite a v
  | 0x0B => s.ageWrite a v
  | 0x0C => s.safeWrite a v
  | 0x10 => s.almWrite a v
  | 0x11 => s.lengWrite a v
  | 0x12 => s.gridWrite i a v
  | 0x13 => s.allocPageWrite a v
  | 0x14 => s.rideWrite a v
  | 0x15 => s.islWrite a v
  | 0x16 => s.formWrite a v
  | 0x18 => s.chWrite i a v
  | 0x20 => s.legWrite i a v
  | 0x21 => s.legxWrite a v
  | 0x28 => s.modWrite a v
  | 0x29 => s.padcWrite a v
  | 0x2A => s.cmpWrite a v
  | 0x2B => s.tripWrite a v
  | 0x30 => s.mtrWrite a v
  | 0x31 => s.mtreWrite a v
  | 0x38 => let r := s.machWrite a v; (s.pvalidWatch r.1, r.2)
  | 0x40 => s.netWrite a v
  | 0x41 => s.netqWrite a v
  | 0x42 => s.strmWrite a v
  | _ => (s, .ok)

/-- The write of a word of the common header (R11, R13, R137, R139). -/
def headWrite (s : State) (a : Nat) (v : Word) : State × Status :=
  let pg := pageOf a
  let o := a % 0x1000
  if o = 0x8 then s.pctlWrite pg v
  else if o = 0x14 then (s.setReg a (v &&& BitVec.ofNat 32 (RegMap.irawBits (a / 0x1000))), .ok)
  else if o = 0x18 then (s.setReg a (s.reg a &&& ~~~(s.clears a v)), .ok)
  else if o = 0x1C then s.forceWrite pg v
  else if o = 0x20 then s.shdwWrite pg v
  else (s, .ok)

/-! The memory windows (R453, R176, R138). -/

/-- The address lies in a window the host may write: descriptor, state or shared RAM but for the digest area. -/
def winOpen (a : Nat) : Bool :=
  (0x100000 ≤ a && a < 0x110000) || (0x200000 ≤ a && a < 0x208000) || (0x300000 ≤ a && a < 0x3FC000)

/-- The address lies in a memory window. -/
def inWin (a : Nat) : Bool :=
  (0x100000 ≤ a && a < 0x110000) || (0x200000 ≤ a && a < 0x208000) || (0x300000 ≤ a && a < 0x400000) || inMram a

/-- The address lies in a page of the map or in a window (R452). -/
def inMap (a : Nat) : Bool := (a < 0x100000 && RegMap.unitOf (a / 0x1000) != 0) || inWin a

/-- The write of a word of a memory window. -/
def memWrite (s : State) (a : Nat) (v : Word) : State × Status :=
  if !winOpen a || s.lengGuard a then (s, .locked) else (s.write32 a v false, .ok)

/-- One written word takes effect in its target or is refused by it (R4, R127, R138, R452). -/
def wordWrite (s : State) (a : Nat) (v : Word) : State × Status :=
  if inWin a then s.memWrite a v
  else if !inMap a then (s, .range)
  else s.onPage (pageOf a) fun s =>
    let r := if a % 0x1000 < 0x40 then s.headWrite a v else s.unitWrite a v
    (r.1.subSync, r.2)

/-- The high half that goes with a buffered low half: the device writes both as one 64-bit word (R421). -/
def pairHigh (s : State) (a : Nat) (v : Word) : Option Word :=
  match bufPick a v [] s.hif.buf with
  | some (w, rest) =>
    if w.pairLow && winOpen a && !s.lengGuard a && !s.lengGuard (a + 4) then (rest.find? fun x => x.addr == a + 4).map (·.val) else none
  | none => none

/-- REGISTER_WRITE of the word `v` to address `a`. -/
def registerWrite (s : State) (a : Nat) (v : Word) : State :=
  match s.pairHigh a v with
  | some h => s.hostWord a v fun s => (s.write64 a (v.toNat + 2 ^ 32 * h.toNat) false, .ok)
  | none => s.hostWord a v fun s => s.wordWrite a v

/-- A written word of the page with number `q`, where that is a page. -/
def pageWord (s : State) (q o : Nat) (v : Word) : State :=
  if RegMap.unitOf q = 0 then s else s.hostWord (0x1000 * q + o) v fun s => s.wordWrite (0x1000 * q + o) v

end State

/-- The address of 32-bit word `w` of the 4 KiB block `q` (R452). -/
def wordAddr (q : Fin 4096) (w : Fin 1024) : Nat := 0x1000 * q + 4 * w

/-- REGISTER_WRITE: the word `v` written to word `w` of the 4 KiB block `q` takes effect or is refused (R127, R131). -/
def execRegisterWrite (q : Fin 4096) (w : Fin 1024) (v : Word) (s : State) : Host.Outcome State Fault Refusal :=
  .next (s.registerWrite (wordAddr q w) v)

/-- DROPCNT_CLEAR: a write of the OWNER register of channel `c`, or of the CMP page, with DCLR set (R134, R165). -/
def execDropcntClear (c : Option (Fin 8)) (v : Word) (s : State) : Host.Outcome State Fault Refusal :=
  .next (match c with
    | some c => s.pageWord (0x18 + c) 0x40 ((F.CH_DCLR c).put v 1)
    | none => s.pageWord 0x42 0x40 (F.CMP_DCLR.put v 1))

/-- PAGE_SOFT_RESET: a write of PCTL of the page with number `q` with SRST set (R137). -/
def execPageSoftReset (q : Fin 91) (v : Word) (s : State) : Host.Outcome State Fault Refusal :=
  .next (s.pageWord q 8 ((F.SRST 0).put v 1))

/-- PAGE_LOCK: a write of PCTL of the page with number `q` with LOCK set (R15). -/
def execPageLock (q : Fin 91) (v : Word) (s : State) : Host.Outcome State Fault Refusal :=
  .next (s.pageWord q 8 ((F.LOCK 0).put v 1))

/-- FAULT_FORCE: a write of FFORCE of the page with number `q` (R410). -/
def execFaultForce (q : Fin 91) (v : Word) (s : State) : Host.Outcome State Fault Refusal := .next (s.pageWord q 0x1C v)

/-- FENCE_GO: a write of HIF.FENCE with GO set (R132). -/
def execFenceGo (v : Word) (s : State) : Host.Outcome State Fault Refusal :=
  let v := F.HIF_FENCEGO.put v 1
  .next (s.hostWord 0x5048 v fun s => s.fenceGoWrite v)

/-- SEAL_REQUEST: a write of SYS.SEAL with GO set (R458). -/
def execSealRequest (v : Word) (s : State) : Host.Outcome State Fault Refusal :=
  let v := F.SYS_SEAL_GO.put v 1
  .next (s.hostWord 0x1C0 v fun s => s.sealWrite v)

/-- SEAL_COMPLETE: the seal in progress ends; `good` tells that its journal record reads back (R459). -/
def execSealComplete (good : Bool) (s : State) : Host.Outcome State Fault Refusal := .next (s.sealDone good)

end Sys2Proof.Machine
end

