-- ==== Sys2Proof/Machine/RegRead.lean ====
section
/-! DEFINITION. What a host read of a word returns (R124): the register pages, with the fields that show what a unit holds, and the memory
windows. -/

namespace Sys2Proof.Machine

/-- The page numbers in the bit order of ISUM0 and of ISUM1 (R139). -/
def isumPages0 : List Nat :=
  [0x0, 0x1, 0x2, 0x3, 0x4, 0x5, 0x6, 0x7, 0x8, 0x9, 0xA, 0xB, 0x10, 0x11, 0x12, 0x13, 0x14, 0x15, 0x16, 0x17, 0x18, 0x19, 0x1A, 0x1B,
   0x1C, 0x1D, 0x1E, 0x1F, 0x38, 0x40, 0x41, 0x42]
def isumPages1 : List Nat := [0x43, 0x48, 0x49, 0x50, 0x58, 0x59, 0x5A] ++ (List.range 24).map fun n => 0x20 + n

/-- A mask from the pages of a list that satisfy `p`. -/
def pageMask (l : List Nat) (p : Nat → Bool) : Nat :=
  match l with
  | [] => 0
  | q :: t => (if p q then 1 else 0) + 2 * pageMask t p

/-- An MRAM address that a host read does not show: the context area, its trailer and the sealed blob (R98, R439). -/
def mramHidden (a : Nat) : Bool := (0x826000 ≤ a && a < 0x830000) || (0x831000 ≤ a && a < 0x839040)

namespace State

/-- SYS.ISUM0 and SYS.ISUM1 (R139). -/
def isum0 (s : State) : Nat := pageMask isumPages0 fun q => s.ireq (0x1000 * q)
def isum1 (s : State) : Nat := pageMask isumPages1 fun q => s.ireq (0x1000 * q)

/-- HIRQ_N is asserted (R139). -/
def hirq (s : State) : Bool :=
  s.phase == .up && s.rung < 3 &&
  ((BitVec.ofNat 32 s.isum0 &&& s.reg F.SYS_IMASK0_MASK.addr) != 0#32 || (BitVec.ofNat 32 s.isum1 &&& s.reg F.SYS_IMASK1_MASK.addr) != 0#32)

/-- The free words of the write buffer (R126). -/
def wfree (s : State) : Nat := 64 - s.hif.buf.length

/-- A fence is pending: a FENCE frame or HIF.FENCE.GO. -/
def fencePend (s : State) : Bool := s.hif.fenceFrame || s.bit F.HIF_FENCEGO

/-- A word of the SYS page. -/
def sysRead (s : State) (a : Nat) : Nat :=
  let v := s.variant
  if a = 0x4C then s.permit
  else if a = 0xC0 then pageMask isumPages0 (RegMap.present v)
  else if a = 0xC4 then pageMask isumPages1 (RegMap.present v)
  else if a = 0xC8 then v.code
  else if a = 0x180 then s.isum0
  else if a = 0x184 then s.isum1
  else (s.reg a).toNat

/-- A word of the HIF page. -/
def hifRead (s : State) (a : Nat) : Nat :=
  if a = 0x5044 then
    (if s.fencePend then 0x4000 else 0) + (if s.hif.held.isSome then 0x2000 else 0) + (if s.hif.reading.isSome then 0x1000 else 0) + s.wfree
  else (s.reg a).toNat

/-- A word of the FLT page. -/
def fltRead (s : State) (a : Nat) : Nat :=
  if a = 0x6044 then
    wordGet (s.reg a) 0 0 + 2 ^ 12 * (s.fltCount % 512) +
      (List.range 4).foldl (fun m i => if s.fltAny (fun _ c => c == i + 1) then m + 2 ^ (i + 1) else m) 0
  else (s.reg a).toNat

/-- A word of the SEC page (R430, R438). -/
def secRead (s : State) (a : Nat) : Nat :=
  if a = 0x9040 then (s.reg a).toNat / 32 * 32 + s.secStat
  else if a = 0x9044 then devId
  else if a = 0x9048 then devId / 2 ^ 32
  else if a = 0x904C then s.arbCnt
  else if 0x9060 ≤ a ∧ a < 0x9080 then (Config.vendorRoot ((a - 0x9060) / 4)).toNat
  else if 0x9080 ≤ a ∧ a < 0x90A0 then s.sec.fuse.slot0 / 2 ^ (8 * (a - 0x9080))
  else if 0x90A0 ≤ a ∧ a < 0x90C0 then s.sec.fuse.slot1 / 2 ^ (8 * (a - 0x90A0))
  else if a = 0x9100 then (F.SEC_LOADGO.put (s.reg a) (s.rd F.SEC_LBUSY)).toNat
  else if a = 0x9140 then (F.SEC_ATTGO.put (s.reg a) (s.rd F.SEC_ABUSY)).toNat
  else (s.reg a).toNat

/-- A word of a CH page: the fields of a DCDC channel read 0 on the others, but for two that read their reset values. -/
def chRead (s : State) (c a : Nat) : Nat :=
  let o := a % 0x1000
  if 0x80 ≤ o && o < 0xD0 && s.chType c != 2 then (if o = 0x98 || o = 0x9C then (RegMap.resetOf a).toNat else 0)
  else if o = 0x14C then (s.commWord c 3).toNat else (s.reg a).toNat

/-- A word of a register beyond the header. -/
def unitRead (s : State) (a : Nat) : Nat :=
  let q := a / 0x1000
  let o := a % 0x1000
  let i := RegMap.instOf q
  let w := s.reg a
  match RegMap.unitOf q with
  | 0x01 => s.sysRead a
  | 0x06 => s.hifRead a
  | 0x07 => s.fltRead a
  | 0x0A => s.secRead a
  | 0x14 => if o = 0x9C then s.rideElapsed else w.toNat
  | 0x15 => if o = 0x80 then s.islMethod else if o = 0x8C then s.holdLeft else w.toNat
  | 0x18 => s.chRead i a
  | 0x20 => if o = 0x40 then ((F.LEG_BTEN i).put w (if s.btEn i then 1 else 0)).toNat else w.toNat
  | 0x28 => if 0x40 ≤ o && o < 0x80 && o % 16 = 8 then
      (let m := (o - 0x40) / 16
       (F.MOD_FREE m).put w (if s.rd (F.MOD_SMODE m) != 0 && s.bit (F.MOD_RUN m) && s.refStopped m then 1 else 0)).toNat else w.toNat
  | 0x29 => if o = 0x100 || o = 0x500 then
      (let c := (o - 0x100) / 0x400
       (F.PADC_START c).put ((F.PADC_CALGO c).put w (s.rd (F.PADC_CALBUSY c)))
         (if (s.conv c).byStart && s.bit (F.PADC_RUN c) then 1 else 0)).toNat else w.toNat
  | 0x2A => if o = 0x58 then (F.CMP_STGO.put w (if s.stBusy then 1 else 0)).toNat
    else if 0x104 ≤ o && o < 0x204 && o % 16 = 4 then (wordPut w 27 16 (s.cmpEff ((o - 0x104) / 16))).toNat else w.toNat
  | 0x38 => if o = 0xAC then s.machAngle else if o = 0xB0 then s.shaftAngle else w.toNat
  | _ => w.toNat

/-- A word of the common header (R137, R453, R455). -/
def headRead (s : State) (a : Nat) : Nat :=
  let q := a / 0x1000
  let o := a % 0x1000
  if o = 0 then RegMap.unitOf q * 2 ^ 24 + RegMap.instOf q * 2 ^ 16 + 0x100
  else if o = 4 then RegMap.pcap s.variant q
  else if o = 0x1C then 0
  else (s.reg a).toNat

/-- The value of the register at address `a` of a present page. -/
def regWord (s : State) (a : Nat) : Word := BitVec.ofNat 32 (if a % 0x1000 < 0x40 then s.headRead a else s.unitRead a)

/-- One word of a READ: its value and status (R4, R124, R138). Poisoned data of an Almanac entry shows in the words
of W0 to W3 that hold it (R423). -/
def wordRead (s : State) (a : Nat) : State × Word × Status :=
  if inWin a then
    if mramHidden a then (s, 0, .locked)
    else
      let (s, w, p) := s.read32 a
      (s, w, if p then .poison else .ok)
  else if !s.has (pageOf a) then (s, 0, .absent)
  else (s, s.regWord a, if 0x10048 ≤ a && a < 0x10058 && s.ecc.almPoison / 2 ^ ((a - 0x10048) / 4) % 2 == 1 then .poison else .ok)

/-- Both halves of the aligned word at `a` lie in a window that shows them: one read of the word gives both (Example 21.1). -/
def pairRead (a : Nat) : Bool := a % 8 == 0 && inWin a && !mramHidden a

/-- The words of a READ in address order. -/
def wordsRead (s : State) (a : Nat) : Nat → State × List (Word × Status)
  | 0 => (s, [])
  | 1 =>
    let (s, w, st) := s.wordRead a
    (s, [(w, st)])
  | n + 2 =>
    if pairRead a then
      let (s, d, p) := s.read64 a
      let st := if p then .poison else .ok
      let (s, l) := s.wordsRead (a + 8) n
      (s, ((halves d).1, st) :: ((halves d).2, st) :: l)
    else
      let (s, w, st) := s.wordRead a
      let (s, l) := s.wordsRead (a + 4) (n + 1)
      (s, (w, st) :: l)

end State
end Sys2Proof.Machine
end

