-- ==== Sys2Proof/Machine/Frames.lean ====
section
/-! DEFINITION. The frames of the host interface (R118 to R132) and the TAP (R40). An operand `l` holds the bytes the host sends after the
opcode, the CRC among them, as `nibbleBytes` makes them of the nibbles on the bus (log 34); bytes beyond the frame's end are ignored (R123). -/

namespace Sys2Proof.Machine

/-- The bytes that the nibbles on HIO3 to HIO0 spell: two to a byte, the high one first, HIO3 the top bit (R118). A nibble left over spells
none. -/
def nibbleBytes : List (BitVec 4) → List Byte
  | h :: l :: t => (h ++ l) :: nibbleBytes t
  | _ => []

/-- The nibbles of bytes, as either side launches them (R118). -/
def byteNibbles (l : List Byte) : List (BitVec 4) := l.flatMap fun b => [b.extractLsb' 4 4, b.extractLsb' 0 4]

namespace State

/-- HRDY is high (R128, R459; log 30): boot has ended, no descent to FAST or DORMANT and no ascent from VIGIL or deeper runs, no READ is
served, no FENCE frame waits, no seal runs, and HRDYTH words are free. -/
def hrdy (s : State) : Bool :=
  s.phase == .up && s.rung < 3 && !(s.boot.ascend.isSome && 2 ≤ s.rung) && !(s.boot.descend.any fun r => 3 ≤ r) &&
  s.hif.reading.isNone && !s.hif.fenceFrame && !s.bit F.SYS_SEALING && s.rd F.HIF_HRDYTH ≤ s.wfree

/-- What the device returned to the last frame. -/
def answer (s : State) (l : List Byte) : State := { s with hif := { s.hif with answer := l } }

/-- A STAT byte (R121). -/
def statByte (c : Status) : Byte := BitVec.ofNat 8 (0xA0 + c.code)

/-- HCS_N falls (R99, R101, R125, R130): the wake it is, and whether the frame is served. -/
def hcsFall (s : State) : State × Bool :=
  let s := s.answer []
  if s.phase != .up then (s, false)
  else (s.wake 3, decide (s.rung < 2) || (s.rung == 2 && !s.bit (wakeEn.at 3)))

/-- The frame has no effect (R123). -/
def frameAbort (s : State) : State :=
  match s.hcsFall with
  | (t, true) => t.sat F.HIF_ABORTCNT
  | (t, false) => t

/-- The host CRC covers opcode and arguments (R120); `n` is the number of bytes after the opcode. -/
def crcOk (op : Byte) (l : List Byte) (n : Nat) : Bool := crc16 (op :: l.take (n - 2)) == beVal ((l.drop (n - 2)).take 2)

/-- HOST_CRC_CHECK: checks 1 and 2 of R122; `rdy` is the level of HRDY when HCS_N fell. -/
def check12 (s : State) (rdy crc : Bool) : State × Status :=
  if !crc then (s.sat F.HIF_CRCCNT, .crcerr)
  else if !rdy then (s.sat F.HIF_BUSYCNT, .busy)
  else (s, .ok)

/-- Check 3 of R122. -/
def frameRange (a len : Nat) : Bool :=
  1 ≤ len && len ≤ 64 && a % 4 == 0 && a % 0x1000 + 4 * len ≤ 0x1000 && inMap a

/-- Check 4 of R122, for a WRITE. -/
def check4 (s : State) (a len : Nat) : State × Status :=
  if !inWin a && !s.has (pageOf a) then (s.satBy F.HIF_ABSENTCNT len, .absent)
  else if s.wfree < len then (s.sat F.HIF_BUSYCNT, .busy)
  else (s, .ok)

/-- The words of an accepted WRITE in the buffer, and the count of HIF.FENCE.GO writes after them (R126, R132, R421). -/
def bufWords (a : Nat) (d : List Byte) (k : Nat) : Nat → List BufWord × Nat
  | 0 => ([], k)
  | n + 1 =>
    let w := BitVec.ofNat 32 (beVal (d.take 4))
    let k' := if a = 0x5048 && F.HIF_FENCEGO.on w then k + 1 else k
    let r := bufWords (a + 4) (d.drop 4) k' n
    ({ addr := a, val := w, pairLow := a % 8 == 0 && n != 0, fence := k } :: r.1, r.2)

/-- An accepted WRITE enters the buffer (R126). -/
def bufAdd (s : State) (a len : Nat) (d : List Byte) : State :=
  let r := bufWords a d s.hif.fenceIn len
  { s with hif := { s.hif with buf := s.hif.buf ++ r.1, fenceIn := r.2 } }

/-- The rest of a WRITE frame whose CRC and HRDY are right. -/
def writeAccept (s : State) (a len : Nat) (d : List Byte) : State × Status :=
  if !frameRange a len then (s, .range)
  else match s.check4 a len with
    | (t, .ok) => (t.bufAdd a len d, .ok)
    | r => r

/-- A WRITE frame. -/
def writeFrame (s : State) (l : List Byte) : State :=
  let len := (l.getD 3 0).toNat
  let n := 6 + 4 * len
  if l.length < n then s.frameAbort
  else match s.hcsFall with
    | (t, false) => t
    | (t, true) =>
      let r := match t.check12 s.hrdy (crcOk 0x02 l n) with
        | (t, .ok) => t.writeAccept (beVal (l.take 3)) len (l.drop 4)
        | r => r
      r.1.answer [statByte r.2]

/-- An accepted READ replaces the held result and is served in the background (R124, R125). -/
def readAccept (s : State) (a len : Nat) : State × Status :=
  if !frameRange a len then (s, .range)
  else ({ s with hif := { s.hif with held := none, reading := some (a, len) } }, .ok)

/-- A READ frame. -/
def readFrame (s : State) (l : List Byte) : State :=
  if l.length < 6 then s.frameAbort
  else match s.hcsFall with
    | (t, false) => t
    | (t, true) =>
      let r := match t.check12 s.hrdy (crcOk 0x0B l 6) with
        | (t, .ok) => t.readAccept (beVal (l.take 3)) (l.getD 3 0).toNat
        | r => r
      r.1.answer [statByte r.2]

/-- Bytes with the device CRC after them (R120). -/
def withCrc (l : List Byte) : List Byte := l ++ beBytes 2 (crc16 l)

/-- The answer to a FETCH without data (R125). -/
def fetchNone (c : Status) : List Byte := withCrc [statByte c, 0#8, 0#8, 0#8, 0#8, 0xFF#8]

/-- The answer that carries a result (R119, R124). -/
def fetchData (r : ReadRes) : List Byte :=
  let i := r.words.findIdx fun w => w.2 != .ok
  let st := ((r.words[i]?).map (·.2)).getD .ok
  withCrc ([statByte st] ++ beBytes 3 r.addr ++ beBytes 1 r.words.length ++ [if i < r.words.length then BitVec.ofNat 8 i else 0xFF#8] ++
    r.words.flatMap fun w => beBytes 4 w.1.toNat)

/-- A FETCH frame (R125). -/
def fetchFrame (s : State) (l : List Byte) : State :=
  if l.length < 2 then s.frameAbort
  else match s.hcsFall with
    | (t, false) => t
    | (t, true) =>
      if !crcOk 0x0C l 2 then (t.sat F.HIF_CRCCNT).answer (fetchNone .crcerr)
      else if t.hif.reading.isSome then (t.sat F.HIF_BUSYCNT).answer (fetchNone .busy)
      else match t.hif.held with
        | none => t.answer (fetchNone .range)
        | some r => t.answer (fetchData r)

/-- The FLAGS byte (R127). -/
def statusFlags (s : State) : Nat :=
  (if s.hif.reading.isSome then 1 else 0) + (if s.hif.held.isSome then 2 else 0) + (if s.fencePend then 4 else 0) + (if s.hirq then 8 else 0)

/-- The answer to a STATUS frame (R127). -/
def statusBytes (s : State) (c : Status) : List Byte :=
  withCrc ([statByte c, BitVec.ofNat 8 (0xA0 + s.rd F.HIF_WECODE), BitVec.ofNat 8 s.wfree, BitVec.ofNat 8 s.statusFlags] ++
    beBytes 3 (s.rd F.HIF_WEADDR))

/-- A STATUS frame; `whole` tells that HCS_N stays low until the device's last nibble (R123, R127). -/
def statusFrame (s : State) (l : List Byte) (whole : Bool) : State :=
  if l.length < 2 then s.frameAbort
  else match s.hcsFall with
    | (t, false) => t
    | (t, true) =>
      if !crcOk 0x05 l 2 then (t.sat F.HIF_CRCCNT).answer (t.statusBytes .crcerr)
      else
        let b := t.statusBytes .ok
        (if whole then t.setReg F.HIF_WEVALID.addr 0 else t).answer b

/-- A FENCE frame (R132): HRDY stays low while an accepted write waits. -/
def fenceFrame (s : State) (l : List Byte) : State :=
  if l.length < 2 then s.frameAbort
  else match s.hcsFall with
    | (t, false) => t
    | (t, true) =>
      let r := t.check12 s.hrdy (crcOk 0x0F l 2)
      let t := if r.2 = .ok then { r.1 with hif := { r.1.hif with fenceFrame := !r.1.hif.buf.isEmpty } } else r.1
      t.answer [statByte r.2]

/-- The READ being served is read, when no accepted write to its page waits (R131). -/
def readServe (s : State) : State :=
  match s.hif.reading with
  | none => s
  | some (a, len) =>
    if s.hif.buf.any fun w => w.addr / 0x1000 == a / 0x1000 then s
    else
      let r := s.wordsRead a len
      { r.1 with hif := { r.1.hif with reading := none, held := some { addr := a, words := r.2 } } }

/-- The fences whose writes have all completed end (R132). -/
def fenceDone (s : State) : State :=
  let s := if s.hif.buf.isEmpty then { s with hif := { s.hif with fenceFrame := false } } else s
  if s.hif.buf.all fun w => decide (s.hif.fenceOut ≤ w.fence) then s.wr F.HIF_FENCEGO 0 else s

/-- An instruction enters the TAP (R40): 0 BYPASS, 1 SAMPLE, 2 PRELOAD, 3 EXTEST, which loads as BYPASS outside INERT; none is a reset of
the TAP, which selects the bypass register. R40 ties none of it to the device's own reset: the TAP takes it while the rails are down too,
when the mode is INERT. EXTEST stays loaded when the mode changes (log 35). -/
def tapLoad (s : State) (i : Option (Fin 4)) : State :=
  { s with boot := { s.boot with jtag := match i with
    | none => 0
    | some i => if i.val = 3 && s.modeNow != 0 then 0 else i.val } }

end State

/-- HOST_WRITE_FRAME: ADDR (3 bytes), LEN, the data and the CRC (R119, R122, R126). -/
def execHostWriteFrame (l : List Byte) (s : State) : Host.Outcome State Fault Refusal := .next (s.writeFrame l)

/-- HOST_READ_FRAME: ADDR (3 bytes), LEN and the CRC (R119, R122, R124). -/
def execHostReadFrame (l : List Byte) (s : State) : Host.Outcome State Fault Refusal := .next (s.readFrame l)

/-- HOST_FETCH_FRAME: the CRC (R119, R125). -/
def execHostFetchFrame (l : List Byte) (s : State) : Host.Outcome State Fault Refusal := .next (s.fetchFrame l)

/-- HOST_STATUS_FRAME: the CRC; `whole` tells that HCS_N stays low until the device's last nibble (R119, R127). -/
def execHostStatusFrame (l : List Byte) (whole : Bool) (s : State) : Host.Outcome State Fault Refusal := .next (s.statusFrame l whole)

/-- HOST_FENCE_FRAME: the CRC (R119, R132). -/
def execHostFenceFrame (l : List Byte) (s : State) : Host.Outcome State Fault Refusal := .next (s.fenceFrame l)

/-- FRAME_ABORT: HCS_N rises before the last CRC byte, or the opcode is unknown (R123). -/
def execFrameAbort (s : State) : Host.Outcome State Fault Refusal := .next s.frameAbort

/-- READ_SERVED: the READ in progress is read and its result held (R124, R131). -/
def execReadServed (s : State) : Host.Outcome State Fault Refusal := .next s.readServe

/-- FENCE_COMPLETE: the writes before a fence have completed (R132). -/
def execFenceComplete (s : State) : Host.Outcome State Fault Refusal := .next s.fenceDone

/-- JTAG_INSTRUCTION: 0 BYPASS, 1 SAMPLE, 2 PRELOAD, 3 EXTEST, none a TAP reset (R40). -/
def execJtagInstruction (i : Option (Fin 4)) (s : State) : Host.Outcome State Fault Refusal := .next (s.tapLoad i)

end Sys2Proof.Machine
end

