-- ==== Sys2Proof/Machine/Boot.lean ====
section
/-! DEFINITION. CONFIG records and the loads that carry them (R435, R437), and the boot (R87 to R94). -/

namespace Sys2Proof.Machine
namespace State

/-! CONFIG records (R435). -/

/-- The first record that does not complete OK is kept in CFGERR. -/
def cfgErr (s : State) (a : Nat) (st : Status) : State :=
  if st = .ok || s.bit F.SEC_CFGEVALID then s
  else ((s.latch F.SEC_CFGEVALID).wr F.SEC_CFGECODE st.code).wr F.SEC_CFGEADDR a

/-- `n` records applied in order; a record that resets the device ends the load. -/
def cfgApply (s : State) (l : List Byte) : Nat → State
  | 0 => s
  | n + 1 =>
    if s.boot.cause != 0 then s
    else
      let a := leVal (l.take 4)
      let r := if a % 4 = 0 then s.wordWrite a (BitVec.ofNat 32 (leVal ((l.drop 4).take 4))) else (s, .range)
      cfgApply (r.1.cfgErr a r.2) (l.drop 8) n

/-- An image's payload is applied and its D and SVN take their places (R435, R437). -/
def gqApply (s : State) (i : Nat) (g : Gq) : State :=
  let s := s.gqLoaded g
  if g.type = 2 then s.cfgApply g.payload (g.payload.length / 8)
  else if g.type = 5 then s.fuseBlow 1 1 (leVal g.payload)
  else s.entApply i g

/-! Loading through the host (R437). -/

/-- The result of the check of an image: LDSTAT.RES, and the image when it passes. A ROTATE payload has 32 bytes (R432); the limits of R90
hold here too (log 31). -/
def imageCheck (s : State) (l : Option (List Byte)) : Nat × Option Gq :=
  match l.bind gqParse with
  | none => (1, none)
  | some g => match s.gqCheck g with
    | .sigfail => (1, none)
    | .rollback => (2, none)
    | .noowner => (3, none)
    | .ok =>
      let n := g.payload.length
      if g.type = 4 then (7, none)
      else if g.type = 5 && n != 32 then (1, none)
      else if (g.type = 1 && 45056 < n) || (g.type = 3 && 65536 < n) then (4, none)
      else (0, some g)

/-- The load ends (R437): LBUSY clears, and LDSTAT holds the result and the TYPE. -/
def loadEnd (s : State) (res type : Nat) : State :=
  let s := { s with sec := { s.sec with load := none } }
  ((((s.wr F.SEC_LBUSY 0).wr F.SEC_LOADGO 0).wr F.SEC_LDRES res).wr F.SEC_LDTYPE type).ipulse Pg.SEC 0

/-- IMAGE_LOAD_DONE: a good image is applied, a refusal raises its source, and then the load ends. A CONFIG record that resets the device
leaves nothing to end. -/
def imageDone (s : State) : State :=
  if !s.bit F.SEC_LBUSY then s
  else
    let l := s.sec.load
    match s.imageCheck l with
    | (r, some g) =>
      let s := s.gqApply 8 g
      if g.type = 2 && s.boot.cause != 0 then s else s.loadEnd r (imageType l)
    | (r, none) =>
      let s := s.loadEnd r (imageType l)
      if r = 2 then s.detect 0x0B else if r = 1 || r = 3 then s.detect 0x0A else s

/-! The journal scan (R413). -/

/-- The SEQ of the record at place `i`, whether its CRC is right, and its bytes. -/
def jrnlPlace (s : State) (i : Nat) : Nat × Bool × List Byte :=
  let b := (s.mramBytes (0x800000 + 32 * i) 32).getD []
  (leVal (b.take 4), b.length == 32 && leVal (b.drop 28) == crc32 (b.take 28), b)

/-- JOURNAL_SCAN: NEXTSEQ and BADCNT, which a repeat of step 3 counts again (log 36); the bytes of the newest valid record. -/
def jrnlScan (s : State) : State × Option (List Byte) :=
  let r := (List.range 4096).foldl (fun (p : Nat × Option (Nat × List Byte)) i =>
    let (seq, ok, b) := s.jrnlPlace i
    if !ok then (p.1 + 1, p.2)
    else if seq % 4096 != i then p
    else match p.2 with
      | none => (p.1, some (seq, b))
      | some (q, _) => if 0 < sdiff 32 seq q then (p.1, some (seq, b)) else p) (0, none)
  let s := s.satBy F.JRNL_BADCNT r.1
  (s.wr F.JRNL_NEXTSEQ (match r.2 with | none => 0 | some (q, _) => q + 1), r.2.map (·.2))

/-! The boot (R87). -/

/-- SEAL_RESUME (R461): `newest` is the newest valid journal record. -/
def sealResume (s : State) (newest : Option (List Byte)) : State :=
  if s.boot.sealSt != 1 then s
  else
    let done := newest.any fun b => leVal ((b.drop 0xC).take 2) == 0x0406 && leVal ((b.drop 0x14).take 4) == s.boot.sealRef.toNat
    let s := if done then s else s.sealRecord true
    (s.sealZero.sealWord 2 s.boot.sealRef).wr F.SYS_SEALED 1

/-- The causes of the resets released show (R84). -/
def bootCause (s : State) : State :=
  let s := s.wr ⟨0x3044, 4, 0⟩ (s.rd ⟨0x3044, 4, 0⟩ ||| s.boot.cause)
  { s with hwSet := SMap.set (fun _ => 0) s.hwSet 0x3044 (s.hwBits 0x3044 ||| BitVec.ofNat 32 s.boot.cause), boot := { s.boot with cause := 0 } }

/-- Steps 1 and 2: the reference is present and the PLL locked; the counters are loaded (R75). -/
def bootBegin (s : State) : State := (((s.bootCause.wr F.CLK_REFOK 1).wr F.CLK_LOCK 1)).loadCounters

/-- Step 3 (R87, R413, R425, R439, R445, R451, R461). -/
def bootFill (s : State) : State :=
  let s := (((s.fillArray 2).fillArray 3).fillArray 4).invalidate 0x300000 0x100000
  let s := s.invalidate pktBase 0x200000
  let r := s.jrnlScan
  let s := r.1.setBit F.SEC_IDOK (Config.idTagOk 0)
  (s.ledgerSelect.boundsLoad).sealResume r.2

/-- BOOT.STAT.CODE of an entry's RES (log 29). -/
def bootCode (res : Nat) : Nat := if res = 4 then 6 else if res = 5 then 7 else if res = 6 then 4 else 5

/-- IMAGE_ENTRY_LOAD: entry `i`, and its RES. -/
def entLoad (s : State) (b : List Byte) (i : Nat) (imgs : List (Nat × List Byte)) : State × Nat :=
  let t := entType b i
  if t = 0 then (s, 0)
  else match s.entCheck b i imgs with
    | (r, none) => (s.entRecord i t r, r)
    | (r, some g) =>
      let s := s.gqApply i g
      if s.boot.cause != 0 then (s, 0) else (s.entRecord i t r, r)

/-- The entries of a header from `i` on, `n` of them: the first REQUIRED one that fails, with its RES, ends the load. -/
def hdrLoad (s : State) (b : List Byte) (imgs : List (Nat × List Byte)) (i : Nat) : Nat → State × Option (Nat × Nat)
  | 0 => (s, none)
  | n + 1 =>
    if s.boot.cause != 0 then (s, none)
    else
      let r := s.entLoad b i imgs
      if 2 ≤ r.2 && entReq b i then (r.1, some (i, r.2)) else hdrLoad r.1 b imgs (i + 1) n

/-- The results of a header's entries are kept when all it loaded is discarded (R92). -/
def entResults (s t : State) : State :=
  { s.each 8 fun s i => s.setReg (0x3060 + 4 * i) (t.reg (0x3060 + 4 * i)) with free := t.free }

/-- One header: none when it boots, or CODE and FAILIDX. -/
def bootHdr (s : State) (h : Bool × List Byte) (imgs : List (Nat × List Byte)) : State × Option (Nat × Nat) :=
  let s := (s.setBit F.BOOT_HDRB h.1).wr F.BOOT_HDRSEQ (hdrSeq h.2)
  let s := s.each 8 fun s i => s.entRecord i 0 0
  if !layoutOk h.2 then (s, some (3, 15))
  else match s.hdrLoad h.2 imgs 0 (hdrEnts h.2) with
    | (t, none) => ({ t with boot := { t.boot with hdr := h.2 } }, none)
    | (t, some (i, res)) => (s.entResults t, some (bootCode res, i))

/-- HEADER_SELECT and REQUIRED_ENTRY_FAILURE (R88, R90, R92): step 3 of R87 is repeated before the other header. A failure that does not
end the boot leaves FAILIDX at none (log 36). -/
def bootLoad (s : State) (hs : List (Bool × List Byte)) (imgs : List (Nat × List Byte)) : State × Option (Nat × Nat) :=
  match hs with
  | [] => (s, some (2, 15))
  | h :: rest =>
    match s.bootHdr h imgs with
    | (t, none) => (t, none)
    | (t, some c) =>
      if c.1 = 3 then (t, some c)
      else match rest with
        | [] => (t, some c)
        | h2 :: _ => match t.bootFill.bootHdr h2 imgs with
          | (u, none) => (u, none)
          | (u, some _) => (u, some c)

/-! Checkpoint restoration (R94). -/

/-- A fault record of the checkpoint, at place `k`, opens again with the flag RESTORED. -/
def fltRestore (s : State) (k : Nat) (b : List Byte) : State :=
  let w := fun o n => leVal ((b.drop o).take n)
  let n := w 0xD 1
  let fl := w 0xF 1
  if fl / 16 % 2 = 0 || RegMap.fltClass n = none then s
  else
    let s := s.setFltRec n { isOpen := true, scope := w 0x11 1, dclass := w 0x10 1, flags := fl % 16, order := k
                             time := w 4 8, seq := w 0 4, iraw := w 0x14 8 }
    let s := (((s.wr (F.FLT_OPEN n) 1).wr (F.FLT_RESTORED n) 1).wr (F.FLT_FORCED n) fl).wr (F.FLT_CUR n) (w 0xE 1)
    s.setReg (Pg.FLT + 0x80 + n / 32 * 4) (s.reg (Pg.FLT + 0x80 + n / 32 * 4) ||| BitVec.ofNat 32 (2 ^ (n % 32)))

/-- The table of `n` 16-bit counts at offset `o`. -/
def deltaTab (b : List Byte) (o n : Nat) : SMap Nat :=
  (List.range n).foldl (fun m k => SMap.set (fun _ => 0) m k (leVal ((b.drop (o + 2 * k)).take 2))) []

/-- CHECKPOINT_RESTORE. -/
def ckptRestore (s : State) : State :=
  match s.ckptLatest with
  | none => s
  | some (seq, b) =>
    let s := s.each 16 fun s i => s.setEnergy (i / 8) (i % 8) (leVal ((b.drop (0x20 + 8 * i)).take 8) * 2 ^ 32)
    let s := s.each 2 mtreTake
    let s := s.each 4 fun s k => s.fltRestore k ((b.drop (0xB0 + 32 * k)).take 32)
    let s := if 0 < sdiff 32 seq s.age.led.mseq then
        s.mergeLedger (deltaTab b 0x130 64) (deltaTab b 0x1B0 24) (leVal ((b.drop 0x1E0).take 4)) seq
      else s
    (((s.wr F.BOOT_CKPT 1).wr F.BOOT_CKSEQ seq).fltHoldSync).fltLevels

/-- What the boot reports once the journal is known: a burst the keeper refused (R109), a retention digest that did not match (R100). -/
def bootReport (s : State) : State :=
  let s := if s.keep.bootRef then { s with keep := { s.keep with bootRef := false } }.detect 0x06 else s
  if s.boot.digestEvent then { s with boot := { s.boot with digestEvent := false } }.jrnlAdd 6 3 0 0 0 0 0 0 else s

/-- What the boot read of the MRAM, journal, checkpoints, ledgers and bounds, is counted once restored records stand (R408, R428). -/
def bootReads (s : State) : State := s.mramTouch 0x800000 0x25044

/-- Step 6: the boot ends with a code, HRDY rises and the clamp goes (R43, R87). -/
def bootEnd (s : State) (code idx : Nat) (us : Word) : State :=
  let s := (((s.wr F.BOOT_CODE code).wr F.BOOT_FAILIDX idx).wr F.BOOT_DONE 1).setReg F.BOOT_TIME.addr us
  (({ s with phase := .up }).stoSync).cellsAll

/-- BOOT with the two header copies, the images by their flash offset and the presence of SDREF. -/
def bootRun (s : State) (us : Word) (a b : List Byte) (imgs : List (Nat × List Byte)) (sdref : Bool) : State :=
  let s := s.bootBegin
  let s := s.each 2 fun s p => s.setBit (F.NET_PSTAT_REFOK p) sdref
  let r := s.bootFill.bootLoad (hdrOrder a b) imgs
  let s := r.1
  if s.boot.cause != 0 then s
  else match r.2 with
    | none => (s.ckptRestore.bootReads.bootReport).bootEnd 0 15 us
    | some (c, i) => (s.bootReads.bootReport).bootEnd c i us

end State

/-- BOOT: the boot of R87 with the flash's header copies `a` and `b`, short when unreadable, and the images by their flash offset, one
that is missing being unreadable; `us` is the time from release to HRDY in microseconds, `sdref` the presence of SDREF. With TMODE high
the device does not boot (R40). -/
def execBoot (us : Word) (a b : List Byte) (imgs : List (Nat × List Byte)) (sdref : Bool) (s : State) :
    Host.Outcome State Fault Refusal :=
  .next (if s.phase == .booting && !s.tmode then s.bootRun us a b imgs sdref else s)

/-- BOOT_NOREF_TIMEOUT: REFOK is still clear 10 ms after release (R87 step 1): the counters are not loaded (R75), nothing of step 3 is done
(log 36), and the boot reports and ends. With REFOK set nothing follows. -/
def execBootNorefTimeout (us : Word) (s : State) : Host.Outcome State Fault Refusal :=
  .next (if s.phase == .booting && !s.tmode && !s.bit F.CLK_REFOK then s.bootCause.bootReport.bootEnd 1 15 us else s)

/-- IMAGE_LOAD_DONE: the load in progress ends (R437). -/
def execImageLoadDone (s : State) : Host.Outcome State Fault Refusal := .next s.imageDone

end Sys2Proof.Machine
end

