-- ==== Sys2Proof/Machine/Dispatch.lean ====
section
/-! DEFINITION. One arm per command: the direct call of its meaning. -/

namespace Sys2Proof.Machine

/-- The effect of one command on everything but the queue. -/
def exec (i : Instr) (s : State) : Host.Outcome State Fault Refusal :=
  match i with
  | .powerOnReset tmode => Sys2Proof.Machine.execPowerOnReset tmode s
  | .brownOut rails x => Sys2Proof.Machine.execBrownOut rails x s
  | .pinReset tmode => Sys2Proof.Machine.execPinReset tmode s
  | .softwareReset v => Sys2Proof.Machine.execSoftwareReset v s
  | .boot us a b imgs sdref => Sys2Proof.Machine.execBoot us a b imgs sdref s
  | .bootNorefTimeout us => Sys2Proof.Machine.execBootNorefTimeout us s
  | .dataBlockCopy v => Sys2Proof.Machine.execDataBlockCopy v s
  | .dataBlockCopyDone l => Sys2Proof.Machine.execDataBlockCopyDone l s
  | .rungRequest v => Sys2Proof.Machine.execRungRequest v s
  | .rungDescentComplete => Sys2Proof.Machine.execRungDescentComplete s
  | .wakeEvent b => Sys2Proof.Machine.execWakeEvent b s
  | .ascentComplete tmode lat => Sys2Proof.Machine.execAscentComplete tmode lat s
  | .descriptorReloadDone imgs => Sys2Proof.Machine.execDescriptorReloadDone imgs s
  | .clkUpdate v => Sys2Proof.Machine.execClkUpdate v s
  | .clkRelockDone => Sys2Proof.Machine.execClkRelockDone s
  | .clkRelockTimeout => Sys2Proof.Machine.execClkRelockTimeout s
  | .clkRefloss => Sys2Proof.Machine.execClkRefloss s
  | .clkUnlock => Sys2Proof.Machine.execClkUnlock s
  | .clkFreqFault => Sys2Proof.Machine.execClkFreqFault s
  | .timeIncrementWrite k v => Sys2Proof.Machine.execTimeIncrementWrite k v s
  | .servoLockWrite v => Sys2Proof.Machine.execServoLockWrite v s
  | .servoWatchdogExpiry d => Sys2Proof.Machine.execServoWatchdogExpiry d s
  | .leapArm v => Sys2Proof.Machine.execLeapArm v s
  | .leapCancel v => Sys2Proof.Machine.execLeapCancel v s
  | .leapApply => Sys2Proof.Machine.execLeapApply s
  | .domainSwitch v => Sys2Proof.Machine.execDomainSwitch v s
  | .slewEnd => Sys2Proof.Machine.execSlewEnd s
  | .timeSnap v => Sys2Proof.Machine.execTimeSnap v s
  | .txtsFifoPop v => Sys2Proof.Machine.execTxtsFifoPop v s
  | .ppsInEdge falling sub => Sys2Proof.Machine.execPpsInEdge falling sub s
  | .ppsOutPulse => Sys2Proof.Machine.execPpsOutPulse s
  | .ppsOutPulseEnd => Sys2Proof.Machine.execPpsOutPulseEnd s
  | .triggerSlotArm n v => Sys2Proof.Machine.execTriggerSlotArm n v s
  | .triggerSlotFire n => Sys2Proof.Machine.execTriggerSlotFire n s
  | .keeperMeasurement vscap hvin vdd above => Sys2Proof.Machine.execKeeperMeasurement vscap hvin vdd above s
  | .keeperRestart low => Sys2Proof.Machine.execKeeperRestart low s
  | .keeperTrimAdjust => Sys2Proof.Machine.execKeeperTrimAdjust s
  | .periodicCheckpoint => Sys2Proof.Machine.execPeriodicCheckpoint s
  | .checkpointRequest v => Sys2Proof.Machine.execCheckpointRequest v s
  | .checkpointComplete good => Sys2Proof.Machine.execCheckpointComplete good s
  | .keeperTimeSet => Sys2Proof.Machine.execKeeperTimeSet s
  | .keeperTimeSnap => Sys2Proof.Machine.execKeeperTimeSnap s
  | .keeperAlarm => Sys2Proof.Machine.execKeeperAlarm s
  | .dawnDetect => Sys2Proof.Machine.execDawnDetect s
  | .wakeNLow => Sys2Proof.Machine.execWakeNLow s
  | .keepWrite w v => Sys2Proof.Machine.execKeepWrite w v s
  | .keepWriteArrival => Sys2Proof.Machine.execKeepWriteArrival s
  | .hostWriteFrame l => Sys2Proof.Machine.execHostWriteFrame l s
  | .hostReadFrame l => Sys2Proof.Machine.execHostReadFrame l s
  | .hostFetchFrame l => Sys2Proof.Machine.execHostFetchFrame l s
  | .hostStatusFrame l whole => Sys2Proof.Machine.execHostStatusFrame l whole s
  | .hostFenceFrame l => Sys2Proof.Machine.execHostFenceFrame l s
  | .frameAbort => Sys2Proof.Machine.execFrameAbort s
  | .readServed => Sys2Proof.Machine.execReadServed s
  | .fenceComplete => Sys2Proof.Machine.execFenceComplete s
  | .fenceGo v => Sys2Proof.Machine.execFenceGo v s
  | .registerWrite q w v => Sys2Proof.Machine.execRegisterWrite q w v s
  | .dropcntClear c v => Sys2Proof.Machine.execDropcntClear c v s
  | .pageSoftReset q v => Sys2Proof.Machine.execPageSoftReset q v s
  | .pageLock q v => Sys2Proof.Machine.execPageLock q v s
  | .legCommit n v => Sys2Proof.Machine.execLegCommit n v s
  | .channelCommit c host v => Sys2Proof.Machine.execChannelCommit c host v s
  | .almanacEntryWrite v => Sys2Proof.Machine.execAlmanacEntryWrite v s
  | .almanacEntryRead v => Sys2Proof.Machine.execAlmanacEntryRead v s
  | .almanacDelivery => Sys2Proof.Machine.execAlmanacDelivery s
  | .mclkStart m => Sys2Proof.Machine.execMclkStart m s
  | .filterSettled n k => Sys2Proof.Machine.execFilterSettled n k s
  | .controlDecimation m bits => Sys2Proof.Machine.execControlDecimation m bits s
  | .stuckStreamDetect x => Sys2Proof.Machine.execStuckStreamDetect x s
  | .overcurrentQualify n bits => Sys2Proof.Machine.execOvercurrentQualify n bits s
  | .ocstatClear ins rest => Sys2Proof.Machine.execOcstatClear ins rest s
  | .metrologySample p raw lead => Sys2Proof.Machine.execMetrologySample p raw lead s
  | .vrefReady => Sys2Proof.Machine.execVrefReady s
  | .padcStart c v => Sys2Proof.Machine.execPadcStart c v s
  | .astartEdge falling => Sys2Proof.Machine.execAstartEdge falling s
  | .padcConversionDone c raw => Sys2Proof.Machine.execPadcConversionDone c raw s
  | .padcCalibrate c v => Sys2Proof.Machine.execPadcCalibrate c v s
  | .padcCalibrationDone c res => Sys2Proof.Machine.execPadcCalibrationDone c res s
  | .padcSnapshot v => Sys2Proof.Machine.execPadcSnapshot v s
  | .comparatorTrip n pin vref => Sys2Proof.Machine.execComparatorTrip n pin vref s
  | .cycleByCycleCut n pin vref => Sys2Proof.Machine.execCycleByCycleCut n pin vref s
  | .tripstatClear v => Sys2Proof.Machine.execTripstatClear v s
  | .comparatorSelfTest v => Sys2Proof.Machine.execComparatorSelfTest v s
  | .selfTestStepEnd smp => Sys2Proof.Machine.execSelfTestStepEnd smp s
  | .admission v => Sys2Proof.Machine.execAdmit v s
  | .admissionComplete => Sys2Proof.Machine.execAdmissionComplete s
  | .loopExecutionStart => Sys2Proof.Machine.execLoopExecutionStart s
  | .loopExecutionEnd d => Sys2Proof.Machine.execLoopExecutionEnd d s
  | .cpwmCounterZero n sub => Sys2Proof.Machine.execCpwmCounterZero n sub s
  | .cpwmPeak n sub => Sys2Proof.Machine.execCpwmPeak n sub s
  | .cpwmCompareEdge n => Sys2Proof.Machine.execCpwmCompareEdge n s
  | .tcmPeriodStart n ns sub => Sys2Proof.Machine.execTcmPeriodStart n ns sub s
  | .tcmSecondInterval n sub => Sys2Proof.Machine.execTcmSecondInterval n sub s
  | .legRestoreStart n sub => Sys2Proof.Machine.execLegRestoreStart n sub s
  | .directPeriodStart n sub => Sys2Proof.Machine.execDirectPeriodStart n sub s
  | .directOffInterval n => Sys2Proof.Machine.execDirectOffInterval n s
  | .lcorrUpdate n => Sys2Proof.Machine.execLcorrUpdate n s
  | .lcorrClear n v => Sys2Proof.Machine.execLcorrClear n v s
  | .bootstrapRefresh n => Sys2Proof.Machine.execBootstrapRefresh n s
  | .bootstrapRefreshEnd n => Sys2Proof.Machine.execBootstrapRefreshEnd n s
  | .bootstrapCheck n => Sys2Proof.Machine.execBootstrapCheck n s
  | .syncInEdge falling => Sys2Proof.Machine.execSyncInEdge falling s
  | .legMapApply v => Sys2Proof.Machine.execLegMapApply v s
  | .shootThroughCoincidence n => Sys2Proof.Machine.execShootThroughCoincidence n s
  | .coincidenceEnd n => Sys2Proof.Machine.execCoincidenceEnd n s
  | .tripInputEdge k level => Sys2Proof.Machine.execTripInputEdge k level s
  | .tripQualify k => Sys2Proof.Machine.execTripQualify k s
  | .blankWindowClose k => Sys2Proof.Machine.execBlankWindowClose k s
  | .tripLatchClear v => Sys2Proof.Machine.execTripLatchClear v s
  | .gdoPwmPeriodStart k => Sys2Proof.Machine.execGdoPwmPeriodStart k s
  | .gdoPwmDutyEnd k => Sys2Proof.Machine.execGdoPwmDutyEnd k s
  | .gdoChopChange k => Sys2Proof.Machine.execGdoChopChange k s
  | .gdoMinIntervalEnd k => Sys2Proof.Machine.execGdoMinIntervalEnd k s
  | .gdoUvlo hi => Sys2Proof.Machine.execGdoUvlo hi s
  | .gridTrackerUpdate p => Sys2Proof.Machine.execGridTrackerUpdate p s
  | .trackerValidSet p => Sys2Proof.Machine.execTrackerValidSet p s
  | .trackerDecimationTimeout p => Sys2Proof.Machine.execTrackerDecimationTimeout p s
  | .zeroCrossingTimeout p => Sys2Proof.Machine.execZeroCrossingTimeout p s
  | .gridSnapshot p v => Sys2Proof.Machine.execGridSnapshot p v s
  | .modeRequest v => Sys2Proof.Machine.execModeRequest v s
  | .modeExcursion => Sys2Proof.Machine.execModeExcursion s
  | .rampdownExcursion => Sys2Proof.Machine.execRampdownExcursion s
  | .modeRecovery => Sys2Proof.Machine.execModeRecovery s
  | .modeCurve => Sys2Proof.Machine.execModeCurve s
  | .modeIsland => Sys2Proof.Machine.execModeIsland s
  | .modeTrip => Sys2Proof.Machine.execModeTrip s
  | .modeReconnect => Sys2Proof.Machine.execModeReconnect s
  | .modeAutores => Sys2Proof.Machine.execModeAutores s
  | .modeRampdone => Sys2Proof.Machine.execModeRampdone s
  | .allocationRun c => Sys2Proof.Machine.execAllocationRun c s
  | .formFallback c => Sys2Proof.Machine.execFormFallback c s
  | .formFallbackClear c => Sys2Proof.Machine.execFormFallbackClear c s
  | .deadBusQualified c => Sys2Proof.Machine.execDeadBusQualified c s
  | .deadBusRiseEnd c => Sys2Proof.Machine.execDeadBusRiseEnd c s
  | .rideCurveCrossing => Sys2Proof.Machine.execRideCurveCrossing s
  | .injectionRequest v => Sys2Proof.Machine.execInjectionRequest v s
  | .probeWindowBoundary => Sys2Proof.Machine.execProbeWindowBoundary s
  | .islandTest v => Sys2Proof.Machine.execIslandTest v s
  | .rocofDetect p => Sys2Proof.Machine.execRocofDetect p s
  | .holdoverExpiry => Sys2Proof.Machine.execHoldoverExpiry s
  | .afdDeclare => Sys2Proof.Machine.execAfdDeclare s
  | .globalScanDue c => Sys2Proof.Machine.execGlobalScanDue c s
  | .chargeTermination c => Sys2Proof.Machine.execChargeTermination c s
  | .dcdcStartComplete c => Sys2Proof.Machine.execDcdcStartComplete c s
  | .encoderEdge a b => Sys2Proof.Machine.execEncoderEdge a b s
  | .encoderIndex => Sys2Proof.Machine.execEncoderIndex s
  | .encoderSpeedTimeout => Sys2Proof.Machine.execEncoderSpeedTimeout s
  | .resolverSample sn cs => Sys2Proof.Machine.execResolverSample sn cs s
  | .machRunCommand v => Sys2Proof.Machine.execMachRunCommand v s
  | .machDirectionWrite v => Sys2Proof.Machine.execMachDirectionWrite v s
  | .machStop v => Sys2Proof.Machine.execMachStop v s
  | .catchOnEnd => Sys2Proof.Machine.execCatchOnEnd s
  | .regenEnd => Sys2Proof.Machine.execRegenEnd s
  | .mtrZcto p => Sys2Proof.Machine.execMtrZcto p s
  | .intervalClose p v => Sys2Proof.Machine.execIntervalClose p v s
  | .intervalRecordPublish p => Sys2Proof.Machine.execIntervalRecordPublish p s
  | .harmonicBlockDone p => Sys2Proof.Machine.execHarmonicBlockDone p s
  | .pulseEmit k => Sys2Proof.Machine.execPulseEmit k s
  | .pulseEnd k => Sys2Proof.Machine.execPulseEnd k s
  | .mtreSnapshot v => Sys2Proof.Machine.execMtreSnapshot v s
  | .energyPreset v => Sys2Proof.Machine.execEnergyPreset v s
  | .linkUp p => Sys2Proof.Machine.execLinkUp p s
  | .linkDown p sync => Sys2Proof.Machine.execLinkDown p sync s
  | .frameReceive p l fcs ago egr => Sys2Proof.Machine.execFrameReceive p l fcs ago egr s
  | .frameTransmit p sub => Sys2Proof.Machine.execFrameTransmit p sub s
  | .txDescriptorProcess => Sys2Proof.Machine.execTxDescriptorProcess s
  | .gateListInstall p v => Sys2Proof.Machine.execGateListInstall p v s
  | .gateListOperative p => Sys2Proof.Machine.execGateListOperative p s
  | .gateEntryChange p => Sys2Proof.Machine.execGateEntryChange p s
  | .setpointFrameReceive sa l => Sys2Proof.Machine.execSetpointFrameReceive sa l s
  | .setpointApply => Sys2Proof.Machine.execSetpointApply s
  | .streamFrameQueue k => Sys2Proof.Machine.execStreamFrameQueue k s
  | .mdioTransaction v => Sys2Proof.Machine.execMdioTransaction v s
  | .mdioComplete d => Sys2Proof.Machine.execMdioComplete d s
  | .sstopInputChange b level => Sys2Proof.Machine.execSstopInputChange b level s
  | .sstopDiscrepancy => Sys2Proof.Machine.execSstopDiscrepancy s
  | .ss1Evaluation => Sys2Proof.Machine.execSs1Evaluation s
  | .monitorDivergence => Sys2Proof.Machine.execMonitorDivergence s
  | .stoFeedbackMismatch => Sys2Proof.Machine.execStoFeedbackMismatch s
  | .safetyStartupTestPass a b => Sys2Proof.Machine.execSafetyStartupTestPass a b s
  | .stoHoldEnd => Sys2Proof.Machine.execStoHoldEnd s
  | .twinPathCopy pb l => Sys2Proof.Machine.execTwinPathCopy pb l s
  | .twinPathWindowClose => Sys2Proof.Machine.execTwinPathWindowClose s
  | .twinPathLoss => Sys2Proof.Machine.execTwinPathLoss s
  | .tplatClear v => Sys2Proof.Machine.execTplatClear v s
  | .safetyFrameProduce => Sys2Proof.Machine.execSafetyFrameProduce s
  | .safetyParameterWrite w v => Sys2Proof.Machine.execSafetyParameterWrite w v s
  | .safetyConfirm v => Sys2Proof.Machine.execSafetyConfirm v s
  | .safeRelease v => Sys2Proof.Machine.execSafeRelease v s
  | .graceExpiry n => Sys2Proof.Machine.execGraceExpiry n s
  | .faultAck v => Sys2Proof.Machine.execFaultAck v s
  | .faultAckAll v => Sys2Proof.Machine.execFaultAckAll v s
  | .faultForce q v => Sys2Proof.Machine.execFaultForce q v s
  | .journalRecordWritten good => Sys2Proof.Machine.execJournalRecordWritten good s
  | .journalUserAppend v => Sys2Proof.Machine.execJournalUserAppend v s
  | .scrubRead => Sys2Proof.Machine.execScrubRead s
  | .eccTestWrite v => Sys2Proof.Machine.execEccTestWrite v s
  | .fuseOwnerRoot v => Sys2Proof.Machine.execFuseOwnerRoot v s
  | .fuseAdvanceCounter v => Sys2Proof.Machine.execFuseAdvanceCounter v s
  | .fuseOperationDone => Sys2Proof.Machine.execFuseOperationDone s
  | .imageLoad v => Sys2Proof.Machine.execImageLoad v s
  | .imageLoadDone => Sys2Proof.Machine.execImageLoadDone s
  | .attestationRequest v => Sys2Proof.Machine.execAttestationRequest v s
  | .attestationDone => Sys2Proof.Machine.execAttestationDone s
  | .planRunRequest v => Sys2Proof.Machine.execPlanRunRequest v s
  | .planRunStart pairs => Sys2Proof.Machine.execPlanRunStart pairs s
  | .planRunComplete => Sys2Proof.Machine.execPlanRunComplete s
  | .oscillatorMeasure v pairs => Sys2Proof.Machine.execOscillatorMeasure v pairs s
  | .junctionSample t => Sys2Proof.Machine.execJunctionSample t s
  | .legModelTick => Sys2Proof.Machine.execLegModelTick s
  | .ownerBoundsWrite w v => Sys2Proof.Machine.execOwnerBoundsWrite w v s
  | .sealRequest v => Sys2Proof.Machine.execSealRequest v s
  | .sealComplete good => Sys2Proof.Machine.execSealComplete good s
  | .vdrvLockoutRelease hi => Sys2Proof.Machine.execVdrvLockoutRelease hi s
  | .comparatorOutputChange n pin vref => Sys2Proof.Machine.execComparatorOutputChange n pin vref s
  | .referenceReturn => Sys2Proof.Machine.execReferenceReturn s
  | .jtagInstruction k => Sys2Proof.Machine.execJtagInstruction k s

end Sys2Proof.Machine
end

