-- ==== Sys2Proof/Machine/Tick.lean ====
section
/-! DEFINITION. What a tick does while no command waits (log 32): time runs, and so do the levels that follow it. -/

namespace Sys2Proof.Machine
namespace State

/-- The reconnection timer of CEASE (R265). -/
def reconTick (s : State) : State :=
  if s.modeNow != 6 then s
  else
    let n := if s.reconOk then s.mode.recon + 1 else 0
    { s.wr F.SYS_CEASESEC (s.rd F.SYS_RECONT - n / 500000000) with mode := { s.mode with recon := n } }

/-- The ramp-down of R264 runs on. -/
def rampTick (s : State) : State := if s.mode.ramp then { s with mode := { s.mode with rampT := s.mode.rampT + 1 } } else s

/-- The ticks of 2 ns that one idle step lasts: 20 in VIGIL, whose tick is 40 ns (R66). -/
def idleTicks (s : State) : Nat := if s.phase == .up && s.rung = 2 then 20 else 1

/-- One tick without a command: the comparison of a snapshot of the tick that ends (R161); what it noted is past (R13); keeper time, the counters, the timers of the modes and the
transitions carried over (R267), the machine's stop, the edges at the legs' pins, the identification of ripple, the probe's words, the
entries of the Almanac that were written or left over, and the arming of its entries. -/
def idle (s : State) : State :=
  let n := s.idleTicks
  let s := s.padcTickEnd
  let s := { s with isl := { s.isl with cycles := s.probeCycles } }
  let s := ({ s with tick := s.tick + n, hwSet := [] }).each n fun s _ => s.keepTick
  if s.phase != .up then s
  else
    let s := s.timeTick.rampTick.reconTick.machStopTick.dueTick
    let s := ((s.each 24 legTick).each 24 modTick).each 24 fun s g => s.idSync g
    let s := if s.rung = 0 then s.probeWords else s
    ((s.almLand.almScan false).1).subSync

end State
end Sys2Proof.Machine
end

