-- ==== Sys2Proof/Machine/Balls.lean ====
section
/-! DEFINITION. The levels of the device's output balls, as the state gives them (R36, R38, R40, R41), and the data register that the TAP's
instruction selects (R40). -/

namespace Sys2Proof.Machine

/-- The data register between TDI and TDO (R40, IEEE 1149.1). -/
inductive TapReg where
  | bypass | boundary
deriving DecidableEq, Repr

/-- An output ball, or one that the device can drive (R37, R38). -/
inductive OutBall where
  | paTx | pbTx | hio (k : Fin 4) | fio (k : Fin 4) | pls (n : Fin 24) | en (n : Fin 24) | mclk (m : Fin 4) | ppsOut | syncOut | hrdy | hirqN | fcsN | fsck | stoA | stoB | sfaultN
  | gdo (k : Fin 4) | mpa | mpq | mdc | mdio | tdo | vrefp | resExc
deriving DecidableEq, Repr

/-- What an output ball shows: a level, nothing driven (high impedance, or an open drain released), the common-mode level without swing, a
running link, clock or analogue signal, or the level that the boundary register gives it. -/
inductive BallLvl where
  | low | high | released | common | active | boundary
deriving DecidableEq, Repr

namespace OutBall

/-- The state column of R38. -/
def resetLvl : OutBall → BallLvl
  | .paTx | .pbTx => .common
  | .hio _ | .fio _ | .hirqN | .mdio | .tdo | .vrefp | .resExc => .released
  | .fcsN | .stoA | .stoB => .high
  | .pls _ | .en _ | .mclk _ | .ppsOut | .syncOut | .hrdy | .fsck | .sfaultN | .gdo _ | .mpa | .mpq | .mdc => .low

/-- The ball keeps its reset level in mode INERT: HRDY, HIRQ_N, SFAULT_N, VREFP and the SerDes transmitters follow their own rules there
(R128, R139, R379, R38, R356; log 37). -/
def heldInert : OutBall → Bool
  | .paTx | .pbTx | .hrdy | .hirqN | .sfaultN | .vrefp => false
  | .hio _ | .fio _ | .pls _ | .en _ | .mclk _ | .ppsOut | .syncOut | .fcsN | .fsck | .stoA | .stoB | .gdo _ | .mpa | .mpq | .mdc | .mdio | .tdo | .resExc => true

end OutBall

/-- A level. -/
def lvl (b : Bool) : BallLvl := if b then .high else .low

namespace State

/-- The level of a pulse output's ball (R354). -/
def pulseLvl (s : State) (k : Nat) : BallLvl := lvl ((s.pulse k).active != s.bit (F.MTR_PULPOL k))

/-- The register the TAP's instruction selects (R40): BYPASS the bypass register, SAMPLE, PRELOAD and EXTEST the boundary register. -/
def tapReg (s : State) : TapReg := if s.boot.jtag = 0 then .bypass else .boundary

/-- The level a ball takes when nothing holds it at its reset level. The data balls of the host and flash ports are driven within a frame
alone, and no command ends inside one. -/
def ballOwn (s : State) : OutBall → BallLvl
  | .paTx => if s.netUp && s.rd (F.NET_PCFG_MODE 0) != 0 then .active else .common
  | .pbTx => if s.netUp && s.rd (F.NET_PCFG_MODE 1) != 0 then .active else .common
  | .hio _ | .fio _ => .released
  | .pls n => lvl (s.leg n).pls
  | .en n => lvl (s.leg n).en
  | .mclk m => lvl (s.mclkHigh m)
  | .ppsOut => lvl s.time.ppsOut
  | .syncOut => lvl s.syncPulsing
  | .hrdy => lvl s.hrdy
  | .hirqN => if s.hirq then .low else .released
  | .fcsN => .high
  | .fsck => .low
  | .stoA => lvl (s.bit F.SAFE_STOA)
  | .stoB => lvl (s.bit F.SAFE_STOB)
  | .sfaultN => if s.bit F.SAFE_SFAULT then .low else .released
  | .gdo k => lvl (s.bit (F.LEGX_GDOUT k))
  | .mpa => s.pulseLvl 0
  | .mpq => s.pulseLvl 1
  | .mdc => if s.bit F.NET_MDGO then .active else .low
  | .mdio => if s.bit F.NET_MDGO then .active else .released
  | .tdo => .released
  | .vrefp => if s.enabled Pg.PADC || s.enabled Pg.CMP then .active else .released
  | .resExc => if s.has Pg.MACH && s.enabled Pg.MACH && s.bit F.MACH_SRC && s.rung == 0 then .active else .released

/-- The level of an output ball: none is driven below a VDD_IO of 0.8 V (R41); in reset the clamp and the reset state hold, whatever the
TAP (R38, R43, R45); EXTEST drives from the boundary register (R40, log 37); the reset level holds with TMODE high, and in INERT (R38 to
R40). -/
def ball (s : State) (b : OutBall) : BallLvl :=
  if s.boot.dark then .released
  else if s.phase == .down then b.resetLvl
  else if s.boot.jtag = 3 && b != .tdo then .boundary
  else if s.tmode || (s.modeNow == 0 && b.heldInert) then b.resetLvl
  else s.ballOwn b

end State
end Sys2Proof.Machine
end

