-- ==== Sys2Proof/Safety.lean ====
section
/-! DEFINITION. What counts as a safe state and a safe step: the bounds of the queues, the form of the memory, and what no command may
undo. -/

namespace Sys2Proof.Machine

/-- One set of fuses holds at least the blown bits of another (R430): every hash bit, both VALID bits and the four counters. -/
def FuseM.Holds (f g : FuseM) : Prop :=
  f.slot0 ||| g.slot0 = g.slot0 ∧ f.slot1 ||| g.slot1 = g.slot1 ∧ (f.v0 = true → g.v0 = true) ∧ (f.v1 = true → g.v1 = true) ∧
  f.c0 ≤ g.c0 ∧ f.c1 ≤ g.c1 ∧ f.c2 ≤ g.c2 ∧ f.c3 ≤ g.c3

/-- A counter operation in progress raises its counter (R433, R436): its target is not below the counter's value. -/
def State.FuseOpUp (s : State) : Prop := ∀ k v, s.sec.fop = some (2, k, v) → s.arb k ≤ v

/-- The write buffer holds at most its 64 words (R126). -/
def State.BufBound (s : State) : Prop := s.hif.buf.length ≤ 64

/-- The journal queue holds at most its 32 records (R414). -/
def State.JrnlBound (s : State) : Prop := s.jrnlDepth ≤ 32

/-- The memory is in its canonical form. -/
def State.MemOk (s : State) : Prop := Memory.wf s.mem

/-- A step from `s` answers the next state `t`. -/
def Steps (s t : State) : Prop := step s = .next t

/-- No idle edge of a floor period (R210) waits for leg `n` in this tick. -/
def State.noIdleDue (s : State) (n : Nat) : Bool := (s.leg n).seq.all fun e => !e.off || decide (16 * s.tick + 16 ≤ e.time)

/-- What every reset leaves (R85, R86): the registers outside those it keeps at their reset values, mode INERT, rung RUN, no waiting word
or record, memory outside the MRAM as filled, and every blown fuse bit. The seal's two words show the seal, and the four driver words
show the supplies of the auxiliary drivers as they stand outside the device (R52). -/
def ResetOutcome (s t : State) : Prop :=
  t.modeNow = 0 ∧ t.rung = 0 ∧ t.hif.buf = [] ∧ t.jrnl.queue = [] ∧
  (∀ a, State.regKept a = false → a ≠ 0x1C4 → a ≠ 0x1C8 → (∀ k, k < 4 → a ≠ (F.LEGX_GDUVLO k).addr) → t.reg a = RegMap.resetOf a) ∧
  (∀ k, k < 4 → t.rd (F.LEGX_GDUVLO k) = if (s.gdo k).low = true then 1 else 0) ∧
  (∀ a, State.inMram a = false → t.byte a = memDefault a) ∧ FuseM.Holds s.sec.fuse t.sec.fuse

/-- From `s` to `t` nothing changes but registers, and of these only those at the addresses of `l`; the model's notes of what this tick
has set (R13, R267) apart. -/
def State.OnlyRegs (l : List Nat) (s t : State) : Prop :=
  (∀ a, a ∉ l → t.reg a = s.reg a) ∧
  { t with regs := s.regs, hwSet := s.hwSet, mode := { t.mode with hwAt := s.mode.hwAt } } = s

/-- The registers outside the addresses of `l` keep their words, and every byte of memory its value. -/
def State.RestKept (l : List Nat) (s t : State) : Prop := (∀ a, a ∉ l → t.reg a = s.reg a) ∧ t.mem = s.mem

end Sys2Proof.Machine
end

