-- ==== Sys2Proof/Certificates/Slice0/Obligations.lean ====
section
/-! DEFINITION. The statements about the block, for the provers. -/

open Sys2Proof Sys2Proof.Machine Sys2Proof.Machine.State

/-- A step runs the command at the front of the queue with the rest of the queue (The block's commands (the row's cut), 95_what_each_step_holds). -/
def Obligations.StepRunsFrontCommand : Prop :=
  (∀ (c : Instr) (rest : List Instr) (s : State), step { s with pending := c :: rest } = exec c { s with pending := rest }) ∧
  (∀ s : State, s.pending = [] → step s = .next s.idle)

/-- No command changes the queue of the commands behind it or the device's variant (R454, 24_register_pages: Presence and variant, the block's commands (the row's cut)). -/
def Obligations.ExecKeepsQueueAndVariant : Prop :=
  ∀ (c : Instr) (s t : State), exec c s = .next t → t.pending = s.pending ∧ t.variant = s.variant

/-- SYS.PRESENT0, PRESENT1 and VARID show the variant's pages and never change from one step to the next (R454). -/
def Obligations.PresenceNeverChanges : Prop :=
  (∀ s t : State, Steps s t → ∀ a : Nat, a = 0xC0 ∨ a = 0xC4 ∨ a = 0xC8 → t.regWord a = s.regWord a) ∧
  (∀ (s : State) (i q : Nat), isumPages0[i]? = some q → (s.regWord 0xC0).getLsbD i = s.has (0x1000 * q)) ∧
  (∀ (s : State) (i q : Nat), isumPages1[i]? = some q → (s.regWord 0xC4).getLsbD i = s.has (0x1000 * q)) ∧
  (∀ s : State, s.variant = .vnk8256 → s.regWord 0xC0 = 0xFFFFFFFF#32 ∧ s.regWord 0xC4 = 0x7FFFFFFF#32 ∧ s.regWord 0xC8 = 0#32) ∧
  (∀ s : State, s.variant = .vnk8248 → s.regWord 0xC0 = 0xFFF7FFFF#32 ∧ s.regWord 0xC4 = 0x7FFFFFF7#32 ∧ s.regWord 0xC8 = 1#32) ∧
  (∀ s : State, s.variant = .vnk8232 → s.regWord 0xC0 = 0xF0F7FFFF#32 ∧ s.regWord 0xC4 = 0x007FFFF7#32 ∧ s.regWord 0xC8 = 2#32)

/-- In every step a fuse bit, once blown, stays blown, and the anti-rollback counters only rise (R430, R433, 22_security). -/
def Obligations.BlownFusesStayBlown : Prop :=
  ∀ s t : State, s.FuseOpUp → Steps s t → FuseM.Holds s.sec.fuse t.sec.fuse ∧ t.FuseOpUp

/-- Every step keeps the write buffer within its 64 words and the journal queue within its 32 records (R126, R122, R414, 06_host_interface, 20_fault_handling). -/
def Obligations.WriteBufferBounded : Prop :=
  (∀ s t : State, s.BufBound → Steps s t → t.BufBound) ∧
  (∀ s t : State, s.JrnlBound → Steps s t → t.JrnlBound)

/-- Every step keeps the byte memory in its canonical form (R417, R418, 21_memory_integrity). -/
def Obligations.MemoryStaysCanonical : Prop :=
  ∀ s t : State, s.MemOk → Steps s t → t.MemOk

/-- The state right after reset meets the invariants and shows the reset values (R84, R85, R455, 04_reset_boot_power). -/
def Obligations.ResetMeetsInvariants : Prop :=
  State.reset.BufBound ∧ State.reset.JrnlBound ∧ State.reset.MemOk ∧ State.reset.FuseOpUp ∧ State.reset.pending = [] ∧
  State.reset.hif.buf = [] ∧ State.reset.jrnl.queue = [] ∧ State.reset.sec.fop = none ∧
  State.reset.modeNow = 0 ∧ State.reset.rung = 0 ∧ State.reset.phase = .booting ∧ ∀ a, State.reset.reg a = RegMap.resetOf a

/-- Each reset source resets every page's registers, drops the buffer and queue and keeps the fuses; its cause is noted (R84, R85, R86, R45, 04_reset_boot_power). -/
def Obligations.ResetsClearEverythingButWhatTheyKeep : Prop :=
  (∀ (m : Bool) (s : State), s.phase ≠ .down ∨ s.boot.lost = 31 →
    ∃ t, exec (.powerOnReset m) s = .next t ∧ ResetOutcome s t ∧ t.phase = .booting ∧ t.tmode = m ∧
      t.boot.cause = 1 ∧ t.boot.lost = 0 ∧ t.boot.dark = false ∧ t.reg 0x3044 = 0#32 ∧ ∀ a, inMram a = true → t.byte a = s.byte a) ∧
  (∀ (m : Bool) (s : State), s.phase = .down → s.boot.lost ≠ 31 → exec (.powerOnReset m) s = .next
    { s with phase := .booting, tmode := m, boot := { s.boot with lost := 0, dark := false } }) ∧
  (∀ (m : Bool) (s : State), s.phase ≠ .down →
    ∃ t, exec (.pinReset m) s = .next t ∧ ResetOutcome s t ∧ t.phase = .booting ∧ t.tmode = m ∧ t.boot.cause = s.boot.cause ||| 4) ∧
  (∀ (r : Fin 32) (x : KeepIn) (s : State),
    (s.phase ≠ .down → ∃ t, exec (.brownOut r x) s = .next t ∧ ResetOutcome s t ∧ t.phase = .down ∧
      t.boot.cause = s.boot.cause ||| 2 ∧ t.boot.lost = s.boot.lost ||| r ∧ t.boot.dark = x.dark) ∧
    (s.phase = .down → exec (.brownOut r x) s = .next { s with boot := { s.boot with lost := s.boot.lost ||| r, dark := x.dark } })) ∧
  (∀ (v : Word) (s u : State), s.turn 0x110 (F.SYS_RSTGO.put v 1) = some u → F.SYS_RSTKEY.of v = 0xA5C3 →
    ∃ t, exec (.softwareReset v) s = .next t ∧ ResetOutcome u t ∧ t.phase = .booting ∧ t.boot.cause = u.boot.cause ||| 8) ∧
  (∀ (v : Word) (s u : State), s.turn 0x110 (F.SYS_RSTGO.put v 1) = some u → F.SYS_RSTKEY.of v ≠ 0xA5C3 →
    exec (.softwareReset v) s = .next (noteWrite 0x110 (u, .range)).settle)

/-- A pin reset completes the journal record and the checkpoint being written, and no other MRAM byte changes (R86, R411, 04_reset_boot_power). -/
def Obligations.ResetCompletesTheRecordBeingWritten : Prop :=
  (∀ (m : Bool) (s : State) (r : JRec) (q : List JRec), s.phase ≠ .down → s.ecc.weak = [] → s.keep.ckpt = none → s.jrnl.queue = r :: q →
    ∃ t, exec (.pinReset m) s = .next t ∧ t.jrnl.queue = [] ∧ (∀ i, i < 32 → t.byte (0x800000 + 32 * (r.seq % 4096) + i) = r.bytes.getD i 0) ∧
      ∀ a, inMram a = true → ¬(0x800000 + 32 * (r.seq % 4096) ≤ a ∧ a < 0x800000 + 32 * (r.seq % 4096) + 32) → t.byte a = s.byte a) ∧
  (∀ (m : Bool) (s : State), s.phase ≠ .down → s.keep.ckpt = none → s.jrnl.queue = [] →
    ∃ t, exec (.pinReset m) s = .next t ∧ t.jrnl.queue = [] ∧ ∀ a, inMram a = true → t.byte a = s.byte a) ∧
  (∀ (m : Bool) (s b : State), s.ecc.weak = [] → s.rd F.KEEP_CKPER ≠ 0 → s.rung = 0 → s.phase = .up → s.rd F.KEEP_CKBUSY = 0 → s.jrnl.queue = [] →
    exec .periodicCheckpoint s = .next b →
    ∃ t, exec (.pinReset m) b = .next t ∧ t.ckptSlot (s.rd F.KEEP_NEXTSLOT) = some (s.rd F.KEEP_CKSEQ, s.ckptBody 2 0 (if s.timeRuns = true then s.now64 else 0)))

/-- Boot ends with DONE, a code and its time; without a reference with NOREF, without a valid header with NOHDR; TMODE stops it (R87, R88, R40, 04_reset_boot_power). -/
def Obligations.BootEndsWithDoneAndACode : Prop :=
  (∀ (us : Word) (a b : List Byte) (l : List (Nat × List Byte)) (r : Bool) (s : State), s.phase = .booting → s.tmode = false →
    ∃ t, exec (.boot us a b l r) s = .next t ∧
      (t.boot.cause ≠ 0 ∨ (t.phase = .up ∧ t.rd F.BOOT_DONE = 1 ∧ t.rd F.BOOT_CODE ≤ 7 ∧ t.reg 0x304C = us))) ∧
  (∀ (us : Word) (a b : List Byte) (l : List (Nat × List Byte)) (r : Bool) (s : State), s.phase = .booting → s.tmode = false →
    hdrOk a = false → hdrOk b = false →
    ∃ t, exec (.boot us a b l r) s = .next t ∧ t.phase = .up ∧ t.rd F.BOOT_DONE = 1 ∧ t.rd F.BOOT_CODE = 2 ∧ t.rd F.BOOT_FAILIDX = 15) ∧
  (∀ (us : Word) (s : State), s.rd F.CLK_REFOK = 1 → exec (.bootNorefTimeout us) s = .next s) ∧
  (∀ (us : Word) (s : State), s.phase = .booting → s.tmode = false → s.rd F.CLK_REFOK = 0 →
    ∃ t, exec (.bootNorefTimeout us) s = .next t ∧ t.phase = .up ∧ t.rd F.BOOT_DONE = 1 ∧ t.rd F.BOOT_CODE = 1 ∧ t.reg 0x304C = us) ∧
  (∀ (us : Word) (a b : List Byte) (l : List (Nat × List Byte)) (r : Bool) (s : State), s.tmode = true ∨ s.phase ≠ .booting →
    exec (.boot us a b l r) s = .next s ∧ exec (.bootNorefTimeout us) s = .next s)

/-- The device selects the valid header whose SEQ is greater, and copy A when the two are equal (R88). -/
def Obligations.HeaderSelection : Prop :=
  (∀ a b : List Byte, hdrOk a = true → hdrOk b = true →
    (hdrOrder a b).head? = some (if 0 < sdiff 32 (hdrSeq b) (hdrSeq a) then (true, b) else (false, a))) ∧
  (∀ a b : List Byte, hdrOk a = true → hdrOk b = false → hdrOrder a b = [(false, a)]) ∧
  (∀ a b : List Byte, hdrOk a = false → hdrOk b = true → hdrOrder a b = [(true, b)]) ∧
  (∀ a b : List Byte, hdrOk a = false → hdrOk b = false → hdrOrder a b = []) ∧
  (∀ a : List Byte, hdrOk a = true ↔ (120 ≤ a.length ∧ hdrAt a 0 4 = 0x424B4E56 ∧ hdrAt a 4 2 = 1 ∧ hdrAt a 6 2 = 0x78 ∧
    hdrAt a 0x74 4 = crc32 (a.take 0x74)))

/-- A DATA block copy starts for a loaded block, ends with GO 0, and RES tells OK, RANGE, DIGEST or RDERR (R93, R91, R424, 04_reset_boot_power). -/
def Obligations.DataBlockCopy : Prop :=
  (∀ (v : Word) (s u : State) (e : Nat × Nat × Nat), s.turn 0x3080 (F.BOOT_DLGO.put v 1) = some u → u.rd F.BOOT_DLGO = 0 →
    u.boot.dataEnts.find? (fun e => e.1 == F.BOOT_DLENT.of v) = some e → F.BOOT_DLBLK.of v < (e.2.1 + 65535) / 65536 →
    ∃ t, exec (.dataBlockCopy v) s = .next t ∧ t.rd F.BOOT_DLGO = 1 ∧ t.rd F.BOOT_DLENT = F.BOOT_DLENT.of v ∧ t.rd F.BOOT_DLBLK = F.BOOT_DLBLK.of v ∧
      t.boot.copy = some (F.BOOT_DLENT.of v, F.BOOT_DLBLK.of v, u.rd F.BOOT_DLDST) ∧ OnlyRegs [0x3080] { u with boot := t.boot } t) ∧
  (∀ (v : Word) (s u : State), s.turn 0x3080 (F.BOOT_DLGO.put v 1) = some u → u.rd F.BOOT_DLGO = 0 →
    (∀ e, u.boot.dataEnts.find? (fun e => e.1 == F.BOOT_DLENT.of v) = some e → (e.2.1 + 65535) / 65536 ≤ F.BOOT_DLBLK.of v) →
    ∃ t, exec (.dataBlockCopy v) s = .next t ∧ t.rd F.BOOT_DLGO = 0 ∧ t.rd F.BOOT_DLRES = 1 ∧ OnlyRegs [0x3080, 0x3088] u t) ∧
  (∀ (v : Word) (s u : State), s.turn 0x3080 (F.BOOT_DLGO.put v 1) = some u → u.rd F.BOOT_DLGO = 1 →
    ∃ t, exec (.dataBlockCopy v) s = .next t ∧ t.rd F.BOOT_DLGO = 1 ∧ t.rd F.BOOT_DLENT = F.BOOT_DLENT.of v ∧ t.rd F.BOOT_DLBLK = F.BOOT_DLBLK.of v ∧
      OnlyRegs [0x3080] u t) ∧
  (∀ (s : State) (c : Nat × Nat × Nat), s.boot.copy = some c →
    exec (.dataBlockCopyDone none) s = .next { (s.wr F.BOOT_DLGO 0).wr F.BOOT_DLRES 3 with boot := { s.boot with copy := none } }) ∧
  (∀ (s : State) (l : List Byte) (ent blk dst : Nat) (e : Nat × Nat × Nat), s.boot.copy = some (ent, blk, dst) → dst < 15 →
    s.boot.dataEnts.find? (fun e => e.1 == ent) = some e → l.length = min 65536 (e.2.1 - 65536 * blk) →
    ∃ t, exec (.dataBlockCopyDone (some l)) s = .next t ∧ t.boot.copy = none ∧ t.rd F.BOOT_DLGO = 0 ∧
      (∀ a, a < 0x300000 + 65536 * dst ∨ 0x300000 + 65536 * (dst + 1) ≤ a → a < 0x3FC000 + 32 * (e.2.2 + blk) ∨ 0x3FC020 + 32 * (e.2.2 + blk) ≤ a →
        t.byte a = s.byte a) ∧
      (if (s.readBytes (0x3FC000 + 32 * (e.2.2 + blk)) 32).2 = some (hash32 l) then
        t.rd F.BOOT_DLRES = 0 ∧ ∀ i, i < l.length → t.byte (0x300000 + 65536 * dst + i) = l.getD i 0
       else t.rd F.BOOT_DLRES = 2 ∧ ∀ i, i < 8192 → t.isInvalid (0x300000 + 65536 * dst + 8 * i) = true)) ∧
  (∀ (s : State) (l : Option (List Byte)), s.boot.copy = none → exec (.dataBlockCopyDone l) s = .next s)

/-- A write of SYS.RUNG starts a descent, ascends, is dropped with RANGE or records why it is refused (R96, R99, R101, R433, 04_reset_boot_power). -/
def Obligations.RungRequestOutcomes : Prop :=
  (∀ (v : Word) (s u : State), s.turn 0x100 v = some u →
    (4 < F.SYS_RUNGREQ.of v → exec (.rungRequest v) s = .next (noteWrite 0x100 (u, .range)).settle) ∧
    (F.SYS_RUNGREQ.of v = u.rung → exec (.rungRequest v) s = .next u.settle) ∧
    (F.SYS_RUNGREQ.of v < u.rung → u.boot.ascend = none →
      ∃ t, exec (.rungRequest v) s = .next t ∧ t.rd wakeSrc = 8 ∧ t.rd F.SYS_RUNGMOVING = 1 ∧ t.rd F.SYS_RUNGREQ = 0 ∧
        t.boot.ascend = some u.tick ∧ t.rung = u.rung ∧ OnlyRegs [0x100, 0x104, 0x10C] { u with boot := t.boot } t) ∧
    (u.rung < F.SYS_RUNGREQ.of v → F.SYS_RUNGREQ.of v ≤ 4 →
      ∃ t, exec (.rungRequest v) s = .next t ∧
        (if u.modeNow ≠ 0 ∧ u.modeNow ≠ 2 ∧ u.modeNow ≠ 7 then t.rd F.SYS_RUNGREF = 1 ∧ OnlyRegs [0x104] u t
         else if u.rd F.BOOT_DONE = 0 ∨ u.rd F.BOOT_DLGO = 1 then t.rd F.SYS_RUNGREF = 2 ∧ OnlyRegs [0x104] u t
         else if ((List.range 8).any fun b => wakeUsable (F.SYS_RUNGREQ.of v) b && u.bit (wakeEn.at b)) = false then
           t.rd F.SYS_RUNGREF = 3 ∧ OnlyRegs [0x104] u t
         else if u.rd F.TIME_LEAPPEND = 1 ∨ u.rd F.CLK_UPDGO = 1 ∨ u.jrnl.queue ≠ [] ∨ u.rd F.KEEP_CKBUSY = 1 ∨ u.rd F.SYS_RUNGMOVING = 1 ∨
             u.boot.descWait.isSome then
           t.rd F.SYS_RUNGREF = 4 ∧ OnlyRegs [0x104] u t
         else if u.rd F.SEC_FBUSY = 1 then
           t.rd F.SYS_RUNGREQ = F.SYS_RUNGREQ.of v ∧ t.boot.descWait = some (F.SYS_RUNGREQ.of v) ∧ OnlyRegs [0x100] { u with boot := t.boot } t
         else t.rd F.SYS_RUNGREQ = F.SYS_RUNGREQ.of v ∧ t.rd F.SYS_RUNGMOVING = 1 ∧ t.boot.descend = some (F.SYS_RUNGREQ.of v) ∧
           (F.SYS_RUNGREQ.of v = 1 → OnlyRegs [0x100, 0x104] { u with boot := t.boot } t) ∧
           (2 ≤ F.SYS_RUNGREQ.of v → (∀ c, c < 2 → t.rd (F.PADC_RUN c) = 0) ∧
             RestKept [0x100, 0x104, 0x41104, 0x41504, (F.PADC_ABANCNT 0).addr, (F.PADC_ABANCNT 1).addr] u t))))

/-- A descent ends in its rung, a wake source that serves the rung begins the ascent, and every ascent ends in RUN with the mode kept (R95, R97, R99, R100, 04_reset_boot_power). -/
def Obligations.LadderMoves : Prop :=
  (∀ (s : State) (r : Nat), s.boot.descend = some r → r ≤ 4 →
    ∃ t, exec .rungDescentComplete s = .next t ∧ t.rung = r ∧ t.boot.descend = none ∧ t.modeNow = s.modeNow ∧ (r = 4 → s.ecc.weak = [] → t.ctxWhole = true)) ∧
  (∀ s : State, s.boot.descend = none → exec .rungDescentComplete s = .next s) ∧
  (∀ (b : Fin 8) (s : State), s.phase = .up → s.keep.halted = false → s.boot.descend = none → s.boot.ascend = none → s.rd (wakeEn.at b) = 1 →
    wakeUsable s.rung b = true →
    ∃ t, exec (.wakeEvent b) s = .next t ∧ t.rd wakeSrc = 2 ^ (b : Nat) ∧ t.rd F.SYS_RUNGMOVING = 1 ∧ t.boot.ascend = some s.tick ∧
      OnlyRegs [0x104, 0x10C] { s with boot := t.boot } t) ∧
  (∀ (b : Fin 8) (s : State), s.rd (wakeEn.at b) = 0 ∨ wakeUsable (s.boot.descend.getD s.rung) b = false ∨ s.keep.halted = true →
    exec (.wakeEvent b) s = .next s) ∧
  (∀ (m : Bool) (w : Word) (s : State), s.boot.ascend.isSome → s.boot.descend = none → s.rung ≠ 4 ∨ s.ctxWhole = true →
    ∃ t, exec (.ascentComplete m w) s = .next t ∧ t.rung = 0 ∧ t.boot.ascend = none ∧ t.modeNow = s.modeNow ∧ t.reg F.SYS_EXITUS.addr = w ∧
      (3 ≤ s.rung → t.rd F.BOOT_DONE = 0 ∧ t.rd F.BOOT_WAKE = 1 ∧ t.rd F.TIME_ACTIVE = 0 ∧ t.rd F.TIME_DLOCK = 0)) ∧
  (∀ (m : Bool) (w : Word) (s : State), s.boot.ascend.isSome → s.boot.descend = none → s.rung = 4 → s.ctxWhole = false →
    ∃ t, exec (.ascentComplete m w) s = .next t ∧ t.phase = .booting ∧ t.modeNow = 0 ∧ t.rung = 0 ∧ t.boot.cause = s.boot.cause ||| 16 ∧ t.tmode = m) ∧
  (∀ (l : List (Nat × List Byte)) (s : State), s.phase = .up → s.rd F.BOOT_DONE = 0 →
    ∃ t, exec (.descriptorReloadDone l) s = .next t ∧ t.rd F.BOOT_DONE = 1)

/-- A PLL update loads N and FRAC together, relocks on a new SRC or REFDIV, or is refused; the clock tests show in CLK.STAT and raise (R59, R60, R61, R63, R64, 03_clocks_and_time). -/
def Obligations.ClockUpdateAndTests : Prop :=
  (∀ (v : Word) (s u : State), s.turn 0x104C v = some u → F.CLK_UPDGO.of v = 1 → u.rd F.CLK_UPDGO = 0 →
    ((pllOk (u.rd F.CLK_SRC) (u.rd F.CLK_REFDIV) (u.rd F.CLK_N) (u.rd F.CLK_FRAC) = false ∨
        ((u.rd F.CLK_SRC ≠ u.clk.src ∨ u.rd F.CLK_REFDIV ≠ u.clk.refdiv) ∧ u.modeNow ≠ 0)) →
      exec (.clkUpdate v) s = .next (noteWrite 0x104C (u, .range)).settle) ∧
    (pllOk (u.rd F.CLK_SRC) (u.rd F.CLK_REFDIV) (u.rd F.CLK_N) (u.rd F.CLK_FRAC) = true → u.rd F.CLK_SRC = u.clk.src →
      u.rd F.CLK_REFDIV = u.clk.refdiv →
      exec (.clkUpdate v) s = .next { u.settle with clk := { u.clk with n := u.rd F.CLK_N, frac := u.rd F.CLK_FRAC } }) ∧
    (pllOk (u.rd F.CLK_SRC) (u.rd F.CLK_REFDIV) (u.rd F.CLK_N) (u.rd F.CLK_FRAC) = true →
      (u.rd F.CLK_SRC ≠ u.clk.src ∨ u.rd F.CLK_REFDIV ≠ u.clk.refdiv) → u.modeNow = 0 →
      ∃ t, exec (.clkUpdate v) s = .next t ∧ t.rd F.CLK_UPDGO = 1 ∧ t.rd F.CLK_LOCK = 0 ∧ t.rd F.CLK_REFOK = u.rd F.CLK_REFOK ∧
        t.clk = { src := u.rd F.CLK_SRC, refdiv := u.rd F.CLK_REFDIV, n := u.rd F.CLK_N, frac := u.rd F.CLK_FRAC,
                  relocking := true, stopped := true } ∧
        (∀ m, m < 4 → t.rd (F.MOD_RUN m) = 0) ∧
        RestKept [0x104C, 0x1050, 0x40048, 0x40058, 0x40068, 0x40078] u t)) ∧
  (∀ s : State, s.clk.relocking = true →
    ∃ t, exec .clkRelockDone s = .next t ∧ t.rd F.CLK_LOCK = 1 ∧ t.rd F.CLK_RELOCKED = 1 ∧ t.rd F.CLK_UPDGO = 0 ∧
      t.rd F.CLK_REFOK = s.rd F.CLK_REFOK ∧ t.clk = { s.clk with relocking := false, stopped := false } ∧ t.mem = s.mem) ∧
  (∀ s : State, s.clk.relocking = true → s.rd F.CLK_LOCK = 0 → exec .clkRelockTimeout s = .next (s.detect 0x03)) ∧
  (∀ s : State, (s.rd F.CLK_REFOK = 1 → s.rung < 4 → exec .clkRefloss s = .next (((s.wr F.CLK_REFOK 0).wr F.CLK_HOLD 1).detect 0x02)) ∧
    (s.rd F.CLK_REFOK = 0 ∨ s.rung = 4 → exec .clkRefloss s = .next s)) ∧
  (∀ s : State, (s.rd F.CLK_LOCK = 1 → s.rung < 3 → exec .clkUnlock s = .next
      (if s.clk.relocking = true then s.wr F.CLK_LOCK 0 else (s.wr F.CLK_LOCK 0).detect 0x03)) ∧
    (s.rd F.CLK_LOCK = 0 ∨ 3 ≤ s.rung → exec .clkUnlock s = .next s)) ∧
  (∀ s : State, exec .clkFreqFault s = .next (if s.clk.relocking = true ∨ 3 ≤ s.rung then s else s.detect 0x03)) ∧
  (∀ s : State, ∃ t, exec .referenceReturn s = .next t ∧ t.rd F.CLK_REFOK = 1 ∧ t.rd F.CLK_HOLD = 0 ∧ t.rd F.CLK_LOCK = s.rd F.CLK_LOCK ∧
    OnlyRegs [0x1050] s t)

/-- The signed difference of two W-bit quantities and what "has reached" means (R67). -/
def Obligations.SignedDifference : Prop :=
  (∀ w x y : Nat, 1 ≤ w → x < 2 ^ w → y < 2 ^ w →
    (sdiff w x y - ((x : Int) - (y : Int))) % ((2 ^ w : Nat) : Int) = 0 ∧ -((2 ^ (w - 1) : Nat) : Int) ≤ sdiff w x y ∧
    sdiff w x y < ((2 ^ (w - 1) : Nat) : Int) ∧ (reached w x y = true ↔ 0 ≤ sdiff w x y))

/-- An increment outside ±1000 ppm is dropped; a leap is armed, cancelled, held from change, and applied when device time has reached LEAPAT (R66, R70, R71, R67, 03_clocks_and_time). -/
def Obligations.LeapsAndIncrements : Prop :=
  (∀ (k : Fin 3) (v : Word) (s u : State), s.turn (incFld k).addr v = some u →
    (0x7FDF3B64 ≤ v.toNat ∧ v.toNat ≤ 0x8020C49C → ∃ t, exec (.timeIncrementWrite k v) s = .next t ∧ t.reg (incFld k).addr = v ∧
      (∀ d, d < 2 → (k : Nat) = d + 1 → (if d = 0 then t.time.srvA else t.time.srvB) = u.tick) ∧
      OnlyRegs [(incFld k).addr] { u with time := { u.time with srvA := t.time.srvA, srvB := t.time.srvB } } t) ∧
    (v.toNat < 0x7FDF3B64 ∨ 0x8020C49C < v.toNat → exec (.timeIncrementWrite k v) s = .next (noteWrite (incFld k).addr (u, .range)).settle)) ∧
  (∀ (v : Word) (s u : State), s.turn 0x20B0 (F.TIME_LEAPARM.put v 1) = some u → u.rd F.TIME_LEAPARM = 0 →
    (F.TIME_LEAPTGT.of v = 3 ∨ 999999999 < (sgn 32 (u.rd F.TIME_LEAPNS)).natAbs →
      exec (.leapArm v) s = .next (noteWrite 0x20B0 (u, .range)).settle) ∧
    (F.TIME_LEAPTGT.of v ≠ 3 → (sgn 32 (u.rd F.TIME_LEAPNS)).natAbs ≤ 999999999 →
      ∃ t, exec (.leapArm v) s = .next t ∧ t.rd F.TIME_LEAPARM = 1 ∧ t.rd F.TIME_LEAPPEND = 1 ∧ t.rd F.TIME_LEAPTGT = F.TIME_LEAPTGT.of v ∧
        t.rd F.TIME_SLEWING = u.rd F.TIME_SLEWING ∧ OnlyRegs [0x20B0, 0x2044] u t)) ∧
  (∀ (v : Word) (s u : State), s.turn 0x20B0 (F.TIME_LEAPARM.put v 1) = some u → u.rd F.TIME_LEAPARM = 1 → F.TIME_LEAPCANCEL.of v = 0 →
    F.TIME_LEAPTGT.of v ≠ u.rd F.TIME_LEAPTGT → exec (.leapArm v) s = .next (noteWrite 0x20B0 (u, .busy)).settle) ∧
  (∀ (v : Word) (s u : State), s.turn 0x20B0 (F.TIME_LEAPCANCEL.put v 1) = some u → u.rd F.TIME_LEAPARM = 1 →
    ∃ t, exec (.leapCancel v) s = .next t ∧ t.rd F.TIME_LEAPARM = 0 ∧ t.rd F.TIME_LEAPPEND = 0 ∧ t.rd F.TIME_LEAPTGT = u.rd F.TIME_LEAPTGT ∧
      OnlyRegs [0x20B0, 0x2044] u t) ∧
  (∀ s : State, s.rd F.TIME_LEAPARM = 1 → reached 64 s.now64 (s.rd64 F.TIME_LEAPATLO) = true →
    ∃ t, exec .leapApply s = .next t ∧ t.rd F.TIME_LEAPARM = 0 ∧ t.rd F.TIME_LEAPPEND = 0 ∧
      (∀ k, k < 3 → t.counter k = if k = s.rd F.TIME_LEAPTGT ∨ (k = 2 ∧ s.rd F.TIME_LEAPTGT = 3) then
        timeAdd (s.counter k) (sgn 32 (s.rd F.TIME_LEAPSEC) * (secUnits : Int) + sgn 32 (s.rd F.TIME_LEAPNS) * 2 ^ 30 +
          (s.rd F.TIME_LEAPFRAC * 2 ^ 14 : Nat)) else s.counter k) ∧ t.mem = s.mem) ∧
  (∀ s : State, s.rd F.TIME_LEAPARM = 0 ∨ reached 64 s.now64 (s.rd64 F.TIME_LEAPATLO) = false → exec .leapApply s = .next s)

/-- A switch of ACTIVE is made in the tick after its write, device time goes on across it, a refused one records RANGE, DOMAIN or OFFSET; SNAP captures one tick (R65, R72, R73, 03_clocks_and_time). -/
def Obligations.DomainSwitchAndSnapshot : Prop :=
  (∀ (v : Word) (s u : State), s.turn 0x2040 v = some u → F.TIME_SNAPGO.of v = 0 →
    exec (.domainSwitch v) s = .next { u.settle with time := { u.time with
      switchTo := if F.TIME_ACTIVE.of v = u.rd F.TIME_ACTIVE then none else some (F.TIME_ACTIVE.of v) } }) ∧
  (∀ (k : Nat) (u : State), k < 4 →
    (k = u.rd F.TIME_ACTIVE → u.timeSwitch k = u) ∧
    (k ≠ u.rd F.TIME_ACTIVE →
      (if k = 3 then (u.timeSwitch k).rd F.TIME_SWREF = 3 ∧ OnlyRegs [0x2044] u (u.timeSwitch k)
       else if (k = 1 ∧ u.rd F.TIME_AEN = 0) ∨ (k = 2 ∧ u.rd F.TIME_BEN = 0) then
         (u.timeSwitch k).rd F.TIME_SWREF = 2 ∧ OnlyRegs [0x2044] u (u.timeSwitch k)
       else if u.rd F.TIME_SLEWWIN * 500 * 2 ^ 30 < (timeDiff (u.counter k) u.devTime).natAbs then
         (u.timeSwitch k).rd F.TIME_SWREF = 1 ∧ OnlyRegs [0x2044] u (u.timeSwitch k)
       else (u.timeSwitch k).rd F.TIME_ACTIVE = k ∧ (u.timeSwitch k).slewNow = timeDiff (u.counter k) u.devTime ∧
         (u.timeSwitch k).rd F.TIME_SLEWING = (if (u.timeSwitch k).slewNow = 0 then 0 else 1) ∧
         OnlyRegs [0x2040, 0x2044] { u with time := (u.timeSwitch k).time } (u.timeSwitch k))) ∧
    (u.timeSwitch k).devTime = u.devTime) ∧
  (∀ (u : State) (k : Nat), u.timeRuns = true → u.time.switchTo = some k → u.timeTick =
    ({ u.timeCount.leapApply with time := { u.timeCount.leapApply.time with switchTo := none, slewAt := min u.timeCount.leapApply.time.slewLen (u.timeCount.leapApply.time.slewAt + u.timeCount.leapApply.tickLen) } }.timeSwitch k).ppsTick) ∧
  (∀ s : State, s.slewNow = 0 → ∃ t, exec .slewEnd s = .next t ∧ t.rd F.TIME_SLEWING = 0 ∧ OnlyRegs [0x2044] s t) ∧
  (∀ s : State, s.slewNow ≠ 0 → exec .slewEnd s = .next s) ∧
  (∀ (v : Word) (s u : State), s.turn 0x2040 (F.TIME_SNAPGO.put v 1) = some u → F.TIME_ACTIVE.of v = u.rd F.TIME_ACTIVE →
    ∃ t, exec (.timeSnap v) s = .next t ∧ t.rd64 F.TIME_DT64LO = u.now64 ∧ t.time = { u.time with switchTo := none } ∧ t.rd F.TIME_ACTIVE = u.rd F.TIME_ACTIVE ∧
      OnlyRegs [0x2060, 0x2064, 0x2068, 0x206C, 0x2070, 0x2074, 0x2078, 0x207C, 0x2080, 0x2084, 0x2088, 0x208C, 0x2090, 0x2094, 0x2098, 0x209C,
        0x20A0, 0x20A4] { u with time := t.time } t)

/-- The servo's lock, the egress FIFO, the pulses per second and the trigger slots (R74, R80, R81, R82, R83, 03_clocks_and_time). -/
def Obligations.ServoTriggersAndPulses : Prop :=
  (∀ (v : Word) (s u : State), s.turn 0x205C v = some u →
    ∃ t, exec (.servoLockWrite v) s = .next t ∧ t.rd F.TIME_DLOCK = F.TIME_DLOCK.of v ∧
      t.rd F.ISL_HOLD = (if F.TIME_DLOCK.of v = 0 then 1 else 0) ∧ OnlyRegs [0x205C, F.ISL_HOLD.addr]
        { u with isl := t.isl, time := { u.time with srvA := if v.getLsbD 0 then u.tick else u.time.srvA,
                                                     srvB := if v.getLsbD 1 then u.tick else u.time.srvB } } t) ∧
  (∀ (d : Fin 2) (s : State), s.rd F.TIME_SRVWDT ≠ 0 →
    s.rd F.TIME_SRVWDT * 500000 ≤ s.tick - (if (d : Nat) = 0 then s.time.srvA else s.time.srvB) → s.rdBit F.TIME_DLOCK d = true →
    exec (.servoWatchdogExpiry d) s = .next ((s.wr (F.TIME_DLOCK.at d) 0).detect 0x04).holdSync) ∧
  (∀ (d : Fin 2) (s : State), s.rd F.TIME_SRVWDT = 0 ∨ s.rdBit F.TIME_DLOCK d = false ∨
    s.tick - (if (d : Nat) = 0 then s.time.srvA else s.time.srvB) < s.rd F.TIME_SRVWDT * 500000 → exec (.servoWatchdogExpiry d) s = .next s) ∧
  (∀ (v : Word) (s u : State) (x : TxStamp) (l : List TxStamp), s.turn 0x20F0 (F.TIME_POP.put v 1) = some u → F.TIME_TXPORT.of v = 0 →
    u.time.fifoA = x :: l →
    ∃ t, exec (.txtsFifoPop v) s = .next t ∧ t.time.fifoA = l ∧ t.rd F.TIME_TXVALID = 1 ∧ t.rd F.TIME_TXSEQID = x.seqId % 2 ^ 16 ∧
      t.rd F.TIME_TXNS = x.time % secUnits / 2 ^ 30 ∧ t.mem = u.mem) ∧
  (∀ (v : Word) (s u : State), s.turn 0x20F0 (F.TIME_POP.put v 1) = some u → F.TIME_TXPORT.of v = 1 → u.time.fifoB = [] →
    ∃ t, exec (.txtsFifoPop v) s = .next t ∧ t.rd F.TIME_TXVALID = 0 ∧ OnlyRegs [0x20F0, 0x20F4] u t) ∧
  (∀ (f : Bool) (k : Fin 16) (s : State), s.rd F.TIME_INEN = 1 → s.rd F.TIME_INEDGE = (if f then 1 else 0) →
    (∀ x, s.time.lastPps = some x → 50000000 ≤ s.tick - x) →
    ∃ t, exec (.ppsInEdge f k) s = .next t ∧ t.rd F.TIME_PPSNEW = 1 ∧ t.rd F.TIME_PPSCNT = (s.rd F.TIME_PPSCNT + 1) % 2 ^ 32 ∧
      t.time.lastPps = some s.tick ∧ t.counter 0 = s.counter 0 ∧ t.mem = s.mem) ∧
  (∀ (f : Bool) (k : Fin 16) (s : State), s.rd F.TIME_INEN = 0 ∨ s.rd F.TIME_INEDGE ≠ (if f then 1 else 0) ∨
    (∃ x, s.time.lastPps = some x ∧ s.tick - x < 50000000) → exec (.ppsInEdge f k) s = .next s) ∧
  (∀ s : State, (s.rd F.TIME_OUTEN = 1 → s.phase = .up → s.time.ppsDue = true → exec .ppsOutPulse s = .next { s with time :=
      { s.time with ppsOut := true, ppsDue := false, ppsEnd := s.tick + 500 * s.rd F.TIME_PPSWIDTH } }) ∧
    (s.rd F.TIME_OUTEN = 0 ∨ s.time.ppsDue = false → exec .ppsOutPulse s = .next s)) ∧
  (∀ s : State, (s.time.ppsEnd ≤ s.tick → exec .ppsOutPulseEnd s = .next { s with time := { s.time with ppsOut := false } }) ∧
    (s.tick < s.time.ppsEnd → exec .ppsOutPulseEnd s = .next s)) ∧
  (∀ (n : Fin 4) (v : Word) (s u : State), s.turn (0x2168 + 0x10 * n) ((F.TIME_TRGARM n).put v 1) = some u →
    (u.rd (F.TIME_TRGARM n) = 1 → exec (.triggerSlotArm n v) s = .next (noteWrite (0x2168 + 0x10 * n) (u, .busy)).settle) ∧
    (u.rd (F.TIME_TRGARM n) = 0 → (F.TIME_TRGTGT n).of v = 0 ∨ 3 < (F.TIME_TRGTGT n).of v →
      exec (.triggerSlotArm n v) s = .next (noteWrite (0x2168 + 0x10 * n) (u, .range)).settle) ∧
    (u.rd (F.TIME_TRGARM n) = 0 → 1 ≤ (F.TIME_TRGTGT n).of v → (F.TIME_TRGTGT n).of v ≤ 3 →
      ∃ t, exec (.triggerSlotArm n v) s = .next t ∧ t.rd (F.TIME_TRGARM n) = 1 ∧ t.rd (F.TIME_TRGTGT n) = (F.TIME_TRGTGT n).of v ∧
        t.trgDue n = false ∧ OnlyRegs [0x2168 + 0x10 * n] { u with time := { u.time with trgAt := t.time.trgAt } } t)) ∧
  (∀ (n : Fin 4) (s : State), s.trgDue n = true ↔ s.rd (F.TIME_TRGARM n) = 1 ∧ reached 64 s.now64 (s.rd64 ⟨0x2160 + 0x10 * n, 31, 0⟩) = true ∧
    SMap.get (fun _ => 0) s.time.trgAt n ≠ s.tick + 1) ∧
  (∀ (n : Fin 4) (s : State), s.rd F.TIME_LEAPARM = 0 → (∀ k, k < (n : Nat) → s.rd (F.TIME_TRGARM k) = 0) →
    (s.trgDue n = false → exec (.triggerSlotFire n) s = .next s) ∧
    (s.trgDue n = true → ∃ t, exec (.triggerSlotFire n) s = .next t ∧
      t.rd (F.TIME_TRGARM n) = 0 ∧
      (s.rd (F.TIME_TRGTGT n) = 3 → OnlyRegs [0x2168 + 0x10 * n] { s with time := t.time } t ∧
        t.time.switchTo = (if s.rd (F.TIME_TRGARG n) % 4 = s.rd F.TIME_ACTIVE then none else some (s.rd (F.TIME_TRGARG n) % 4)))))

/-- A keeper measurement applies every threshold with its hysteresis, sheds VKEEP and keeper time, and halts below 1.00 V (R102, R103, R104, R105, R106, R115, 05_keeper_domain). -/
def Obligations.KeeperMeasurementThresholds : Prop :=
  (∀ (v h : Fin 4096) (m a : Bool) (s : State), s.keep.halted = false →
    ∃ t, exec (.keeperMeasurement v h m a) s = .next t ∧ t.rd F.KEEP_VSCAP = v ∧ t.rd F.KEEP_HVIN = h ∧
      t.rd F.KEEP_COLD = (if (v : Nat) < 1000 ∨ (s.rd F.KEEP_COLD = 1 ∧ (v : Nat) < 1100) then 1 else 0) ∧
      t.rd F.KEEP_LOWRESV = (if (v : Nat) < s.rd F.KEEP_VRESV ∨ (s.rd F.KEEP_LOWRESV = 1 ∧ (v : Nat) < s.rd F.KEEP_VRESV + 50) then 1 else 0) ∧
      t.keep.low1 = decide ((v : Nat) < s.rd F.KEEP_VCUT1 ∨ (s.keep.low1 = true ∧ (v : Nat) < s.rd F.KEEP_VCUT1 + 50)) ∧
      t.keep.low2 = decide ((v : Nat) < s.rd F.KEEP_VCUT2 ∨ (s.keep.low2 = true ∧ (v : Nat) < s.rd F.KEEP_VCUT2 + 50)) ∧
      t.keep.halted = decide ((v : Nat) < 1000) ∧
      t.rd F.KEEP_VKEEPON = (if s.rd F.KEEP_VKEEPEN = 1 ∧ t.keep.low1 = false then 1 else 0) ∧
      t.rd F.KEEP_KTVALID = (if t.keep.low2 = true ∨ t.keep.halted = true then 0 else s.rd F.KEEP_KTVALID) ∧
      t.rd F.KEEP_MAINCHG = (if m = true ∧ (v : Nat) < s.rd F.KEEP_VTERM ∧ s.rd F.KEEP_ICHG ≠ 0 then 1 else 0) ∧
      t.rd F.KEEP_HARV = (if s.rd F.KEEP_HARVEN = 1 ∧ (v : Nat) < s.rd F.KEEP_VTERM ∧
        (if t.rd F.KEEP_COLD = 1 then 165 ≤ (h : Nat) else a = true) then 1 else 0) ∧
      t.keep.dawnLow = decide ((h : Nat) < s.rd F.KEEP_DAWNV ∨ (s.keep.dawnLow = true ∧ (h : Nat) < s.rd F.KEEP_DAWNV + 25)) ∧
      t.rd F.KEEP_DAWN = (if t.keep.dawnLow = true ∨ (v : Nat) < 1000 then 0 else s.rd F.KEEP_DAWN) ∧
      OnlyRegs [0x4044, 0x4048] { s with keep := t.keep } t) ∧
  (∀ (v h : Fin 4096) (m a : Bool) (s : State), s.keep.halted = true → exec (.keeperMeasurement v h m a) s = .next s) ∧
  (∀ (l : Fin 4096) (s : State), s.keep.halted = true → s.keep.rfGone = false → 700 ≤ (l : Nat) →
    exec (.keeperRestart l) s = .next { s with keep := { s.keep with halted := false } }) ∧
  (∀ (l : Fin 4096) (s : State), s.keep.halted = true → s.keep.rfGone = true ∨ (l : Nat) < 700 →
    ∃ t, exec (.keeperRestart l) s = .next t ∧ t.keep.halted = false ∧ t.rd F.KEEP_RFLOST = 1 ∧ t.rd F.KEEP_CKPER = s.rd F.KEEP_CKPER ∧
      (∀ a, 0x4048 ≤ a → a < 0x5000 → t.reg a = RegMap.resetOf a) ∧ (∀ a, a < 0x4040 ∨ 0x5000 ≤ a → t.reg a = s.reg a) ∧ t.mem = s.mem)

/-- Keeper time is trimmed, set from device time and captured; the alarm fires once; alarm, dawn and WAKE_N are recorded with the rails down (R75, R99, R114, R115, 05_keeper_domain). -/
def Obligations.KeeperTimeAndWakes : Prop :=
  (∀ s : State, s.keepRuns = true →
    ∃ t, exec .keeperTrimAdjust s = .next t ∧
      ((t.keep.sec * 32768 + t.keep.sub : Nat) : Int) =
        (((s.keep.sec * 32768 + s.keep.sub : Nat) : Int) + sgn 8 (s.rd F.KEEP_TRIM)) % ((2 ^ 48 * 32768 : Nat) : Int) ∧
      OnlyRegs [] { s with keep := t.keep } t) ∧
  (∀ s : State, s.keepRuns = false → exec .keeperTrimAdjust s = .next s) ∧
  (∀ s : State, s.rd F.KEEP_KTSET = 1 → s.keep.halted = false → s.keep.low2 = false →
    ∃ t, exec .keeperTimeSet s = .next t ∧ t.keep.sec = s.devTime / secUnits ∧ t.keep.sub = s.devTime % secUnits / 2 ^ 30 * 32768 / 1000000000 ∧
      t.rd F.KEEP_KTVALID = 1 ∧ t.rd F.KEEP_KTSET = 0 ∧ OnlyRegs [0x4040, 0x4044] { s with keep := t.keep } t) ∧
  (∀ s : State, s.rd F.KEEP_KTSNAP = 1 →
    ∃ t, exec .keeperTimeSnap s = .next t ∧ t.rd F.KEEP_KTSECLO + 2 ^ 32 * t.rd F.KEEP_KTSECHI = s.keep.sec % 2 ^ 48 ∧
      t.rd F.KEEP_KTSUB = s.keep.sub % 2 ^ 15 ∧ t.rd F.KEEP_KTSNAP = 0 ∧ OnlyRegs [0x4040, 0x4060, 0x4064, 0x4068] s t) ∧
  (∀ s : State, s.rd F.KEEP_ALMEN = 1 → s.keepRuns = true →
    reached 48 s.keep.sec (s.rd F.KEEP_KALMLO + 2 ^ 32 * s.rd F.KEEP_KALMHI) = true →
    ∃ t, exec .keeperAlarm s = .next t ∧ t.rd F.KEEP_ALMEN = 0 ∧ t.mem = s.mem ∧
      (s.phase = .down → t.rdBit F.KEEP_KWSRC 2 = true ∧ OnlyRegs [0x4040, 0x4084] s t)) ∧
  (∀ s : State, s.rd F.KEEP_DAWNEN = 1 → s.keep.halted = false → s.keep.dawnLow = false →
    ∃ t, exec .dawnDetect s = .next t ∧ t.rd F.KEEP_DAWN = 1 ∧ t.mem = s.mem ∧
      (s.phase = .down → t.rdBit F.KEEP_KWSRC 1 = true ∧ OnlyRegs [0x4044, 0x4084] s t)) ∧
  (∀ s : State, s.phase = .down → s.keep.halted = false →
    ∃ t, exec .wakeNLow s = .next t ∧ t.rdBit F.KEEP_KWSRC 0 = true ∧ OnlyRegs [0x4084] s t)

/-- A checkpoint uses up the next SEQ and slot and clears the slot's commit word; its end clears BUSY (R108, R110, R113, R428, 05_keeper_domain). -/
def Obligations.CheckpointsBegin : Prop :=
  (∀ s : State, s.ecc.weak = [] → s.rd F.KEEP_CKPER ≠ 0 → s.rung = 0 → s.phase = .up → s.rd F.KEEP_CKBUSY = 0 →
    ∃ t, exec .periodicCheckpoint s = .next t ∧ t.rd F.KEEP_CKBUSY = 1 ∧ t.rd F.KEEP_CKSEQ = (s.rd F.KEEP_CKSEQ + 1) % 2 ^ 32 ∧
      t.rd F.KEEP_NEXTSLOT = (s.rd F.KEEP_NEXTSLOT + 1) % 8 ∧ t.keep.ckpt = some (s.rd F.KEEP_NEXTSLOT, s.ckptBody 2 0 (if s.timeRuns = true then s.now64 else 0)) ∧
      (∀ a, t.byte a = if ckptAddr (s.rd F.KEEP_NEXTSLOT) + 0x1F8 ≤ a ∧ a < ckptAddr (s.rd F.KEEP_NEXTSLOT) + 0x200 then 0 else s.byte a)) ∧
  (∀ s : State, s.rd F.KEEP_CKPER = 0 ∨ s.rung ≠ 0 ∨ s.phase ≠ .up ∨ s.rd F.KEEP_CKBUSY = 1 → exec .periodicCheckpoint s = .next s) ∧
  (∀ (v : Word) (s u : State), s.turn 0x4040 (F.KEEP_CKREQ.put v 1) = some u →
    (u.ecc.weak = [] → u.rd F.KEEP_XBUSY = 0 → F.KEEP_ICHG.of v ≠ 3 → u.rd F.KEEP_CKBUSY = 0 →
      ∃ t, exec (.checkpointRequest v) s = .next t ∧ t.rd F.KEEP_CKBUSY = 1 ∧ t.rd F.KEEP_CKREQ = 1 ∧ t.rd F.KEEP_XBUSY = 1 ∧
        t.rd F.KEEP_CKSEQ = (u.rd F.KEEP_CKSEQ + 1) % 2 ^ 32 ∧ t.keep.ckpt.isSome ∧
        t.keep.crossing = some (0x4040, F.KEEP_CKREQ.put v 1)) ∧
    (u.rd F.KEEP_XBUSY = 1 → exec (.checkpointRequest v) s = .next (noteWrite 0x4040 (u, .busy)).settle) ∧
    (u.rd F.KEEP_XBUSY = 0 → F.KEEP_ICHG.of v = 3 → exec (.checkpointRequest v) s = .next (noteWrite 0x4040 (u, .range)).settle)) ∧
  (∀ (g : Bool) (s : State), s.keep.ckpt.isSome → s.ecc.weak = [] → s.age.run = none →
    ∃ t, exec (.checkpointComplete g) s = .next t ∧ t.rd F.KEEP_CKBUSY = 0 ∧ t.rd F.KEEP_CKREQ = 0 ∧ t.keep.ckpt = none ∧
      (g = false → t = s.ckptEnd.detect 0x07)) ∧
  (∀ (g : Bool) (s : State), s.keep.ckpt = none → exec (.checkpointComplete g) s = .next s)

/-- A periodic checkpoint that completes is found complete in its slot, with its SEQ and body (R110, R111, R112, R417, 05_keeper_domain). -/
def Obligations.CompletedCheckpointIsFound : Prop :=
  (∀ s : State, s.ecc.weak = [] → s.rd F.KEEP_CKPER ≠ 0 → s.rung = 0 → s.phase = .up → s.rd F.KEEP_CKBUSY = 0 →
    ∃ t r, exec .periodicCheckpoint s = .next t ∧ exec (.checkpointComplete true) t = .next r ∧
      r.ckptSlot (s.rd F.KEEP_NEXTSLOT) = some (s.rd F.KEEP_CKSEQ, s.ckptBody 2 0 (if s.timeRuns = true then s.now64 else 0)))

/-- A KEEP word crosses alone: BUSY meanwhile, RANGE where refused, its value at arrival (R107, R108, R116, 05_keeper_domain). -/
def Obligations.KeeperCrossingWrites : Prop :=
  (∀ (w : Fin 1024) (v : Word) (s u : State), 17 ≤ (w : Nat) → s.turn (0x4000 + 4 * w) v = some u →
    (u.rd F.KEEP_XBUSY = 0 → u.keepRange (4 * w) v = true →
      ∃ t, exec (.keepWrite w v) s = .next t ∧ t.rd F.KEEP_XBUSY = 1 ∧ t.keep.crossing = some (0x4000 + 4 * (w : Nat), v) ∧
        OnlyRegs [0x4044] { u with keep := t.keep } t) ∧
    (u.rd F.KEEP_XBUSY = 1 → exec (.keepWrite w v) s = .next (noteWrite (0x4000 + 4 * w) (u, .busy)).settle) ∧
    (u.rd F.KEEP_XBUSY = 0 → u.keepRange (4 * w) v = false → exec (.keepWrite w v) s = .next (noteWrite (0x4000 + 4 * w) (u, .range)).settle)) ∧
  (∀ (v : Word) (s : State), s.keep.crossing = some (0x4040, v) → s.keep.halted = false →
    ∃ t, exec .keepWriteArrival s = .next t ∧ t.rd F.KEEP_XBUSY = 0 ∧ t.keep.crossing = none ∧ t.rd F.KEEP_ALMEN = F.KEEP_ALMEN.of v ∧
      t.rd F.KEEP_DAWNEN = F.KEEP_DAWNEN.of v ∧ t.rd F.KEEP_VKEEPEN = F.KEEP_VKEEPEN.of v ∧ t.rd F.KEEP_ICHG = F.KEEP_ICHG.of v ∧
      t.rd F.KEEP_HARVEN = F.KEEP_HARVEN.of v ∧ t.rd F.KEEP_CKPER = s.rd F.KEEP_CKPER ∧
      t.rd F.KEEP_VKEEPON = (if F.KEEP_VKEEPEN.of v = 1 ∧ s.keep.low1 = false then 1 else 0) ∧
      (F.KEEP_HARVEN.of v = 0 → t.rd F.KEEP_HARV = 0) ∧ (F.KEEP_ICHG.of v = 0 → t.rd F.KEEP_MAINCHG = 0) ∧
      OnlyRegs [0x4040, 0x4044] { s with keep := t.keep } t) ∧
  (∀ (v : Word) (s : State), s.keep.crossing = some (0x4058, v) → s.keep.halted = false →
    ∃ t, exec .keepWriteArrival s = .next t ∧ t.rd F.KEEP_XBUSY = 0 ∧ t.rd F.KEEP_VTERM = F.KEEP_VTERM.of v ∧
      OnlyRegs [0x4044, 0x4058] { s with keep := t.keep } t) ∧
  (∀ (v : Word) (s : State), s.keep.crossing = some (0x4054, v) → s.keep.halted = false →
    ∃ t, exec .keepWriteArrival s = .next t ∧ t.rd F.KEEP_XBUSY = 0 ∧ t.reg 0x4054 = v ∧
      t.rd F.KEEP_VRESVMIN = vresvMin (F.KEEP_CSTORE.of v) (F.KEEP_ESR.of v) % 4096 ∧ OnlyRegs [0x4044, 0x4050, 0x4054] { s with keep := t.keep } t) ∧
  (∀ (a : Nat) (v : Word) (s : State), s.keep.crossing = some (a, v) → s.keep.halted = true →
    ∃ t, exec .keepWriteArrival s = .next t ∧ t.rd F.KEEP_XBUSY = 0 ∧ t.keep.crossing = none ∧ OnlyRegs [0x4044] { s with keep := t.keep } t)

/-- WRITE, READ and FENCE frames are checked in the order CRC, HRDY, range, page and room; the first failure sets STAT and nothing else (R119, R120, R121, R122, R126, 06_host_interface). -/
def Obligations.HostFrameChecks : Prop :=
  (∀ (l : List Byte) (s : State), s.phase = .up → s.rung = 0 → s.boot.descend = none → 6 + 4 * (l.getD 3 0).toNat ≤ l.length →
    (crcOk 0x02 l (6 + 4 * (l.getD 3 0).toNat) = false → exec (.hostWriteFrame l) s = .next ((s.sat F.HIF_CRCCNT).answer [0xA1#8])) ∧
    (crcOk 0x02 l (6 + 4 * (l.getD 3 0).toNat) = true →
      (s.hrdy = false → exec (.hostWriteFrame l) s = .next ((s.sat F.HIF_BUSYCNT).answer [0xA6#8])) ∧
      (s.hrdy = true → frameRange (beVal (l.take 3)) (l.getD 3 0).toNat = false → exec (.hostWriteFrame l) s = .next (s.answer [0xA5#8])) ∧
      (s.hrdy = true → frameRange (beVal (l.take 3)) (l.getD 3 0).toNat = true →
        (if inWin (beVal (l.take 3)) = false ∧ s.has (pageOf (beVal (l.take 3))) = false then
          exec (.hostWriteFrame l) s = .next ((s.satBy F.HIF_ABSENTCNT (l.getD 3 0).toNat).answer [0xA2#8])
         else if 64 < s.hif.buf.length + (l.getD 3 0).toNat then
          exec (.hostWriteFrame l) s = .next ((s.sat F.HIF_BUSYCNT).answer [0xA6#8])
         else ∃ (t : State) (w : List BufWord), exec (.hostWriteFrame l) s = .next t ∧ t.hif.answer = [0xA0#8] ∧ t.hif.buf = s.hif.buf ++ w ∧
          w.length = (l.getD 3 0).toNat ∧
          (∀ i x, w[i]? = some x → x.addr = beVal (l.take 3) + 4 * i ∧ x.val = BitVec.ofNat 32 (beVal ((l.drop (4 + 4 * i)).take 4))) ∧
          OnlyRegs [] { s with hif := t.hif } t)))) ∧
  (∀ (l : List Byte) (s : State), s.phase = .up → s.rung = 0 → s.boot.descend = none → 6 ≤ l.length →
    (crcOk 0x0B l 6 = false → exec (.hostReadFrame l) s = .next ((s.sat F.HIF_CRCCNT).answer [0xA1#8])) ∧
    (crcOk 0x0B l 6 = true → s.hrdy = false → exec (.hostReadFrame l) s = .next ((s.sat F.HIF_BUSYCNT).answer [0xA6#8])) ∧
    (crcOk 0x0B l 6 = true → s.hrdy = true → frameRange (beVal (l.take 3)) (l.getD 3 0).toNat = false →
      exec (.hostReadFrame l) s = .next (s.answer [0xA5#8])) ∧
    (crcOk 0x0B l 6 = true → s.hrdy = true → frameRange (beVal (l.take 3)) (l.getD 3 0).toNat = true →
      exec (.hostReadFrame l) s = .next { s with hif := { s.hif with answer := [0xA0#8], held := none,
                                                                     reading := some (beVal (l.take 3), (l.getD 3 0).toNat) } })) ∧
  (∀ (l : List Byte) (s : State), s.phase = .up → s.rung = 0 → s.boot.descend = none → 2 ≤ l.length →
    (crcOk 0x0F l 2 = false → exec (.hostFenceFrame l) s = .next ((s.sat F.HIF_CRCCNT).answer [0xA1#8])) ∧
    (crcOk 0x0F l 2 = true → s.hrdy = false → exec (.hostFenceFrame l) s = .next ((s.sat F.HIF_BUSYCNT).answer [0xA6#8])) ∧
    (crcOk 0x0F l 2 = true → s.hrdy = true →
      exec (.hostFenceFrame l) s = .next { s with hif := { s.hif with answer := [0xA0#8], fenceFrame := !s.hif.buf.isEmpty } }))

/-- A READ is served once no earlier word of its page waits; FETCH and STATUS answer with their fields and CRC (R119, R123, R124, R125, R127, 06_host_interface). -/
def Obligations.SplitReadsAndStatus : Prop :=
  (∀ (s : State) (a n : Nat), s.hif.reading = some (a, n) → (∀ w ∈ s.hif.buf, w.addr / 0x1000 ≠ a / 0x1000) →
    ∃ (t : State) (r : ReadRes), exec .readServed s = .next t ∧ t.hif.reading = none ∧ t.hif.held = some r ∧ r.addr = a ∧ r.words.length = n ∧
      (a % 0x1000 + 4 * n ≤ 0x1000 → inWin a = false → a < 0x100000 → s.has (pageOf a) = true →
        OnlyRegs [] { s with hif := t.hif } t ∧ ∀ i, i < n → (r.words[i]?).map (·.1) = some (s.regWord (a + 4 * i))) ∧
      (a % 0x1000 + 4 * n ≤ 0x1000 → inWin a = false → a < 0x100000 → s.has (pageOf a) = false → ∀ i, i < n → r.words[i]? = some (0#32, .absent)) ∧
      (a % 4 = 0 → (∀ i, i < n → inWin (a + 4 * i) = true ∧ mramHidden (a + 4 * i) = false ∧ s.isInvalid ((a + 4 * i) / 8 * 8) = false ∧
          s.synd ((a + 4 * i) / 8 * 8) = 0xFF) →
        t.mem = s.mem ∧ ∀ i, i < n → r.words[i]? = some (BitVec.ofNat 32 (s.raw64 ((a + 4 * i) / 8 * 8) / 2 ^ (8 * ((a + 4 * i) % 8))), .poison))) ∧
  (∀ (s : State) (a n : Nat), s.hif.reading = some (a, n) → (∃ w ∈ s.hif.buf, w.addr / 0x1000 = a / 0x1000) → exec .readServed s = .next s) ∧
  (∀ (l : List Byte) (s : State), s.phase = .up → s.rung = 0 → s.boot.descend = none → 2 ≤ l.length →
    (crcOk 0x0C l 2 = false → exec (.hostFetchFrame l) s = .next ((s.sat F.HIF_CRCCNT).answer (withCrc [0xA1#8, 0#8, 0#8, 0#8, 0#8, 0xFF#8]))) ∧
    (crcOk 0x0C l 2 = true → s.hif.reading.isSome →
      exec (.hostFetchFrame l) s = .next ((s.sat F.HIF_BUSYCNT).answer (withCrc [0xA6#8, 0#8, 0#8, 0#8, 0#8, 0xFF#8]))) ∧
    (crcOk 0x0C l 2 = true → s.hif.reading = none → s.hif.held = none →
      exec (.hostFetchFrame l) s = .next (s.answer (withCrc [0xA5#8, 0#8, 0#8, 0#8, 0#8, 0xFF#8]))) ∧
    (∀ r : ReadRes, crcOk 0x0C l 2 = true → s.hif.reading = none → s.hif.held = some r → (∀ w ∈ r.words, w.2 = Status.ok) →
      exec (.hostFetchFrame l) s = .next (s.answer (withCrc ([0xA0#8] ++ beBytes 3 r.addr ++ beBytes 1 r.words.length ++ [0xFF#8] ++
        r.words.flatMap fun w => beBytes 4 w.1.toNat)))) ∧
    (∀ (r : ReadRes) (i : Nat) (w : Word) (c : Status), crcOk 0x0C l 2 = true → s.hif.reading = none → s.hif.held = some r →
      (∀ x ∈ r.words.take i, x.2 = Status.ok) → r.words[i]? = some (w, c) → c ≠ .ok →
      exec (.hostFetchFrame l) s = .next (s.answer (withCrc ([BitVec.ofNat 8 (0xA0 + c.code)] ++ beBytes 3 r.addr ++ beBytes 1 r.words.length ++
        [BitVec.ofNat 8 i] ++ r.words.flatMap fun w => beBytes 4 w.1.toNat))))) ∧
  (∀ (l : List Byte) (b : Bool) (s : State), s.phase = .up → s.rung = 0 → s.boot.descend = none → 2 ≤ l.length →
    (crcOk 0x05 l 2 = true →
      exec (.hostStatusFrame l b) s = .next ((if b then s.setReg 0x504C 0 else s).answer (withCrc
        ([0xA0#8, BitVec.ofNat 8 (0xA0 + s.rd F.HIF_WECODE), BitVec.ofNat 8 (64 - s.hif.buf.length), BitVec.ofNat 8 s.statusFlags] ++
          beBytes 3 (s.rd F.HIF_WEADDR))))) ∧
    (crcOk 0x05 l 2 = false →
      ∃ t, exec (.hostStatusFrame l b) s = .next t ∧ t.hif.answer.head? = some 0xA1#8 ∧ t.reg 0x504C = s.reg 0x504C ∧
        OnlyRegs [0x5054] { s with hif := t.hif } t)) ∧
  (∀ s : State, s.phase = .up → s.rung = 0 → s.boot.descend = none → exec .frameAbort s = .next ((s.answer []).sat F.HIF_ABORTCNT)) ∧
  (∀ (l : List Byte) (s : State), l.length < 2 → exec (.hostStatusFrame l true) s = exec .frameAbort s)

/-- Words of one page complete in acceptance order, and none after a fence before those accepted ahead of it (R126, R131, R132, 06_host_interface). -/
def Obligations.BufferOrderAndFences : Prop :=
  (∀ (a : Nat) (v : Word) (s u : State), s.turn a v = some u →
    s.phase = .up ∧ s.rung < 3 ∧
    ((u = s ∧ ∀ w ∈ s.hif.buf, ¬(w.addr = a ∧ w.val = v)) ∨
     ∃ (p q : List BufWord) (w : BufWord), s.hif.buf = p ++ w :: q ∧ w.addr = a ∧ w.val = v ∧ u = { s with hif := { s.hif with buf := p ++ q } } ∧
       ∀ x ∈ p, x.addr / 0x1000 ≠ a / 0x1000 ∧ w.fence ≤ x.fence)) ∧
  (∀ (v : Word) (s u : State), s.turn 0x5048 (F.HIF_FENCEGO.put v 1) = some u →
    (u.rd F.HIF_FENCEGO = 0 → ∃ t, exec (.fenceGo v) s = .next t ∧ t.hif.fenceOut = u.hif.fenceOut + 1 ∧ t.hif.buf = u.hif.buf ∧
      t.rd F.HIF_FENCEGO = (if ∃ w ∈ u.hif.buf, w.fence ≤ u.hif.fenceOut then 1 else 0) ∧ OnlyRegs [0x5048] { u with hif := t.hif } t) ∧
    (u.rd F.HIF_FENCEGO = 1 → exec (.fenceGo v) s = .next u.settle)) ∧
  (∀ s : State, s.hif.buf = [] →
    ∃ t, exec .fenceComplete s = .next t ∧ t.hif.fenceFrame = false ∧ t.rd F.HIF_FENCEGO = 0 ∧ OnlyRegs [0x5048] { s with hif := t.hif } t) ∧
  (∀ s : State, (∃ w ∈ s.hif.buf, w.fence < s.hif.fenceOut) → exec .fenceComplete s = .next s)

/-- A written word is stored under its access types, refused as absent, out of the map or read-only, and the first failure is kept (R4, R12, R15, R127, R138, R139, R417, R452, 06_host_interface). -/
def Obligations.WrittenWordTargets : Prop :=
  (∀ (g : Fin 4096) (w : Fin 1024) (v : Word) (s : State), s.phase = .up → s.rung < 3 → s.hif.buf = [] →
    (inMram (wordAddr g w) = true → exec (.registerWrite g w v) s = .next (noteWrite (wordAddr g w) (s, .locked)).settle) ∧
    (inMap (wordAddr g w) = false → exec (.registerWrite g w v) s = .next (noteWrite (wordAddr g w) (s, .range)).settle) ∧
    (inMap (wordAddr g w) = true → inWin (wordAddr g w) = false → s.has (pageOf (wordAddr g w)) = false →
      exec (.registerWrite g w v) s = .next (noteWrite (wordAddr g w) (s.sat F.HIF_ABSENTCNT, .absent)).settle)) ∧
  (∀ (a : Nat) (s : State) (c : Status), c ≠ .ok → a < 2 ^ 24 →
    (s.rd F.HIF_WEVALID = 1 → noteWrite a (s, c) = s) ∧
    (s.rd F.HIF_WEVALID = 0 → (noteWrite a (s, c)).rd F.HIF_WEVALID = 1 ∧ (noteWrite a (s, c)).rd F.HIF_WECODE = c.code ∧
      (noteWrite a (s, c)).rd F.HIF_WEADDR = a ∧ OnlyRegs [0x504C] s (noteWrite a (s, c)))) ∧
  (∀ (g : Fin 4096) (w : Fin 1024) (v : Word) (s : State), s.phase = .up → s.rung < 3 → s.hif.buf = [] → 0x300000 ≤ wordAddr g w → wordAddr g w < 0x3FC000 →
    s.lengGuard (wordAddr g w) = false → s.isInvalid (wordAddr g w) = false → s.synd (wordAddr g w) = 0 →
    ∃ t, exec (.registerWrite g w v) s = .next t ∧ (∀ i, i < 4 → t.byte (wordAddr g w + i) = BitVec.ofNat 8 (v.toNat / 2 ^ (8 * i))) ∧
      (∀ a, ¬(wordAddr g w ≤ a ∧ a < wordAddr g w + 4) → t.byte a = s.byte a) ∧ t.regs = s.regs ∧ t.synd (wordAddr g w) = 0 ∧ t.isInvalid (wordAddr g w) = false) ∧
  (∀ (q : Fin 91) (g : Fin 4096) (w : Fin 1024) (v : Word) (s : State), s.phase = .up → s.rung < 3 → s.hif.buf = [] → s.subsSeen = s.subWord →
    RegMap.unitOf q ≠ 0 → s.has (0x1000 * q) = true →
    (wordAddr g w = 0x1000 * q + 0x14 → ∃ t, exec (.registerWrite g w v) s = .next t ∧ t.reg (wordAddr g w) = v &&& BitVec.ofNat 32 (RegMap.irawBits q) ∧ RestKept [wordAddr g w] s t) ∧
    (wordAddr g w = 0x1000 * q + 0x18 → ∃ t, exec (.registerWrite g w v) s = .next t ∧ t.reg (wordAddr g w) = s.reg (wordAddr g w) &&& ~~~(v &&& ~~~(s.hwBits (wordAddr g w))) ∧
      RestKept [wordAddr g w] s t))

/-- LOCK is set for good, a soft reset clears its page's counters, DCLR clears the drop counters, FFORCE acts only with FEN, and ISUM with IMASK drives HIRQ_N (R4, R15, R137, R139, R134, R165, R410, 06_host_interface). -/
def Obligations.PageHeadersAndCounters : Prop :=
  (∀ (q : Fin 91) (v : Word) (s : State), s.phase = .up → s.rung < 3 → s.hif.buf = [] → s.subsSeen = s.subWord → RegMap.unitOf q ≠ 0 → s.has (0x1000 * q) = true →
    (F.SRST 0).of v = 0 → (F.EN 0).of v = s.rd (F.EN (0x1000 * q)) →
    ∃ t, exec (.pageLock q v) s = .next t ∧ t.rd (F.LOCK (0x1000 * q)) = 1 ∧ t.rd (F.EN (0x1000 * q)) = s.rd (F.EN (0x1000 * q)) ∧
      RestKept [0x1000 * q + 8] s t) ∧
  (∀ (v : Word) (s : State), s.phase = .up → s.rung < 3 → s.hif.buf = [] → s.subsSeen = s.subWord → (F.LOCK 0).of v = 0 → (F.EN 0).of v = s.rd (F.EN 0x5000) →
    ∃ t, exec (.pageSoftReset 5 v) s = .next t ∧ t.rd F.HIF_ABSENTCNT = 0 ∧ t.rd F.HIF_CRCCNT = 0 ∧ t.rd F.HIF_BUSYCNT = 0 ∧
      t.rd F.HIF_ABORTCNT = 0 ∧ RestKept [0x5008, 0x5050, 0x5054, 0x5058, 0x505C] s t) ∧
  (∀ (c : Fin 8) (v : Word) (s : State), s.phase = .up → s.rung < 3 → s.hif.buf = [] → s.subsSeen = s.subWord → s.has (Pg.CH c) = true →
    ∃ t, exec (.dropcntClear (some c) v) s = .next t ∧ t.rd (F.CH_HOSTDROP c) = 0 ∧ t.rd (F.CH_ENGDROP c) = 0 ∧ t.mem = s.mem) ∧
  (∀ (v : Word) (s : State), s.phase = .up → s.rung < 3 → s.hif.buf = [] → s.subsSeen = s.subWord →
    ∃ t, exec (.dropcntClear none v) s = .next t ∧ t.rd F.CMP_HOSTDROP = 0 ∧ t.rd F.CMP_ENGDROP = 0 ∧ t.mem = s.mem) ∧
  (∀ (q : Fin 91) (v : Word) (s : State), s.phase = .up → s.rung < 3 → s.hif.buf = [] → s.subsSeen = s.subWord → RegMap.unitOf q ≠ 0 → s.has (0x1000 * q) = true →
    s.rd F.FLT_FEN = 0 →
    ∃ t, exec (.faultForce q v) s = .next t ∧ (s.rd F.HIF_WEVALID = 0 → t.rd F.HIF_WECODE = 4) ∧ RestKept [0x504C] s t) ∧
  (∀ (q : Fin 91) (v : Word) (s : State), RegMap.unitOf q = 0 →
    exec (.pageLock q v) s = .next s ∧ exec (.pageSoftReset q v) s = .next s ∧ exec (.faultForce q v) s = .next s) ∧
  (∀ (q : Fin 91) (v : Word) (s : State), s.phase = .up → s.rung < 3 → s.hif.buf = [] → s.subsSeen = s.subWord → RegMap.unitOf q ≠ 0 → s.has (0x1000 * q) = true →
    s.rd F.FLT_FEN = 1 → (∀ b, b < 32 → v.getLsbD b = true → RegMap.fltOfForce q b = none) → exec (.faultForce q v) s = .next s.settle) ∧
  (∀ (q : Fin 91) (v : Word) (s : State), s.phase = .up → s.rung < 3 → s.hif.buf = [] → RegMap.unitOf q ≠ 0 → s.has (0x1000 * q) = false →
    exec (.pageSoftReset q v) s = .next (noteWrite (0x1000 * q + 8) (s.sat F.HIF_ABSENTCNT, .absent)).settle ∧
    exec (.pageLock q v) s = .next (noteWrite (0x1000 * q + 8) (s.sat F.HIF_ABSENTCNT, .absent)).settle ∧
    exec (.faultForce q v) s = .next (noteWrite (0x1000 * q + 0x1C) (s.sat F.HIF_ABSENTCNT, .absent)).settle) ∧
  (∀ (c : Fin 8) (v : Word) (s : State), s.phase = .up → s.rung < 3 → s.hif.buf = [] → s.has (Pg.CH c) = false →
    exec (.dropcntClear (some c) v) s = .next (noteWrite (Pg.CH c + 0x40) (s.sat F.HIF_ABSENTCNT, .absent)).settle) ∧
  (∀ (s : State) (i q : Nat), isumPages0[i]? = some q → ((s.regWord 0x180).getLsbD i = true ↔
    s.has (0x1000 * q) = true ∧ s.reg (0x1000 * q + 0x14) &&& s.reg (0x1000 * q + 0x18) ≠ 0#32)) ∧
  (∀ (s : State) (i q : Nat), isumPages1[i]? = some q → ((s.regWord 0x184).getLsbD i = true ↔
    s.has (0x1000 * q) = true ∧ s.reg (0x1000 * q + 0x14) &&& s.reg (0x1000 * q + 0x18) ≠ 0#32)) ∧
  (∀ s : State, s.hirq = true ↔ s.phase = .up ∧ s.rung < 3 ∧
    (s.regWord 0x180 &&& s.reg 0x188 ≠ 0#32 ∨ s.regWord 0x184 &&& s.reg 0x18C ≠ 0#32)) ∧
  (∀ s : State, s.statusFlags / 8 % 2 = (if s.hirq = true then 1 else 0) ∧
    (s.boot.dark = false → s.boot.jtag ≠ 3 → s.tmode = false → s.phase ≠ .down → (s.ball .hirqN = .low ↔ s.hirq = true))) ∧
  (∀ (k : Fin 2) (v : Word) (s : State), s.phase = .up → s.rung < 3 → s.hif.buf = [] → s.subsSeen = s.subWord →
    ∃ t, exec (.registerWrite 0 (if k = 0 then 0x62 else 0x63) v) s = .next t ∧
      t.reg (0x188 + 4 * k) = (if k = 0 then v else v &&& 0x7FFFFFFF#32) ∧ RestKept [0x188 + 4 * (k : Nat)] s t)

/-- A raise opens the record of its source at its class, grace expiry raises the class by one, an acknowledgement closes it (R398, R399, R402, R405, R407, R410, 20_fault_handling). -/
def Obligations.FaultsOpenEscalateAndClose : Prop :=
  (∀ (s : State) (c : Nat), s.rd F.CLK_REFOK = 1 → s.rung < 4 → s.rd (F.FLT_CLASS 2) = c → 1 ≤ c → c ≤ 2 → s.flt = [] → s.rd (F.FLT_OPEN 2) = 0 →
    ∃ t, exec .clkRefloss s = .next t ∧ t.rd (F.FLT_OPEN 2) = 1 ∧ t.rd (F.FLT_CUR 2) = c ∧ t.rd (F.FLT_FORCED 2) = 0 ∧
      t.rd (F.FLT_RESTORED 2) = 0 ∧ t.rd F.FLT_RAISECNT = (s.rd F.FLT_RAISECNT + 1) % 2 ^ 32 ∧ t.rd F.FLT_LASTV = 1 ∧ t.rd F.FLT_LASTSRC = 2 ∧
      t.rd F.FLT_LASTCLS = c ∧ (t.fltRec 2).isOpen = true ∧ t.fltCount = 1 ∧ t.mem = s.mem) ∧
  (∀ s : State, s.rd F.CLK_REFOK = 1 → s.rung < 4 → s.rd (F.FLT_CLASS 2) = 7 → exec .clkRefloss s = .next ((s.wr F.CLK_REFOK 0).wr F.CLK_HOLD 1)) ∧
  (∀ (n : Fin 256) (d : Nat) (s : State), s.rd (F.FLT_OPEN n) = 1 → (s.fltRec n).timer = some d → d ≤ s.tick → s.rung < 3 →
    (∀ e ∈ s.flt, e.1 < n → s.graceOver e.1 = false) → 1 ≤ s.rd (F.FLT_CUR n) → s.rd (F.FLT_CUR n) ≤ 3 →
    ∃ t, exec (.graceExpiry n) s = .next t ∧ t.rd (F.FLT_CUR n) = s.rd (F.FLT_CUR n) + 1 ∧ t.rd (F.FLT_OPEN n) = 1 ∧
      t.rd F.FLT_ESCCNT = min (s.rd F.FLT_ESCCNT + 1) 65535 ∧ t.mem = s.mem) ∧
  (∀ (n : Fin 256) (s : State), (∀ e ∈ s.flt, e.1 < n → s.graceOver e.1 = false) →
    s.rd (F.FLT_OPEN n) = 0 ∨ s.graceOver n = false ∨ s.rd (F.FLT_CUR n) = 0 ∨ 3 < s.rd (F.FLT_CUR n) →
    exec (.graceExpiry n) s = .next s) ∧
  (∀ (n : Nat) (s : State), s.graceOver n = true ↔ s.rung < 3 ∧ ∃ d, (s.fltRec n).timer = some d ∧ d ≤ s.tick) ∧
  (∀ (v : Word) (s u : State), s.turn 0x6048 (F.FLT_ACKGO.put v 1) = some u → v.getLsbD 30 = false →
    ∃ t, exec (.faultAck v) s = .next t ∧ t.rd (F.FLT_OPEN (v.toNat % 256)) = 0 ∧ t.mem = u.mem ∧
      (u.rd (F.FLT_OPEN (v.toNat % 256)) = 1 → t.rd (F.FLT_CUR (v.toNat % 256)) = 0 ∧ (t.fltRec (v.toNat % 256)).isOpen = false)) ∧
  (∀ (v : Word) (s u : State), s.turn 0x6048 (F.FLT_ACKALL.put v 1) = some u →
    ∃ t, exec (.faultAckAll v) s = .next t ∧ t.mem = u.mem ∧ ∀ e ∈ u.flt, e.1 < 256 → t.rd (F.FLT_OPEN e.1) = 0) ∧
  (∀ s : State, s.phase = .up → s.rung = 0 → s.hif.buf = [] → s.subsSeen = s.subWord → s.rd F.FLT_FEN = 1 → s.flt = [] →
    s.rd (F.FLT_OPEN 4) = 0 → s.rd (F.FLT_CLASS 4) = 1 →
    ∃ t, exec (.faultForce 2 1) s = .next t ∧ t.rd (F.FLT_OPEN 4) = 1 ∧ t.rd (F.FLT_FORCED 4) = 1 ∧ t.rd (F.FLT_CUR 4) = 1 ∧ t.mem = s.mem)

/-- A user record takes the next SEQ and a place in the queue or is dropped; a written record stands at its place in the ring (R411, R414, R416, R428, 20_fault_handling). -/
def Obligations.JournalQueueAndRing : Prop :=
  (∀ (v : Word) (s u : State), s.turn 0x704C (F.JRNL_USERGO.put v 1) = some u → u.jrnl.queue.length < 28 →
    ∃ t, exec (.journalUserAppend v) s = .next t ∧ t.jrnl.queue = u.jrnl.queue ++ [⟨u.rd F.JRNL_NEXTSEQ, u.now64, 7, F.JRNL_USERCODE.of v, 0, 0, 0, 0, 0,
        u.rd F.JRNL_USERDHI * 2 ^ 32 + u.rd F.JRNL_USERDLO⟩] ∧ t.rd F.JRNL_NEXTSEQ = (u.rd F.JRNL_NEXTSEQ + 1) % 2 ^ 32 ∧
      t.rd F.JRNL_QDEPTH = u.jrnl.queue.length + 1 ∧ t.rd F.JRNL_DROPCNT = u.rd F.JRNL_DROPCNT ∧ t.rd F.JRNL_USERCODE = F.JRNL_USERCODE.of v ∧
      OnlyRegs [0x7040, 0x7044, 0x704C] { u with jrnl := t.jrnl } t) ∧
  (∀ (v : Word) (s u : State), s.turn 0x704C (F.JRNL_USERGO.put v 1) = some u → 28 ≤ u.jrnl.queue.length →
    ∃ t, exec (.journalUserAppend v) s = .next t ∧ t.jrnl = u.jrnl ∧ t.rd F.JRNL_DROPCNT = min (u.rd F.JRNL_DROPCNT + 1) 65535 ∧
      t.rd F.JRNL_NEXTSEQ = u.rd F.JRNL_NEXTSEQ ∧ OnlyRegs [0x7010, 0x7018, 0x7044, 0x704C] u t) ∧
  (∀ (g : Bool) (s : State) (r : JRec) (q : List JRec), s.ecc.weak = [] → s.jrnl.queue = r :: q → q.length < 64 →
    ∃ t, exec (.journalRecordWritten g) s = .next t ∧
      (∀ i, i < 32 → t.byte (0x800000 + 32 * (r.seq % 4096) + i) = r.bytes.getD i 0) ∧
      (∀ a, ¬(0x800000 + 32 * (r.seq % 4096) ≤ a ∧ a < 0x800000 + 32 * (r.seq % 4096) + 32) → t.byte a = s.byte a) ∧
      (g = true → t.jrnl.queue = q ∧ t.rd F.JRNL_QDEPTH = q.length)) ∧
  (∀ (g : Bool) (s : State), s.jrnl.queue = [] → exec (.journalRecordWritten g) s = .next s) ∧
  (∀ r : JRec, r.bytes.length = 32 ∧ leVal (r.bytes.drop 28) = crc32 (r.bytes.take 28))

/-- Every single wrong data bit of a 64-bit word is corrected on reading and every pair of them is detected (R417, R419, R420, 21_memory_integrity). -/
def Obligations.SingleErrorsCorrectDoubleErrorsDetected : Prop :=
  (∀ (s : State) (a d i : Nat), d < 2 ^ 64 → i < 64 → s.isInvalid (a / 8 * 8) = false → s.raw64 (a / 8 * 8) = d ^^^ 2 ^ i →
    s.synd (a / 8 * 8) = BitVec.ofNat 8 (eccCheck d ^^^ eccCheck (d ^^^ 2 ^ i)) →
    (s.read64 a).2 = (d, false) ∧ (s.read64 a).1.raw64 (a / 8 * 8) = d ∧ (s.read64 a).1.synd (a / 8 * 8) = 0) ∧
  (∀ (s : State) (a d i j : Nat), d < 2 ^ 64 → i < 64 → j < 64 → i ≠ j → s.isInvalid (a / 8 * 8) = false →
    s.raw64 (a / 8 * 8) = d ^^^ 2 ^ i ^^^ 2 ^ j →
    s.synd (a / 8 * 8) = BitVec.ofNat 8 (eccCheck d ^^^ eccCheck (d ^^^ 2 ^ i ^^^ 2 ^ j)) → (s.read64 a).2.2 = true) ∧
  (∀ (s : State) (a d k : Nat), d < 2 ^ 64 → k < 8 → s.isInvalid (a / 8 * 8) = false → s.raw64 (a / 8 * 8) = d →
    s.synd (a / 8 * 8) = BitVec.ofNat 8 (2 ^ k) → (s.read64 a).2 = (d, false)) ∧
  (∀ (s : State) (a : Nat), s.isInvalid (a / 8 * 8) = false → s.synd (a / 8 * 8) = 0 → s.read64 a = (s, s.raw64 (a / 8 * 8), false))

/-- A test write stores the staged word with the staged check bits when TESTEN allows it; the scrubber reads word by word (R426, R427, R424, 21_memory_integrity). -/
def Obligations.TestWritesAndScrubbing : Prop :=
  (∀ (v : Word) (s u : State), s.turn 0x8040 (F.ECC_TGO.put v 1) = some u →
    (u.rd F.ECC_TESTEN = 0 → ∃ t, exec (.eccTestWrite v) s = .next t ∧ t.mem = u.mem ∧ (u.rd F.HIF_WEVALID = 0 → t.rd F.HIF_WECODE = 4)) ∧
    (u.rd F.ECC_TESTEN = 1 → 1 < u.modeNow → ∃ t, exec (.eccTestWrite v) s = .next t ∧ t.mem = u.mem ∧ (u.rd F.HIF_WEVALID = 0 → t.rd F.HIF_WECODE = 6)) ∧
    (u.rd F.ECC_TESTEN = 1 → u.modeNow ≤ 1 → 4 < u.rd F.ECC_TARR ∨ arraySize (u.rd F.ECC_TARR) ≤ u.rd F.ECC_TOFS →
      ∃ t, exec (.eccTestWrite v) s = .next t ∧ t.mem = u.mem ∧ (u.rd F.HIF_WEVALID = 0 → t.rd F.HIF_WECODE = 5)) ∧
    (u.rd F.ECC_TESTEN = 1 → u.modeNow ≤ 1 → u.rd F.ECC_TARR ≤ 4 → u.rd F.ECC_TOFS < arraySize (u.rd F.ECC_TARR) → u.rd F.ECC_TOFS % 8 = 0 →
      ∃ t, exec (.eccTestWrite v) s = .next t ∧
        t.raw64 (arrayBase (u.rd F.ECC_TARR) + u.rd F.ECC_TOFS) = u.rd F.ECC_TDATALO + 2 ^ 32 * u.rd F.ECC_TDATAHI ∧
        t.synd (arrayBase (u.rd F.ECC_TARR) + u.rd F.ECC_TOFS) =
          BitVec.ofNat 8 (u.rd F.ECC_TCHK ^^^ eccCheck (u.rd F.ECC_TDATALO + 2 ^ 32 * u.rd F.ECC_TDATAHI)) ∧
        t.isInvalid (arrayBase (u.rd F.ECC_TARR) + u.rd F.ECC_TOFS) = false ∧
        (∀ a, ¬(arrayBase (u.rd F.ECC_TARR) + u.rd F.ECC_TOFS ≤ a ∧ a < arrayBase (u.rd F.ECC_TARR) + u.rd F.ECC_TOFS + 8) → t.byte a = u.byte a) ∧
        (∀ a, a ≠ 0x8040 → a ≠ 0x504C → t.reg a = u.reg a))) ∧
  (∀ s : State, s.rd F.ECC_SCRUBRATE = 0 ∨ 1 < s.rung ∨ s.phase ≠ .up → exec .scrubRead s = .next s) ∧
  (∀ s : State, s.rd F.ECC_SCRUBRATE ≠ 0 → s.rung ≤ 1 → s.phase = .up →
    ∃ t, exec .scrubRead s = .next t ∧
      (if s.isInvalid (arrayBase s.ecc.arr + s.ecc.ofs) = true then t.mem = s.mem else t.mem = (s.read64 (arrayBase s.ecc.arr + s.ecc.ofs)).1.mem) ∧
      (if s.ecc.ofs + 8 < arraySize s.ecc.arr then t.ecc.arr = s.ecc.arr ∧ t.ecc.ofs = s.ecc.ofs + 8
       else t.ecc.ofs = 0 ∧ t.ecc.arr = (if s.ecc.arr < 5 then s.ecc.arr + 1 else 0) ∧
        (5 ≤ s.ecc.arr → t.rd F.ECC_PASSCNT = (s.rd F.ECC_PASSCNT + 1) % 2 ^ 32)) ∧
      (s.isInvalid (arrayBase s.ecc.arr + s.ecc.ofs) = true ∨ s.synd ((arrayBase s.ecc.arr + s.ecc.ofs) / 8 * 8) = 0 →
        s.ecc.ofs + 8 < arraySize s.ecc.arr → OnlyRegs [] { s with ecc := t.ecc } t)) ∧
  (∀ (s : State) (d i : Nat), s.rd F.ECC_SCRUBRATE ≠ 0 → s.rung ≤ 1 → s.phase = .up → d < 2 ^ 64 → i < 64 → (arrayBase s.ecc.arr + s.ecc.ofs) % 8 = 0 →
    s.isInvalid (arrayBase s.ecc.arr + s.ecc.ofs) = false → s.raw64 (arrayBase s.ecc.arr + s.ecc.ofs) = d ^^^ 2 ^ i →
    s.synd (arrayBase s.ecc.arr + s.ecc.ofs) = BitVec.ofNat 8 (eccCheck d ^^^ eccCheck (d ^^^ 2 ^ i)) →
    ∃ t, exec .scrubRead s = .next t ∧ t.raw64 (arrayBase s.ecc.arr + s.ecc.ofs) = d ∧ t.synd (arrayBase s.ecc.arr + s.ecc.ofs) = 0)

/-- Fusing an owner root and advancing a counter run alone in INERT or TEST, are refused with their RES, and end as staged (R430, R431, R433, R436, 22_security). -/
def Obligations.FuseOperations : Prop :=
  (∀ (v : Word) (s u : State), s.turn 0x90C0 (F.SEC_FUSEOP.put (F.SEC_FUSEGO.put v 1) 1) = some u →
    (u.locked Pg.SEC = true → exec (.fuseOwnerRoot v) s = .next (noteWrite 0x90C0 (u, .locked)).settle) ∧
    (u.locked Pg.SEC = false → F.SEC_FUSEKEY.of v ≠ 0x5A3C → exec (.fuseOwnerRoot v) s = .next (noteWrite 0x90C0 (u, .range)).settle) ∧
    (u.locked Pg.SEC = false → F.SEC_FUSEKEY.of v = 0x5A3C →
      ∃ t, exec (.fuseOwnerRoot v) s = .next t ∧ t.sec.fuse = u.sec.fuse ∧
        (if 1 < u.modeNow then t.rd F.SEC_FUSERES = 1 ∧ OnlyRegs [0x90C4] u t
         else if u.secBusy = true then t.rd F.SEC_FUSERES = 4 ∧ OnlyRegs [0x90C4] u t
         else if u.sec.fuse.v0 = true ∨ u.boot.sealSt = 2 ∨ (u.sec.fuse.slot0 ≠ 0 ∧ (u.sec.fuse.slot1 ≠ 0 ∨ u.sec.fuse.v1 = true)) then
           t.rd F.SEC_FUSERES = 2 ∧ OnlyRegs [0x90C4] u t
         else t.rd F.SEC_FUSERES = 0 ∧ t.rd F.SEC_FBUSY = 1 ∧
           t.sec.fop = some (1, (if u.sec.fuse.slot0 = 0 then 0 else 1), u.ownStg) ∧ OnlyRegs [0x9040, 0x90C4] { u with sec := t.sec } t))) ∧
  (∀ (v : Word) (s u : State), s.turn 0x90C0 (F.SEC_FUSEOP.put (F.SEC_FUSEGO.put v 1) 2) = some u → u.locked Pg.SEC = false →
    F.SEC_FUSEKEY.of v = 0x5A3C →
    ∃ t, exec (.fuseAdvanceCounter v) s = .next t ∧ t.sec.fuse = u.sec.fuse ∧
      (if 1 < u.modeNow then t.rd F.SEC_FUSERES = 1 ∧ OnlyRegs [0x90C4] u t
       else if u.secBusy = true then t.rd F.SEC_FUSERES = 4 ∧ OnlyRegs [0x90C4] u t
       else if u.rd (svnFld (F.SEC_FUSECTR.of v + 1)) = 0xFF then t.rd F.SEC_FUSERES = 3 ∧ OnlyRegs [0x90C4] u t
       else if u.rd (svnFld (F.SEC_FUSECTR.of v + 1)) ≤ u.arb (F.SEC_FUSECTR.of v) then t.rd F.SEC_FUSERES = 0 ∧ OnlyRegs [0x90C4] u t
       else t.rd F.SEC_FBUSY = 1 ∧ t.sec.fop = some (2, F.SEC_FUSECTR.of v, u.rd (svnFld (F.SEC_FUSECTR.of v + 1))) ∧
         OnlyRegs [0x9040, 0x90C4] { u with sec := t.sec } t)) ∧
  (∀ (s : State) (k h : Nat), s.sec.fop = some (1, k, h) →
    ∃ t, exec .fuseOperationDone s = .next t ∧ t.rd F.SEC_FBUSY = 0 ∧ t.sec.fop = none ∧
      (k = 0 → t.sec.fuse = { s.sec.fuse with slot0 := s.sec.fuse.slot0 ||| h, v0 := true }) ∧
      (k ≠ 0 → t.sec.fuse = { s.sec.fuse with slot1 := s.sec.fuse.slot1 ||| h, v1 := true }) ∧
      (s.boot.descWait = none → OnlyRegs [0x9010, 0x9018, 0x9040] { s with sec := t.sec } t) ∧
      (∀ r, s.boot.descWait = some r → t.boot.descend = some r ∧ t.boot.descWait = none ∧ t.rd F.SYS_RUNGMOVING = 1 ∧ t.mem = s.mem)) ∧
  (∀ (s : State) (k x : Nat), s.sec.fop = some (2, k, x) → k < 4 →
    ∃ t, exec .fuseOperationDone s = .next t ∧ t.rd F.SEC_FBUSY = 0 ∧ t.sec.fop = none ∧
      ∀ j, j < 4 → t.arb j = if j = k then x else s.arb j) ∧
  (∀ s : State, s.sec.fop = none → exec .fuseOperationDone s = .next s)

/-- A load or attestation begins when nothing else runs, is refused with its RES, and a malformed image changes nothing it loads (R436, R437, R440, R441, 22_security). -/
def Obligations.LoadsAndAttestation : Prop :=
  (∀ (v : Word) (s u : State), s.turn 0x9100 (F.SEC_LOADGO.put v 1) = some u → u.locked 0x9100 = false →
    ∃ t, exec (.imageLoad v) s = .next t ∧ t.sec.fuse = u.sec.fuse ∧
      (if 1 < u.modeNow then t.rd F.SEC_LDRES = 5 ∧ t.rd F.SEC_LBUSY = u.rd F.SEC_LBUSY ∧ t.sec = u.sec ∧ t.mem = u.mem
       else if u.secBusy = true then t.rd F.SEC_LDRES = 6 ∧ t.rd F.SEC_LBUSY = u.rd F.SEC_LBUSY ∧ t.sec = u.sec ∧ t.mem = u.mem
       else if 0xFC000 < F.SEC_LOFS.of v + u.rd F.SEC_LLEN ∨ F.SEC_LOFS.of v % 8 ≠ 0 then
         t.rd F.SEC_LDRES = 4 ∧ t.rd F.SEC_LBUSY = 0 ∧ t.sec = u.sec ∧ t.mem = u.mem
       else (∀ i, i < u.rd F.SEC_LLEN → u.synd ((0x300000 + F.SEC_LOFS.of v + i) / 8 * 8) = 0) →
         (let l := (u.readBytes (0x300000 + F.SEC_LOFS.of v) (u.rd F.SEC_LLEN)).2;
         t.mem = u.mem ∧ if imageType l = 3 ∧ (u.reg F.LENG_ACTLO.addr ≠ 0#32 ∨ u.reg F.LENG_ACTHI.addr ≠ 0#32) then
           t.rd F.SEC_LDRES = 6 ∧ t.rd F.SEC_LDTYPE = 3 ∧ t.rd F.SEC_LBUSY = 0 ∧ t.sec = u.sec
         else if imageType l = 4 ∨ (imageType l = 1 ∧ u.rd F.BOOT_CODE = 0) then
           t.rd F.SEC_LDRES = 7 ∧ t.rd F.SEC_LDTYPE = imageType l ∧ t.rd F.SEC_LBUSY = 0 ∧ t.sec = u.sec
         else if imageType l = 5 ∧ (u.boot.sealSt = 2 ∨ u.sec.fuse.v0 = false ∨ u.sec.fuse.slot1 ≠ 0 ∨ u.sec.fuse.v1 = true) then
           t.rd F.SEC_LDRES = 8 ∧ t.rd F.SEC_LDTYPE = 5 ∧ t.rd F.SEC_LBUSY = 0 ∧ t.sec = u.sec
         else t.rd F.SEC_LBUSY = 1 ∧ t.sec = { u.sec with load := l }))) ∧
  (∀ s : State, s.rd F.SEC_LBUSY = 1 → s.sec.load.bind gqParse = none →
    ∃ t, exec .imageLoadDone s = .next t ∧ t.rd F.SEC_LBUSY = 0 ∧ t.rd F.SEC_LDRES = 1 ∧ t.sec.fuse = s.sec.fuse ∧ t.reg 0x9050 = s.reg 0x9050 ∧
      (s.rd (F.FLT_CLASS 0x0A) = 1 → t.rd (F.FLT_OPEN 0x0A) = 1)) ∧
  (∀ (s : State) (l : List Byte) (g : Gq), s.rd F.SEC_LBUSY = 1 → s.sec.load = some l → gqParse l = some g →
    let c := s.imageCheck (some l)
    (c.1 = 0 ↔ g.varmask / 2 ^ s.variant.code % 2 = 1 ∧ (g.bind = 0 ∨ g.bind = devId) ∧ (g.root = 0 ↔ g.type = 1) ∧
      (g.root = 1 → s.ownerActive ≠ 0) ∧ hash32 g.pub = (if g.root = 0 then vendorBytes else s.ownerBytes) ∧
      Config.sigVerify g.pub g.sig g.digest = true ∧ (g.type ≠ 5 → s.arb (g.type - 1) ≤ g.svn) ∧ g.type ≠ 4 ∧
      (g.type = 5 → g.payload.length = 32) ∧ (g.type = 1 → g.payload.length ≤ 45056) ∧ (g.type = 3 → g.payload.length ≤ 65536)) ∧
    ∃ t, exec .imageLoadDone s = .next t ∧
      (g.type ≠ 2 → t.rd F.SEC_LBUSY = 0 ∧ t.rd F.SEC_LOADGO = 0 ∧ t.rd F.SEC_LDRES = c.1 ∧ t.rd F.SEC_LDTYPE = g.type) ∧
      (c.1 = 0 → g.type = 1 → t.boot.micro = g.payload ∧ t.sec.digMicro = g.digest ∧ t.rd F.SEC_SVNMICRO = g.svn) ∧
      (c.1 = 0 → g.type = 3 → (∀ i, i < g.payload.length → t.byte (0x100000 + i) = g.payload.getD i 0) ∧ t.sec.digDesc = g.digest ∧
        t.rd F.SEC_SVNDESC = g.svn) ∧
      (c.1 = 0 → g.type = 5 → t.sec.fuse = { s.sec.fuse with slot1 := s.sec.fuse.slot1 ||| leVal g.payload, v1 := true }) ∧
      (c.1 = 0 → g.type = 2 → ∃ x : State, x.rd F.SEC_LBUSY = 1 ∧ x.sec.digCfg = g.digest ∧ x.rd F.SEC_SVNCFG = g.svn ∧
        ((x.cfgApply g.payload (g.payload.length / 8)).boot.cause ≠ 0 → t = x.cfgApply g.payload (g.payload.length / 8)) ∧
        ((x.cfgApply g.payload (g.payload.length / 8)).boot.cause = 0 → t.rd F.SEC_LBUSY = 0 ∧ t.rd F.SEC_LOADGO = 0 ∧ t.rd F.SEC_LDRES = 0 ∧
          t.rd F.SEC_LDTYPE = 2 ∧ t.mem = (x.cfgApply g.payload (g.payload.length / 8)).mem)) ∧
      (c.1 ≠ 0 → t.sec = { s.sec with load := none } ∧ t.mem = s.mem ∧ (c.1 = 1 ∨ c.1 = 3 → s.rd (F.FLT_CLASS 0x0A) = 1 → t.rd (F.FLT_OPEN 0x0A) = 1) ∧
        (c.1 = 2 → s.rd (F.FLT_CLASS 0x0B) = 1 → t.rd (F.FLT_OPEN 0x0B) = 1))) ∧
  (∀ s : State, s.rd F.SEC_LBUSY = 0 → exec .imageLoadDone s = .next s) ∧
  (∀ (v : Word) (s u : State), s.turn 0x9140 (F.SEC_ATTGO.put v 1) = some u → u.rd F.SEC_ABUSY = 1 → exec (.attestationRequest v) s = .next u.settle) ∧
  (∀ (v : Word) (s u : State), s.turn 0x9140 (F.SEC_ATTGO.put v 1) = some u → u.rd F.SEC_ABUSY = 0 →
    ∃ t, exec (.attestationRequest v) s = .next t ∧
      (if u.rd F.SEC_IDOK = 0 then t.rd F.SEC_ATTRES = 1 ∧ OnlyRegs [0x9148] u t
       else if u.secBusy = true then t.rd F.SEC_ATTRES = 2 ∧ OnlyRegs [0x9148] u t
       else if 1 < u.rung then t.rd F.SEC_ATTRES = 3 ∧ OnlyRegs [0x9148] u t
       else t.rd F.SEC_ATTRES = 0 ∧ t.rd F.SEC_ABUSY = 1 ∧ t.sec = { u.sec with report := u.reportBytes } ∧
         OnlyRegs [0x9040, 0x9148] { u with sec := t.sec } t)) ∧
  (∀ s : State, s.rd F.SEC_ABUSY = 1 → s.sec.report.length = 256 →
    ∃ t, exec .attestationDone s = .next t ∧ t.rd F.SEC_ABUSY = 0 ∧ t.rd F.SEC_ATTSEQ = (s.rd F.SEC_ATTSEQ + 1) % 2 ^ 32 ∧
      (∀ i, i < 64 → t.reg (0x9200 + 4 * i) = BitVec.ofNat 32 (leVal ((s.sec.report.drop (4 * i)).take 4))) ∧ t.mem = s.mem)

/-- The plan runs when nothing blocks it, its measurement and margins are in ppm within the bounds, and the bounds are guarded (R442, R443, R446, R447, R448, R449, R451, 23_ageing). -/
def Obligations.AgeingPlanAndBounds : Prop :=
  (∀ (v : Word) (s u : State), s.turn 0xA040 (F.AGE_RUN.put (F.AGE_MEAS.put v 0) 1) = some u →
    exec (.planRunRequest v) s = .next (if u.modeNow = 5 ∨ u.rung ≠ 0 ∨ u.rd F.AGE_BUSY = 1 then u.wr F.AGE_PEND 1
      else { u with age := { u.age with req := true } }).settle) ∧
  (∀ (l : List (Nat × Nat)) (s : State), s.modeNow ≠ 5 → s.rung = 0 → s.rd F.AGE_BUSY = 0 → s.age.req = true ∨ s.rd F.AGE_PEND = 1 →
    (s.ecc.weak = [] → s.rd F.KEEP_CKBUSY = 0 →
      ∃ t, exec (.planRunStart l) s = .next t ∧ t.rd F.AGE_BUSY = 1 ∧ t.rd F.AGE_PEND = 0 ∧ t.age.req = false ∧ t.age.dTbin = [] ∧ t.age.dLeg = [] ∧
        t.age.dRun = 0 ∧ t.age.run = none ∧ t.age.bnd = ((List.range 10).map fun i => s.reg (0xA200 + 4 * i)) ∧
        t.rd F.AGE_LSEQ = (s.rd F.AGE_LSEQ + 1) % 2 ^ 32 ∧ t.age.led.runsec = (s.age.led.runsec + s.age.dRun) % 2 ^ 64) ∧
    (s.rd F.KEEP_CKBUSY = 1 →
      ∃ t, exec (.planRunStart l) s = .next t ∧ t.rd F.AGE_BUSY = 1 ∧ t.rd F.AGE_PEND = 0 ∧
        t.age = { s.age with req := false, run := some l, bnd := (List.range 10).map fun i => s.reg (0xA200 + 4 * i) } ∧
        OnlyRegs [0xA044] { s with age := t.age } t)) ∧
  (∀ (l : List (Nat × Nat)) (s : State), (s.age.req = false ∧ s.rd F.AGE_PEND = 0) ∨ s.modeNow = 5 ∨ s.rung ≠ 0 ∨ s.rd F.AGE_BUSY = 1 →
    exec (.planRunStart l) s = .next s) ∧
  (∀ (l : List (Nat × Nat)) (s : State), s.age.run = some l → s.keep.ckpt.isSome → s.ecc.weak = [] →
    ∃ t, exec (.checkpointComplete true) s = .next t ∧ t.age.run = none ∧ t.age.dTbin = [] ∧ t.age.dLeg = [] ∧ t.age.dRun = 0 ∧
      t.rd F.KEEP_CKBUSY = 0 ∧ t.rd F.AGE_LSEQ = (s.rd F.AGE_LSEQ + 1) % 2 ^ 32) ∧
  (∀ s : State, s.rd F.AGE_BUSY = 1 → s.age.run = none → s.bndN F.AGE_GTMAX ≤ 4 → s.bndN F.AGE_OFSMAX ≤ 64 →
    ∃ t, exec .planRunComplete s = .next t ∧ t.rd F.AGE_BUSY = 0 ∧ t.rd F.AGE_RUNCNT = min (s.rd F.AGE_RUNCNT + 1) 65535 ∧
      ∃ r : Nat, (∃ k, k < 8 ∧ r = s.rd (F.AGE_RODEG k)) ∧ (∀ k, k < 8 → s.rd (F.AGE_RODEG k) ≤ r) ∧
        t.rd F.AGE_GT = min (s.bndN F.AGE_GTMAX) (r / s.bndN F.AGE_GTPPM) ∧ t.rd F.AGE_DTAGE = min (s.bndN F.AGE_DTMAX) (r / s.bndN F.AGE_DTPPM) ∧
        t.rd F.AGE_OFSM = min (s.bndN F.AGE_OFSMAX) (r / s.bndN F.AGE_OFSPPM) ∧
        (∀ c, c < 8 → s.chEn c = false → t.f32 (F.CH_KAGE c) = s.f32 (F.CH_KAGE c))) ∧
  (∀ s : State, s.rd F.AGE_BUSY = 0 ∨ s.age.run.isSome → exec .planRunComplete s = .next s) ∧
  (∀ (v : Word) (l : List (Nat × Nat)) (s u : State), s.turn 0xA040 (F.AGE_MEAS.put v 1) = some u → F.AGE_RUN.of v = 0 → (∀ p ∈ l, p.1 ≤ p.2) →
    (u.rung < 2 → ∃ t, exec (.oscillatorMeasure v l) s = .next t ∧ (∀ k, k < 8 → t.rd (F.AGE_RODEG k) = 0) ∧
      OnlyRegs [0xA060, 0xA064, 0xA068, 0xA06C, 0xA070, 0xA074, 0xA078, 0xA07C] u t) ∧
    (2 ≤ u.rung → exec (.oscillatorMeasure v l) s = .next u.settle)) ∧
  (∀ (l : List Int) (s : State), s.rung = 0 → (∀ x ∈ l.take 4, x < 115000) →
    ∃ t, exec (.junctionSample l) s = .next t ∧ t.age.dRun = min (2 ^ 32 - 1) (s.age.dRun + 1) ∧ t.age.tjHi = false ∧
      OnlyRegs [] { s with age := t.age } t) ∧
  (∀ (l : List Int) (s : State), 2 ≤ s.rung → exec (.junctionSample l) s = .next s) ∧
  (∀ s : State, ∃ t, exec .legModelTick s = .next t ∧ (∀ n, n < 24 → (t.min' n).absSum = 0 ∧ (t.min' n).absCnt = 0) ∧ t.regs = s.regs ∧ t.mem = s.mem) ∧
  (∀ (w : Fin 16) (v : Word) (s u : State), s.turn (0xA200 + 4 * w) v = some u →
    (1 < u.modeNow → exec (.ownerBoundsWrite w v) s = .next (noteWrite (0xA200 + 4 * w)
      (u, if u.heldRwl (0xA200 + 4 * w) v = v then .busy else .locked)).settle) ∧
    (u.modeNow ≤ 1 → u.locked (0xA200 + 4 * w) = false → boundRange (0x200 + 4 * w) v = false →
      exec (.ownerBoundsWrite w v) s = .next (noteWrite (0xA200 + 4 * w) (u, .range)).settle) ∧
    (u.modeNow ≤ 1 → u.ecc.weak = [] → u.locked (0xA200 + 4 * w) = false → boundRange (0x200 + 4 * w) v = true →
      let m := if (w : Nat) = 1 then 0x00FFFFFF#32 else if (w : Nat) < 10 then 0xFFFFFFFF#32 else 0#32
      ∃ t, exec (.ownerBoundsWrite w v) s = .next t ∧ t.reg (0xA200 + 4 * w) = (u.reg (0xA200 + 4 * w) &&& ~~~m) ||| (v &&& m) ∧
        (∀ i, i < 64 → t.byte (0x825000 + i) = t.boundBytes.getD i 0) ∧
        (∀ i, i < 4 → t.byte (0x825040 + i) = BitVec.ofNat 8 (crc32 t.boundBytes / 2 ^ (8 * i))) ∧
        (∀ a, a < 0x825000 ∨ 0x825048 ≤ a → t.byte a = u.byte a) ∧ t.age = u.age))

/-- Clocks start, filters settle, the control filter delivers, and stuck streams and overcurrents are detected and cleared (R140, R143, R144, R146, R148, R151, R152, R153, 07_modulator_inputs). -/
def Obligations.ModulatorInputs : Prop :=
  (∀ (m : Fin 4) (s : State), s.mclkMay m = true → s.rd (F.MOD_RUN m) = 0 →
    ∃ t, exec (.mclkStart m) s = .next t ∧ t.rd (F.MOD_RUN m) = 1 ∧
      (∀ n, n / 6 = (m : Nat) → (t.min' n).setC = false ∧ (t.min' n).setO = false ∧ (t.min' n).setM = false) ∧ RestKept [0x40048 + 0x10 * m] s t) ∧
  (∀ (m : Fin 4) (s : State), s.mclkMay m = false ∨ s.rd (F.MOD_RUN m) = 1 → exec (.mclkStart m) s = .next s) ∧
  (∀ (n : Fin 24) (s : State), s.modRuns n = true →
    (3 * s.rd (F.MOD_OSRC (n / 6)) ≤ (s.min' n).taken → ∃ t, exec (.filterSettled n 0) s = .next t ∧ (t.min' n).setC = true ∧ RestKept [0x40048 + 0x10 * (n / 6)] s t ∧
      (t.rd (F.MOD_CSET (n / 6)) = 1 ↔ ∀ k, k / 6 = (n : Nat) / 6 → k = n ∨ s.rd (F.MOD_EN k) = 0 ∨ (s.min' k).setC = true)) ∧
    (2 * s.rd (F.MOD_OCOSR (n / 6)) ≤ (s.min' n).taken →
      ∃ t, exec (.filterSettled n 1) s = .next t ∧ (t.min' n).setO = true ∧ RestKept [0x40048 + 0x10 * (n / 6)] s t) ∧
    ((s.min' n).taken < 3 * s.rd (F.MOD_OSRC (n / 6)) → exec (.filterSettled n 0) s = .next s) ∧
    ((s.min' n).taken < 2 * s.rd (F.MOD_OCOSR (n / 6)) → exec (.filterSettled n 1) s = .next s)) ∧
  (∀ (n : Fin 24) (s : State), s.modRuns n = true → s.rd (F.MOD_METEN n) = 1 →
    53 * (if s.rd (F.MOD_DIV (n / 6)) = 25 then 250 else 125) ≤ s.samplePts n (s.min' n).startM →
    ∃ t, exec (.filterSettled n 2) s = .next t ∧ (t.min' n).setM = true ∧ RestKept [0x40048 + 0x10 * (n / 6)] s t) ∧
  (∀ (n : Fin 24) (k : Fin 3) (s : State), s.modRuns n = false ∨ (k = 2 ∧ s.rd (F.MOD_METEN n) = 0) → exec (.filterSettled n k) s = .next s) ∧
  (∀ (m : Fin 4) (l : List (List Bool)) (s : State), s.rd (F.MOD_RUN m) = 0 → exec (.controlDecimation m l) s = .next s) ∧
  (∀ (m : Fin 4) (l : List (List Bool)) (s u : State), u = (blkIns m).foldl (fun s n => s.modSamples n (l.getD (n % 6) [])) s →
    (u.decimDue m = false → exec (.controlDecimation m l) s = .next u) ∧
    (u.rd (F.MOD_RUN m) = 1 → u.decimDue m = true → (∃ n : Nat, n < 24 ∧ n / 6 = (m : Nat) ∧ u.modRuns n = true ∧ (u.min' n).setC = true) →
      ((u.blk m).decims ≠ 0 → u.decimSkip m ((u.tick - (u.blk m).tk) / max 1 (u.rd (F.MOD_DIV m))) = true →
        ∃ t, exec (.controlDecimation m l) s = .next t ∧ t.rd (F.MOD_CNT m) = min (u.rd (F.MOD_CNT m) + 1) (2 ^ 32 - 1) ∧
          (t.blk m).lastAt = some u.tick ∧ OnlyRegs [0x4004C + 0x10 * m, 0x40010, 0x40018] { u with blks := t.blks } t) ∧
      ((u.blk m).decims = 0 ∨ u.decimSkip m ((u.tick - (u.blk m).tk) / max 1 (u.rd (F.MOD_DIV m))) = false →
        ∃ t, exec (.controlDecimation m l) s = .next t ∧ (t.blk m).tk = u.tick ∧ (t.blk m).lastAt = some u.tick ∧
          ∀ n, n < 24 → n / 6 = (m : Nat) → u.rd (F.MOD_EN n) = 1 → (u.min' n).setC = true →
            t.rd (F.MOD_CRAW n) = sincRaw 3 (u.rd (F.MOD_OSRC m)) (u.min' n).bits % 2 ^ (F.MOD_CRAW n).width ∧
            t.f32 (F.MOD_COUT n) = u.modScale n (sincRaw 3 (u.rd (F.MOD_OSRC m)) (u.min' n).bits)))) ∧
  (∀ (n : Fin 24) (b : Bool) (s : State), s.modRuns n = true → (s.min' n).taken < s.samplePts n (s.min' n).start → s.ocTests n = false → (s.min' n).run = 255 → (s.min' n).lvl = b →
    ∃ t, exec (.stuckStreamDetect ⟨n, [b]⟩) s = .next t ∧ t.rdBit F.MOD_ST n = true ∧ (t.min' n).run = 256 ∧ (t.min' n).told = true ∧ t.mem = s.mem) ∧
  (∀ (n : Fin 24) (b : Bool) (s : State), s.modRuns n = true → (s.min' n).taken < s.samplePts n (s.min' n).start → s.ocTests n = false → (s.min' n).run < 255 ∨ (s.min' n).lvl ≠ b ∨
      ((s.min' n).run = 256 ∧ (s.min' n).told = true) →
    ∃ t, exec (.stuckStreamDetect ⟨n, [b]⟩) s = .next t ∧ (t.min' n).lvl = b ∧ OnlyRegs [] { s with mods := t.mods } t) ∧
  (∀ (n : Fin 24) (l : List Bool) (s : State), s.modRuns n = false ∨ s.samplePts n (s.min' n).start ≤ (s.min' n).taken →
    exec (.stuckStreamDetect ⟨n, l⟩) s = .next s ∧ exec (.overcurrentQualify n l) s = .next s) ∧
  (∀ (n : Fin 24) (b : Bool) (s : State), s.modRuns n = true → (s.min' n).taken < s.samplePts n (s.min' n).start → s.ocTests n = true → (s.min' n).ocTold = false → (s.min' n).ocRun < 16 →
    s.rd (F.MOD_OCCNT n) ≤ (s.min' n).ocRun + 1 →
    s.rd (F.MOD_OCHI n) < sincRaw 2 (s.rd (F.MOD_OCOSR (n / 6))) ((b :: (s.min' n).bits).take 766) ∨
      sincRaw 2 (s.rd (F.MOD_OCOSR (n / 6))) ((b :: (s.min' n).bits).take 766) < s.rd (F.MOD_OCLO n) →
    ∃ t, exec (.overcurrentQualify n [b]) s = .next t ∧ t.rdBit F.MOD_OC n = true ∧ t.mem = s.mem ∧
      ∀ k, k < 24 → s.rdBit (F.MOD_OCGRP n) k = true → (t.leg k).demMod.getLsbD n = true) ∧
  (∀ (n : Fin 24) (b : Bool) (s : State), s.modRuns n = true → (s.min' n).taken < s.samplePts n (s.min' n).start → (s.min' n).run < 255 ∨ (s.min' n).lvl ≠ b →
    s.ocTests n = false ∨ (s.rd (F.MOD_OCLO n) ≤ sincRaw 2 (s.rd (F.MOD_OCOSR (n / 6))) ((b :: (s.min' n).bits).take 766) ∧
      sincRaw 2 (s.rd (F.MOD_OCOSR (n / 6))) ((b :: (s.min' n).bits).take 766) ≤ s.rd (F.MOD_OCHI n)) →
    ∃ t, exec (.overcurrentQualify n [b]) s = .next t ∧ (t.min' n).ocRun = 0 ∧ OnlyRegs [] { s with mods := t.mods } t) ∧
  (∀ (i : BitVec 24) (r : BitVec 8) (s u : State), s.turn 0x40080 (r ++ i) = some u →
    ∃ t, exec (.ocstatClear i r) s = .next t ∧ t.mem = u.mem ∧
      ∀ n, n < 24 → t.rdBit F.MOD_OC n = (u.rdBit F.MOD_OC n && (!(u.clears 0x40080 (r ++ i)).getLsbD n || (u.ocTests n && u.ocOutside n))) ∧
        (u.rdBit F.MOD_OC n = true → t.rdBit F.MOD_OC n = false → ∀ k, k < 24 → (t.leg k).demMod.getLsbD n = false))

/-- A sequence starts, its conversions accumulate entry by entry, calibration stores what it found, and a snapshot copies the accumulators (R154, R157, R158, R159, R160, R161, 08_precision_converters_and_comparators). -/
def Obligations.PrecisionConverters : Prop :=
  (∀ s : State, exec .vrefReady s = .next (if s.enabled Pg.PADC = true ∨ s.enabled Pg.CMP = true then s.wr F.PADC_VRDY 1 else s)) ∧
  (∀ (c : Fin 2) (v : Word) (s u : State), s.turn (0x41100 + 0x400 * c) ((F.PADC_START c).put v 1) = some u → (F.PADC_RATE c).of v ≤ 8 →
    (F.PADC_EN c).of v = 1 → (F.PADC_CALGO c).of v = 0 → u.enabled Pg.PADC = true → u.padcRung = true → (u.conv c).startAt ≠ some u.tick → u.rd (F.PADC_CALBUSY c) = 0 →
    (u.rd (F.PADC_RUN c) = 0 → ∃ t, exec (.padcStart c v) s = .next t ∧ t.rd (F.PADC_RUN c) = 1 ∧ t.rd (F.PADC_CUR c) = 0 ∧ (t.conv c).rep = 0 ∧
      t.rd (F.PADC_LAST c) = (F.PADC_LAST c).of v ∧ RestKept [0x41100 + 0x400 * c, 0x41104 + 0x400 * c] u t) ∧
    (u.rd (F.PADC_RUN c) = 1 → (F.PADC_RATE c).of v = u.rd (F.PADC_RATE c) → (F.PADC_LAST c).of v = u.rd (F.PADC_LAST c) →
      (F.PADC_CONT c).of v = u.rd (F.PADC_CONT c) → ∃ t, exec (.padcStart c v) s = .next t ∧
        t.rd (F.PADC_OVRCNT c) = min (u.rd (F.PADC_OVRCNT c) + 1) 65535 ∧ t.rd (F.PADC_RUN c) = 1 ∧ t.rd (F.PADC_CUR c) = u.rd (F.PADC_CUR c))) ∧
  (∀ (c : Fin 2) (v : Word) (s u : State), s.turn (0x41100 + 0x400 * c) ((F.PADC_START c).put v 1) = some u → 8 < (F.PADC_RATE c).of v →
    exec (.padcStart c v) s = .next (noteWrite (0x41100 + 0x400 * c) (u, .range)).settle) ∧
  (∀ (b : Bool) (c : Fin 2) (s : State), s.enabled Pg.PADC = true → s.padcRung = true → (s.conv c).startAt ≠ some s.tick → s.rd (F.PADC_EN c) = 1 → s.rd (F.PADC_TRIG c) % 2 = 1 →
    s.bit (F.PADC_ASPOL c) = b → s.rd (F.PADC_RUN c) = 0 → s.rd (F.PADC_CALBUSY c) = 0 →
    ∃ t, exec (.astartEdge b) s = .next t ∧ t.rd (F.PADC_RUN c) = 1 ∧ t.rd (F.PADC_CUR c) = 0 ∧ t.mem = s.mem) ∧
  (∀ (c : Fin 2) (r : BitVec 24) (e : Nat) (s : State), s.rd (F.PADC_RUN c) = 1 → s.padcRung = true → (s.conv c).snapAt ≠ some s.tick → s.rd (F.PADC_CUR c) = e →
    s.rd (F.PADC_CALOFS c (s.padcGain c e)) = 0 → s.rd (F.PADC_CALGAIN c (s.padcGain c e)) = 2 ^ 22 → (s.padcAcc c e).cnt < 0xFFFFFFFF →
    ∃ t, exec (.padcConversionDone c r) s = .next t ∧ t.mem = s.mem ∧
      t.padcAcc c e = { sum := (s.padcAcc c e).sum + r.toInt, cnt := (s.padcAcc c e).cnt + 1,
                        min := min (s.padcAcc c e).min r.toInt, max := max (s.padcAcc c e).max r.toInt } ∧
      (if (s.conv c).rep < s.rd (F.PADC_REPS c e) then t.rd (F.PADC_CUR c) = e ∧ t.rd (F.PADC_RUN c) = 1 ∧ (t.conv c).rep = (s.conv c).rep + 1
       else if e < s.rd (F.PADC_LAST c) then t.rd (F.PADC_CUR c) = e + 1 ∧ t.rd (F.PADC_RUN c) = 1 ∧ (t.conv c).rep = 0
       else if s.rd (F.PADC_CONT c) = 1 then t.rd (F.PADC_CUR c) = 0 ∧ t.rd (F.PADC_RUN c) = 1 ∧ (t.conv c).rep = 0
       else t.rd (F.PADC_RUN c) = 0)) ∧
  (∀ (c : Fin 2) (v : Word) (s u : State), s.turn (0x41100 + 0x400 * c) ((F.PADC_CALGO c).put v 1) = some u → (F.PADC_RATE c).of v ≤ 8 →
    (F.PADC_EN c).of v = 1 → (F.PADC_START c).of v = 0 → u.enabled Pg.PADC = true → u.padcRung = true → u.rd (F.PADC_RUN c) = 0 →
    ∃ t, exec (.padcCalibrate c v) s = .next t ∧ t.rd (F.PADC_CALBUSY c) = 1 ∧ t.rd (F.PADC_RUN c) = 0 ∧
      RestKept [0x41100 + 0x400 * c, 0x41104 + 0x400 * c] u t) ∧
  (∀ (c : Fin 2) (l : List (Nat × Nat)) (s : State), s.rd (F.PADC_CALBUSY c) = 1 → s.padcRung = true →
    ∃ t, exec (.padcCalibrationDone c l) s = .next t ∧ t.rd (F.PADC_CALBUSY c) = 0 ∧ t.mem = s.mem ∧
      ∀ g, g < 8 → t.rd (F.PADC_CALOFS c g) = (l.getD g (0, 0)).1 % 2 ^ 24 ∧ t.rd (F.PADC_CALGAIN c g) = (l.getD g (0, 0)).2 % 2 ^ 24) ∧
  (∀ (c : Fin 2) (l : List (Nat × Nat)) (s : State), s.rd (F.PADC_CALBUSY c) = 0 ∨ s.padcRung = false → exec (.padcCalibrationDone c l) s = .next s) ∧
  (∀ (c : Fin 2) (r : BitVec 24) (s : State), s.rd (F.PADC_RUN c) = 0 ∨ s.padcRung = false → exec (.padcConversionDone c r) s = .next s) ∧
  (∀ (v : Word) (s u : State), s.turn 0x41050 (F.PADC_SNAPGO.put v 1) = some u →
    ∃ t, exec (.padcSnapshot v) s = .next t ∧ t.rd F.PADC_SNAPSEQ = (u.rd F.PADC_SNAPSEQ + 1) % 2 ^ 32 ∧ t.rd64 F.PADC_SNAPTLO = u.now64 % 2 ^ 64 ∧
      (∀ c e, c < 2 → e < 16 → t.rd (F.PADC_SUMLO c e) + 2 ^ 32 * t.rd (F.PADC_SUMHI c e) = unsgn 64 (u.padcAcc c e).sum ∧
        t.rd (F.PADC_CNT c e) = (u.padcAcc c e).cnt % 2 ^ 32 ∧ t.snapOf c e = u.padcAcc c e ∧ (t.conv c).snapAt = some u.tick ∧
        t.padcAcc c e = if F.PADC_SNAPCLR.of v = 1 then {} else u.padcAcc c e)) ∧
  (∀ (s : State) (x y : Nat), (s.conv 0).snapAt = some s.tick → s.rd F.PADC_XEN = 1 →
    (List.range 16).find? (fun e => s.bit (F.PADC_SHARED 0 e)) = some x → (List.range 16).find? (fun e => s.bit (F.PADC_SHARED 1 e)) = some y →
    s.padcTickEnd.mem = s.mem ∧
    ((s.snapOf 0 x).cnt ≠ 0 → (s.snapOf 1 y).cnt ≠ 0 → s.padcTickEnd.rd F.PADC_XDIFF =
      unsgn 32 (Int.tdiv (s.snapOf 0 x).sum ((s.snapOf 0 x).cnt : Int) - Int.tdiv (s.snapOf 1 y).sum ((s.snapOf 1 y).cnt : Int))) ∧
    ((s.snapOf 0 x).cnt = 0 ∨ (s.snapOf 1 y).cnt = 0 → s.padcTickEnd.rd F.PADC_XSKIP = min (s.rd F.PADC_XSKIP + 1) (2 ^ 32 - 1))) ∧
  (∀ s : State, (s.conv 0).snapAt ≠ some s.tick ∨ s.rd F.PADC_XEN = 0 → s.padcTickEnd = s)

/-- A comparator's output compares pin and threshold, trips or cuts once, its latch clears only when it may, and self-tests give verdicts (R163, R166, R167, R170, R171, R172, R464, 08_precision_converters_and_comparators). -/
def Obligations.Comparators : Prop :=
  (∀ (n : Fin 16) (p r : Nat) (s : State),
    (∃ t, exec (.comparatorOutputChange n p r) s = .next t ∧ t.mem = s.mem ∧
      (∀ k, k < 16 → t.rdBit F.CMP_OUT k = if k = n then s.cmpSense n p r else s.rdBit F.CMP_OUT k)) ∧
    (s.cmpOn n = false → s.cmpSense n p r = false) ∧
    (s.cmpOn n = true → s.rd (F.CMP_WIN n) = 0 → s.rd (F.CMP_HYST n) = 0 → s.rd (F.CMP_POL n) = 0 → s.rd F.PADC_EXT = 0 →
      (s.cmpSense n p r = true ↔ s.cmpEff n * 1250000000 ≤ p * 4096))) ∧
  (∀ (n : Fin 16) (p r : Nat) (s : State), s.cmpSense n p r = true → s.rd (F.CMP_ACT n) = 1 → s.cmpBlank n = false → s.cmpSusp n = false →
    ((s.cmp n).acted = false → ∃ t, exec (.comparatorTrip n p r) s = .next t ∧ t.rdBit F.CMP_TRIPSTAT n = true ∧ (t.cmp n).acted = true ∧
      t.rd (F.CMP_EVTCNT n) = min (s.rd (F.CMP_EVTCNT n) + 1) (2 ^ 32 - 1) ∧ t.mem = s.mem ∧
      ∀ k, k < 24 → s.rdBit (F.CMP_LEGGRP n) k = true → (t.leg k).demCmp.getLsbD n = true) ∧
    ((s.cmp n).acted = true → ∃ t, exec (.comparatorTrip n p r) s = .next t ∧ OnlyRegs [0x42048] { s with cmps := t.cmps } t ∧ t.rdBit F.CMP_OUT n = true)) ∧
  (∀ (n : Fin 16) (p r : Nat) (s : State), s.cmpSense n p r = false → exec (.comparatorTrip n p r) s = exec (.comparatorOutputChange n p r) s) ∧
  (∀ (n : Fin 16) (p r : Nat) (s : State), s.cmpSense n p r = true → s.rd (F.CMP_ACT n) = 2 → s.cmpBlank n = false → s.cmpSusp n = false →
    (s.cmp n).cutAt ≠ some s.tick →
    ∃ t, exec (.cycleByCycleCut n p r) s = .next t ∧ t.mem = s.mem ∧
      (∀ k, k < 24 → s.rdBit (F.CMP_LEGGRP n) k = true → s.legRuns k = true → (s.leg k).driving = true → (s.leg k).modCmd = .hi →
        (s.leg k).cut = false → s.noIdleDue k = true → (t.leg k).modCmd = .lo ∧ (t.leg k).cut = true ∧ t.rd (F.CMP_EVTCNT n) = min (s.rd (F.CMP_EVTCNT n) + 1) (2 ^ 32 - 1))) ∧
  (∀ (k : Fin 16) (s u : State), s.turn 0x4204C (BitVec.ofNat 32 (2 ^ (k : Nat))) = some u → u.rdBit F.CMP_TRIPSTAT k = true →
    (u.hwBits 0x4204C).getLsbD k = false →
    ∃ t, exec (.tripstatClear (BitVec.ofNat 32 (2 ^ (k : Nat)))) s = .next t ∧ t.mem = u.mem ∧
      (∀ j : Nat, j < 16 → j ≠ (k : Nat) → t.rdBit F.CMP_TRIPSTAT j = u.rdBit F.CMP_TRIPSTAT j) ∧
      (if u.rdBit F.CMP_OUT k = true ∧ u.rd (F.CMP_ACT k) = 1 ∧ u.cmpBlank k = false ∧ u.cmpSusp k = false then t.rdBit F.CMP_TRIPSTAT k = true
       else t.rdBit F.CMP_TRIPSTAT k = false ∧ ∀ n, n < 24 → (t.leg n).demCmp.getLsbD k = false)) ∧
  (∀ (v : Word) (n : Nat) (s u : State), s.turn 0x42058 (F.CMP_STGO.put v 1) = some u → F.CMP_STIDX.of v = n →
    ∃ t, exec (.comparatorSelfTest v) s = .next t ∧ t.rd F.CMP_STIDX = n ∧
      (if u.stBusy = true then OnlyRegs [0x42058] u t
       else if u.stRefused n = true then t.rd F.CMP_STREF = min (u.rd F.CMP_STREF + 1) 65535 ∧ OnlyRegs [0x42054, 0x42058] u t
       else if u.stRun.isSome = true then t.stWait = u.stWait ++ [(n, true)] ∧ t.stRun = u.stRun ∧ RestKept [0x42058] u t
       else t.stRun = some { host := true, cmp := n, type := u.rd (F.CMP_STTYPE n), pre := u.rdBit F.CMP_OUT n != u.bit (F.CMP_POL n),
                              stexp := u.bit (F.CMP_STEXP n) } ∧ RestKept [0x42058] u t)) ∧
  (∀ (l : List Bool) (x : SelfTest) (s : State), s.stRun = some x → x.cmp < 16 → s.stWait = [] →
    ∃ t, exec (.selfTestStepEnd l) s = .next t ∧ t.stRun = none ∧ t.rd F.CMP_STRUN = min (s.rd F.CMP_STRUN + 1) 65535 ∧ t.mem = s.mem ∧
      t.rdBit F.CMP_STFAIL x.cmp = (s.rdBit F.CMP_STFAIL x.cmp || !(if x.type = 0 then l.getD 0 false == x.pre
        else if x.type = 3 then l.getD 0 false && !(l.getD 1 true) else l.getD 0 false == x.stexp))) ∧
  (∀ (l : List Bool) (x : SelfTest) (w : Nat × Bool) (r : List (Nat × Bool)) (s : State), s.stRun = some x → x.cmp < 16 → s.stWait = w :: r →
    (l.getD 0 false == x.pre) = true → x.type = 0 →
    (s.stRefused w.1 = false → ∃ t, exec (.selfTestStepEnd l) s = .next t ∧ t.stWait = r ∧ t.mem = s.mem ∧ t.rd F.CMP_STREF = s.rd F.CMP_STREF ∧
      t.stRun = some { host := w.2, cmp := w.1, type := s.rd (F.CMP_STTYPE w.1), pre := s.rdBit F.CMP_OUT w.1 != s.bit (F.CMP_POL w.1),
                       stexp := s.bit (F.CMP_STEXP w.1) }) ∧
    (s.stRefused w.1 = true → r = [] → ∃ t, exec (.selfTestStepEnd l) s = .next t ∧ t.stWait = [] ∧ t.stRun = none ∧
      t.rd F.CMP_STREF = min (s.rd F.CMP_STREF + 1) 65535 ∧ t.mem = s.mem)) ∧
  (∀ (l : List Bool) (s : State), s.stRun = none → exec (.selfTestStepEnd l) s = .next s)

/-- A coincidence switches the cell off until it ends; a qualified trip input latches and demands its legs outside blanking (R236, R237, R239, R240, R241, R242, 11_leg_protection). -/
def Obligations.InterlockAndTripInputs : Prop :=
  (∀ (n : Fin 24) (s : State), s.has (Pg.LEG n) = true → s.rd (F.LEG_XON n) = 0 →
    ∃ t, exec (.shootThroughCoincidence n) s = .next t ∧ t.rd (F.LEG_XON n) = 1 ∧ t.rd (F.LEG_XCNT n) = min (s.rd (F.LEG_XCNT n) + 1) (2 ^ 32 - 1) ∧
      t.mem = s.mem ∧ (s.stoHolds = false → (t.leg n).en = false ∧ (t.leg n).cell = .off)) ∧
  (∀ (n : Fin 24) (s : State), s.has (Pg.LEG n) = false ∨ s.rd (F.LEG_XON n) = 1 → exec (.shootThroughCoincidence n) s = .next s) ∧
  (∀ (n : Fin 24) (s : State), s.rd (F.LEG_XON n) = 1 →
    ∃ t, exec (.coincidenceEnd n) s = .next t ∧ t.rd (F.LEG_XON n) = 0 ∧ t.mem = s.mem ∧
      (s.has (Pg.LEG n) = true → (s.leg n).forceEnd = none → s.stoHolds = false → s.overridden n = true → (t.leg n).cell = lvlOf (s.rd (F.LEGX_SAFEL n)))) ∧
  (∀ (n : Fin 24) (s : State), s.rd (F.LEG_XON n) = 0 → exec (.coincidenceEnd n) s = .next s) ∧
  (∀ (i : Fin 8) (b : Bool) (s : State), ∃ t, exec (.tripInputEdge i b) s = .next t ∧ (t.trip i).ball = b ∧
    t.rdBit F.TRIP_RAW i = (s.rd (F.TRIP_FUNC i) != 0 && b == s.bit (F.TRIP_POL i)) ∧
    t.rd (F.TRIP_BLANKCNT i) = (if t.tripLive i = true ∧ (s.trip i).blankOpen = true ∧ (s.trip i).activeSeen = false ∧ s.rd (F.TRIP_FUNC i) = 1
      then min (s.rd (F.TRIP_BLANKCNT i) + 1) 65535 else s.rd (F.TRIP_BLANKCNT i)) ∧
    RestKept [0x430C0, 0x43048 + 0x10 * i] s t) ∧
  (∀ (i : Fin 8) (s : State), s.tripLive i = true → (s.trip i).qualified = false →
    (s.rd (F.TRIP_FUNC i) = 1 → (s.trip i).blankOpen = false → ∃ t, exec (.tripQualify i) s = .next t ∧ t.rdBit F.TRIP_LAT i = true ∧
      t.rdBit F.TRIP_LVL i = true ∧ t.rd (F.TRIP_QUALCNT i) = min (s.rd (F.TRIP_QUALCNT i) + 1) 65535 ∧ t.mem = s.mem ∧
      ∀ k, k < 24 → s.rdBit (F.TRIP_GRP i) k = true → (t.leg k).demTrip.getLsbD i = true) ∧
    (s.rd (F.TRIP_FUNC i) = 2 → ∃ t, exec (.tripQualify i) s = .next t ∧ t.rdBit F.TRIP_LVL i = true ∧ t.rd F.TRIP_LAT = s.rd F.TRIP_LAT ∧
      (t.trip i).qualified = true ∧ RestKept [0x430C0] s t)) ∧
  (∀ (i : Fin 8) (s : State), s.tripLive i = false ∨ (s.trip i).qualified = true ∨ (s.rd (F.TRIP_FUNC i) = 1 ∧ (s.trip i).blankOpen = true) →
    exec (.tripQualify i) s = .next s) ∧
  (∀ (i : Fin 8) (s : State), ∃ t, exec (.blankWindowClose i) s = .next t ∧ (t.trip i).blankOpen = false ∧ (t.trip i).activeSeen = false ∧
    OnlyRegs [] { s with trips := t.trips } t) ∧
  (∀ (i : Fin 8) (s u : State), s.turn 0x430C0 (BitVec.ofNat 32 (2 ^ (i : Nat))) = some u → u.rdBit F.TRIP_LAT i = true →
    (u.hwBits 0x430C0).getLsbD i = false →
    ∃ t, exec (.tripLatchClear (BitVec.ofNat 32 (2 ^ (i : Nat)))) s = .next t ∧ t.mem = u.mem ∧
      (∀ j : Nat, j < 8 → j ≠ (i : Nat) → t.rdBit F.TRIP_LAT j = u.rdBit F.TRIP_LAT j) ∧
      (if (u.trip i).qualified = true then t.rdBit F.TRIP_LAT i = true
       else t.rdBit F.TRIP_LAT i = false ∧ ∀ n, n < 24 → (t.leg n).demTrip.getLsbD i = false))

/-- An auxiliary driver follows its mode unless held low; a refresh drives the low side, and a failed check latches the leg (R223, R224, R244, R245, R246, R248, R249, 10_leg_modulation, 11_leg_protection). -/
def Obligations.DriversAndBootstrap : Prop :=
  (∀ (k : Fin 4) (s : State), s.rd (F.LEGX_GDMODE k) = 1 → s.gdoForced k = false →
    (∃ t, exec (.gdoPwmPeriodStart k) s = .next t ∧ (t.gdo k).per = s.rd (F.LEGX_GDPER k) ∧
      (t.gdo k).on = s.rd (F.LEGX_GDDUTY k) * s.rd (F.LEGX_GDPER k) / 65536 ∧ t.rd (F.LEGX_GDOUT k) = (if (t.gdo k).on = 0 then 0 else 1) ∧
      RestKept [0x38A0C + 0x10 * k] s t) ∧
    (∃ t, exec (.gdoPwmDutyEnd k) s = .next t ∧ t.rd (F.LEGX_GDOUT k) = 0 ∧ t.rd (F.LEGX_GDONCNT k) = s.rd (F.LEGX_GDONCNT k) ∧
      RestKept [0x38A0C + 0x10 * k] s t)) ∧
  (∀ (k : Fin 4) (s : State), s.rd (F.LEGX_GDMODE k) ≠ 1 ∨ s.gdoForced k = true → exec (.gdoPwmPeriodStart k) s = .next s) ∧
  (∀ (k : Fin 4) (s : State), s.rd (F.LEGX_GDMODE k) = 2 → s.gdoForced k = false →
    (∃ t, exec (.gdoChopChange k) s = .next t ∧ RestKept [0x38A0C + 0x10 * k] s t ∧
      t.rd (F.LEGX_GDOUT k) = (if (if (s.gdo k).minRun = true then (s.gdo k).cmpLvl else s.rdBit F.CMP_OUT (s.rd (F.LEGX_CMPSEL k))) = true then 1 else 0)) ∧
    (∃ t, exec (.gdoMinIntervalEnd k) s = .next t ∧ RestKept [0x38A0C + 0x10 * k] s t ∧
      t.rd (F.LEGX_GDOUT k) = (if s.rdBit F.CMP_OUT (s.rd (F.LEGX_CMPSEL k)) = true then 1 else 0))) ∧
  (∀ (b : Bool) (k : Fin 4) (s : State), (b = true ↔ 2 ≤ (k : Nat)) →
    (∃ t, exec (.gdoUvlo b) s = .next t ∧ t.rd (F.LEGX_GDUVLO k) = 1 ∧ t.rd (F.LEGX_GDFORCED k) = 1 ∧ t.rd (F.LEGX_GDOUT k) = 0 ∧ t.mem = s.mem) ∧
    (∃ t, exec (.vdrvLockoutRelease b) s = .next t ∧ t.rd (F.LEGX_GDUVLO k) = 0 ∧ t.mem = s.mem ∧
      (s.rd (F.LEGX_GDMODE k) = 0 → s.rd (F.LEGX_GDEN k) = 1 → s.modeNow ≠ 0 → s.rung < 3 → s.phase = .up → s.stoHolds = false →
        s.rd F.SAFE_STOA = 0 → t.rd (F.LEGX_GDOUT k) = s.rd (F.LEGX_GDLVL k)))) ∧
  (∀ (n : Fin 24) (s : State), s.btEn n = true → s.legRuns n = true → (s.leg n).driving = true → (s.leg n).modCmd = .hi → (s.leg n).refresh = false →
    s.interlocked n = false → s.noIdleDue n = true → ∃ t, exec (.bootstrapRefresh n) s = .next t ∧ (t.leg n).refresh = true ∧ (t.leg n).cell = .lo ∧ (t.leg n).checkDue = false ∧
      t.rd (F.LEG_REFRCNT n) = min (s.rd (F.LEG_REFRCNT n) + 1) 65535 ∧ t.mem = s.mem) ∧
  (∀ (n : Fin 24) (s : State), s.btEn n = false ∨ s.legRuns n = false ∨ (s.leg n).driving = false ∨ (s.leg n).modCmd ≠ .hi ∨ (s.leg n).refresh = true →
    exec (.bootstrapRefresh n) s = .next s) ∧
  (∀ (n : Fin 24) (s : State), (s.leg n).refresh = true → s.enabled Pg.CMP = false →
    ∃ t, exec (.bootstrapRefreshEnd n) s = .next t ∧ (t.leg n).refresh = false ∧ (t.leg n).checkDue = (s.bit (F.LEG_DRVT n) && s.bit (F.LEGX_BTCHK n)) ∧
      t.mem = s.mem ∧ (s.legRuns n = true → s.interlocked n = false → (s.leg n).driving = true → s.noIdleDue n = true → (t.leg n).cell = (s.leg n).modCmd)) ∧
  (∀ (n : Fin 24) (s : State), (s.leg n).refresh = false → exec (.bootstrapRefreshEnd n) s = .next s) ∧
  (∀ (n : Fin 24) (s : State), (s.leg n).checkDue = true →
    ∃ t, exec (.bootstrapCheck n) s = .next t ∧ (t.leg n).checkDue = false ∧ t.mem = s.mem ∧
      (if s.rd (F.TRIP_FUNC (s.rd (F.LEGX_BTTRIP n))) = 0 then t.regs = s.regs
       else t.rd (F.LEG_BTCHKCNT n) = min (s.rd (F.LEG_BTCHKCNT n) + 1) 65535 ∧
        (if s.rdBit F.TRIP_LVL (s.rd (F.LEGX_BTTRIP n)) = true then
          t.rd (F.LEG_BOOTLAT n) = 1 ∧ t.rd (F.LEG_BOOTCNT n) = min (s.rd (F.LEG_BOOTCNT n) + 1) 65535
         else OnlyRegs [0x200C8 + 0x1000 * n] { s with legs := t.legs } t))) ∧
  (∀ (n : Fin 24) (s : State), (s.leg n).checkDue = false → exec (.bootstrapCheck n) s = .next s)

/-- A commit captures the shadow registers until a reload transfers them; the carrier's zero, peak and compare edges set the command (R136, R201, R220, R221, R225, R226, R229, R230, 10_leg_modulation). -/
def Obligations.CommitsAndCarrier : Prop :=
  (∀ (n : Fin 24) (v : Word) (s u : State), s.turn (Pg.LEG n + 0x20) ((F.COMMIT (Pg.LEG n)).put v 1) = some u → u.has (Pg.LEG n) = true →
    ∃ t, exec (.legCommit n v) s = .next t ∧ (t.leg n).pend = some (u.shadowOf n) ∧ t.rd (F.PEND (Pg.LEG n)) = 1 ∧
      (if (u.leg n).rlTick = some u.tick ∧ (u.leg n).cmTick ≠ some u.tick then t.rd (F.LEG_LATE n) = 1 ∧ t.rd (F.LEG_LATECNT n) = min (u.rd (F.LEG_LATECNT n) + 1) 65535 ∧ t.mem = u.mem
       else RestKept [Pg.LEG n + 0x20] u t)) ∧
  (∀ (c : Fin 8) (v : Word) (s : State), s.has (Pg.CH c) = true →
    (∃ t, exec (.channelCommit c false v) s = .next t ∧ t.mem = s.mem ∧
      (∀ k, k < 16 → s.grantSlot c k = false → t.reg (F.CH_COMM c k).addr = s.reg (F.CH_SLOT c k).addr) ∧
      (∀ n ∈ s.legsOf c, (t.leg n).pend = some (s.shadowOf n) ∧ t.rd (F.PEND (Pg.LEG n)) = 1)) ∧
    (∀ u, u.turn (Pg.CH c + 0x20) ((F.COMMIT (Pg.CH c)).put v 1) = some s → ∃ t, exec (.channelCommit c false v) s = .next t ∧ exec (.channelCommit c true v) u = .next t.settle)) ∧
  (∀ (n : Fin 24) (b : Fin 16) (s : State), s.ctrRuns n = true → s.rd (F.LEG_MODE n) = 1 → s.machLeg n = false → (s.leg n).pend = none →
    s.enabled Pg.CMP = false → s.noIdleDue n = true → ∃ t, exec (.cpwmCounterZero n b) s = .next t ∧ t.mem = s.mem ∧ (t.leg n).up = true ∧
      t.rd (F.LEG_PERCNT n) = (if (s.leg n).ctrFirst = true then s.rd (F.LEG_PERCNT n) else (s.rd (F.LEG_PERCNT n) + 1) % 2 ^ 32) ∧
      (t.leg n).cUse = (if s.rd (F.LEG_ACT_RATIO n) = 1 then s.rd (F.LEG_ACT_CMP n) % 65536 * s.rd (F.LEG_ACT_PER n) / 65536
        else min (s.rd (F.LEG_ACT_CMP n)) (s.rd (F.LEG_ACT_PER n))) ∧
      (t.leg n).ctrPh = 0 ∧ (t.leg n).ctrAt = 16 * s.tick + b ∧
      (t.leg n).modCmd = (if s.legRuns n = false then .off else if s.rd (F.LEG_ACT_PER n) ≤ (t.leg n).cUse ∧ (t.leg n).cUse ≠ 0 then .hi else .lo) ∧
      (s.rd (F.LEG_ACT_RATIO n) = 0 → s.rd (F.LEG_ACT_PER n) < s.rd (F.LEG_ACT_CMP n) → t.rd (F.LEG_CMPCLAMP n) = 1) ∧
      (s.legRuns n = true → s.interlocked n = false → (s.leg n).refresh = false → (t.leg n).cell = (t.leg n).modCmd)) ∧
  (∀ (n : Fin 24) (b : Fin 16) (h : Shadow) (s : State), s.ctrRuns n = true → s.rd (F.LEG_MODE n) = 1 → (s.leg n).pend = some h → (s.leg n).cmTick ≠ some s.tick →
    ∃ t, exec (.cpwmCounterZero n b) s = .next t ∧ (t.leg n).pend = none ∧ t.rd (F.PEND (Pg.LEG n)) = 0 ∧ t.reg (0x20080 + 0x1000 * n) = h.per ∧
      t.reg (0x20084 + 0x1000 * n) = h.ton ∧ t.reg (0x20088 + 0x1000 * n) = h.toff ∧ t.reg (0x2008C + 0x1000 * n) = h.cmp ∧
      t.reg (0x20090 + 0x1000 * n) = h.dtr ∧ t.reg (0x20094 + 0x1000 * n) = h.dtf ∧ t.reg (0x20098 + 0x1000 * n) = h.iref ∧
      t.rd (F.LEG_DTAGE n) = s.rd F.AGE_DTAGE) ∧
  (∀ (n : Fin 24) (b : Fin 16) (s : State), s.ctrRuns n = true → (s.leg n).up = true → s.rd (F.LEG_RLDPK n) = 0 → s.rd (F.LEG_MODE n) = 1 →
    ∃ t, exec (.cpwmPeak n b) s = .next t ∧ (t.leg n).up = false ∧ (t.leg n).ctrPh = s.rd (F.LEG_ACT_PER n) ∧ (t.leg n).ctrAt = 16 * s.tick + b ∧
      (t.leg n).pend = (s.leg n).pend ∧ (t.leg n).modCmd = (s.leg n).modCmd ∧ OnlyRegs [] { s with legs := t.legs, blks := t.blks } t) ∧
  (∀ (n : Fin 24) (b : Fin 16) (s : State), s.ctrRuns n = false →
    exec (.cpwmCounterZero n b) s = .next s ∧ exec (.cpwmPeak n b) s = .next s ∧ exec (.cpwmCompareEdge n) s = .next s) ∧
  (∀ (n : Fin 24) (s : State), s.ctrRuns n = true → 0 < (s.leg n).cUse → (s.leg n).cUse < s.rd (F.LEG_ACT_PER n) → (s.leg n).cut = false →
    s.enabled Pg.CMP = false → (s.leg n).shift = 0 → s.noIdleDue n = true → ∃ t, exec (.cpwmCompareEdge n) s = .next t ∧ t.mem = s.mem ∧
      (t.leg n).modCmd = (if s.legRuns n = false then .off else if (s.leg n).up = true then .hi else .lo)) ∧
  (∀ (b : Bool) (s : State), s.rd F.LEGX_INEN = 1 → b = s.bit F.LEGX_INPOL → (∀ k, s.syncAt = some k → 100 ≤ s.tick - k) →
    ∃ t, exec (.syncInEdge b) s = .next t ∧ t.syncAt = some s.tick ∧ t.rd F.LEGX_SYNCIN = (s.rd F.LEGX_SYNCIN + 1) % 65536 ∧ t.mem = s.mem ∧
      t.rd F.LEGX_SYNCOUT = (if s.rd F.LEGX_OUTSRC = 3 then (s.rd F.LEGX_SYNCOUT + 1) % 65536 else s.rd F.LEGX_SYNCOUT) ∧
      ∀ n, n < 24 → s.rdBit F.LEGX_SYNCMASK n = true → s.rd (F.LEG_MODE n) = 1 → t.leg n = { s.leg n with syncLoad := some (16 * s.tick + 192) }) ∧
  (∀ (n : Fin 24) (k : Nat) (s : State), (s.leg n).syncLoad = some k → (16 * s.tick < k → s.syncDue n = s) ∧
    (k ≤ 16 * s.tick → s.ctrRuns n = true → s.rd (F.LEG_MODE n) = 1 → ((s.syncDue n).leg n).syncLoad = none ∧ (s.syncDue n).mem = s.mem ∧
      (((s.syncDue n).leg n).up = true ↔ s.rd (F.LEG_SYNCPH n) ≤ s.rd (F.LEG_ACT_PER n)) ∧ ((s.syncDue n).leg n).ctrPh = s.rd (F.LEG_SYNCPH n) ∧
      ((s.syncDue n).leg n).ctrAt = k)) ∧
  (∀ (b : Bool) (s : State), s.rd F.LEGX_INEN = 0 ∨ b ≠ s.bit F.LEGX_INPOL ∨ (∃ k, s.syncAt = some k ∧ s.tick - k < 100) → exec (.syncInEdge b) s = .next s)

/-- A TCM period's two intervals follow L, ΔI and the voltages, bad inputs switch the leg off, and DIRECT plays TON then TOFF (R204, R205, R207, R208, R210, R212, R216, R222, 10_leg_modulation). -/
def Obligations.TcmAndDirectPeriods : Prop :=
  (∀ (n : Fin 24) (b : Fin 2) (e : Fin 8) (s : State) (x : TcmIn), s.rd (F.LEG_MODE n) = 2 → s.legRuns n = true → (s.leg n).driving = true → s.rd (F.LEG_FB n) = 0 →
    s.rd (F.LEG_SHED n) = 0 → (s.leg n).part ≠ .none → (s.leg n).idle = false → (s.leg n).fbDue = false → (s.leg n).pend = none →
    s.rd (F.LEGX_MAPA_POS n) = 0 → s.shedTo (s.legGrp n) = s.nAct (s.legGrp n) → s.tcmIn n (8 * b + e) = (some x, s) → s.rd (F.LEG_POL n) = 0 →
    s.sigmaNeg n x.i = false → F32.isPos x.a = true → F32.isPos x.b = true → s.rd (F.LEG_DRVT n) = 0 → s.enabled Pg.CMP = false →
    s.rd (F.LEGX_IDEN (s.legGrp n / 3)) = 0 → s.noIdleDue n = true →
    let d := F32.mul F32.twoW (F32.add x.i x.ir)
    let t1 := max (max 384 (s.rd (F.LEG_ACT_DTR n) + s.rd F.AGE_DTAGE)) (units (F32.sub (F32.div (F32.mul x.l d) x.a) 0))
    let t2 := max (max 384 (s.rd (F.LEG_ACT_DTF n) + s.rd F.AGE_DTAGE)) (units (F32.div (F32.mul x.l d) x.b))
    6640 ≤ t1 + t2 → t1 + t2 ≤ 400000 →
    ∃ t, exec (.tcmPeriodStart n b e) s = .next t ∧ t.rd (F.LEG_LASTT1 n) = t1 ∧ (t.leg n).t1 = t1 ∧ (t.leg n).part = .first ∧
      (t.leg n).modCmd = .hi ∧ t.rd (F.LEG_BADIN n) = 0 ∧ t.rd (F.LEG_PERCNT n) = (s.rd (F.LEG_PERCNT n) + 1) % 2 ^ 32 ∧ t.mem = s.mem ∧
      (t.leg n).lHeld = x.l ∧ (t.leg n).dIHeld = d) ∧
  (∀ (n : Fin 24) (b : Fin 2) (e : Fin 8) (s : State), s.rd (F.LEG_MODE n) = 2 → s.legRuns n = true → (s.leg n).driving = true → s.rd (F.LEG_FB n) = 0 →
    s.rd (F.LEG_SHED n) = 0 → s.rd (F.LEGX_MAPA_POS n) < s.nAct (s.legGrp n) →
    F32.isPos (s.f32 (F.MOD_COUT (s.rd (F.LEGX_VDC (s.legGrp n))))) = false →
    ∃ t, exec (.tcmPeriodStart n b e) s = .next t ∧ t.rd (F.LEG_BADIN n) = 1 ∧ (t.leg n).modCmd = .off ∧ (t.leg n).part = .none ∧ t.mem = s.mem) ∧
  (∀ (n : Fin 24) (c : Fin 2) (d : Fin 8) (b : Fin 16) (s : State), s.rd (F.LEG_MODE n) ≠ 2 ∨ s.legRuns n = false →
    exec (.tcmPeriodStart n c d) s = .next s ∧ exec (.legRestoreStart n b) s = .next s) ∧
  (∀ (n : Fin 24) (b : Fin 16) (s : State) (x : TcmIn), s.rd (F.LEG_MODE n) = 2 → (s.leg n).driving = true → (s.leg n).part = .first → s.rd (F.LEG_POL n) = 0 →
    (s.leg n).floor = false → s.tcmIn n b = (some x, s) → F32.isPos x.b = true → (s.leg n).t1 ≤ 400000 → s.noIdleDue n = true →
    let t2 := max (max 384 (s.rd (F.LEG_ACT_DTF n) + s.rd (F.LEG_DTAGE n))) (units (F32.div (F32.mul (s.leg n).lHeld (s.leg n).dIHeld) x.b))
    ∃ t, exec (.tcmSecondInterval n b) s = .next t ∧ t.rd (F.LEG_LASTT2 n) = min t2 (400000 - (s.leg n).t1) ∧ t.rd (F.LEG_LASTIDLE n) = 0 ∧
      (t.leg n).modCmd = (if s.legRuns n = true then .lo else .off) ∧ t.mem = s.mem ∧ ((t.leg n).fbDue = true ↔ 400000 < (s.leg n).t1 + t2) ∧
      (400000 < (s.leg n).t1 + t2 → t.rd (F.LEG_TCEIL n) = 1)) ∧
  (∀ (n : Fin 24) (b : Fin 16) (s : State), s.rd (F.LEG_MODE n) ≠ 2 ∨ (s.leg n).driving = false ∨ (s.leg n).part ≠ .first →
    exec (.tcmSecondInterval n b) s = .next s) ∧
  (∀ (n : Fin 24) (b : Fin 16) (s : State), s.rd (F.LEG_MODE n) = 2 → s.legRuns n = true → s.rd (F.LEG_SHED n) = 1 → s.rd (F.LEGX_MAPA_POS n) ≠ 0 →
    s.rd (F.LEGX_MAPA_POS n) < s.nAct (s.legGrp n) →
    ∃ t, exec (.legRestoreStart n b) s = .next t ∧ t.rd (F.LEG_SHED n) = 0 ∧ (t.leg n).driving = true ∧ t.mem = s.mem) ∧
  (∀ (n : Fin 24) (b : Fin 16) (s : State), s.rd (F.LEG_MODE n) = 3 → s.legRuns n = true → (s.leg n).pend = none → s.enabled Pg.CMP = false → s.noIdleDue n = true →
    ∃ t, exec (.directPeriodStart n b) s = .next t ∧ (t.leg n).modCmd = .hi ∧ (t.leg n).part = .first ∧ (t.leg n).driving = true ∧
      (t.leg n).t1 = s.rd (F.LEG_ACT_TON n) ∧ t.mem = s.mem ∧ (t.leg n).toff = max (s.rd (F.LEG_ACT_TOFF n)) (6640 - s.rd (F.LEG_ACT_TON n)) ∧
      (s.interlocked n = false → (s.leg n).refresh = false → (t.leg n).cell = .hi) ∧
      (s.rd (F.LEG_ACT_TON n) + s.rd (F.LEG_ACT_TOFF n) < 6640 → t.rd (F.LEG_TFLOOR n) = 1)) ∧
  (∀ (n : Fin 24) (s : State), s.rd (F.LEG_MODE n) = 3 → (s.leg n).driving = true → (s.leg n).part = .first → s.noIdleDue n = true →
    ∃ t, exec (.directOffInterval n) s = .next t ∧ t.mem = s.mem ∧ (s.legRuns n = false → (t.leg n).modCmd = .off) ∧
      (s.legRuns n = true → (t.leg n).modCmd = .lo ∧ (t.leg n).part = .second ∧ (s.interlocked n = false → (t.leg n).cell = .lo))) ∧
  (∀ (n : Fin 24) (b : Fin 16) (s : State), s.rd (F.LEG_MODE n) ≠ 3 → exec (.directPeriodStart n b) s = .next s ∧ exec (.directOffInterval n) s = .next s)

/-- A completed slot corrects LCORR by the measured charge, CLR zeroes it, and a faultless staged map comes into force as a whole (R217, R218, R219, R231, 10_leg_modulation). -/
def Obligations.IdentificationAndMap : Prop :=
  (∀ (n : Fin 24) (s : State) (m : SlotM), (s.leg n).slot = some m → s.rd (F.LEGX_IDW (s.legGrp n)) ≤ m.iph.length →
    F32.isPos m.qpred = true → (s.leg n).slotNow = false → m.moved = false →
    let bk := s.blk (s.rd (F.LEGX_IPH (s.legGrp n)) / 6)
    let q := F32.mul (F32.ofRat (ticksQ (bk.tk - bk.tk1))) ((m.iph.reverse.take (s.rd (F.LEGX_IDW (s.legGrp n)))).foldl (fun a y => F32.add a (F32.sub y m.yb)) 0)
    let rho := F32.div (if m.neg = true then F32.neg q else q) m.qpred
    let lc := s.f32 (F.LEG_LCORR n)
    ∃ t, exec (.lcorrUpdate n) s = .next t ∧ (t.leg n).slot = none ∧ t.mem = s.mem ∧
      t.f32 (F.LEG_LCORR n) = F32.clamp (F32.add lc (F32.mul (F32.mul (F32.ofRat (mkRat 1 (2 ^ s.rd (F.LEGX_IDGS (s.legGrp n))))) (F32.sub F32.oneW rho))
        (F32.add F32.oneW lc))) (F32.neg (F32.ofRat (1 / 4))) (F32.ofRat (1 / 4)) ∧
      t.rd (F.LEG_IDCNT n) = min (s.rd (F.LEG_IDCNT n) + 1) 65535 ∧
      t.rd (F.LEGX_IDNEXT (s.legGrp n)) = (s.rd (F.LEGX_IDNEXT (s.legGrp n)) + 1) % s.nAct (s.legGrp n)) ∧
  (∀ (n : Fin 24) (s : State) (m : SlotM), (s.leg n).slot = some m → s.rd (F.LEGX_IDW (s.legGrp n)) ≤ m.iph.length →
    (s.leg n).slotNow = false → F32.isPos m.qpred = false ∨ m.moved = true →
    ∃ t, exec (.lcorrUpdate n) s = .next t ∧ (t.leg n).slot = none ∧
      t.rd (F.LEGX_IDSKIP (s.legGrp n)) = min (s.rd (F.LEGX_IDSKIP (s.legGrp n)) + 1) 65535 ∧
      OnlyRegs [0x38210 + 0x20 * s.legGrp n] { s with legs := t.legs } t) ∧
  (∀ (n : Fin 24) (s : State), (s.leg n).slot = none ∨ (s.leg n).slotNow = true ∨ (∃ m, (s.leg n).slot = some m ∧ m.iph.length < s.rd (F.LEGX_IDW (s.legGrp n))) →
    exec (.lcorrUpdate n) s = .next s) ∧
  (∀ (n : Fin 24) (v : Word) (s u : State), s.turn (Pg.LEG n + 0x18C) ((F.LEG_CLR n).put v 1) = some u → u.has (Pg.LEG n) = true →
    ∃ t, exec (.lcorrClear n v) s = .next t ∧ t.f32 (F.LEG_LCORR n) = 0 ∧ OnlyRegs [0x20188 + 0x1000 * n] u t) ∧
  (∀ (v : Word) (s u : State), s.turn 0x38040 (F.LEGX_MAPAPPLY.put v 1) = some u → (∀ n, n < 24 → u.mapFault n = 0) →
    ∃ t, exec (.legMapApply v) s = .next t ∧ t.rd F.LEGX_MAPRES = 0 ∧ t.rd F.LEGX_MAPIDX = 0 ∧ t.mem = u.mem ∧
      (∀ n, n < 24 → t.inForce n = u.staged n) ∧
      (∀ n, n < 24 → (u.staged n).map (fun x => (x.1, x.2.1)) ≠ (u.inForce n).map (fun x => (x.1, x.2.1)) → t.f32 (F.LEG_LCORR n) = 0)) ∧
  (∀ (v : Word) (s u : State) (n : Fin 24), s.turn 0x38040 (F.LEGX_MAPAPPLY.put v 1) = some u → u.subsSeen = u.subWord → u.mapFault n % 2 = 1 →
    (∀ k, k < (n : Nat) → u.mapFault k % 2 = 0) →
    ∃ t, exec (.legMapApply v) s = .next t ∧ t.rd F.LEGX_MAPRES = 3 ∧ t.rd F.LEGX_MAPIDX = n ∧ OnlyRegs [0x38044, 0x38010, 0x38018] u t)

/-- Edges count, the index homes, a resolver out of amplitude loses position, and commands start, reverse or stop the machine (R325, R326, R327, R328, R333, R334, R335, 16_machine_channel). -/
def Obligations.MachinePositionAndCommands : Prop :=
  (∀ (a b : Bool) (s : State), s.encOn = true →
    ((quadPlace a b + 4 - quadPlace s.mach.a s.mach.b) % 4 = 1 → ∃ t, exec (.encoderEdge a b) s = .next t ∧ t.mach.cnt = (s.mach.cnt + 1) % (4 * max 1 (s.rd F.MACH_LINES)) ∧
      t.mach.pos = s.mach.pos + 1 ∧ t.mach.a = a ∧ t.mach.b = b ∧ RestKept [0x500A8, 0x500B4] s t) ∧
    ((quadPlace a b + 4 - quadPlace s.mach.a s.mach.b) % 4 = 3 → ∃ t, exec (.encoderEdge a b) s = .next t ∧
      t.mach.cnt = (s.mach.cnt + 4 * max 1 (s.rd F.MACH_LINES) - 1) % (4 * max 1 (s.rd F.MACH_LINES)) ∧ t.mach.pos = s.mach.pos - 1) ∧
    ((quadPlace a b + 4 - quadPlace s.mach.a s.mach.b) % 4 = 2 → ∃ t, exec (.encoderEdge a b) s = .next t ∧ t.mach.cnt = s.mach.cnt ∧
      t.rd F.MACH_ENCERR = min (s.rd F.MACH_ENCERR + 1) 65535 ∧ t.mem = s.mem)) ∧
  (∀ s : State, s.encOn = true → s.mach.zseen = false → ∃ t, exec .encoderIndex s = .next t ∧
    t.mach.cnt = s.rd F.MACH_ZOFS % (4 * max 1 (s.rd F.MACH_LINES)) ∧ t.mach.zseen = true ∧ t.rd F.MACH_HOMED = 1 ∧ t.rd F.MACH_PVALID = 1 ∧
    RestKept [0x500A8] s t) ∧
  (∀ s : State, s.encOn = true → s.mach.zseen = true → s.mach.cnt < 4 * max 1 (s.rd F.MACH_LINES) →
    s.rd F.MACH_ZOFS < 4 * max 1 (s.rd F.MACH_LINES) →
    let d := (s.mach.cnt + 4 * max 1 (s.rd F.MACH_LINES) - s.rd F.MACH_ZOFS) % (4 * max 1 (s.rd F.MACH_LINES))
    if min d (4 * max 1 (s.rd F.MACH_LINES) - d) ≤ s.rd F.MACH_ZTOL then exec .encoderIndex s = .next (if s.rung = 0 then s.wr F.MACH_PVALID 1 else s)
    else ∃ t, exec .encoderIndex s = .next t ∧ t.mach.cnt = s.rd F.MACH_ZOFS ∧ t.rd F.MACH_ZERR = min (s.rd F.MACH_ZERR + 1) 65535 ∧ t.mem = s.mem) ∧
  (∀ s : State, (s.encOn = true → ∃ t, exec .encoderSpeedTimeout s = .next t ∧ t.f32 F.MACH_SPEED = 0 ∧ t.rd F.MACH_REV = 0 ∧ OnlyRegs [0x500A8, 0x500B4] s t) ∧
    (s.encOn = false → exec .encoderSpeedTimeout s = .next s ∧ exec .encoderIndex s = .next s)) ∧
  (∀ (x y : Int) (s : State), s.has Pg.MACH = true → s.enabled Pg.MACH = true → s.rd F.MACH_SRC = 1 →
    ∃ t, exec (.resolverSample x y) s = .next t ∧ t.mem = s.mem ∧ t.rd F.MACH_PVALID =
      (if ((s.rd F.MACH_RAMIN ^ 2 : Nat) : Int) ≤ x * x + y * y ∧ x * x + y * y ≤ ((s.rd F.MACH_RAMAX ^ 2 : Nat) : Int) then 1 else 0)) ∧
  (∀ (v : Word) (s u : State) (c : Nat), s.turn 0x500A0 (F.MACH_RUN.put v 1) = some u → u.has Pg.MACH = true → u.subsSeen = u.subWord → u.rd F.MACH_CH = c →
    (u.rd F.MACH_PHASE = 1 ∨ u.rd F.MACH_PHASE = 2 → exec (.machRunCommand v) s = .next (noteWrite 0x500A0 (u, .busy)).settle) ∧
    (u.rd F.MACH_PHASE = 0 → u.rd F.MACH_RUN = 0 → u.chType c = 3 → u.chEn c = true → u.released c = true → u.sub c = 1 →
      (u.rd F.MACH_PVALID = 1 → F32.le (F32.abs (u.f32 F.MACH_SPEED)) (u.f32 F.MACH_CATCHTHR) = true →
        ∃ t, exec (.machRunCommand v) s = .next t ∧ t.rd F.MACH_RUN = 1 ∧ t.rd F.MACH_DIR = F.MACH_DIR.of v ∧ t.rd F.MACH_PHASE = 3 ∧
          t.rd F.MACH_CMDRES = 0 ∧ t.sub c = 3 ∧ t.mem = u.mem) ∧
      (u.rd F.MACH_PVALID = 0 → ∃ t, exec (.machRunCommand v) s = .next t ∧ t.rd F.MACH_RUN = 0 ∧ t.rd F.MACH_CMDRES = 2 ∧
        t.rd F.MACH_REFCNT = min (u.rd F.MACH_REFCNT + 1) 65535 ∧ t.mem = u.mem))) ∧
  (∀ (v : Word) (s u : State), s.turn 0x500A0 v = some u → u.has Pg.MACH = true → u.subsSeen = u.subWord → u.rd F.MACH_PHASE = 3 → u.rd F.MACH_RUN = 1 →
    F.MACH_RUN.of v = 1 → u.machActive = true → F.MACH_DIR.of v ≠ u.rd F.MACH_DIR → ∃ t, exec (.machDirectionWrite v) s = .next t ∧
      (if F32.lt (u.f32 F.MACH_REVTHR) (F32.abs (u.f32 F.MACH_SPEED)) = true then t.rd F.MACH_DIR = u.rd F.MACH_DIR ∧ t.rd F.MACH_CMDRES = 1 ∧
        OnlyRegs [0x500A4, 0x50010, 0x50018] u t
       else t.rd F.MACH_DIR = F.MACH_DIR.of v ∧ OnlyRegs [0x500A0] u t)) ∧
  (∀ (v : Word) (s u : State) (c : Nat), s.turn 0x500A0 (F.MACH_RUN.put v 0) = some u → u.has Pg.MACH = true → u.rd F.MACH_PHASE = 3 → u.rd F.MACH_RUN = 1 →
    u.rd F.MACH_CH = c → u.chType c = 3 → u.sub c = 3 → F.MACH_DIR.of v = u.rd F.MACH_DIR → u.subsSeen = u.subWord →
    ∃ t, exec (.machStop v) s = .next t ∧ t.rd F.MACH_RUN = 0 ∧ t.sub c = 5 ∧ t.mach.stopAt = some u.tick ∧ RestKept [0x5C, 0x500A0] u t) ∧
  (∀ s : State, (s.rd F.MACH_PHASE = 1 → ∃ t, exec .catchOnEnd s = .next t ∧ t.rd F.MACH_PHASE = 3 ∧ t.rd F.MACH_BRAKE = 0 ∧ t.mem = s.mem) ∧
    (s.rd F.MACH_PHASE ≠ 1 → exec .catchOnEnd s = .next s) ∧
    (s.rd F.MACH_PHASE = 2 → F32.le (F32.abs (s.f32 F.MACH_SPEED)) (s.f32 F.MACH_REVTHR) = true →
      ∃ t, exec .regenEnd s = .next t ∧ t.rd F.MACH_PHASE = 3 ∧ t.rd F.MACH_BRAKE = 0 ∧ t.mem = s.mem) ∧
    (s.rd F.MACH_PHASE ≠ 2 → exec .regenEnd s = .next s))

/-- A tracker's update advances its angle by ω × Ts, VALID is gained and lost with HOLD and UNLCNT, and timeouts and snapshots show (R251, R252, R254, R255, R256, R257, 12_grid_sync_and_modes). -/
def Obligations.GridTracker : Prop :=
  (∀ (p : Fin 2) (s : State), s.gridOn p = true →
    ∃ t, exec (.gridTrackerUpdate p) s = .next t ∧ t.mem = s.mem ∧
      (t.grid p).th = ((s.grid p).th + (Config.turns (F32.toRat (t.grid p).out.omega * ticksQ ((s.blk (s.gridBlk p)).tk - (s.blk (s.gridBlk p)).tk1))).toNat) % 2 ^ 32 ∧
      (t.grid p).thk = (s.grid p).th ∧ (t.grid p).out.f = Config.overTau (F32.toRat (t.grid p).out.omega) ∧
      (t.grid p).out.vshift = Config.overTau (F32.toRat (Config.atan2 (F32.toRat (t.grid p).out.vpq) (F32.toRat (t.grid p).out.vpd))) ∧
      t.rd (F.GRID_VLOW p) = (if F32.lt (t.grid p).out.vpmag (s.f32 (F.GRID_VMIN p)) = true then 1 else 0) ∧
      (t.rd (F.GRID_VALID p) = 1 → s.rd (F.GRID_VALID p) = 1 ∧ t.rd (F.GRID_VLOW p) = 0) ∧
      (s.rd (F.GRID_TYPE p) = 2 → (t.grid p).ua = s.f32 (F.MOD_COUT (s.rd (F.GRID_VA p))))) ∧
  (∀ (p : Fin 2) (s : State), s.gridOn p = false → exec (.gridTrackerUpdate p) s = .next s ∧ exec (.trackerValidSet p) s = .next s) ∧
  (∀ (p : Fin 2) (s : State), s.gridOn p = true → (s.grid p).good = true → s.rd (F.GRID_VALID p) = 0 →
    ∃ t, exec (.trackerValidSet p) s = .next t ∧ t.rd (F.GRID_VALID p) = 1 ∧ t.rd (F.GRID_HOLD p) = 0 ∧ (t.grid p).ancTh = (s.grid p).thk ∧
      RestKept [0x1206C + 0x1000 * p, 0x12010 + 0x1000 * p, 0x12018 + 0x1000 * p] s t) ∧
  (∀ (p : Fin 2) (s : State), (s.grid p).good = false ∨ s.rd (F.GRID_VALID p) = 1 → exec (.trackerValidSet p) s = .next s) ∧
  (∀ (p : Fin 2) (s : State), (s.rd (F.GRID_VALID p) = 1 →
      ∃ t, exec (.trackerDecimationTimeout p) s = .next t ∧ t.rd (F.GRID_VALID p) = 0 ∧ t.rd (F.GRID_UNLCNT p) = min (s.rd (F.GRID_UNLCNT p) + 1) 65535 ∧
        t.rd (F.GRID_HOLD p) = 1 ∧ t.mem = s.mem) ∧
    (s.rd (F.GRID_VALID p) = 0 → ∃ t, exec (.trackerDecimationTimeout p) s = .next t ∧ OnlyRegs [0x1206C + 0x1000 * p] s t ∧
      t.rd (F.GRID_HOLD p) = 1 ∧ t.rd (F.GRID_UNLCNT p) = s.rd (F.GRID_UNLCNT p))) ∧
  (∀ (p : Fin 2) (s : State), s.gridOn p = true → (s.grid p).ztold = false →
    ∃ t, exec (.zeroCrossingTimeout p) s = .next t ∧ t.rd (F.GRID_ZCTO p) = 1 ∧ t.rd (F.GRID_ZCTOCNT p) = min (s.rd (F.GRID_ZCTOCNT p) + 1) 65535 ∧
      t.rd (F.GRID_ZCPER p) = 0 ∧ (t.grid p).ztold = true ∧ t.mem = s.mem) ∧
  (∀ (p : Fin 2) (s : State), s.gridOn p = false ∨ (s.grid p).ztold = true → exec (.zeroCrossingTimeout p) s = .next s) ∧
  (∀ (p : Fin 2) (v : Word) (s u : State), s.turn (0x12070 + 0x1000 * p) ((F.GRID_SNAPGO p).put v 1) = some u →
    ∃ t, exec (.gridSnapshot p v) s = .next t ∧ t.f32 (F.GRID_OMEGA p) = (u.grid p).out.omega ∧ t.f32 (F.GRID_F p) = (u.grid p).out.f ∧
      t.f32 (F.GRID_ROCOF p) = (u.grid p).out.rocof ∧ t.f32 (F.GRID_VPD p) = (u.grid p).out.vpd ∧ t.f32 (F.GRID_VPQ p) = (u.grid p).out.vpq ∧
      t.f32 (F.GRID_VPMAG p) = (u.grid p).out.vpmag ∧ t.rd (F.GRID_ANGLE p) = u.gridAngle p ∧ t.rd64 (F.GRID_SNAPTLO p) = u.now64 % 2 ^ 64 ∧ t.mem = u.mem)

/-- A request is made, begins a ramp-down, or is refused with the first reason that applies, its number and a count (R258, R259, R260, R261, R264, 12_grid_sync_and_modes). -/
def Obligations.ModeRequests : Prop :=
  (∀ (v : Word) (s u : State) (r : Nat), s.turn 0x44 v = some u → F.SYS_MODEREQ.of v = r →
    (r = u.modeNow → exec (.modeRequest v) s = .next u.settle) ∧
    (r ≠ u.modeNow →
      (∀ x, (x = 2 ∧ r = 4 ∧ u.has Pg.FORM = false) ∨
          (x = 1 ∧ (r = 4 → u.has Pg.FORM = true) ∧ reqAllowed u.modeNow r = false) ∨
          (x = 3 ∧ (r = 4 → u.has Pg.FORM = true) ∧ reqAllowed u.modeNow r = true ∧ u.rd F.SYS_MOVING = 1) ∨
          (x ≠ 0 ∧ (r = 4 → u.has Pg.FORM = true) ∧ reqAllowed u.modeNow r = true ∧ u.rd F.SYS_MOVING = 0 ∧ u.reqPerm u.modeNow r = x) →
        ∃ t, exec (.modeRequest v) s = .next t ∧ t.rd F.SYS_MODEREF = x ∧ t.rd F.SYS_REFREQ = r ∧
          t.rd F.SYS_REFCNT = min (u.rd F.SYS_REFCNT + 1) 65535 ∧ OnlyRegs [0x48, 0x10, 0x18] u t) ∧
      ((r = 4 → u.has Pg.FORM = true) → reqAllowed u.modeNow r = true → u.rd F.SYS_MOVING = 0 → u.reqPerm u.modeNow r = 0 →
        ∃ t, exec (.modeRequest v) s = .next t ∧ t.mem = u.mem ∧
          (if (u.modeNow = 3 ∨ u.modeNow = 4) ∧ r = 2 then
            t.modeNow = u.modeNow ∧ t.rd F.SYS_MOVING = 1 ∧ t.mode.ramp = true ∧ t.mode.rampT = 0 ∧
              (∀ c, c < 8 → t.sub c = if 2 ≤ u.sub c ∧ u.sub c ≤ 4 then 5 else u.sub c)
           else t.modeNow = r ∧ t.rd F.SYS_CAUSE = 0 ∧ t.rd F.SYS_MOVING = 0 ∧ (r = 3 ∨ r = 4 → t.rd F.SYS_PRIOR = r))))) ∧
  (∀ s : State, s.modeNow = 0 → reqAllowed 0 1 = true ∧ (s.reqPerm 0 1 = if s.rd F.BOOT_DONE = 1 then 0 else 4)) ∧
  (∀ m r : Nat, reqAllowed m r = true ↔ (m, r) ∈ [(0, 1), (1, 2), (1, 0), (2, 0), (6, 0), (2, 1), (6, 1), (2, 3), (2, 4), (3, 4), (4, 3), (3, 2), (4, 2)])

/-- Each hardware transition that is due and may be made sets its mode and cause; the others leave the machine as it was (R262, R264, R265, R266, R267, R291, 12_grid_sync_and_modes). -/
def Obligations.HardwareTransitions : Prop :=
  (∀ s : State, s.mode.ramp = false →
    (1 ∈ s.mode.due → s.mayGo 1 = true → ∃ t, exec .modeExcursion s = .next t ∧ t.modeNow = 5 ∧ t.rd F.SYS_CAUSE = 1 ∧ t.rd F.RIDE_INRIDE = 1 ∧
      t.mode.hwAt = some s.tick ∧
      t.rd F.RIDE_ENTCNT = min (s.rd F.RIDE_ENTCNT + 1) 65535) ∧
    (1 ∉ s.mode.due ∨ s.mayGo 1 = false → exec .modeExcursion s = .next s) ∧
    exec .rampdownExcursion s = .next s ∧ exec .modeRampdone s = .next s) ∧
  (∀ s : State, s.mode.ramp = true → exec .modeExcursion s = .next s ∧
    (1 ∈ s.mode.due → s.mayGo 1 = true → ∃ t, exec .rampdownExcursion s = .next t ∧ t.modeNow = 2 ∧ t.rd F.SYS_CAUSE = 1 ∧ t.mode.ramp = false) ∧
    (s.mayGo 10 = true → ∃ t, exec .modeRampdone s = .next t ∧ t.modeNow = 2 ∧ t.rd F.SYS_CAUSE = 10 ∧ t.mode.ramp = false) ∧
    (s.mayGo 10 = false → ∃ t, exec .modeRampdone s = .next t ∧ t.modeNow = s.modeNow ∧ t.mode.ramp = true ∧ t.mem = s.mem ∧
      (leads 10 s.modeNow = true → 10 ∈ t.mode.due) ∧ (s.rd F.SAFE_PHASE ≠ 1 → OnlyRegs [] { s with mode := t.mode } t))) ∧
  (∀ (k : Nat) (c : Instr) (s : State), (k = 3 ∧ c = .modeCurve) ∨ (k = 4 ∧ c = .modeIsland) ∨ (k = 5 ∧ c = .modeTrip) →
    (k ∈ s.mode.due → s.mayGo k = true → ∃ t, exec c s = .next t ∧ t.modeNow = 6 ∧ t.rd F.SYS_CAUSE = k ∧ t.mode.hwAt = some s.tick ∧ t.rd F.SYS_CEASESEC = s.rd F.SYS_RECONT ∧
      ∀ d, d < 8 → s.isGrid d = true → s.chEn d = true → s.legsOf d ≠ [] → s.sub d ≠ 6 → t.sub d = 7) ∧
    (k ∉ s.mode.due ∨ s.mayGo k = false → exec c s = .next s)) ∧
  (∀ s : State, (s.mayGo 2 = true → s.rd F.RIDE_RECOV = 1 → s.rd F.RIDE_MC = 0 → s.rd F.SYS_PRIOR = 3 ∨ s.rd F.SYS_PRIOR = 4 →
      ∃ t, exec .modeRecovery s = .next t ∧ t.modeNow = s.rd F.SYS_PRIOR ∧ t.rd F.SYS_CAUSE = 2 ∧ t.rd F.RIDE_INRIDE = 0 ∧
        t.rd F.RIDE_RECCNT = min (s.rd F.RIDE_RECCNT + 1) 65535) ∧
    (s.mayGo 2 = false → s.rd F.RIDE_RECOV = 1 → s.rd F.RIDE_MC = 0 → ∃ t, exec .modeRecovery s = .next t ∧ t.modeNow = s.modeNow ∧ t.mem = s.mem ∧
      (leads 2 s.modeNow = true → 2 ∈ t.mode.due) ∧ (s.rd F.SAFE_PHASE ≠ 1 → OnlyRegs [] { s with mode := t.mode } t)) ∧
    (s.rd F.RIDE_RECOV = 0 ∨ s.rd F.RIDE_MC = 1 → exec .modeRecovery s = .next s)) ∧
  (∀ s : State, (s.mayGo 8 = true → s.reconOk = true → ∃ t, exec .modeReconnect s = .next t ∧ t.modeNow = 2 ∧ t.rd F.SYS_CAUSE = 8 ∧
      t.mode.autoDue = s.bit F.SYS_AUTORES) ∧
    (s.mayGo 8 = false → s.reconOk = true → ∃ t, exec .modeReconnect s = .next t ∧ t.modeNow = s.modeNow ∧ t.mem = s.mem ∧
      (leads 8 s.modeNow = true → 8 ∈ t.mode.due) ∧ (s.rd F.SAFE_PHASE ≠ 1 → OnlyRegs [] { s with mode := t.mode } t)) ∧
    (s.reconOk = false → exec .modeReconnect s = .next s)) ∧
  (∀ s : State, (s.mode.autoDue = true → s.mayGo 9 = true → s.rd F.SYS_PRIOR = 3 → s.rd F.SYS_MOVING = 0 → s.reqPerm 2 3 = 0 →
      ∃ t, exec .modeAutores s = .next t ∧ t.modeNow = 3 ∧ t.rd F.SYS_CAUSE = 9 ∧ t.mode.autoDue = false) ∧
    (s.mode.autoDue = false ∨ s.mayGo 9 = false → exec .modeAutores s = .next s)) ∧
  (∀ (k : Nat) (s : State), s.rd F.SAFE_PHASE = 1 ∨ s.mode.hwAt = some s.tick → s.mayGo k = false) ∧
  (∀ (k m : Nat), leads k m = true ↔ (k, m) ∈ [(1, 3), (1, 4), (10, 3), (10, 4), (2, 5), (3, 5), (4, 3), (4, 4), (4, 5), (5, 3), (5, 4), (5, 5), (8, 6), (9, 2)])

/-- An allocation run writes its grants to the committed slots, a withdrawn release grants zero, and forming falls back and returns (R271, R274, R277, R278, R284, R285, R287, 13_current_injection_and_forming). -/
def Obligations.AllocationAndForming : Prop :=
  (∀ (c : Fin 8) (s : State), s.chEn c = true → s.isGrid c = true → s.modeNow = 3 ∨ s.modeNow = 4 ∨ s.modeNow = 5 → s.rd F.RIDE_MC = 0 →
    ∃ t, exec (.allocationRun c) s = .next t ∧ t.rd F.ALLOC_CNT = (s.rd F.ALLOC_CNT + 1) % 2 ^ 32 ∧ t.mem = s.mem ∧
      t.f32 (F.CH_ENV c) = Config.rounded s.free (s.q (F.CH_IRATED c) * F32.toRat (F32.fmin (s.almKt c (s.kt c)) (s.f32 (F.CH_KAGE c)))) ∧
      t.rd (F.CH_COMM c 0) = t.rd (F.CH_GID c) ∧ t.rd (F.CH_COMM c 1) = t.rd (F.CH_GIQ c) ∧ t.rd (F.CH_COMM c 5) = t.rd (F.CH_GIH c) ∧
      (t.ch c).lastRun = some s.tick ∧ t.sub c = if s.sub c = 2 then 3 else s.sub c) ∧
  (∀ (c : Fin 8) (s : State), s.chEn c = true → s.isGrid c = true → s.modeNow < 3 ∨ 5 < s.modeNow ∨ s.rd F.RIDE_MC = 1 →
    ∃ t, exec (.allocationRun c) s = .next t ∧ t.rd F.ALLOC_CNT = (s.rd F.ALLOC_CNT + 1) % 2 ^ 32 ∧ t.rd (F.CH_GID c) = 0 ∧ t.rd (F.CH_GIQ c) = 0 ∧
      t.rd (F.CH_GIH c) = 0 ∧ t.rd (F.CH_RSNP c) = (if s.rd F.RIDE_MC = 1 then 2 else 0) ∧ t.rd (F.CH_DELAYED c) = 0 ∧ t.mem = s.mem) ∧
  (∀ (c : Fin 8) (s : State), s.chEn c = false ∨ s.isGrid c = false → exec (.allocationRun c) s = .next s) ∧
  (∀ (c : Fin 8) (s : State), (s.forming c = true → (s.form c).vilRun = true → (s.form c).rise = none →
      ∃ t, exec (.formFallback c) s = .next t ∧ t.rd (F.FORM_FALLBK c) = 1 ∧ t.rd (F.FORM_FBCNT c) = min (s.rd (F.FORM_FBCNT c) + 1) 65535 ∧
        t.rd (F.FORM_FORMING c) = 0 ∧ t.rd (F.FORM_VILIM c) = 0 ∧ t.mem = s.mem) ∧
    (s.forming c = false ∨ (s.form c).vilRun = false ∨ (s.form c).rise ≠ none → exec (.formFallback c) s = .next s)) ∧
  (∀ (c : Fin 8) (s : State), (s.has Pg.FORM = true → s.rd (F.FORM_FALLBK c) = 1 → s.modeNow = 4 → (s.form c).retRun = true →
      ∃ t, exec (.formFallbackClear c) s = .next t ∧ t.rd (F.FORM_FALLBK c) = 0 ∧ (t.form c).wv = (s.grid (s.rd (F.CH_PORT c))).out.omega ∧
        t.f32 (F.FORM_OMEGAV c) = (s.grid (s.rd (F.CH_PORT c))).out.omega ∧
        t.rd (F.FORM_FORMING c) = (if s.isGrid c = true ∧ s.rd (F.FORM_EN c) = 1 then 1 else 0) ∧ RestKept [0x1712C + 0x40 * c, 0x17134 + 0x40 * c] s t) ∧
    (s.rd (F.FORM_FALLBK c) = 0 ∨ s.modeNow ≠ 4 ∨ (s.form c).retRun = false → exec (.formFallbackClear c) s = .next s)) ∧
  (∀ (c : Fin 8) (s : State), (s.has Pg.FORM = true → s.chEn c = true → s.isGrid c = true → s.deadNow c = true →
      ∃ t, exec (.deadBusQualified c) s = .next t ∧ (t.form c).deadOk = true ∧ OnlyRegs [] { s with forms := t.forms } t) ∧
    (s.has Pg.FORM = false ∨ s.chEn c = false ∨ s.isGrid c = false ∨ s.deadNow c = false → exec (.deadBusQualified c) s = .next s) ∧
    ((s.form c).rise ≠ none → ∃ t, exec (.deadBusRiseEnd c) s = .next t ∧ (t.form c).rise = none ∧ t.rd (F.FORM_DEAD c) = 0 ∧
      OnlyRegs [0x1712C + 0x40 * c] { s with forms := t.forms } t) ∧
    ((s.form c).rise = none → exec (.deadBusRiseEnd c) s = .next s))

/-- A curve crossing is recorded once, the probe starts and stops at its window, and each detector declares an island with its source (R292, R301, R303, R307, R308, R309, R310, 14_ride_through_and_islanding). -/
def Obligations.RideThroughAndIslanding : Prop :=
  (∀ (k : Nat) (l : List Nat) (s : State), s.modeNow = 5 → s.enabled Pg.RIDE = true → s.rideDue = k :: l →
    ∃ t, exec .rideCurveCrossing s = .next t ∧ t.rd F.RIDE_XVALID = 1 ∧ t.rd F.RIDE_XCURVE = k % 64 / 16 ∧ t.rd F.RIDE_XPT = k % 16 ∧
      t.rd F.RIDE_XPORT = k / 64 ∧ t.rd F.RIDE_CROSSCNT = min (s.rd F.RIDE_CROSSCNT + 1) 65535 ∧ 3 ∈ t.mode.due ∧ t.rideDue = [] ∧ t.mem = s.mem) ∧
  (∀ s : State, s.modeNow ≠ 5 ∨ s.enabled Pg.RIDE = false ∨ s.rideDue = [] → exec .rideCurveCrossing s = .next s) ∧
  (∀ (v : Word) (s u : State), s.turn 0x16040 v = some u →
    (u.rd F.ISL_INJON = 1 → F.ISL_PMODE.of v ≠ u.rd F.ISL_PMODE → exec (.injectionRequest v) s = .next (noteWrite 0x16040 (u, .busy)).settle) ∧
    (u.rd F.ISL_INJON = 0 → 0x3F0 < F.ISL_PRBRAM.of v → exec (.injectionRequest v) s = .next (noteWrite 0x16040 (u, .range)).settle) ∧
    (u.rd F.ISL_INJON = 0 → F.ISL_PRBRAM.of v ≤ 0x3F0 → F.ISL_TESTISL.of v = 0 → ∃ t, exec (.injectionRequest v) s = .next t ∧
      t.rd F.ISL_INJ = F.ISL_INJ.of v ∧ t.rd F.ISL_PEN = F.ISL_PEN.of v ∧ OnlyRegs [0x16040] u t)) ∧
  (∀ s : State, s.probeDue = false → exec .probeWindowBoundary s = .next s) ∧
  (∀ s : State, s.probeCycles ≠ s.isl.cycles → s.probeCycles % s.rd F.ISL_NCYC = 0 → ∃ t, exec .probeWindowBoundary s = .next t ∧ t.isl.cycles = s.probeCycles ∧
    t.rd F.ISL_INJON = (if s.rd F.ISL_INJ = 1 ∧ s.isl.told = false ∧ (s.rd F.ISL_FBACT = 0 ∨ s.isl.fbEnd = true) then 1 else 0) ∧ t.isl.fbEnd = false ∧
    ∀ p : Fin 2, (t.zport p).m = 0 ∧ (t.zport p).bad = false ∧ (t.zport p).re = 0 ∧ (t.zport p).im = 0 ∧ t.rd64 (F.ISL_WINTLO p) = s.now64 % 2 ^ 64) ∧
  (∀ (v : Word) (s u : State), s.turn 0x16040 (F.ISL_TESTISL.put v 1) = some u → u.rd F.ISL_INJON = 0 → F.ISL_PRBRAM.of v ≤ 0x3F0 → u.modeNow ≠ 4 →
    ∃ t, exec (.islandTest v) s = .next t ∧ t.rd F.ISL_DETSRC = 6 ∧ t.rd F.ISL_ISLCNT = min (u.rd F.ISL_ISLCNT + 1) 65535 ∧
      t.rd F.ISL_ISLDET = 1 ∧ t.rd F.ISL_DECL = 1 ∧ t.mem = u.mem ∧ (u.modeNow = 3 ∨ u.modeNow = 5 → 4 ∈ t.mode.due)) ∧
  (∀ (p : Fin 2) (s : State), (s.passive p = true → (s.zport p).roc = true → ∃ t, exec (.rocofDetect p) s = .next t ∧ t.rd F.ISL_DETSRC = 3 ∧
      t.rd F.ISL_DETPORT = p ∧ t.rd F.ISL_ISLCNT = min (s.rd F.ISL_ISLCNT + 1) 65535 ∧ t.mem = s.mem) ∧
    (s.passive p = false ∨ (s.zport p).roc = false → exec (.rocofDetect p) s = .next s)) ∧
  (∀ s : State, s.rd F.ISL_HOLD = 1 → s.isl.told = false → ∃ t, exec .holdoverExpiry s = .next t ∧ t.isl.told = true ∧ t.mem = s.mem ∧
    (if s.rd F.ISL_FBEN = 1 then t.rd F.ISL_FBACT = 1 ∧ t.rd F.ISL_FBCNT = min (s.rd F.ISL_FBCNT + 1) 65535 ∧ t.rd (F.ISL_CONFCNT 0) = 0
     else t.rd F.ISL_FBACT = s.rd F.ISL_FBACT ∧ t.rd F.ISL_FBCNT = s.rd F.ISL_FBCNT)) ∧
  (∀ s : State, s.rd F.ISL_HOLD = 0 ∨ s.isl.told = true → exec .holdoverExpiry s = .next s) ∧
  (∀ s : State, (s.rd F.ISL_FBACT = 1 → s.modeNow = 3 ∨ s.modeNow = 5 → s.isl.afd = true → ∃ t, exec .afdDeclare s = .next t ∧ t.rd F.ISL_DETSRC = 5 ∧
      t.rd F.ISL_ISLDET = 1 ∧ t.rd F.ISL_DECL = 1 ∧ 4 ∈ t.mode.due ∧ t.mem = s.mem) ∧
    (s.rd F.ISL_FBACT = 0 ∨ s.isl.afd = false → exec .afdDeclare s = .next s))

/-- A dither boundary ends a half-period; a scan falls due, a charge terminates and a start ends only where the conditions are met (R316, R317, R318, R319, R321, R322, 15_dc_channels_and_mppt). -/
def Obligations.DcChannels : Prop :=
  (∀ (c : Fin 8) (s : State), s.isDc c = true → s.rd (F.CH_SCANPER c) ≠ 0 → s.rd (F.CH_DCMODE c) = 0 → (s.dc c).scan = none →
    ∃ t, exec (.globalScanDue c) s = .next t ∧ (t.dc c).scanDue = true ∧ OnlyRegs [] { s with dcs := t.dcs } t) ∧
  (∀ (c : Fin 8) (s : State), s.isDc c = false ∨ s.rd (F.CH_SCANPER c) = 0 ∨ s.rd (F.CH_DCMODE c) = 1 ∨ (s.dc c).scan ≠ none →
    exec (.globalScanDue c) s = .next s) ∧
  (∀ (c : Fin 8) (s : State), s.isDc c = true → s.rd (F.CH_DCMODE c) = 1 → F32.lt (s.battOn c) 0 = true → s.rd (F.CH_CV c) = 1 →
    F32.le (F32.abs (s.dcI c)) (s.dcSlot c 6) = true →
    ∃ t, exec (.chargeTermination c) s = .next t ∧ t.rd (F.CH_DONE c) = 1 ∧ t.rd (F.CH_TERMCNT c) = min (s.rd (F.CH_TERMCNT c) + 1) 65535 ∧
      t.rdBit (F.IFLG (Pg.CH c)) 9 = true ∧ t.battOn c = 0 ∧ t.battI c = s.battI c ∧
      OnlyRegs [0x180B8 + 0x1000 * c, 0x180C4 + 0x1000 * c, 0x18010 + 0x1000 * c, 0x18018 + 0x1000 * c] s t) ∧
  (∀ (c : Fin 8) (s : State), s.isDc c = false ∨ s.rd (F.CH_DCMODE c) = 0 ∨ F32.lt (s.battOn c) 0 = false ∨ s.rd (F.CH_CV c) = 0 ∨
    F32.le (F32.abs (s.dcI c)) (s.dcSlot c 6) = false → exec (.chargeTermination c) s = .next s) ∧
  (∀ (c : Fin 8) (s : State), s.isDc c = true → s.sub c = 2 →
    ∃ t, exec (.dcdcStartComplete c) s = .next t ∧ t.sub c = 3 ∧ (t.dc c).startTk = none ∧ (∀ d : Nat, d < 8 → d ≠ (c : Nat) → t.sub d = s.sub d) ∧
      (s.rd (F.CH_DCMODE c) = 0 → (t.dc c).vop = s.dcTarget c ∧ (t.dc c).vmpp = s.dcTarget c ∧ (t.dc c).vref = s.dcTarget c) ∧
      OnlyRegs [0x5C] { s with dcs := t.dcs } t) ∧
  (∀ (c : Fin 8) (s : State), s.isDc c = false ∨ s.sub c ≠ 2 → exec (.dcdcStartComplete c) s = .next s) ∧
  (∀ (c : Fin 8) (i : Fin 256) (n : Nat) (s u : State), s.phase = .up → s.rung < 3 → s.timeOrder 4 = u → u.almOn = [] → u.phase = .up → u.rung = 0 →
    u.alm.left = [(i.val, 0x0A, n)] → u.dcRuns c = true → u.rd (F.CH_ALMIDX c) = i → (∀ d : Nat, d < 8 → d ≠ (c : Nat) → u.isDc d = false) →
    (u.dc c).scan = none → (u.dc c).scanDue = false → (u.dc c).startTk = none →
    let d := u.dc c
    let bad := 2 * (u.tick - d.t0) < 500000 ∨ 5000000 < 2 * (u.tick - d.t0) ∨ d.cnt = 0
    ∃ t, exec .almanacDelivery s = .next t ∧ t.mem = u.mem ∧ (t.dc c).open_ = true ∧ (t.dc c).t0 = u.tick ∧ (t.dc c).sum = 0 ∧ (t.dc c).cnt = 0 ∧
      (t.dc c).setl = u.rd (F.CH_SETL c) * 500 ∧ t.rd (F.CH_SIGN c) = (if d.open_ = true ∧ d.neg = false then 1 else 0) ∧
      ((t.dc c).neg = true ↔ d.open_ = true ∧ d.neg = false) ∧
      (d.open_ = false → (t.dc c).vop = d.vop ∧ t.rd (F.CH_DITHSKIP c) = u.rd (F.CH_DITHSKIP c) ∧ t.rd (F.CH_UPDCNT c) = u.rd (F.CH_UPDCNT c)) ∧
      (d.open_ = true → d.neg = false → (t.dc c).pPos = Config.rounded u.free (d.sum / (max 1 d.cnt : Nat)) ∧ (t.dc c).dv = d.dv ∧ (t.dc c).vop = d.vop ∧
        ((t.dc c).void = true ↔ bad) ∧ t.rd (F.CH_DITHSKIP c) = u.rd (F.CH_DITHSKIP c) ∧ t.rd (F.CH_UPDCNT c) = u.rd (F.CH_UPDCNT c)) ∧
      (d.open_ = true → d.neg = true → d.void = true ∨ bad → t.rd (F.CH_DITHSKIP c) = min (u.rd (F.CH_DITHSKIP c) + 1) 65535 ∧ (t.dc c).vop = d.vop ∧
        t.rd (F.CH_UPDCNT c) = u.rd (F.CH_UPDCNT c)) ∧
      (d.open_ = true → d.neg = true → d.void = false → ¬bad → u.sub c = 3 → t.rd (F.CH_DITHSKIP c) = u.rd (F.CH_DITHSKIP c) ∧
        (if t.rd (F.CH_CURT c) = 1 then t.rd (F.CH_UPDCNT c) = u.rd (F.CH_UPDCNT c) ∧ (t.dc c).vmpp = d.vmpp
         else t.rd (F.CH_UPDCNT c) = (u.rd (F.CH_UPDCNT c) + 1) % 2 ^ 32 ∧ (t.dc c).vmpp = (t.dc c).vop)))

/-- An admission runs once at a time and switches the whole set or none of it; executions take a free lane and leave it counted (R193, R195, R196, R181, R186, 09_loop_engine). -/
def Obligations.LoopEngine : Prop :=
  (∀ (v : Word) (s u : State), s.turn 0x11040 (F.LENG_ADMGO.put v 1) = some u →
    (u.leng.admitAt = none → ∃ t, exec (.admission v) s = .next t ∧ t.leng.admitAt = some (u.rd F.LENG_ADMLO + 2 ^ 32 * u.rd F.LENG_ADMHI) ∧
      t.rd F.LENG_ADMGO = 1 ∧ t.rdBit (F.IRAW Pg.LENG) 2 = false ∧ OnlyRegs [0x11040, 0x11010] { u with leng := t.leng } t) ∧
    (u.leng.admitAt ≠ none → exec (.admission v) s = .next u.settle)) ∧
  (∀ s : State, s.leng.admitAt = none → exec .admissionComplete s = .next s) ∧
  (∀ (m : Nat) (s : State), s.leng.admitAt = some m → ∃ t, exec .admissionComplete s = .next t ∧ t.leng.admitAt = none ∧ t.rd F.LENG_ADMGO = 0 ∧
    t.rdBit (F.IRAW Pg.LENG) 2 = true ∧ t.leng.lanes = s.leng.lanes ∧
    (s.modeNow = 5 → t.rd F.LENG_ADMRES = 6 ∧ t.rd F.LENG_ADMIDX = 0 ∧ t.mem = s.mem) ∧
    (s.modeNow ≠ 5 → m = 0 → t.rd F.LENG_ADMRES = 0 ∧ t.rd F.LENG_TLOAD = 0 ∧ t.leng.wait = []) ∧
    (t.rd F.LENG_ADMRES ≠ 0 → t.rd F.LENG_ACTLO = s.rd F.LENG_ACTLO ∧ t.rd F.LENG_ACTHI = s.rd F.LENG_ACTHI ∧
      t.rd F.LENG_TLOAD = s.rd F.LENG_TLOAD ∧ t.leng.wait = s.leng.wait) ∧
    (t.rd F.LENG_ADMRES = 0 → t.rd F.LENG_ACTLO = m % 2 ^ 32 ∧ t.rd F.LENG_ACTHI = m / 2 ^ 32 % 2 ^ 32)) ∧
  (∀ s : State, s.enabled Pg.LENG = false ∨ s.rung ≠ 0 ∨ 4 ≤ s.leng.lanes.length ∨ s.leng.wait = [] → exec .loopExecutionStart s = .next s) ∧
  (∀ s : State, s.enabled Pg.LENG = true → s.rung = 0 → s.leng.lanes.length < 4 → s.leng.wait ≠ [] →
    ∃ (t : State) (e : Nat × Nat × Nat) (r : LoopRun), exec .loopExecutionStart s = .next t ∧ e ∈ s.leng.wait ∧ (∀ f ∈ s.leng.wait, e.1 ≤ f.1) ∧
      r.d = e.2.2 ∧ r.ch = s.loopCh e.2.2 ∧ r.trig = s.loopTrig e.2.2 ∧ t.leng.lanes = s.leng.lanes ++ [r] ∧ (∀ f ∈ t.leng.wait, f ∈ s.leng.wait.erase e) ∧
      (s.leng.lanes.length < 3 → t.leng.wait = s.leng.wait.erase e)) ∧
  (∀ (d : Fin 64) (s : State), (∀ r ∈ s.leng.lanes, r.d ≠ d) → exec (.loopExecutionEnd d) s = .next s) ∧
  (∀ (d : Fin 64) (r : LoopRun) (l : List LoopRun) (s : State), s.leng.lanes = r :: l → r.d = d →
    let a := stagesRun { s with leng := { s.leng with lanes := l } } r
    ∃ t, exec (.loopExecutionEnd d) s = .next t ∧ t.leng.lanes = l ∧ t.rd (F.LENG_EXECCNT d) = (s.rd (F.LENG_EXECCNT d) + 1) % 2 ^ 32 ∧
      t.rd (F.LENG_NUMCNT d) = min (s.rd (F.LENG_NUMCNT d) + a.num) 65535 ∧ (a.num ≠ 0 → t.bit (numF d) = true) ∧
      (a.pois = true → r.ch < 8 → t.rdBit F.LENG_POISCH r.ch = true) ∧
      (r.dead = true → a.pois = true ∧ a.num = 0 ∧ t.mem = s.mem) ∧ (a.pis = [] → t.mem = a.s.mem))

/-- ALM.ACC moves an entry, in force from the next tick, or refuses it; a tick delivers at most four targets, each of which has its effect (R28, R31, R32, R33, R420, 03_clocks_and_time, 01_architecture). -/
def Obligations.AlmanacEntries : Prop :=
  (∀ (v : Word) (s u : State) (e : AlmEnt), s.turn 0x10044 (F.ALM_WR.put v 1) = some u → u.alm.fresh = [] → e = ⟨u.rd64 F.ALM_EN, u.rd64 F.ALM_VHI⟩ →
    (e.en = true → u.almBad e = true → F.ALM_RD.of v = 0 → exec (.almanacEntryWrite v) s = .next (noteWrite 0x10044 (u.sat F.ALM_REFCNT, .range)).settle) ∧
    (e.en = false ∨ u.almBad e = false → ∃ t, exec (.almanacEntryWrite v) s = .next t ∧
      t.alm.fresh = [⟨u.rd F.ALM_IDX, e.lo, e.hi, u.almPoisoned false, u.almPoisoned true⟩] ∧ t.mem = u.mem ∧
      (F.ALM_RD.of v = 0 → OnlyRegs [] { u with alm := t.alm } t))) ∧
  (∀ (i : Fin 256) (lo hi : BitVec 64) (p q : Bool) (s : State), s.pending = [] → s.phase = .up → s.alm.fresh = [⟨i.val, lo.toNat, hi.toNat, p, q⟩] →
    ∃ t, step s = .next t ∧ t.alm.fresh = [] ∧ t.raw64 (almAddr i) = lo.toNat ∧ t.raw64 (almAddr i + 8) = hi.toNat ∧
      t.synd (almAddr i) = (if p then 0xFF else 0) ∧ t.synd (almAddr i + 8) = (if q then 0xFF else 0) ∧ t.bit (almArm i) = lo.getLsbD 31) ∧
  (∀ (s : State) (e : AlmEnt), s.almBad e = true ↔ (e.tgt = 0 ∨ 0x0B < e.tgt ∨ 3 < e.base ∨ (e.rep = 2 ∧ e.k = 0) ∨ (e.base = 0 ∧ (e.rep = 1 ∨ e.rep = 2)) ∨
    (e.base = 0 ∧ e.rep = 3 ∧ e.step % 2 ^ 31 = 0) ∨ (e.base ≠ 0 ∧ e.rep = 3 ∧ (e.step = 0 ∨ 2 ^ 31 < e.step)) ∨ (e.base = 3 ∧ s.has Pg.MACH = false))) ∧
  (∀ (v : Word) (s u : State), s.turn 0x10044 (F.ALM_RD.put v 1) = some u → F.ALM_WR.of v = 0 → u.alm.fresh = [] → u.synd (almAddr (u.rd F.ALM_IDX)) = 0 →
    u.synd (almAddr (u.rd F.ALM_IDX) + 8) = 0 → ∃ t, exec (.almanacEntryRead v) s = .next t ∧
      t.rd64 F.ALM_EN = u.raw64 (almAddr (u.rd F.ALM_IDX)) ∧ t.rd64 F.ALM_VHI = u.raw64 (almAddr (u.rd F.ALM_IDX) + 8) ∧
      OnlyRegs [0x10048, 0x1004C, 0x10050, 0x10054] { u with ecc := t.ecc } t) ∧
  (∀ (v : Word) (s : State), F.ALM_WR.of v = 1 → F.ALM_RD.of v = 1 → exec (.almanacEntryRead v) s = exec (.almanacEntryWrite v) s) ∧
  (∀ s : State, s.phase ≠ .up ∨ 3 ≤ s.rung → exec .almanacDelivery s = .next s) ∧
  (∀ (s u z : State) (due : List (Nat × Nat × Nat)), s.phase = .up → s.rung < 3 → s.timeOrder 4 = u → u.phase = .up → u.rung = 0 → u.almScan true = (z, due) →
    ∃ t, exec .almanacDelivery s = .next t ∧ t.alm.left = (u.alm.left ++ due).drop 4 ∧ (due.map (·.1)).Pairwise (· < ·) ∧
      t.rd F.ALM_LATECNT = min (u.rd F.ALM_LATECNT + min 4 u.alm.left.length) (2 ^ 32 - 1) ∧
      (u.alm.left = [] → u.almOn = [] → OnlyRegs [] { u with alm := t.alm } t) ∧
      (∀ y, ((u.alm.left ++ due).take 4).getLast? = some y → t.rd F.ALM_LASTV = 1 ∧ t.rd F.ALM_LASTIDX = y.1 % 256)) ∧
  (∀ s u : State, s.phase = .up → s.rung < 3 → s.timeOrder 4 = u → u.almOn = [] → u.phase = .up → u.rung = 1 ∨ u.rung = 2 →
    (∀ x ∈ u.alm.left, x.2.1 ≠ 0x0A) → ∃ t, exec .almanacDelivery s = .next t ∧ t.alm.left = [] ∧
      t.rd F.ALM_MISSCNT = min (u.rd F.ALM_MISSCNT + u.alm.left.length) (2 ^ 32 - 1) ∧ OnlyRegs [F.ALM_MISSCNT.addr] { u with alm := t.alm } t) ∧
  (∀ (i : Fin 256) (s : State) (e : AlmEnt), s.timeOrder 4 = s → s.almOn = [i.val] → s.almEnt i = (s, some e) → s.phase = .up → s.rung = 0 → s.alm.left = [] →
    e.base = 0 → e.rep = 0 → e.en = true →
    (reached 64 s.now64 e.time = true → ∃ t, exec .almanacDelivery s = .next t ∧ t.rd F.ALM_LASTV = 1 ∧ t.rd F.ALM_LASTIDX = i ∧
      t.bit (almArm i) = false ∧ t.raw64 (almAddr i) = s.raw64 (almAddr i) - 2 ^ 31 ∧ t.rd F.ALM_LATECNT = s.rd F.ALM_LATECNT ∧ t.alm.left = []) ∧
    (reached 64 s.now64 e.time = false → ∃ t, exec .almanacDelivery s = .next t ∧ t.alm.left = [] ∧ OnlyRegs [] { s with alm := t.alm } t)) ∧
  (∀ (i : Fin 256) (s : State), s.timeOrder 4 = s → s.almOn = [i.val] → s.synd (almAddr i) = 0xFF → s.phase = .up → s.rung = 0 → s.alm.left = [] →
    ∃ t, exec .almanacDelivery s = .next t ∧ t.alm.met.contains (almAddr i / 8) = true ∧ t.alm.left = [] ∧ t.mem = s.mem ∧
      t.rd F.ECC_POISRD = if s.alm.met.contains (almAddr i / 8) = true then s.rd F.ECC_POISRD else min (s.rd F.ECC_POISRD + 1) (2 ^ F.ECC_POISRD.width - 1)) ∧
  (∀ (i : Fin 256) (g n : Nat) (s u : State), s.phase = .up → s.rung < 3 → s.timeOrder 4 = u → u.almOn = [] → u.phase = .up → u.rung = 0 →
    u.alm.left = [(i.val, g, n)] → (∀ c : Nat, c < 8 → u.isDc c = true → u.rd (F.CH_ALMIDX c) ≠ i) → ∃ t, exec .almanacDelivery s = .next t ∧
    (g = 1 → u.enabled Pg.LENG = true → ∀ d : Nat, d < 64 → u.loopActive d = true → u.loopTier d = n → u.loopTrig d = 0 →
      (∀ e ∈ u.leng.wait, e.2.2 ≠ d) → (n, u.tick, d) ∈ t.leng.wait) ∧
    (g = 2 → u.enabled Pg.LENG = true → u.loopActive n = true → (∀ e ∈ u.leng.wait, e.2.2 ≠ n) →
      t.leng.wait = u.leng.wait ++ [(u.loopTier n, u.tick, n)]) ∧
    (g = 3 → u.enabled Pg.PADC = true → u.rd (F.PADC_EN (n % 2)) = 1 → u.padcRung = true → (u.conv (n % 2)).startAt ≠ some u.tick →
      u.rd (F.PADC_RUN (n % 2)) = 0 → u.rd (F.PADC_CALBUSY (n % 2)) = 0 → t.rd (F.PADC_RUN (n % 2)) = if 2 ≤ u.rd (F.PADC_TRIG (n % 2)) then 1 else 0) ∧
    (g = 4 → t.rd64 F.PADC_SNAPTLO = u.now64 % 2 ^ 64 ∧ t.rd64 F.MTRE_SNAPTLO = u.now64 % 2 ^ 64 ∧ (∀ p : Nat, p < 2 → t.rd64 (F.GRID_SNAPTLO p) = u.now64 % 2 ^ 64) ∧
      t.rd F.PADC_SNAPSEQ = (u.rd F.PADC_SNAPSEQ + 1) % 2 ^ F.PADC_SNAPSEQ.width ∧ t.rd F.MTRE_SNAPSEQ = (u.rd F.MTRE_SNAPSEQ + 1) % 2 ^ F.MTRE_SNAPSEQ.width ∧
      t.mtr.energy = u.mtr.energy) ∧
    (g = 5 → u.rd (F.MTR_EN (n % 2)) = 1 → ∀ w : Ival, (u.mtrPort (n % 2)).ivals = [w] →
      w.tick ≠ u.tick → (t.mtrPort (n % 2)).ivals = [{ w with tclose := some u.now64 },
        { topen := u.now64, tick := u.tick, base := (List.range 8).map fun q => u.energyRaw (n % 2) q }]) ∧
    (g = 6 → t.rd F.ISL_INJ = n % 2) ∧
    (g = 7 → t.rd F.LEGX_SYNCOUT = if u.rd F.LEGX_OUTSRC = 0 then u.rd F.LEGX_SYNCOUT else (u.rd F.LEGX_SYNCOUT + 1) % 2 ^ F.LEGX_SYNCOUT.width) ∧
    (g = 8 → (u.stRefused (n % 16) = true → t.rd F.CMP_STREF = min (u.rd F.CMP_STREF + 1) (2 ^ F.CMP_STREF.width - 1) ∧ t.stRun = u.stRun) ∧
      (u.stRefused (n % 16) = false → (u.stRun = none → t.stRun.map (·.cmp) = some (n % 16)) ∧
        (u.stRun ≠ none → t.stRun = u.stRun ∧ t.stWait = u.stWait ++ [(n % 16, false)]))) ∧
    (g = 9 → (u.rd (F.NET_ARMED (n % 16)) = 0 ∨ u.rd (F.NET_STAGED (n % 16)) = 0 → t.rd F.NET_SPMISS = min (u.rd F.NET_SPMISS + 1) 65535 ∧ t.net = u.net) ∧
      (u.rd (F.NET_ARMED (n % 16)) = 1 → u.rd (F.NET_STAGED (n % 16)) = 1 → t.rd (F.NET_ARMED (n % 16)) = 0 ∧ t.rd (F.NET_STAGED (n % 16)) = 0 ∧
        t.sp (n % 16) = {} ∧ t.rd F.NET_SPMISS = u.rd F.NET_SPMISS)) ∧
    (g = 0x0B → (u.planBlocked = true → t.rd F.AGE_PEND = 1) ∧ (u.planBlocked = false → t.age.req = true)))

/-- A metrology sample accumulates energy that only rises, intervals close and publish in order, a timeout is noted, a block is written out (R338, R341, R344, R349, R350, R352, 17_metrology). -/
def Obligations.MetrologyIntervals : Prop :=
  (∀ (p : Fin 2) (raw : List (BitVec 24)) (lead : List Int) (s : State),
    (s.rd (F.MTR_EN p) = 0 ∨ s.rung ≠ 0 ∨ (∃ k ∈ s.mtrChs p, s.modRuns (s.mtrPin p k) = false ∨ s.rd (F.MOD_METEN (s.mtrPin p k)) = 0 ∨ (s.min' (s.mtrPin p k)).setM = false) →
      exec (.metrologySample p raw lead) s = .next s) ∧
    (s.rd (F.MTR_EN p) = 1 → s.rung = 0 → (∀ k ∈ s.mtrChs p, s.modRuns (s.mtrPin p k) = true ∧ s.rd (F.MOD_METEN (s.mtrPin p k)) = 1 ∧ (s.min' (s.mtrPin p k)).setM = true) →
      ∃ t, exec (.metrologySample p raw lead) s = .next t ∧ t.mem = s.mem ∧
        (t.mtrPort p).hist.length = min 400 ((s.mtrPort p).hist.length + 1) ∧
        (t.mtrPort p).raw = (((List.range 7).map fun k => if k ∈ s.mtrChs p then (raw.getD k 0).toInt else 0) :: (s.mtrPort p).raw).take 32 ∧
        (if ∃ k ∈ s.mtrChs p, (raw.getD k 0).toInt = 0x7FFFFF ∨ (raw.getD k 0).toInt = -0x800000 then
          t.rd (F.MTR_SAT p) = 1 ∧ t.rd (F.MTR_SATCNT p) = min (s.rd (F.MTR_SATCNT p) + 1) 65535
         else t.rd (F.MTR_SAT p) = s.rd (F.MTR_SAT p) ∧ t.rd (F.MTR_SATCNT p) = s.rd (F.MTR_SATCNT p)) ∧
        (∀ q, q < 8 → s.energyRaw p q ≤ (2 ^ 64 - 1) * 2 ^ 32 → s.energyRaw p q ≤ t.energyRaw p q) ∧
        (t.rd (F.MTR_NOLOAD p) = 1 → ∀ q, q < 8 → t.energyRaw p q = s.energyRaw p q) ∧
        (∀ q, q < 8 → t.energyRaw (1 - p.val) q = s.energyRaw (1 - p.val) q))) ∧
  (∀ (p : Fin 2) (s : State), (s.rd (F.MTR_EN p) = 0 ∨ (s.rd (F.MTR_ZCTOF p) = 1 ∧ (s.mtrPort p).xing = none) → exec (.mtrZcto p) s = .next s) ∧
    (s.rd (F.MTR_EN p) = 1 → s.rd (F.MTR_ZCTOF p) = 0 ∨ (s.mtrPort p).xing ≠ none → ∃ t, exec (.mtrZcto p) s = .next t ∧ t.rd (F.MTR_ZCTOF p) = 1 ∧ t.rd (F.MTR_M_FREQ p) = 0 ∧
      t.rd (F.MTR_ZCTOCNT p) = min (s.rd (F.MTR_ZCTOCNT p) + 1) 65535 ∧ t.mtrNc p = (if s.rd (F.MTR_NFREQ p) = 1 then 267 else 320) ∧
      (t.mtrPort p).xing = none ∧ t.rdBit (F.IRAW Pg.MTR) 2 = true ∧ t.mem = s.mem ∧
      (s.rd (F.MTR_ZCTOF p) = 1 → OnlyRegs [(F.MTR_ZCTOF p).addr, (F.MTR_M_FREQ p).addr, (F.MTR_ZCTOCNT p).addr, 0x48010, 0x48018] { s with mtr := t.mtr } t))) ∧
  (∀ (p : Fin 2) (v : Word) (s u : State), s.turn (0x48110 + 0x400 * p) ((F.MTR_ICLOSE p).put v 1) = some u →
    (u.rd (F.MTR_EN p) = 0 → exec (.intervalClose p v) s = .next u.settle) ∧
    (∀ (l : List Ival) (w : Ival), u.rd (F.MTR_EN p) = 1 → (u.mtrPort p).ivals = l ++ [w] →
      (w.tick = u.tick → w.tclose = none → l ≠ [] → exec (.intervalClose p v) s = .next u.settle) ∧
      (w.tick ≠ u.tick → (∀ x ∈ l, x.tclose.isSome = true) → ∃ t, exec (.intervalClose p v) s = .next t ∧
        (t.mtrPort p).ivals = l ++ [{ w with tclose := some u.now64 },
          { topen := u.now64, tick := u.tick, base := (List.range 8).map fun q => u.energyRaw p q }] ∧
        (t.mtrPort p).started = true ∧ OnlyRegs [] { u with mtr := t.mtr } t))) ∧
  (∀ (p : Fin 2) (s : State), (∀ (w : Ival) (l : List Ival) (tc : Nat), (s.mtrPort p).ivals = w :: l → w.tclose = some tc →
      ∃ t, exec (.intervalRecordPublish p) s = .next t ∧ (t.mtrPort p).ivals = l ∧ t.rd64 (F.MTR_TOPENLO p) = w.topen % 2 ^ 64 ∧
        t.rd64 (F.MTR_TCLOSELO p) = tc % 2 ^ 64 ∧ t.rd (F.MTR_NSAMP p) = w.nsamp % 2 ^ 32 ∧ t.rd (F.MTR_REVCNT p) = min w.rev 0xFFFF ∧
        t.rd (F.MTR_RSNSEEN p) = w.rsn % 128 ∧ t.f32 (F.MTR_VMAX p) = w.vmax ∧ t.f32 (F.MTR_PMAX p) = w.pmax ∧
        (∀ q, q < 8 → t.rd (F.MTR_DEL p q) =
          (let d : Int := ((w.base.getD q 0 : Int) + w.chg.getD q 0) / (1000 * 2 ^ 32) - (w.base.getD q 0 : Int) / (1000 * 2 ^ 32)
           if (2 ^ 32 : Int) ≤ d then 2 ^ 32 - 1 else (d % 2 ^ 32).toNat)) ∧ t.rd (F.MTR_ISEQ p) = (s.rd (F.MTR_ISEQ p) + 1) % 2 ^ 32 ∧
        t.rdBit (F.IFLG Pg.MTR) p = true ∧ t.mem = s.mem ∧ t.mtr.energy = s.mtr.energy) ∧
    ((s.mtrPort p).ivals = [] → exec (.intervalRecordPublish p) s = .next s) ∧
    (∀ (w : Ival) (l : List Ival), (s.mtrPort p).ivals = w :: l → w.tclose = none → exec (.intervalRecordPublish p) s = .next s)) ∧
  (∀ (p : Fin 2) (s : State), ((s.mtrPort p).done = none → exec (.harmonicBlockDone p) s = .next s) ∧
    (∀ r : List (List F32), (s.mtrPort p).done = some r → s.rd F.MTR_HBASE + 720 ≤ 0x3F000 → ∃ t, exec (.harmonicBlockDone p) s = .next t ∧ (t.mtrPort p).done = none ∧
      (t.mtrPort p).seq = ((s.mtrPort p).seq + 1) % 2 ^ 32 ∧ t.rdBit (F.IFLG Pg.MTR) 3 = true ∧
      (let w := fun (i : Nat) => leVal (t.bytes (0x300000 + 4 * (s.rd F.MTR_HBASE + 360 * p + i)) 4);
       let y := fun (k i : Nat) => F32.toRat ((r.reverse.getD i []).getD k 0);
       let f := fun (g : Rat → BitVec 32) (k h : Nat) => ((List.range r.length).map fun i => y k i * F32.toRat (g (mkRat (h * (s.mtrPort p).doneCyc * i) (max 1 r.length)))).sum;
       let x2 := fun (k h : Nat) => 2 * (f Config.cosTurns k h * f Config.cosTurns k h + f Config.sinTurns k h * f Config.sinTurns k h) / ((max 1 r.length * max 1 r.length : Nat) : Rat);
       let x := fun (k h : Nat) => F32.toRat (BitVec.ofNat 32 (w (50 * k + h)));
       let d := fun (k : Nat) => ((List.range 49).map fun h => x k (h + 2) * x k (h + 2)).sum;
       (w 0 = ((s.mtrPort p).seq + 1) % 2 ^ 32) ∧ w 358 = ((s.mtrPort p).seq + 1) % 2 ^ 32 ∧ w 359 = 0 ∧
       (∀ k h : Nat, k < 7 → 1 ≤ h → h ≤ 50 → ∃ n : Nat, w (50 * k + h) = if x2 k h ≤ 0 then 0 else (Config.rootOf n (x2 k h)).toNat) ∧
       (∀ k : Nat, k < 7 → ∃ m n : Nat, w (351 + k) = if x k 1 = 0 then 0 else
         (Config.rounded m (F32.toRat (if d k ≤ 0 then 0 else Config.rootOf n (d k)) / x k 1)).toNat)) ∧
      ∀ a, a < 0x300000 + 4 * (s.rd F.MTR_HBASE + 360 * p) / 8 * 8 ∨ 0x300000 + 4 * (s.rd F.MTR_HBASE + 360 * p) + 1448 ≤ a → t.byte a = s.byte a))

/-- A pulse leaves while one is owed and the ball is idle, a snapshot shows every energy, and a preset sets one register outside operation (R345, R347, R348, R354, R355, 17_metrology). -/
def Obligations.PulsesSnapshotAndPreset : Prop :=
  (∀ (k : Fin 2) (s : State), (s.rd (F.MTR_PULEN k) = 0 ∨ s.rd (F.MTR_PEND k) = 0 ∨ (s.pulse k).active = true → exec (.pulseEmit k) s = .next s) ∧
    (s.rd (F.MTR_PULEN k) = 1 → s.rd (F.MTR_PEND k) ≠ 0 → (s.pulse k).active = false → ∃ t, exec (.pulseEmit k) s = .next t ∧
      (t.pulse k).active = true ∧ (t.pulse k).width = s.pulseWidth k ∧ t.rd (F.MTR_PEND k) = s.rd (F.MTR_PEND k) - 1 ∧
      t.rd (F.MTR_PCNT k) = (s.rd (F.MTR_PCNT k) + 1) % 2 ^ (F.MTR_PCNT k).width ∧
      OnlyRegs [(F.MTR_PEND k).addr, (F.MTR_PCNT k).addr] { s with mtr := t.mtr } t) ∧
    (∃ t, exec (.pulseEnd k) s = .next t ∧ (t.pulse k).active = false ∧ (t.pulse k).cnt = (s.pulse k).cnt ∧ OnlyRegs [] { s with mtr := t.mtr } t) ∧
    ((s.pulse k).q0 = none → s.pulseWidth k = s.rd (F.MTR_PWID k) * 50000) ∧
    (∀ a b, (s.pulse k).q0 = some a → (s.pulse k).q1 = some b → s.pulseWidth k = (if 2 * (s.rd (F.MTR_PWID k) * 50000) ≤ b - a then
      s.rd (F.MTR_PWID k) * 50000 else max ((b - a) / 2) (s.rd (F.MTR_PWMIN k) * 50000)))) ∧
  (∀ (v : Word) (s u : State), s.turn 0x49040 (F.MTRE_SNAPGO.put v 1) = some u → ∃ t, exec (.mtreSnapshot v) s = .next t ∧
    (∀ p q : Nat, p < 2 → q < 8 → t.rd64 (F.MTRE_ELO p q) = u.energy p q % 2 ^ 64) ∧
    (∀ p q : Nat, p < 2 → q < 4 → t.rd (F.MTRE_WRAPA p) / 2 ^ (8 * q) % 256 = u.energyWrap p q ∧
      t.rd (F.MTRE_WRAPB p) / 2 ^ (8 * q) % 256 = u.energyWrap p (4 + q)) ∧
    t.rd64 F.MTRE_SNAPTLO = u.now64 % 2 ^ 64 ∧ t.rd F.MTRE_SNAPSEQ = (u.rd F.MTRE_SNAPSEQ + 1) % 2 ^ F.MTRE_SNAPSEQ.width ∧
    t.rdBit (F.IFLG Pg.MTRE) 0 = true ∧ t.mtr.energy = u.mtr.energy ∧
    { t with regs := u.regs, hwSet := u.hwSet, mtr := u.mtr, mode := { t.mode with hwAt := u.mode.hwAt } } = u) ∧
  (∀ (v : Word) (s u : State), s.turn 0x49050 (F.MTRE_PRESETGO.put v 1) = some u →
    (u.rd (F.LOCK Pg.MTRE) = 1 → exec (.energyPreset v) s = .next (noteWrite 0x49050 (u, .locked)).settle) ∧
    (u.rd (F.LOCK Pg.MTRE) = 0 → 1 < u.modeNow → exec (.energyPreset v) s = .next (noteWrite 0x49050 (u, .range)).settle) ∧
    (u.rd (F.LOCK Pg.MTRE) = 0 → u.modeNow ≤ 1 → ∃ t, exec (.energyPreset v) s = .next t ∧ t.mem = u.mem ∧
      t.energy (F.MTRE_PREPORT.of v) (F.MTRE_PREQ.of v) = u.rd64 F.MTRE_PRESETLO ∧
      t.rd (F.MTRE_ALIAS (F.MTRE_PREPORT.of v) (F.MTRE_PREQ.of v)) = u.rd64 F.MTRE_PRESETLO / 1000 % 2 ^ 32 ∧
      ∀ p q : Nat, p < 2 → q < 8 → p ≠ F.MTRE_PREPORT.of v ∨ q ≠ F.MTRE_PREQ.of v → t.energyRaw p q = u.energyRaw p q))

/-- Links rise and fall, frames received are checked and counted, frames sent leave their queue, and descriptors advance their ring (R356, R357, R358, R359, R361, R364, R366, R367, 18_network_and_array). -/
def Obligations.PortsAndFrames : Prop :=
  (∀ (p : Fin 2) (s : State), (s.netUp = false ∨ s.rd (F.NET_PCFG_MODE p) = 0 ∨ s.rd (F.NET_PSTAT_LINK p) = 1 → exec (.linkUp p) s = .next s) ∧
    (s.netUp = true → s.rd (F.NET_PCFG_MODE p) ≠ 0 → s.rd (F.NET_PSTAT_LINK p) = 0 → ∃ t, exec (.linkUp p) s = .next t ∧
      t.rd (F.NET_PSTAT_LINK p) = 1 ∧ t.rd (F.NET_PSTAT_SYNC p) = 1 ∧ t.rdBit (F.IFLG Pg.NET) p = true ∧
      OnlyRegs [(F.NET_PSTAT_LINK p).addr, 0x58010, 0x58018] s t)) ∧
  (∀ (p : Fin 2) (b : Bool) (s : State), ∃ t, exec (.linkDown p b) s = .next t ∧ t.rd (F.NET_PSTAT_LINK p) = 0 ∧
    t.rd (F.NET_PSTAT_SYNC p) = (if b then 0 else s.rd (F.NET_PSTAT_SYNC p)) ∧ t.mem = s.mem ∧ t.net = s.net ∧
    t.rd (F.NET_PSTAT_LINKDN p) = (if s.rd (F.NET_PSTAT_LINK p) = 1 ∧ s.rd (F.NET_PCFG_MODE p) ≠ 0 then
      min (s.rd (F.NET_PSTAT_LINKDN p) + 1) (2 ^ (F.NET_PSTAT_LINKDN p).width - 1) else s.rd (F.NET_PSTAT_LINKDN p)) ∧
    (s.rd (F.NET_PSTAT_LINK p) = 1 → t.rdBit (F.IFLG Pg.NET) p = true) ∧ (s.rd (F.NET_PSTAT_LINK p) = 0 → b = false → t = s)) ∧
  (∀ (p : Fin 2) (l : List Byte) (fcs : Bool) (ago : Nat) (egr : Option Nat) (s : State),
    (s.netUp = false ∨ s.rd (F.NET_PCFG_MODE p) = 0 ∨ s.rd (F.NET_PSTAT_LINK p) = 0 → exec (.frameReceive p l fcs ago egr) s = .next s) ∧
    (s.netUp = true → s.rd (F.NET_PCFG_MODE p) ≠ 0 → s.rd (F.NET_PSTAT_LINK p) = 1 →
      (frType l = 0x8808 → ∃ t, exec (.frameReceive p l fcs ago egr) s = .next t ∧ t.rd (F.NET_RXERR p) = min (s.rd (F.NET_RXERR p) + 1) 65535 ∧
        OnlyRegs [(F.NET_RXERR p).addr] { s with free := t.free } t) ∧
      (fcs = false → frAt l 0 6 = macOf (s.rd F.NET_MACLO) (s.rd F.NET_MACHI) → ∃ t, exec (.frameReceive p l fcs ago egr) s = .next t ∧
        t.rd (F.NET_RXERR p) = min (s.rd (F.NET_RXERR p) + 1) 65535 ∧ OnlyRegs [(F.NET_RXERR p).addr] { s with free := t.free } t) ∧
      (fcs = true → frType l ≠ 0x8808 → 60 ≤ l.length → l.length + 4 ≤ s.rd F.NET_MAXLEN → s.rung = 0 →
        frAt l 0 6 = macOf (s.rd F.NET_MACLO) (s.rd F.NET_MACHI) → ∃ t, exec (.frameReceive p l fcs ago egr) s = .next t ∧
          t.rd (F.NET_RXFRM p) = min (s.rd (F.NET_RXFRM p) + 1) 65535 ∧ t.net = s.net ∧
          (s.frKind l = 1 ∨ s.frKind l = 3 ∨ s.enabled Pg.NET = false → OnlyRegs [(F.NET_RXFRM p).addr] { s with free := t.free } t) ∧
          (s.frKind l = 0 ∨ s.frKind l = 2 → s.enabled Pg.NET = true →
            (if s.rd F.NET_RXN < 2 ∨ (s.rd F.NET_RXHEAD + 1) % s.rd F.NET_RXN = s.rd F.NET_RXTAIL then
              t.rd F.NET_RXOVF = min (s.rd F.NET_RXOVF + 1) (2 ^ 32 - 1) ∧ t.rd F.NET_RXHEAD = s.rd F.NET_RXHEAD ∧ t.mem = s.mem
             else t.rd F.NET_RXHEAD = (s.rd F.NET_RXHEAD + 1) % s.rd F.NET_RXN ∧ t.rdBit (F.IFLG Pg.NET) 2 = true))))) ∧
  (∀ (p : Fin 2) (n : Nat) (s : State), (s.netUp = false ∨ s.rd (F.NET_PSTAT_LINK p) = 0 → exec (.frameTransmit p n) s = .next s) ∧
    (s.netUp = true → s.rd (F.NET_PSTAT_LINK p) = 1 →
      (s.txPick p = none → ∃ t, exec (.frameTransmit p n) s = .next t ∧ OnlyRegs [] { s with free := t.free } t) ∧
      (∀ (q : Fin 8) (f : QFrame) (r : List QFrame), s.txPick p = some q.val → s.queue p q = f :: r → ∃ t, exec (.frameTransmit p n) s = .next t ∧
        (t.queue p q).length = r.length ∧ (f.strm = none → t.queue p q = r) ∧
        (∀ (k a b : Nat), f.strm = some (k, a, b) → (t.strm k).gap = false ∧ (f.gap = false → (s.strm k).gap = false → t.queue p q = r)) ∧ t.rd (F.NETQ_TXFRM p q) = (s.rd (F.NETQ_TXFRM p q) + 1) % 2 ^ (F.NETQ_TXFRM p q).width ∧ (t.port p).out ≠ none ∧
        (∀ (a : Fin 2) (b : Fin 8), a ≠ p ∨ b ≠ q → (t.queue a b).length = (s.queue a b).length ∧ (f.strm = none → t.queue a b = s.queue a b)))) ∧
    (∀ q : Fin 8, s.rd (F.NETQ_GEN p) = 0 → s.queue p q ≠ [] → (∀ b : Fin 8, q < b → s.queue p b = []) → s.txPick p = some q.val)) ∧
  (∀ s : State, (s.netUp = false ∨ s.enabled Pg.NET = false ∨ s.rd F.NET_TXN < 2 ∨ s.rd F.NET_TXHEAD = s.rd F.NET_TXTAIL →
      exec .txDescriptorProcess s = .next s) ∧
    (∀ (t : State) (d : Nat) (b : Bool), s.netUp = true → s.enabled Pg.NET = true → 2 ≤ s.rd F.NET_TXN → s.rd F.NET_TXHEAD ≠ s.rd F.NET_TXTAIL →
      s.read64 (0x300000 + s.rd F.NET_TXDBASE + 8 * s.rd F.NET_TXHEAD) = (t, d, b) →
      ∃ u, exec .txDescriptorProcess s = .next u ∧ u.rd F.NET_TXHEAD = (s.rd F.NET_TXHEAD + 1) % s.rd F.NET_TXN ∧
        (b = true ∨ d / 2 ^ 29 % 8 = 0 ∨ d % 2 ^ 16 < 60 ∨ s.rd F.NET_MAXLEN < d % 2 ^ 16 + 4 →
          u.rd F.NET_TXBAD = min (s.rd F.NET_TXBAD + 1) 65535 ∧ u.net = s.net ∧ u.mem = t.mem))) ∧
  (∀ (v : Word) (s u : State), s.turn 0x58140 (F.NET_MDGO.put v 1) = some u → ∃ t, exec (.mdioTransaction v) s = .next t ∧ t.rd F.NET_MDGO = 1 ∧
    t.rd F.NET_MDOP = F.NET_MDOP.of v ∧ (u.rd F.NET_MDGO = 1 → OnlyRegs [0x58140] u t) ∧
    (u.rd F.NET_MDGO = 0 → OnlyRegs [0x58140] { u with net := { u.net with mdRead := decide (F.NET_MDOP.of v = 2 ∨ (F.NET_MDOP.of v = 3 ∧ t.rd F.NET_C22WR = 0)) } } t)) ∧
  (∀ (d : BitVec 16) (s : State), (s.rd F.NET_MDGO = 0 → exec (.mdioComplete d) s = .next s) ∧
    (s.rd F.NET_MDGO = 1 → ∃ t, exec (.mdioComplete d) s = .next t ∧ t.rd F.NET_MDGO = 0 ∧ OnlyRegs [0x58140] s t ∧
      t.rd F.NET_MDDATA = if s.net.mdRead = true then d.toNat else s.rd F.NET_MDDATA))

/-- A gate list is installed, takes over at its instant and advances; setpoints are checked, armed, and applied or missed; a frame is queued (R364, R365, R369, R370, R371, R372, R373, R375, 18_network_and_array). -/
def Obligations.GatesSetpointsStreams : Prop :=
  (∀ (p : Fin 2) (v : Word) (s u : State), s.turn (0x59160 + 0x200 * p) ((F.NETQ_INSTALL p).put v 1) = some u →
    ((F.NETQ_ADMLEN p).of v = 0 ∨ 32 < (F.NETQ_ADMLEN p).of v → exec (.gateListInstall p v) s = .next (noteWrite (0x59160 + 0x200 * p) (u, .range)).settle) ∧
    (1 ≤ (F.NETQ_ADMLEN p).of v → (F.NETQ_ADMLEN p).of v ≤ 32 →
      (u.rd (F.NETQ_PEND p) = 1 → exec (.gateListInstall p v) s = .next (noteWrite (0x59160 + 0x200 * p) (u, .busy)).settle) ∧
      (u.rd (F.NETQ_PEND p) = 0 → u.rd (F.NETQ_CYCLE p) < 1000 ∨ 1000000000 < u.rd (F.NETQ_CYCLE p) ∨ u.rd (F.NETQ_CYCLE p) % 8 ≠ 0 →
        exec (.gateListInstall p v) s = .next (noteWrite (0x59160 + 0x200 * p) (u, .range)).settle) ∧
      (u.rd (F.NETQ_PEND p) = 0 → 1000 ≤ u.rd (F.NETQ_CYCLE p) → u.rd (F.NETQ_CYCLE p) ≤ 1000000000 → u.rd (F.NETQ_CYCLE p) % 8 = 0 →
        ∃ t, exec (.gateListInstall p v) s = .next t ∧ t.rd (F.NETQ_PEND p) = 1 ∧ (t.port p).pend = some
          { ents := (List.range ((F.NETQ_ADMLEN p).of v)).map fun e => u.reg (F.NETQ_GATES p e).addr, cyc := u.rd (F.NETQ_CYCLE p),
            base := u.rd (F.NETQ_BASELO p) + 2 ^ 32 * u.rd (F.NETQ_BASEHI p),
            start := u.gateStart (u.rd (F.NETQ_BASELO p) + 2 ^ 32 * u.rd (F.NETQ_BASEHI p)) (u.rd (F.NETQ_CYCLE p)) } ∧
          OnlyRegs [0x59160 + 0x200 * p] { u with net := t.net } t))) ∧
  (∀ (p : Fin 2) (s : State), ((s.port p).pend = none → exec (.gateListOperative p) s = .next s) ∧
    (∀ g : GateList, (s.port p).pend = some g → reached 64 s.now64 g.start = false → exec (.gateListOperative p) s = .next s) ∧
    (∀ g : GateList, (s.port p).pend = some g → reached 64 s.now64 g.start = true → g.ents.length ≤ 32 → ∃ t, exec (.gateListOperative p) s = .next t ∧
      t.rd (F.NETQ_OPLEN p) = g.ents.length ∧ t.gateEnts p = g.ents ∧ (t.port p).cyc = g.cyc ∧ (t.port p).base = g.base ∧
      (t.port p).pend = none ∧ t.rd (F.NETQ_PEND p) = 0 ∧ t.rd (F.NETQ_CYCCNT p) = (s.rd (F.NETQ_CYCCNT p) + 1) % 2 ^ (F.NETQ_CYCCNT p).width ∧
      t.rdBit (F.IFLG Pg.NETQ) p = true ∧ t.mem = s.mem)) ∧
  (∀ (p : Fin 2) (s : State), (s.rd (F.NETQ_OPLEN p) = 0 → exec (.gateEntryChange p) s = .next s) ∧
    (s.rd (F.NETQ_OPIDX p) + 1 < s.rd (F.NETQ_OPLEN p) → s.rd (F.NETQ_OPLEN p) ≤ 32 → (s.gateEnts p).all (fun w => w.toNat % 2 ^ 24 != 0) = true →
      ((s.gateEnts p).take (s.rd (F.NETQ_OPIDX p) + 1)).foldl (fun n w => n + w.toNat % 2 ^ 24 * 8) 0 < (s.port p).cyc →
      ∃ t, exec (.gateEntryChange p) s = .next t ∧ t.rd (F.NETQ_OPIDX p) = s.rd (F.NETQ_OPIDX p) + 1 ∧ OnlyRegs [(F.NETQ_OPIDX p).addr] s t) ∧
    (s.rd (F.NETQ_OPLEN p) ≠ 0 → s.rd (F.NETQ_OPLEN p) ≤ s.rd (F.NETQ_OPIDX p) + 1 → (s.gateEnts p).all (fun w => w.toNat % 2 ^ 24 != 0) = true →
      ∃ t, exec (.gateEntryChange p) s = .next t ∧ t.rd (F.NETQ_OPIDX p) = 0 ∧
        t.rd (F.NETQ_CYCCNT p) = (s.rd (F.NETQ_CYCCNT p) + 1) % 2 ^ (F.NETQ_CYCCNT p).width ∧ t.mem = s.mem ∧
        ∀ (q : Fin 8) (f : QFrame) (r : List QFrame), s.queue p q = f :: r →
          (t.queue p q).length = if f.held = true ∧ s.rd (F.NETQ_GEN p) = 1 ∧ s.gateEver p q f.len = false then r.length else r.length + 1)) ∧
  (∀ (sa : BitVec 48) (l : List Byte) (s : State),
    (l.length < 24 + 8 * frAt l 21 1 ∨ frAt l 1 1 ≠ 1 ∨ frAt l 21 1 = 0 ∨ 8 < frAt l 21 1 ∨ 15 < frAt l 20 1 →
      ∃ t, exec (.setpointFrameReceive sa l) s = .next t ∧ t.rd F.NET_SPLAST = 1 ∧ t.rd F.NET_SPREF = min (s.rd F.NET_SPREF + 1) (2 ^ F.NET_SPREF.width - 1) ∧
        t.rdBit (F.IFLG Pg.NET) 4 = true ∧ OnlyRegs [F.NET_SPREF.addr, F.NET_SPLAST.addr, 0x58010, 0x58018] s t) ∧
    (24 + 8 * frAt l 21 1 ≤ l.length → frAt l 1 1 = 1 → 1 ≤ frAt l 21 1 → frAt l 21 1 ≤ 8 → frAt l 20 1 ≤ 15 →
      (∀ w ∈ spWrites l (frAt l 21 1), w.1 ≤ 7 ∧ w.2.1 ≤ 15) →
      (s.rd F.NET_ARRID < frAt l 16 2 ∨ frAt l 18 2 < s.rd F.NET_ARRID → exec (.setpointFrameReceive sa l) s = .next s) ∧
      (frAt l 16 2 ≤ s.rd F.NET_ARRID → s.rd F.NET_ARRID ≤ frAt l 18 2 →
        (s.rd F.NET_MACCHK = 1 → sa.toNat ≠ macOf (s.rd F.NET_MASTERMACLO) (s.rd F.NET_MASTERMACHI) →
          ∃ t, exec (.setpointFrameReceive sa l) s = .next t ∧ t.rd F.NET_SPLAST = 2 ∧ t.net = s.net ∧ t.mem = s.mem) ∧
        (s.rd F.NET_MACCHK = 0 ∨ sa.toNat = macOf (s.rd F.NET_MASTERMACLO) (s.rd F.NET_MASTERMACHI) →
          (∀ n, s.net.seq = some n → sdiff 32 (frAt l 4 4) n ≤ 0 → exec (.setpointFrameReceive sa l) s = .next (s.sat F.NET_SPDUP)) ∧
          (s.net.seq = none → (∀ w ∈ spWrites l (frAt l 21 1), s.has (Pg.CH w.1) = true) → frAt l 8 8 = 0 →
            ∃ t, exec (.setpointFrameReceive sa l) s = .next t ∧ t.net.seq = some (frAt l 4 4) ∧ t.rd (F.NET_ARMED (frAt l 20 1)) = 1 ∧
              t.rd (F.NET_STAGED (frAt l 20 1)) = 1 ∧ t.rd (F.NET_NW (frAt l 20 1)) = frAt l 21 1 ∧
              t.sp (frAt l 20 1) = { tapply := 0, writes := spWrites l (frAt l 21 1) } ∧ t.mem = s.mem)))) ) ∧
  (∀ s u : State, s.timeOrder 4 = u → ((∀ n, n < 16 → u.rd (F.NET_ARMED n) = 0 ∨ (u.sp n).late = some u.tick ∨ u.rd (F.NET_STAGED n) = 1 ∨ reached 64 u.now64 (u.sp n).tapply = false) →
      exec .setpointApply s = .next u) ∧
    ((∀ n, n < 16 → ∀ w ∈ (u.sp n).writes, w.1 < 8 ∧ w.2.1 < 16) → ∃ t, exec .setpointApply s = .next t ∧ (u.rung ≠ 0 → t.mem = u.mem) ∧
      (u.rung = 0 → ∀ w : Nat × Nat × Word, w.1 < 8 → w.2.1 < 16 →
        ((((List.range 16).filter u.spReady).flatMap fun n => (u.sp n).writes).reverse.find? fun x => x.1 == w.1 && x.2.1 == w.2.1) = some w →
        t.reg (F.CH_SLOT w.1 w.2.1).addr = if u.rdBit (F.CH_OWNENG w.1) w.2.1 = true then u.reg (F.CH_SLOT w.1 w.2.1).addr else w.2.2) ∧
      (u.rung = 0 → ∀ n c : Nat, n < 16 → c < 8 → u.spReady n = true → u.rd (F.NET_CMT n) / 2 ^ c % 2 = 1 → u.has (Pg.CH c) = true →
        (t.ch c).cmTick = some u.tick ∧ ∀ k : Nat, k < 16 → SMap.get (fun _ => 0) (t.ch c).req k = t.reg (F.CH_SLOT c k).addr) ∧
      ∀ n, n < 16 → u.rd (F.NET_ARMED n) = 1 → u.rd (F.NET_STAGED n) = 0 → reached 64 u.now64 (u.sp n).tapply = true → (u.sp n).late ≠ some u.tick →
        t.rd (F.NET_ARMED n) = 0 ∧ t.rd (F.NET_NW n) = 0 ∧ t.sp n = {} ∧ (u.rung ≠ 0 → u.rd F.NET_SPMISS < 65535 → u.rd F.NET_SPMISS < t.rd F.NET_SPMISS))) ∧
  (∀ (k : Fin 8) (s : State), ((s.strm k).cur = [] → exec (.streamFrameQueue k) s = .next s) ∧
    ((s.strm k).cur ≠ [] → ∃ t, exec (.streamFrameQueue k) s = .next t ∧ (t.strm k).cur = [] ∧
      t.rd (F.STRM_FSEQ k) = (s.rd (F.STRM_FSEQ k) + 1) % 2 ^ 32 ∧ (s.rd (F.STRM_PA k) = 0 → s.rd (F.STRM_PB k) = 0 → t.net.q = s.net.q ∧ t.mem = s.mem) ∧
      (s.rd (F.STRM_PA k) = 1 → s.rd (F.STRM_PB k) = 0 →
        (if s.rd (F.NETQ_QLIM 0 (s.rd F.NETQ_STRMQ)) < (s.queue 0 (s.rd F.NETQ_STRMQ)).foldl (fun n x => n + x.blks.length) 0 +
            ((padFrame (s.strmBytes k)).length + 259) / 256 then
          t.queue 0 (s.rd F.NETQ_STRMQ) = s.queue 0 (s.rd F.NETQ_STRMQ) ∧ (t.strm k).gap = true ∧
            t.rd (F.STRM_LOST k) = min (s.rd (F.STRM_LOST k) + (s.strm k).cur.length) (2 ^ (F.STRM_LOST k).width - 1)
         else (t.queue 0 (s.rd F.NETQ_STRMQ)).map (·.strm) = (s.queue 0 (s.rd F.NETQ_STRMQ)).map (·.strm) ++
            [some (k.val, s.rd (F.STRM_FSEQ k), (s.strm k).cur.length)]))))

/-- Inputs and monitors demand stops only after the start-up test; a monitor fault asserts STO at once, and an SS1 stop runs its envelope (R378, R379, R380, R381, R382, R383, R385, R386, 19_safety_functions). -/
def Obligations.SafetyInputsAndMonitors : Prop :=
  (∀ (b level : Bool) (s : State), ∃ t, exec (.sstopInputChange b level) s = .next t ∧
    t.safe.lvlA = (if b then s.safe.lvlA else level) ∧ t.safe.lvlB = (if b then level else s.safe.lvlB) ∧
    t.rd F.SAFE_SSDEM = (if level = true ∨ (if b then s.safe.lvlA else s.safe.lvlB) = true then 1 else 0) ∧ t.mem = s.mem ∧
    (s.safe.tested = false → t.rd F.SAFE_PHASE = s.rd F.SAFE_PHASE ∧ t.modeNow = s.modeNow ∧ t.rd F.SAFE_STOA = s.rd F.SAFE_STOA) ∧
    (s.safe.tested = true → level = true → s.rd F.SAFE_SSDEM = 0 → s.rd F.SAFE_PHASE = 0 → s.modeNow ≠ 7 →
      t.rd F.SAFE_DEMCNT = min (s.rd F.SAFE_DEMCNT + 1) 65535 ∧
      (if s.rd F.SAFE_SSMODE = 1 then t.rd F.SAFE_PHASE = 2 ∧ t.modeNow = 7 ∧ t.rd F.SYS_CAUSE = 7 ∧ t.rd F.SAFE_STOA = 1 ∧ t.rd F.SAFE_STOB = 1
       else t.rd F.SAFE_PHASE = 1 ∧ t.modeNow = s.modeNow ∧ t.rd F.SYS_MOVING = 1))) ∧
  (∀ s : State, (s.safe.lvlA = s.safe.lvlB → exec .sstopDiscrepancy s = .next s) ∧
    (s.safe.lvlA ≠ s.safe.lvlB → ∃ t, exec .sstopDiscrepancy s = .next t ∧ t.rd F.SAFE_SSDISCLAT = 1 ∧ t.rd F.SAFE_SFAULT = 1 ∧ t.mem = s.mem)) ∧
  (∀ (c : Instr) (f : Fld) (s : State), (c = .monitorDivergence ∧ f = F.SAFE_MONDIV) ∨ (c = .stoFeedbackMismatch ∧ f = F.SAFE_STOFB) →
    ∃ t, exec c s = .next t ∧ t.rd f = 1 ∧ t.rd F.SAFE_SFAULT = 1 ∧ t.rd F.SAFE_STOA = 1 ∧ t.rd F.SAFE_STOB = 1 ∧
      (s.safe.tested = true → s.rd F.SAFE_PHASE ≤ 1 → s.modeNow ≠ 7 → t.rd F.SAFE_PHASE = 2 ∧ t.modeNow = 7 ∧
        t.rd F.SYS_CAUSE = (if s.rd F.SAFE_PHASE = 0 ∨ s.safe.causeShut = true then 6 else 7)) ∧
      (s.safe.tested = false → s.rd F.SAFE_PHASE = 0 → t.rd F.SAFE_PHASE = 0 ∧ t.modeNow = s.modeNow)) ∧
  (∀ s : State, (s.rd F.SAFE_PHASE ≠ 1 → exec .ss1Evaluation s = .next s) ∧
    (s.rd F.SAFE_PHASE = 1 → ∃ t, exec .ss1Evaluation s = .next t ∧ t.safe.t10 = s.safe.t10 + 1 ∧
      (s.safe.idle = true ∨ s.rd F.SAFE_TSS1 * 100 ≤ s.safe.t10 ∨ (s.rd F.SAFE_RAMPT * 100 ≤ s.safe.t10 ∧ s.machOn = false) →
        t.rd F.SAFE_PHASE = 2 ∧ t.modeNow = 7 ∧ t.rd F.SAFE_STOA = 1 ∧ t.rd F.SAFE_STOB = 1 ∧ t.rd F.SAFE_ENV = 0 ∧
        t.rd F.SYS_CAUSE = (if s.safe.causeShut then 6 else 7)) ∧
      (s.safe.idle = false → s.machOn = false → s.safe.t10 < s.rd F.SAFE_RAMPT * 100 → s.safe.t10 < s.rd F.SAFE_TSS1 * 100 →
        t.rd F.SAFE_PHASE = 1 ∧ t.modeNow = s.modeNow ∧ OnlyRegs [F.SAFE_ENV.addr] { s with safe := t.safe, free := t.free } t ∧
        t.f32 F.SAFE_ENV = Config.rounded s.free (max (F32.toRat (F32.abs s.safe.w0) + s.q F.SAFE_WTOL - s.q F.SAFE_DECEL * (s.safe.t10 : Rat) / 100000)
          (s.q F.SAFE_WZERO))))) ∧
  (∀ (a b : Bool) (s : State), (s.safe.tested = true ∨ s.phase = .down ∨ s.tmode = true → exec (.safetyStartupTestPass a b) s = .next s) ∧
    (s.safe.tested = false → s.phase ≠ .down → s.tmode = false → ∃ t, exec (.safetyStartupTestPass a b) s = .next t ∧ t.safe.tested = true ∧ t.safe.lvlA = a ∧ t.safe.lvlB = b ∧
      t.rd F.SAFE_SSDEM = (if a = true ∨ b = true then 1 else 0) ∧
      t.rd F.SAFE_SFAULT = (if s.rd F.SAFE_SSDISCLAT = 1 ∨ s.rd F.SAFE_STOFB = 1 ∨ s.rd F.SAFE_MONDIV = 1 then 1 else 0) ∧
      (a = true ∨ b = true → s.rd F.SAFE_PHASE = 0 → s.modeNow ≠ 7 → t.rd F.SAFE_PHASE = if s.rd F.SAFE_SSMODE = 1 ∨ s.rd F.SAFE_MONDIV = 1 ∨ s.rd F.SAFE_STOFB = 1 ∨
        (s.rd F.SAFE_TPDEM = 1 ∧ s.tpWord / 2 % 2 = 1) then 2 else 1))) ∧
  (∀ s : State, (s.rd F.SAFE_STOA = 1 ∨ s.rd F.SAFE_STOB = 1 → exec .stoHoldEnd s = .next s) ∧
    (s.rd F.SAFE_STOA = 0 → s.rd F.SAFE_STOB = 0 → ∃ t, exec .stoHoldEnd s = .next t ∧ t.safe.hold = false ∧ t.modeNow = s.modeNow ∧
      t.rd F.SAFE_STOA = 0 ∧ t.rd F.SAFE_STOB = 0 ∧ t.mem = s.mem))

/-- Twin-path copies are checked and paired, a bad cycle or a loss latches, and parameters, confirmation and release obey their mode (R388, R389, R390, R391, R392, R393, R394, R395, 19_safety_functions). -/
def Obligations.TwinPathAndRelease : Prop :=
  (∀ (pb : Bool) (l : List Byte) (s : State), (tpFormat l = false → exec (.twinPathCopy pb l) s = .next (s.sat F.SAFE_CRCERR)) ∧
    (tpFormat l = true → ((l.getD 2 0).toNat = 1 ↔ pb = false) → exec (.twinPathCopy pb l) s = .next (s.sat F.SAFE_PATHERR)) ∧
    (tpFormat l = true → ((l.getD 2 0).toNat = 1 ↔ pb = true) →
      (beVal ((l.drop 4).take 2) ≠ s.rd F.SAFE_SRCID ∨ s.rd F.NET_ARRID < beVal ((l.drop 20).take 2) ∨
        beVal ((l.drop 22).take 2) < s.rd F.NET_ARRID → exec (.twinPathCopy pb l) s = .next s) ∧
      (beVal ((l.drop 4).take 2) = s.rd F.SAFE_SRCID → beVal ((l.drop 20).take 2) ≤ s.rd F.NET_ARRID →
        s.rd F.NET_ARRID ≤ beVal ((l.drop 22).take 2) →
        (s.safe.cycle = none → s.safe.seqSeen = false → beVal ((l.drop 6).take 2) % 4 = 0 → exec (.twinPathCopy pb l) s = .next
          { s with safe := { s.safe with cycle := some ⟨beVal ((l.drop 8).take 4), (l.getD 2 0).toNat, (l.drop 4).take 28, false⟩ } }) ∧
        (∀ c : TpCycle, s.safe.cycle = some c → c.seq = beVal ((l.drop 8).take 4) →
          (c.path = (l.getD 2 0).toNat → exec (.twinPathCopy pb l) s = .next s) ∧
          (c.path ≠ (l.getD 2 0).toNat → ∃ t, exec (.twinPathCopy pb l) s = .next t ∧ t.safe.cycle = none ∧ t.safe.seqSeen = true ∧
            t.rd F.SAFE_LASTSEQ = c.seq % 2 ^ 32 ∧
            (c.body = (l.drop 4).take 28 → t.rd F.SAFE_WORD = beVal ((l.drop 6).take 2) ∧ t.rd F.SAFE_SINGLECNT = 0 ∧
              (beVal ((l.drop 6).take 2) = 0 → t.rd F.SAFE_TPDEM = 0 ∧ t.safe.accepted0 = true)) ∧
            (c.body ≠ (l.drop 4).take 28 → t.rd F.SAFE_DISCNT = min (s.rd F.SAFE_DISCNT + 1) 65535 ∧ t.safe.accepted0 = false ∧
              (s.rd F.SAFE_TPEN = 1 → t.rd F.SAFE_TPLAT = 1 ∧ (s.rd F.SAFE_TPLAT = 0 → t.rd F.SAFE_TPRSN = 1)))))))) ∧
  (∀ s : State, (s.safe.cycle = none → exec .twinPathWindowClose s = .next s) ∧
    (∀ c : TpCycle, s.safe.cycle = some c → ∃ t, exec .twinPathWindowClose s = .next t ∧ t.safe.cycle = none ∧ t.rd F.SAFE_LASTSEQ = c.seq % 2 ^ 32 ∧
      t.rd F.SAFE_SINGLECNT = min (s.rd F.SAFE_SINGLECNT + 1) 255 ∧ t.rd F.SAFE_SINGLETOT = min (s.rd F.SAFE_SINGLETOT + 1) 65535 ∧
      (s.rd F.SAFE_SINGLEMAX < min (s.rd F.SAFE_SINGLECNT + 1) 255 → s.rd F.SAFE_TPEN = 1 → s.rd F.SAFE_TPLAT = 0 →
        t.rd F.SAFE_TPLAT = 1 ∧ t.rd F.SAFE_TPRSN = 2) ∧
      (min (s.rd F.SAFE_SINGLECNT + 1) 255 ≤ s.rd F.SAFE_SINGLEMAX → t.rd F.SAFE_TPLAT = s.rd F.SAFE_TPLAT)) ∧
    (s.rd F.SAFE_TPEN = 0 ∨ s.rd F.SAFE_TPLAT = 1 → exec .twinPathLoss s = .next s) ∧
    (s.rd F.SAFE_TPEN = 1 → s.rd F.SAFE_TPLAT = 0 → ∃ t, exec .twinPathLoss s = .next t ∧ t.rd F.SAFE_TPLAT = 1 ∧ t.rd F.SAFE_TPRSN = 3 ∧
      t.rdBit (F.IRAW Pg.SAFE) 2 = true ∧ t.mem = s.mem)) ∧
  (∀ (v : Word) (s u : State), s.turn 0xB040 (F.SAFE_TPLAT.put v 1) = some u → ∃ t, exec (.tplatClear v) s = .next t ∧ t.mem = u.mem ∧
    (u.hwBits 0xB040 = 0 → u.safe.accepted0 = true → t.rd F.SAFE_TPLAT = 0 ∧ t.rd F.SAFE_TPRSN = 0 ∧ t.rdBit (F.IRAW Pg.SAFE) 2 = false) ∧
    (u.safe.accepted0 = false → t.rd F.SAFE_TPLAT = u.rd F.SAFE_TPLAT ∧ t.rd F.SAFE_TPRSN = u.rd F.SAFE_TPRSN) ∧
    (u.safe.lvlA ≠ u.safe.lvlB → t.rd F.SAFE_SSDISCLAT = u.rd F.SAFE_SSDISCLAT)) ∧
  (∀ s : State, (s.rd F.SAFE_TXEN = 0 → exec .safetyFrameProduce s = .next s) ∧
    (s.rd F.SAFE_TXEN = 1 → ∃ t, exec .safetyFrameProduce s = .next t ∧ t.rd F.SAFE_TXSEQ = (s.rd F.SAFE_TXSEQ + 1) % 2 ^ 32 ∧
      ∀ p : Fin 2, (t.queue p (s.rd F.NETQ_SAFEQ)).length = (s.queue p (s.rd F.NETQ_SAFEQ)).length +
        if (s.queue p (s.rd F.NETQ_SAFEQ)).foldl (fun n x => n + x.blks.length) 0 < s.rd (F.NETQ_QLIM p (s.rd F.NETQ_SAFEQ)) then 1 else 0)) ∧
  (∀ (w : Fin 32) (v : Word) (s u : State), s.turn (0xB100 + 4 * w) v = some u →
    (1 < u.modeNow → exec (.safetyParameterWrite w v) s = .next (noteWrite (0xB100 + 4 * w)
      (u, if u.heldRwl (0xB100 + 4 * w) v = v then .busy else .locked)).settle) ∧
    (u.modeNow ≤ 1 → u.rd (F.LOCK Pg.SAFE) = 0 → safeRange (0x100 + 4 * w) v = false →
      exec (.safetyParameterWrite w v) s = .next (noteWrite (0xB100 + 4 * w) (u, .range)).settle) ∧
    (u.modeNow ≤ 1 → u.rd (F.LOCK Pg.SAFE) = 0 → safeRange (0x100 + 4 * w) v = true → ∃ t, exec (.safetyParameterWrite w v) s = .next t ∧
      t.rd F.SAFE_CHECK = t.safeCheck ∧ t.rd F.SAFE_CONFIRM = u.rd F.SAFE_CONFIRM ∧ t.mem = u.mem ∧
      (t.reg (0xB100 + 4 * w) ≠ u.reg (0xB100 + 4 * w) → t.rd F.SAFE_CVALID = 0 ∧ t.rd F.SAFE_STOA = 1 ∧ t.rd F.SAFE_STOB = 1))) ∧
  (∀ (v : Word) (s u : State), s.turn 0xB048 v = some u → (u.modeNow ≠ 1 → exec (.safetyConfirm v) s = .next (noteWrite 0xB048 (u, .busy)).settle) ∧
    (u.modeNow = 1 → ∃ t, exec (.safetyConfirm v) s = .next t ∧ t.rd F.SAFE_CONFIRM = v.toNat ∧ t.rd F.SAFE_CVALID = 1 ∧ t.modeNow = 1 ∧ t.mem = u.mem)) ∧
  (∀ (v : Word) (s u : State), s.turn 0xB050 v = some u →
    (F.SAFE_RELKEY.of v ≠ 0xC35A → exec (.safeRelease v) s = .next (noteWrite 0xB050 (u, .range)).settle) ∧
    (F.SAFE_RELKEY.of v = 0xC35A → F.SAFE_RELGO.of v = 0 → exec (.safeRelease v) s = .next u.settle) ∧
    (F.SAFE_RELKEY.of v = 0xC35A → F.SAFE_RELGO.of v = 1 → u.relReason ≠ 0 → ∃ t, exec (.safeRelease v) s = .next t ∧
      t.rd F.SAFE_RELREF = u.relReason ∧ t.rd F.SAFE_RELREFCNT = min (u.rd F.SAFE_RELREFCNT + 1) 65535 ∧ OnlyRegs [0xB054] u t) ∧
    (F.SAFE_RELKEY.of v = 0xC35A → F.SAFE_RELGO.of v = 1 → u.relReason = 0 → ∃ t, exec (.safeRelease v) s = .next t ∧ t.modeNow = 1 ∧
      t.rd F.SYS_CAUSE = 11 ∧ t.rd F.SAFE_PHASE = 0 ∧ t.rd F.SAFE_RELCNT = min (u.rd F.SAFE_RELCNT + 1) 65535 ∧ t.mem = u.mem)) ∧
  (∀ s : State, s.modeNow ≠ 7 ∨ s.rd F.SAFE_PHASE ≠ 2 → s.relReason = 1) ∧
  (∀ s : State, s.modeNow = 7 → s.rd F.SAFE_PHASE = 2 → (s.safeDemand = true → s.relReason = 2) ∧
    (s.safeDemand = false → s.rd F.SAFE_DECELLAT = 1 → s.relReason = 3))

/-- A seal needs its key, INERT and an idle device; a failed one reopens, a good one resets the device sealed; EXTEST loads in INERT alone (R38, R40, R41, R458, R459, R460, 25_commissioning_and_returns). -/
def Obligations.SealAndTap : Prop :=
  (∀ (v : Word) (s u : State), s.turn 0x1C0 (F.SYS_SEAL_GO.put v 1) = some u →
    (F.SYS_SEAL_KEY.of v ≠ 0xC3A5 → exec (.sealRequest v) s = .next (noteWrite 0x1C0 (u, .range)).settle) ∧
    (F.SYS_SEAL_KEY.of v = 0xC3A5 →
      (∀ x, (x = 1 ∧ u.modeNow ≠ 0) ∨
          (x = 2 ∧ u.modeNow = 0 ∧ (u.secBusy = true ∨ u.rd F.AGE_BUSY = 1 ∨ u.rd F.KEEP_CKBUSY = 1 ∨ u.rd F.SYS_SEALING = 1)) ∨
          (x = 3 ∧ u.modeNow = 0 ∧ u.secBusy = false ∧ u.rd F.AGE_BUSY = 0 ∧ u.rd F.KEEP_CKBUSY = 0 ∧ u.rd F.SYS_SEALING = 0 ∧ u.boot.sealSt = 2) →
        ∃ t, exec (.sealRequest v) s = .next t ∧ t.rd F.SYS_SEALRES = x ∧ OnlyRegs [F.SYS_SEALRES.addr] u t) ∧
      (u.modeNow = 0 → u.secBusy = false → u.rd F.AGE_BUSY = 0 → u.rd F.KEEP_CKBUSY = 0 → u.rd F.SYS_SEALING = 0 → u.boot.sealSt ≠ 2 →
        ∃ t, exec (.sealRequest v) s = .next t ∧ t.rd F.SYS_SEALRES = 0 ∧ t.rd F.SYS_SEALING = 1 ∧ t.boot.sealSt = 1 ∧
          t.boot.sealRef = BitVec.ofNat 32 (u.rd F.SYS_SEALREF) ∧ (∀ a, a < 0x825800 ∨ 0x825808 ≤ a → t.byte a = u.byte a)))) ∧
  (∀ (good : Bool) (s : State), s.rd F.SYS_SEALING = 0 → exec (.sealComplete good) s = .next s) ∧
  (∀ s : State, s.rd F.SYS_SEALING = 1 → (∃ t, exec (.sealComplete false) s = .next t ∧ t.rd F.SYS_SEALING = 0 ∧ t.rd F.SYS_SEALRES = 4 ∧
      t.boot.sealSt = 0 ∧ t.modeNow = s.modeNow ∧ t.mtr.energy = s.mtr.energy) ∧
    ∃ t, exec (.sealComplete true) s = .next t ∧ t.boot.sealSt = 2 ∧ ResetOutcome s t ∧ ∀ p q : Nat, p < 2 → q < 8 → t.energy p q = 0) ∧
  (∀ s : State, exec (.jtagInstruction none) s = .next { s with boot := { s.boot with jtag := 0 } } ∧
      ∀ i : Fin 4, exec (.jtagInstruction (some i)) s = .next { s with boot := { s.boot with
        jtag := if i = 3 ∧ s.modeNow ≠ 0 then 0 else i } }) ∧
  (∀ (s : State) (b : OutBall), (s.boot.dark = true → s.ball b = .released) ∧
    (s.boot.dark = false → s.phase = .down ∨ (s.boot.jtag ≠ 3 ∧ s.tmode = true) → s.ball b = b.resetLvl))
end

