-- ==== Sys2Proof/Laws/Maps.lean ====
section
/-! SUPPORT. The sparse maps: what a stored value reads as, and that storing and filtering keep the canonical form. -/

namespace Sys2Proof
namespace SMap

variable {α : Type}

theorem get_filter_self (d : Nat → α) (m : SMap α) (k : Nat) : get d (m.filter fun e => e.1 != k) k = d k := by
  induction m with
  | nil => rfl
  | cons e t ih =>
    obtain ⟨k', v⟩ := e
    by_cases h : k' = k
    · simpa [List.filter, h] using ih
    · have h' : (k' != k) = true := by simpa using h
      simpa [List.filter, h', get, h] using ih

theorem get_filter_ne (d : Nat → α) (m : SMap α) {k j : Nat} (h : j ≠ k) :
    get d (m.filter fun e => e.1 != k) j = get d m j := by
  induction m with
  | nil => rfl
  | cons e t ih =>
    obtain ⟨k', v⟩ := e
    by_cases hk : k' = k
    · subst hk
      have : k' ≠ j := fun e => h e.symm
      simpa [List.filter, get, this] using ih
    · have hk' : (k' != k) = true := by simpa using hk
      by_cases hj : k' = j
      · subst hj
        simp [List.filter, hk', get]
      · simpa [List.filter, hk', get, hj] using ih

theorem get_place_self (d : Nat → α) (m : SMap α) (k : Nat) (v : α) (h : ∀ e ∈ m, e.1 ≠ k) : get d (place k v m) k = v := by
  induction m with
  | nil => simp [place, get]
  | cons e t ih =>
    obtain ⟨k', v'⟩ := e
    have hk : k' ≠ k := h (k', v') (by simp)
    by_cases hlt : k < k'
    · simp [place, hlt, get]
    · simp only [place, hlt, if_false, get, hk]
      exact ih fun e he => h e (by simp [he])

theorem get_place_ne (d : Nat → α) (m : SMap α) {k j : Nat} (v : α) (h : j ≠ k) : get d (place k v m) j = get d m j := by
  induction m with
  | nil => simp [place, get, Ne.symm h]
  | cons e t ih =>
    obtain ⟨k', v'⟩ := e
    by_cases hlt : k < k'
    · simp [place, hlt, get, Ne.symm h]
    · simp only [place, hlt, if_false, get, ih]

theorem mem_place (k : Nat) (v : α) (m : SMap α) (e : Nat × α) : e ∈ place k v m → e = (k, v) ∨ e ∈ m := by
  induction m with
  | nil => simp [place]
  | cons x t ih =>
    obtain ⟨k', v'⟩ := x
    by_cases hlt : k < k'
    · simp [place, hlt]
    · simp only [place, hlt, if_false, List.mem_cons]
      rintro (h | h)
      · exact Or.inr (Or.inl h)
      · rcases ih h with h | h
        · exact Or.inl h
        · exact Or.inr (Or.inr h)

section
variable [DecidableEq α]

/-- A stored value reads back. -/
@[simp] theorem get_set_self (d : Nat → α) (m : SMap α) (k : Nat) (v : α) : get d (set d m k v) k = v := by
  unfold set
  by_cases h : v = d k
  · simp only [h, if_true]; exact get_filter_self d m k
  · simp only [h, if_false]
    exact get_place_self d _ k v fun e he => by simpa using (List.mem_filter.mp he).2

/-- Storing a value leaves every other key alone. -/
theorem get_set_ne (d : Nat → α) (m : SMap α) {k j : Nat} (v : α) (h : j ≠ k) : get d (set d m k v) j = get d m j := by
  unfold set
  by_cases hv : v = d k
  · simp only [hv, if_true]; exact get_filter_ne d m h
  · simp only [hv, if_false, get_place_ne d _ v h]; exact get_filter_ne d m h

theorem wf_filter (d : Nat → α) (p : Nat × α → Bool) (m : SMap α) (h : wf d m = true) : wf d (m.filter p) = true := by
  induction m with
  | nil => rfl
  | cons e t ih =>
    obtain ⟨k, v⟩ := e
    simp only [wf, Bool.and_eq_true] at h
    have ht := ih h.2
    by_cases hp : p (k, v) = true
    · simp only [List.filter, hp, wf, Bool.and_eq_true]
      refine ⟨⟨h.1.1, ?_⟩, ht⟩
      exact List.all_eq_true.mpr fun e he => List.all_eq_true.mp h.1.2 e (List.mem_filter.mp he).1
    · simpa [List.filter, hp] using ht

theorem wf_place (d : Nat → α) (k : Nat) (v : α) (m : SMap α) (hv : v ≠ d k) (hk : ∀ e ∈ m, e.1 ≠ k) (h : wf d m = true) :
    wf d (place k v m) = true := by
  induction m with
  | nil => simpa [place, wf] using hv
  | cons e t ih =>
    obtain ⟨k', v'⟩ := e
    have hne : k' ≠ k := hk (k', v') (by simp)
    have hs := h
    simp only [wf, Bool.and_eq_true] at h
    have hall := List.all_eq_true.mp h.1.2
    by_cases hlt : k < k'
    · simp only [place, hlt, if_true]
      rw [wf, Bool.and_eq_true, Bool.and_eq_true]
      refine ⟨⟨by simpa using hv, ?_⟩, hs⟩
      rw [List.all_eq_true]
      intro e he
      rcases List.mem_cons.mp he with he | he
      · simpa [he] using hlt
      · have := hall e he
        simp only [decide_eq_true_eq] at this ⊢
        omega
    · simp only [place, hlt, if_false]
      rw [wf, Bool.and_eq_true, Bool.and_eq_true]
      refine ⟨⟨h.1.1, ?_⟩, ih (fun e he => hk e (by simp [he])) h.2⟩
      rw [List.all_eq_true]
      intro e he
      rcases mem_place k v t e he with he | he
      · simp only [he, decide_eq_true_eq]; omega
      · exact hall e he

/-- Storing a value keeps the canonical form. -/
theorem wf_set (d : Nat → α) (m : SMap α) (k : Nat) (v : α) (h : wf d m = true) : wf d (set d m k v) = true := by
  have hf := wf_filter d (fun e => e.1 != k) m h
  unfold set
  by_cases hv : v = d k
  · simpa only [hv, if_true] using hf
  · simp only [hv, if_false]
    exact wf_place d k v _ hv (fun e he => by simpa using (List.mem_filter.mp he).2) hf

end
end SMap
end Sys2Proof
end

