-- ==== Sys2Proof/Laws/State.lean ====
section
/-! SUPPORT. For each update of the state and each field it leaves alone, that it leaves it alone. -/

namespace Sys2Proof.Machine
namespace State

variable (s : State)

@[simp] theorem setReg_variant (a : Nat) (w : Word) : (s.setReg a w).variant = s.variant := (rfl)
@[simp] theorem setReg_phase (a : Nat) (w : Word) : (s.setReg a w).phase = s.phase := (rfl)
@[simp] theorem setReg_tmode (a : Nat) (w : Word) : (s.setReg a w).tmode = s.tmode := (rfl)
@[simp] theorem setReg_hwSet (a : Nat) (w : Word) : (s.setReg a w).hwSet = s.hwSet := (rfl)
@[simp] theorem setReg_mem (a : Nat) (w : Word) : (s.setReg a w).mem = s.mem := (rfl)
@[simp] theorem setReg_chk (a : Nat) (w : Word) : (s.setReg a w).chk = s.chk := (rfl)
@[simp] theorem setReg_valid (a : Nat) (w : Word) : (s.setReg a w).valid = s.valid := (rfl)
@[simp] theorem setReg_clk (a : Nat) (w : Word) : (s.setReg a w).clk = s.clk := (rfl)
@[simp] theorem setReg_time (a : Nat) (w : Word) : (s.setReg a w).time = s.time := (rfl)
@[simp] theorem setReg_boot (a : Nat) (w : Word) : (s.setReg a w).boot = s.boot := (rfl)
@[simp] theorem setReg_keep (a : Nat) (w : Word) : (s.setReg a w).keep = s.keep := (rfl)
@[simp] theorem setReg_sec (a : Nat) (w : Word) : (s.setReg a w).sec = s.sec := (rfl)
@[simp] theorem setReg_age (a : Nat) (w : Word) : (s.setReg a w).age = s.age := (rfl)
@[simp] theorem setReg_hif (a : Nat) (w : Word) : (s.setReg a w).hif = s.hif := (rfl)
@[simp] theorem setReg_alm (a : Nat) (w : Word) : (s.setReg a w).alm = s.alm := (rfl)
@[simp] theorem setReg_leng (a : Nat) (w : Word) : (s.setReg a w).leng = s.leng := (rfl)
@[simp] theorem setReg_mtr (a : Nat) (w : Word) : (s.setReg a w).mtr = s.mtr := (rfl)
@[simp] theorem setReg_net (a : Nat) (w : Word) : (s.setReg a w).net = s.net := (rfl)
@[simp] theorem setReg_flt (a : Nat) (w : Word) : (s.setReg a w).flt = s.flt := (rfl)
@[simp] theorem setReg_jrnl (a : Nat) (w : Word) : (s.setReg a w).jrnl = s.jrnl := (rfl)
@[simp] theorem setReg_ecc (a : Nat) (w : Word) : (s.setReg a w).ecc = s.ecc := (rfl)
@[simp] theorem setReg_mode (a : Nat) (w : Word) : (s.setReg a w).mode = s.mode := (rfl)
@[simp] theorem setReg_safe (a : Nat) (w : Word) : (s.setReg a w).safe = s.safe := (rfl)
@[simp] theorem setReg_legs (a : Nat) (w : Word) : (s.setReg a w).legs = s.legs := (rfl)
@[simp] theorem setReg_ids (a : Nat) (w : Word) : (s.setReg a w).ids = s.ids := (rfl)
@[simp] theorem setReg_grids (a : Nat) (w : Word) : (s.setReg a w).grids = s.grids := (rfl)
@[simp] theorem setReg_chs (a : Nat) (w : Word) : (s.setReg a w).chs = s.chs := (rfl)
@[simp] theorem setReg_forms (a : Nat) (w : Word) : (s.setReg a w).forms = s.forms := (rfl)
@[simp] theorem setReg_dcs (a : Nat) (w : Word) : (s.setReg a w).dcs = s.dcs := (rfl)
@[simp] theorem setReg_isl (a : Nat) (w : Word) : (s.setReg a w).isl = s.isl := (rfl)
@[simp] theorem setReg_ride (a : Nat) (w : Word) : (s.setReg a w).ride = s.ride := (rfl)
@[simp] theorem setReg_subsSeen (a : Nat) (w : Word) : (s.setReg a w).subsSeen = s.subsSeen := (rfl)
@[simp] theorem setReg_syncAt (a : Nat) (w : Word) : (s.setReg a w).syncAt = s.syncAt := (rfl)
@[simp] theorem setReg_syncOutAt (a : Nat) (w : Word) : (s.setReg a w).syncOutAt = s.syncOutAt := (rfl)
@[simp] theorem setReg_mach (a : Nat) (w : Word) : (s.setReg a w).mach = s.mach := (rfl)
@[simp] theorem setReg_mods (a : Nat) (w : Word) : (s.setReg a w).mods = s.mods := (rfl)
@[simp] theorem setReg_blks (a : Nat) (w : Word) : (s.setReg a w).blks = s.blks := (rfl)
@[simp] theorem setReg_padc (a : Nat) (w : Word) : (s.setReg a w).padc = s.padc := (rfl)
@[simp] theorem setReg_cmps (a : Nat) (w : Word) : (s.setReg a w).cmps = s.cmps := (rfl)
@[simp] theorem setReg_ramps (a : Nat) (w : Word) : (s.setReg a w).ramps = s.ramps := (rfl)
@[simp] theorem setReg_stRun (a : Nat) (w : Word) : (s.setReg a w).stRun = s.stRun := (rfl)
@[simp] theorem setReg_stWait (a : Nat) (w : Word) : (s.setReg a w).stWait = s.stWait := (rfl)
@[simp] theorem setReg_trips (a : Nat) (w : Word) : (s.setReg a w).trips = s.trips := (rfl)
@[simp] theorem setReg_gdos (a : Nat) (w : Word) : (s.setReg a w).gdos = s.gdos := (rfl)
@[simp] theorem setReg_free (a : Nat) (w : Word) : (s.setReg a w).free = s.free := (rfl)
@[simp] theorem setReg_tick (a : Nat) (w : Word) : (s.setReg a w).tick = s.tick := (rfl)
@[simp] theorem setReg_pending (a : Nat) (w : Word) : (s.setReg a w).pending = s.pending := (rfl)

@[simp] theorem wr_variant (f : Fld) (v : Nat) : (s.wr f v).variant = s.variant := (rfl)
@[simp] theorem wr_phase (f : Fld) (v : Nat) : (s.wr f v).phase = s.phase := (rfl)
@[simp] theorem wr_tmode (f : Fld) (v : Nat) : (s.wr f v).tmode = s.tmode := (rfl)
@[simp] theorem wr_hwSet (f : Fld) (v : Nat) : (s.wr f v).hwSet = s.hwSet := (rfl)
@[simp] theorem wr_mem (f : Fld) (v : Nat) : (s.wr f v).mem = s.mem := (rfl)
@[simp] theorem wr_chk (f : Fld) (v : Nat) : (s.wr f v).chk = s.chk := (rfl)
@[simp] theorem wr_valid (f : Fld) (v : Nat) : (s.wr f v).valid = s.valid := (rfl)
@[simp] theorem wr_clk (f : Fld) (v : Nat) : (s.wr f v).clk = s.clk := (rfl)
@[simp] theorem wr_time (f : Fld) (v : Nat) : (s.wr f v).time = s.time := (rfl)
@[simp] theorem wr_boot (f : Fld) (v : Nat) : (s.wr f v).boot = s.boot := (rfl)
@[simp] theorem wr_keep (f : Fld) (v : Nat) : (s.wr f v).keep = s.keep := (rfl)
@[simp] theorem wr_sec (f : Fld) (v : Nat) : (s.wr f v).sec = s.sec := (rfl)
@[simp] theorem wr_age (f : Fld) (v : Nat) : (s.wr f v).age = s.age := (rfl)
@[simp] theorem wr_hif (f : Fld) (v : Nat) : (s.wr f v).hif = s.hif := (rfl)
@[simp] theorem wr_alm (f : Fld) (v : Nat) : (s.wr f v).alm = s.alm := (rfl)
@[simp] theorem wr_leng (f : Fld) (v : Nat) : (s.wr f v).leng = s.leng := (rfl)
@[simp] theorem wr_mtr (f : Fld) (v : Nat) : (s.wr f v).mtr = s.mtr := (rfl)
@[simp] theorem wr_net (f : Fld) (v : Nat) : (s.wr f v).net = s.net := (rfl)
@[simp] theorem wr_flt (f : Fld) (v : Nat) : (s.wr f v).flt = s.flt := (rfl)
@[simp] theorem wr_jrnl (f : Fld) (v : Nat) : (s.wr f v).jrnl = s.jrnl := (rfl)
@[simp] theorem wr_ecc (f : Fld) (v : Nat) : (s.wr f v).ecc = s.ecc := (rfl)
@[simp] theorem wr_mode (f : Fld) (v : Nat) : (s.wr f v).mode = s.mode := (rfl)
@[simp] theorem wr_safe (f : Fld) (v : Nat) : (s.wr f v).safe = s.safe := (rfl)
@[simp] theorem wr_legs (f : Fld) (v : Nat) : (s.wr f v).legs = s.legs := (rfl)
@[simp] theorem wr_ids (f : Fld) (v : Nat) : (s.wr f v).ids = s.ids := (rfl)
@[simp] theorem wr_grids (f : Fld) (v : Nat) : (s.wr f v).grids = s.grids := (rfl)
@[simp] theorem wr_chs (f : Fld) (v : Nat) : (s.wr f v).chs = s.chs := (rfl)
@[simp] theorem wr_forms (f : Fld) (v : Nat) : (s.wr f v).forms = s.forms := (rfl)
@[simp] theorem wr_dcs (f : Fld) (v : Nat) : (s.wr f v).dcs = s.dcs := (rfl)
@[simp] theorem wr_isl (f : Fld) (v : Nat) : (s.wr f v).isl = s.isl := (rfl)
@[simp] theorem wr_ride (f : Fld) (v : Nat) : (s.wr f v).ride = s.ride := (rfl)
@[simp] theorem wr_subsSeen (f : Fld) (v : Nat) : (s.wr f v).subsSeen = s.subsSeen := (rfl)
@[simp] theorem wr_syncAt (f : Fld) (v : Nat) : (s.wr f v).syncAt = s.syncAt := (rfl)
@[simp] theorem wr_syncOutAt (f : Fld) (v : Nat) : (s.wr f v).syncOutAt = s.syncOutAt := (rfl)
@[simp] theorem wr_mach (f : Fld) (v : Nat) : (s.wr f v).mach = s.mach := (rfl)
@[simp] theorem wr_mods (f : Fld) (v : Nat) : (s.wr f v).mods = s.mods := (rfl)
@[simp] theorem wr_blks (f : Fld) (v : Nat) : (s.wr f v).blks = s.blks := (rfl)
@[simp] theorem wr_padc (f : Fld) (v : Nat) : (s.wr f v).padc = s.padc := (rfl)
@[simp] theorem wr_cmps (f : Fld) (v : Nat) : (s.wr f v).cmps = s.cmps := (rfl)
@[simp] theorem wr_ramps (f : Fld) (v : Nat) : (s.wr f v).ramps = s.ramps := (rfl)
@[simp] theorem wr_stRun (f : Fld) (v : Nat) : (s.wr f v).stRun = s.stRun := (rfl)
@[simp] theorem wr_stWait (f : Fld) (v : Nat) : (s.wr f v).stWait = s.stWait := (rfl)
@[simp] theorem wr_trips (f : Fld) (v : Nat) : (s.wr f v).trips = s.trips := (rfl)
@[simp] theorem wr_gdos (f : Fld) (v : Nat) : (s.wr f v).gdos = s.gdos := (rfl)
@[simp] theorem wr_free (f : Fld) (v : Nat) : (s.wr f v).free = s.free := (rfl)
@[simp] theorem wr_tick (f : Fld) (v : Nat) : (s.wr f v).tick = s.tick := (rfl)
@[simp] theorem wr_pending (f : Fld) (v : Nat) : (s.wr f v).pending = s.pending := (rfl)

@[simp] theorem setBit_variant (f : Fld) (b : Bool) : (s.setBit f b).variant = s.variant := (rfl)
@[simp] theorem setBit_phase (f : Fld) (b : Bool) : (s.setBit f b).phase = s.phase := (rfl)
@[simp] theorem setBit_tmode (f : Fld) (b : Bool) : (s.setBit f b).tmode = s.tmode := (rfl)
@[simp] theorem setBit_hwSet (f : Fld) (b : Bool) : (s.setBit f b).hwSet = s.hwSet := (rfl)
@[simp] theorem setBit_mem (f : Fld) (b : Bool) : (s.setBit f b).mem = s.mem := (rfl)
@[simp] theorem setBit_chk (f : Fld) (b : Bool) : (s.setBit f b).chk = s.chk := (rfl)
@[simp] theorem setBit_valid (f : Fld) (b : Bool) : (s.setBit f b).valid = s.valid := (rfl)
@[simp] theorem setBit_clk (f : Fld) (b : Bool) : (s.setBit f b).clk = s.clk := (rfl)
@[simp] theorem setBit_time (f : Fld) (b : Bool) : (s.setBit f b).time = s.time := (rfl)
@[simp] theorem setBit_boot (f : Fld) (b : Bool) : (s.setBit f b).boot = s.boot := (rfl)
@[simp] theorem setBit_keep (f : Fld) (b : Bool) : (s.setBit f b).keep = s.keep := (rfl)
@[simp] theorem setBit_sec (f : Fld) (b : Bool) : (s.setBit f b).sec = s.sec := (rfl)
@[simp] theorem setBit_age (f : Fld) (b : Bool) : (s.setBit f b).age = s.age := (rfl)
@[simp] theorem setBit_hif (f : Fld) (b : Bool) : (s.setBit f b).hif = s.hif := (rfl)
@[simp] theorem setBit_alm (f : Fld) (b : Bool) : (s.setBit f b).alm = s.alm := (rfl)
@[simp] theorem setBit_leng (f : Fld) (b : Bool) : (s.setBit f b).leng = s.leng := (rfl)
@[simp] theorem setBit_mtr (f : Fld) (b : Bool) : (s.setBit f b).mtr = s.mtr := (rfl)
@[simp] theorem setBit_net (f : Fld) (b : Bool) : (s.setBit f b).net = s.net := (rfl)
@[simp] theorem setBit_flt (f : Fld) (b : Bool) : (s.setBit f b).flt = s.flt := (rfl)
@[simp] theorem setBit_jrnl (f : Fld) (b : Bool) : (s.setBit f b).jrnl = s.jrnl := (rfl)
@[simp] theorem setBit_ecc (f : Fld) (b : Bool) : (s.setBit f b).ecc = s.ecc := (rfl)
@[simp] theorem setBit_mode (f : Fld) (b : Bool) : (s.setBit f b).mode = s.mode := (rfl)
@[simp] theorem setBit_safe (f : Fld) (b : Bool) : (s.setBit f b).safe = s.safe := (rfl)
@[simp] theorem setBit_legs (f : Fld) (b : Bool) : (s.setBit f b).legs = s.legs := (rfl)
@[simp] theorem setBit_ids (f : Fld) (b : Bool) : (s.setBit f b).ids = s.ids := (rfl)
@[simp] theorem setBit_grids (f : Fld) (b : Bool) : (s.setBit f b).grids = s.grids := (rfl)
@[simp] theorem setBit_chs (f : Fld) (b : Bool) : (s.setBit f b).chs = s.chs := (rfl)
@[simp] theorem setBit_forms (f : Fld) (b : Bool) : (s.setBit f b).forms = s.forms := (rfl)
@[simp] theorem setBit_dcs (f : Fld) (b : Bool) : (s.setBit f b).dcs = s.dcs := (rfl)
@[simp] theorem setBit_isl (f : Fld) (b : Bool) : (s.setBit f b).isl = s.isl := (rfl)
@[simp] theorem setBit_ride (f : Fld) (b : Bool) : (s.setBit f b).ride = s.ride := (rfl)
@[simp] theorem setBit_subsSeen (f : Fld) (b : Bool) : (s.setBit f b).subsSeen = s.subsSeen := (rfl)
@[simp] theorem setBit_syncAt (f : Fld) (b : Bool) : (s.setBit f b).syncAt = s.syncAt := (rfl)
@[simp] theorem setBit_syncOutAt (f : Fld) (b : Bool) : (s.setBit f b).syncOutAt = s.syncOutAt := (rfl)
@[simp] theorem setBit_mach (f : Fld) (b : Bool) : (s.setBit f b).mach = s.mach := (rfl)
@[simp] theorem setBit_mods (f : Fld) (b : Bool) : (s.setBit f b).mods = s.mods := (rfl)
@[simp] theorem setBit_blks (f : Fld) (b : Bool) : (s.setBit f b).blks = s.blks := (rfl)
@[simp] theorem setBit_padc (f : Fld) (b : Bool) : (s.setBit f b).padc = s.padc := (rfl)
@[simp] theorem setBit_cmps (f : Fld) (b : Bool) : (s.setBit f b).cmps = s.cmps := (rfl)
@[simp] theorem setBit_ramps (f : Fld) (b : Bool) : (s.setBit f b).ramps = s.ramps := (rfl)
@[simp] theorem setBit_stRun (f : Fld) (b : Bool) : (s.setBit f b).stRun = s.stRun := (rfl)
@[simp] theorem setBit_stWait (f : Fld) (b : Bool) : (s.setBit f b).stWait = s.stWait := (rfl)
@[simp] theorem setBit_trips (f : Fld) (b : Bool) : (s.setBit f b).trips = s.trips := (rfl)
@[simp] theorem setBit_gdos (f : Fld) (b : Bool) : (s.setBit f b).gdos = s.gdos := (rfl)
@[simp] theorem setBit_free (f : Fld) (b : Bool) : (s.setBit f b).free = s.free := (rfl)
@[simp] theorem setBit_tick (f : Fld) (b : Bool) : (s.setBit f b).tick = s.tick := (rfl)
@[simp] theorem setBit_pending (f : Fld) (b : Bool) : (s.setBit f b).pending = s.pending := (rfl)

@[simp] theorem wrF_variant (f : Fld) (v : F32) : (s.wrF f v).variant = s.variant := (rfl)
@[simp] theorem wrF_phase (f : Fld) (v : F32) : (s.wrF f v).phase = s.phase := (rfl)
@[simp] theorem wrF_tmode (f : Fld) (v : F32) : (s.wrF f v).tmode = s.tmode := (rfl)
@[simp] theorem wrF_hwSet (f : Fld) (v : F32) : (s.wrF f v).hwSet = s.hwSet := (rfl)
@[simp] theorem wrF_mem (f : Fld) (v : F32) : (s.wrF f v).mem = s.mem := (rfl)
@[simp] theorem wrF_chk (f : Fld) (v : F32) : (s.wrF f v).chk = s.chk := (rfl)
@[simp] theorem wrF_valid (f : Fld) (v : F32) : (s.wrF f v).valid = s.valid := (rfl)
@[simp] theorem wrF_clk (f : Fld) (v : F32) : (s.wrF f v).clk = s.clk := (rfl)
@[simp] theorem wrF_time (f : Fld) (v : F32) : (s.wrF f v).time = s.time := (rfl)
@[simp] theorem wrF_boot (f : Fld) (v : F32) : (s.wrF f v).boot = s.boot := (rfl)
@[simp] theorem wrF_keep (f : Fld) (v : F32) : (s.wrF f v).keep = s.keep := (rfl)
@[simp] theorem wrF_sec (f : Fld) (v : F32) : (s.wrF f v).sec = s.sec := (rfl)
@[simp] theorem wrF_age (f : Fld) (v : F32) : (s.wrF f v).age = s.age := (rfl)
@[simp] theorem wrF_hif (f : Fld) (v : F32) : (s.wrF f v).hif = s.hif := (rfl)
@[simp] theorem wrF_alm (f : Fld) (v : F32) : (s.wrF f v).alm = s.alm := (rfl)
@[simp] theorem wrF_leng (f : Fld) (v : F32) : (s.wrF f v).leng = s.leng := (rfl)
@[simp] theorem wrF_mtr (f : Fld) (v : F32) : (s.wrF f v).mtr = s.mtr := (rfl)
@[simp] theorem wrF_net (f : Fld) (v : F32) : (s.wrF f v).net = s.net := (rfl)
@[simp] theorem wrF_flt (f : Fld) (v : F32) : (s.wrF f v).flt = s.flt := (rfl)
@[simp] theorem wrF_jrnl (f : Fld) (v : F32) : (s.wrF f v).jrnl = s.jrnl := (rfl)
@[simp] theorem wrF_ecc (f : Fld) (v : F32) : (s.wrF f v).ecc = s.ecc := (rfl)
@[simp] theorem wrF_mode (f : Fld) (v : F32) : (s.wrF f v).mode = s.mode := (rfl)
@[simp] theorem wrF_safe (f : Fld) (v : F32) : (s.wrF f v).safe = s.safe := (rfl)
@[simp] theorem wrF_legs (f : Fld) (v : F32) : (s.wrF f v).legs = s.legs := (rfl)
@[simp] theorem wrF_ids (f : Fld) (v : F32) : (s.wrF f v).ids = s.ids := (rfl)
@[simp] theorem wrF_grids (f : Fld) (v : F32) : (s.wrF f v).grids = s.grids := (rfl)
@[simp] theorem wrF_chs (f : Fld) (v : F32) : (s.wrF f v).chs = s.chs := (rfl)
@[simp] theorem wrF_forms (f : Fld) (v : F32) : (s.wrF f v).forms = s.forms := (rfl)
@[simp] theorem wrF_dcs (f : Fld) (v : F32) : (s.wrF f v).dcs = s.dcs := (rfl)
@[simp] theorem wrF_isl (f : Fld) (v : F32) : (s.wrF f v).isl = s.isl := (rfl)
@[simp] theorem wrF_ride (f : Fld) (v : F32) : (s.wrF f v).ride = s.ride := (rfl)
@[simp] theorem wrF_subsSeen (f : Fld) (v : F32) : (s.wrF f v).subsSeen = s.subsSeen := (rfl)
@[simp] theorem wrF_syncAt (f : Fld) (v : F32) : (s.wrF f v).syncAt = s.syncAt := (rfl)
@[simp] theorem wrF_syncOutAt (f : Fld) (v : F32) : (s.wrF f v).syncOutAt = s.syncOutAt := (rfl)
@[simp] theorem wrF_mach (f : Fld) (v : F32) : (s.wrF f v).mach = s.mach := (rfl)
@[simp] theorem wrF_mods (f : Fld) (v : F32) : (s.wrF f v).mods = s.mods := (rfl)
@[simp] theorem wrF_blks (f : Fld) (v : F32) : (s.wrF f v).blks = s.blks := (rfl)
@[simp] theorem wrF_padc (f : Fld) (v : F32) : (s.wrF f v).padc = s.padc := (rfl)
@[simp] theorem wrF_cmps (f : Fld) (v : F32) : (s.wrF f v).cmps = s.cmps := (rfl)
@[simp] theorem wrF_ramps (f : Fld) (v : F32) : (s.wrF f v).ramps = s.ramps := (rfl)
@[simp] theorem wrF_stRun (f : Fld) (v : F32) : (s.wrF f v).stRun = s.stRun := (rfl)
@[simp] theorem wrF_stWait (f : Fld) (v : F32) : (s.wrF f v).stWait = s.stWait := (rfl)
@[simp] theorem wrF_trips (f : Fld) (v : F32) : (s.wrF f v).trips = s.trips := (rfl)
@[simp] theorem wrF_gdos (f : Fld) (v : F32) : (s.wrF f v).gdos = s.gdos := (rfl)
@[simp] theorem wrF_free (f : Fld) (v : F32) : (s.wrF f v).free = s.free := (rfl)
@[simp] theorem wrF_tick (f : Fld) (v : F32) : (s.wrF f v).tick = s.tick := (rfl)
@[simp] theorem wrF_pending (f : Fld) (v : F32) : (s.wrF f v).pending = s.pending := (rfl)

@[simp] theorem sat_variant (f : Fld) : (s.sat f).variant = s.variant := (rfl)
@[simp] theorem sat_phase (f : Fld) : (s.sat f).phase = s.phase := (rfl)
@[simp] theorem sat_tmode (f : Fld) : (s.sat f).tmode = s.tmode := (rfl)
@[simp] theorem sat_hwSet (f : Fld) : (s.sat f).hwSet = s.hwSet := (rfl)
@[simp] theorem sat_mem (f : Fld) : (s.sat f).mem = s.mem := (rfl)
@[simp] theorem sat_chk (f : Fld) : (s.sat f).chk = s.chk := (rfl)
@[simp] theorem sat_valid (f : Fld) : (s.sat f).valid = s.valid := (rfl)
@[simp] theorem sat_clk (f : Fld) : (s.sat f).clk = s.clk := (rfl)
@[simp] theorem sat_time (f : Fld) : (s.sat f).time = s.time := (rfl)
@[simp] theorem sat_boot (f : Fld) : (s.sat f).boot = s.boot := (rfl)
@[simp] theorem sat_keep (f : Fld) : (s.sat f).keep = s.keep := (rfl)
@[simp] theorem sat_sec (f : Fld) : (s.sat f).sec = s.sec := (rfl)
@[simp] theorem sat_age (f : Fld) : (s.sat f).age = s.age := (rfl)
@[simp] theorem sat_hif (f : Fld) : (s.sat f).hif = s.hif := (rfl)
@[simp] theorem sat_alm (f : Fld) : (s.sat f).alm = s.alm := (rfl)
@[simp] theorem sat_leng (f : Fld) : (s.sat f).leng = s.leng := (rfl)
@[simp] theorem sat_mtr (f : Fld) : (s.sat f).mtr = s.mtr := (rfl)
@[simp] theorem sat_net (f : Fld) : (s.sat f).net = s.net := (rfl)
@[simp] theorem sat_flt (f : Fld) : (s.sat f).flt = s.flt := (rfl)
@[simp] theorem sat_jrnl (f : Fld) : (s.sat f).jrnl = s.jrnl := (rfl)
@[simp] theorem sat_ecc (f : Fld) : (s.sat f).ecc = s.ecc := (rfl)
@[simp] theorem sat_mode (f : Fld) : (s.sat f).mode = s.mode := (rfl)
@[simp] theorem sat_safe (f : Fld) : (s.sat f).safe = s.safe := (rfl)
@[simp] theorem sat_legs (f : Fld) : (s.sat f).legs = s.legs := (rfl)
@[simp] theorem sat_ids (f : Fld) : (s.sat f).ids = s.ids := (rfl)
@[simp] theorem sat_grids (f : Fld) : (s.sat f).grids = s.grids := (rfl)
@[simp] theorem sat_chs (f : Fld) : (s.sat f).chs = s.chs := (rfl)
@[simp] theorem sat_forms (f : Fld) : (s.sat f).forms = s.forms := (rfl)
@[simp] theorem sat_dcs (f : Fld) : (s.sat f).dcs = s.dcs := (rfl)
@[simp] theorem sat_isl (f : Fld) : (s.sat f).isl = s.isl := (rfl)
@[simp] theorem sat_ride (f : Fld) : (s.sat f).ride = s.ride := (rfl)
@[simp] theorem sat_subsSeen (f : Fld) : (s.sat f).subsSeen = s.subsSeen := (rfl)
@[simp] theorem sat_syncAt (f : Fld) : (s.sat f).syncAt = s.syncAt := (rfl)
@[simp] theorem sat_syncOutAt (f : Fld) : (s.sat f).syncOutAt = s.syncOutAt := (rfl)
@[simp] theorem sat_mach (f : Fld) : (s.sat f).mach = s.mach := (rfl)
@[simp] theorem sat_mods (f : Fld) : (s.sat f).mods = s.mods := (rfl)
@[simp] theorem sat_blks (f : Fld) : (s.sat f).blks = s.blks := (rfl)
@[simp] theorem sat_padc (f : Fld) : (s.sat f).padc = s.padc := (rfl)
@[simp] theorem sat_cmps (f : Fld) : (s.sat f).cmps = s.cmps := (rfl)
@[simp] theorem sat_ramps (f : Fld) : (s.sat f).ramps = s.ramps := (rfl)
@[simp] theorem sat_stRun (f : Fld) : (s.sat f).stRun = s.stRun := (rfl)
@[simp] theorem sat_stWait (f : Fld) : (s.sat f).stWait = s.stWait := (rfl)
@[simp] theorem sat_trips (f : Fld) : (s.sat f).trips = s.trips := (rfl)
@[simp] theorem sat_gdos (f : Fld) : (s.sat f).gdos = s.gdos := (rfl)
@[simp] theorem sat_free (f : Fld) : (s.sat f).free = s.free := (rfl)
@[simp] theorem sat_tick (f : Fld) : (s.sat f).tick = s.tick := (rfl)
@[simp] theorem sat_pending (f : Fld) : (s.sat f).pending = s.pending := (rfl)

@[simp] theorem satBy_variant (f : Fld) (k : Nat) : (s.satBy f k).variant = s.variant := (rfl)
@[simp] theorem satBy_phase (f : Fld) (k : Nat) : (s.satBy f k).phase = s.phase := (rfl)
@[simp] theorem satBy_tmode (f : Fld) (k : Nat) : (s.satBy f k).tmode = s.tmode := (rfl)
@[simp] theorem satBy_hwSet (f : Fld) (k : Nat) : (s.satBy f k).hwSet = s.hwSet := (rfl)
@[simp] theorem satBy_mem (f : Fld) (k : Nat) : (s.satBy f k).mem = s.mem := (rfl)
@[simp] theorem satBy_chk (f : Fld) (k : Nat) : (s.satBy f k).chk = s.chk := (rfl)
@[simp] theorem satBy_valid (f : Fld) (k : Nat) : (s.satBy f k).valid = s.valid := (rfl)
@[simp] theorem satBy_clk (f : Fld) (k : Nat) : (s.satBy f k).clk = s.clk := (rfl)
@[simp] theorem satBy_time (f : Fld) (k : Nat) : (s.satBy f k).time = s.time := (rfl)
@[simp] theorem satBy_boot (f : Fld) (k : Nat) : (s.satBy f k).boot = s.boot := (rfl)
@[simp] theorem satBy_keep (f : Fld) (k : Nat) : (s.satBy f k).keep = s.keep := (rfl)
@[simp] theorem satBy_sec (f : Fld) (k : Nat) : (s.satBy f k).sec = s.sec := (rfl)
@[simp] theorem satBy_age (f : Fld) (k : Nat) : (s.satBy f k).age = s.age := (rfl)
@[simp] theorem satBy_hif (f : Fld) (k : Nat) : (s.satBy f k).hif = s.hif := (rfl)
@[simp] theorem satBy_alm (f : Fld) (k : Nat) : (s.satBy f k).alm = s.alm := (rfl)
@[simp] theorem satBy_leng (f : Fld) (k : Nat) : (s.satBy f k).leng = s.leng := (rfl)
@[simp] theorem satBy_mtr (f : Fld) (k : Nat) : (s.satBy f k).mtr = s.mtr := (rfl)
@[simp] theorem satBy_net (f : Fld) (k : Nat) : (s.satBy f k).net = s.net := (rfl)
@[simp] theorem satBy_flt (f : Fld) (k : Nat) : (s.satBy f k).flt = s.flt := (rfl)
@[simp] theorem satBy_jrnl (f : Fld) (k : Nat) : (s.satBy f k).jrnl = s.jrnl := (rfl)
@[simp] theorem satBy_ecc (f : Fld) (k : Nat) : (s.satBy f k).ecc = s.ecc := (rfl)
@[simp] theorem satBy_mode (f : Fld) (k : Nat) : (s.satBy f k).mode = s.mode := (rfl)
@[simp] theorem satBy_safe (f : Fld) (k : Nat) : (s.satBy f k).safe = s.safe := (rfl)
@[simp] theorem satBy_legs (f : Fld) (k : Nat) : (s.satBy f k).legs = s.legs := (rfl)
@[simp] theorem satBy_ids (f : Fld) (k : Nat) : (s.satBy f k).ids = s.ids := (rfl)
@[simp] theorem satBy_grids (f : Fld) (k : Nat) : (s.satBy f k).grids = s.grids := (rfl)
@[simp] theorem satBy_chs (f : Fld) (k : Nat) : (s.satBy f k).chs = s.chs := (rfl)
@[simp] theorem satBy_forms (f : Fld) (k : Nat) : (s.satBy f k).forms = s.forms := (rfl)
@[simp] theorem satBy_dcs (f : Fld) (k : Nat) : (s.satBy f k).dcs = s.dcs := (rfl)
@[simp] theorem satBy_isl (f : Fld) (k : Nat) : (s.satBy f k).isl = s.isl := (rfl)
@[simp] theorem satBy_ride (f : Fld) (k : Nat) : (s.satBy f k).ride = s.ride := (rfl)
@[simp] theorem satBy_subsSeen (f : Fld) (k : Nat) : (s.satBy f k).subsSeen = s.subsSeen := (rfl)
@[simp] theorem satBy_syncAt (f : Fld) (k : Nat) : (s.satBy f k).syncAt = s.syncAt := (rfl)
@[simp] theorem satBy_syncOutAt (f : Fld) (k : Nat) : (s.satBy f k).syncOutAt = s.syncOutAt := (rfl)
@[simp] theorem satBy_mach (f : Fld) (k : Nat) : (s.satBy f k).mach = s.mach := (rfl)
@[simp] theorem satBy_mods (f : Fld) (k : Nat) : (s.satBy f k).mods = s.mods := (rfl)
@[simp] theorem satBy_blks (f : Fld) (k : Nat) : (s.satBy f k).blks = s.blks := (rfl)
@[simp] theorem satBy_padc (f : Fld) (k : Nat) : (s.satBy f k).padc = s.padc := (rfl)
@[simp] theorem satBy_cmps (f : Fld) (k : Nat) : (s.satBy f k).cmps = s.cmps := (rfl)
@[simp] theorem satBy_ramps (f : Fld) (k : Nat) : (s.satBy f k).ramps = s.ramps := (rfl)
@[simp] theorem satBy_stRun (f : Fld) (k : Nat) : (s.satBy f k).stRun = s.stRun := (rfl)
@[simp] theorem satBy_stWait (f : Fld) (k : Nat) : (s.satBy f k).stWait = s.stWait := (rfl)
@[simp] theorem satBy_trips (f : Fld) (k : Nat) : (s.satBy f k).trips = s.trips := (rfl)
@[simp] theorem satBy_gdos (f : Fld) (k : Nat) : (s.satBy f k).gdos = s.gdos := (rfl)
@[simp] theorem satBy_free (f : Fld) (k : Nat) : (s.satBy f k).free = s.free := (rfl)
@[simp] theorem satBy_tick (f : Fld) (k : Nat) : (s.satBy f k).tick = s.tick := (rfl)
@[simp] theorem satBy_pending (f : Fld) (k : Nat) : (s.satBy f k).pending = s.pending := (rfl)

@[simp] theorem wrap_variant (f : Fld) : (s.wrap f).variant = s.variant := (rfl)
@[simp] theorem wrap_phase (f : Fld) : (s.wrap f).phase = s.phase := (rfl)
@[simp] theorem wrap_tmode (f : Fld) : (s.wrap f).tmode = s.tmode := (rfl)
@[simp] theorem wrap_hwSet (f : Fld) : (s.wrap f).hwSet = s.hwSet := (rfl)
@[simp] theorem wrap_mem (f : Fld) : (s.wrap f).mem = s.mem := (rfl)
@[simp] theorem wrap_chk (f : Fld) : (s.wrap f).chk = s.chk := (rfl)
@[simp] theorem wrap_valid (f : Fld) : (s.wrap f).valid = s.valid := (rfl)
@[simp] theorem wrap_clk (f : Fld) : (s.wrap f).clk = s.clk := (rfl)
@[simp] theorem wrap_time (f : Fld) : (s.wrap f).time = s.time := (rfl)
@[simp] theorem wrap_boot (f : Fld) : (s.wrap f).boot = s.boot := (rfl)
@[simp] theorem wrap_keep (f : Fld) : (s.wrap f).keep = s.keep := (rfl)
@[simp] theorem wrap_sec (f : Fld) : (s.wrap f).sec = s.sec := (rfl)
@[simp] theorem wrap_age (f : Fld) : (s.wrap f).age = s.age := (rfl)
@[simp] theorem wrap_hif (f : Fld) : (s.wrap f).hif = s.hif := (rfl)
@[simp] theorem wrap_alm (f : Fld) : (s.wrap f).alm = s.alm := (rfl)
@[simp] theorem wrap_leng (f : Fld) : (s.wrap f).leng = s.leng := (rfl)
@[simp] theorem wrap_mtr (f : Fld) : (s.wrap f).mtr = s.mtr := (rfl)
@[simp] theorem wrap_net (f : Fld) : (s.wrap f).net = s.net := (rfl)
@[simp] theorem wrap_flt (f : Fld) : (s.wrap f).flt = s.flt := (rfl)
@[simp] theorem wrap_jrnl (f : Fld) : (s.wrap f).jrnl = s.jrnl := (rfl)
@[simp] theorem wrap_ecc (f : Fld) : (s.wrap f).ecc = s.ecc := (rfl)
@[simp] theorem wrap_mode (f : Fld) : (s.wrap f).mode = s.mode := (rfl)
@[simp] theorem wrap_safe (f : Fld) : (s.wrap f).safe = s.safe := (rfl)
@[simp] theorem wrap_legs (f : Fld) : (s.wrap f).legs = s.legs := (rfl)
@[simp] theorem wrap_ids (f : Fld) : (s.wrap f).ids = s.ids := (rfl)
@[simp] theorem wrap_grids (f : Fld) : (s.wrap f).grids = s.grids := (rfl)
@[simp] theorem wrap_chs (f : Fld) : (s.wrap f).chs = s.chs := (rfl)
@[simp] theorem wrap_forms (f : Fld) : (s.wrap f).forms = s.forms := (rfl)
@[simp] theorem wrap_dcs (f : Fld) : (s.wrap f).dcs = s.dcs := (rfl)
@[simp] theorem wrap_isl (f : Fld) : (s.wrap f).isl = s.isl := (rfl)
@[simp] theorem wrap_ride (f : Fld) : (s.wrap f).ride = s.ride := (rfl)
@[simp] theorem wrap_subsSeen (f : Fld) : (s.wrap f).subsSeen = s.subsSeen := (rfl)
@[simp] theorem wrap_syncAt (f : Fld) : (s.wrap f).syncAt = s.syncAt := (rfl)
@[simp] theorem wrap_syncOutAt (f : Fld) : (s.wrap f).syncOutAt = s.syncOutAt := (rfl)
@[simp] theorem wrap_mach (f : Fld) : (s.wrap f).mach = s.mach := (rfl)
@[simp] theorem wrap_mods (f : Fld) : (s.wrap f).mods = s.mods := (rfl)
@[simp] theorem wrap_blks (f : Fld) : (s.wrap f).blks = s.blks := (rfl)
@[simp] theorem wrap_padc (f : Fld) : (s.wrap f).padc = s.padc := (rfl)
@[simp] theorem wrap_cmps (f : Fld) : (s.wrap f).cmps = s.cmps := (rfl)
@[simp] theorem wrap_ramps (f : Fld) : (s.wrap f).ramps = s.ramps := (rfl)
@[simp] theorem wrap_stRun (f : Fld) : (s.wrap f).stRun = s.stRun := (rfl)
@[simp] theorem wrap_stWait (f : Fld) : (s.wrap f).stWait = s.stWait := (rfl)
@[simp] theorem wrap_trips (f : Fld) : (s.wrap f).trips = s.trips := (rfl)
@[simp] theorem wrap_gdos (f : Fld) : (s.wrap f).gdos = s.gdos := (rfl)
@[simp] theorem wrap_free (f : Fld) : (s.wrap f).free = s.free := (rfl)
@[simp] theorem wrap_tick (f : Fld) : (s.wrap f).tick = s.tick := (rfl)
@[simp] theorem wrap_pending (f : Fld) : (s.wrap f).pending = s.pending := (rfl)

@[simp] theorem wr64_variant (f : Fld) (v : Nat) : (s.wr64 f v).variant = s.variant := (rfl)
@[simp] theorem wr64_phase (f : Fld) (v : Nat) : (s.wr64 f v).phase = s.phase := (rfl)
@[simp] theorem wr64_tmode (f : Fld) (v : Nat) : (s.wr64 f v).tmode = s.tmode := (rfl)
@[simp] theorem wr64_hwSet (f : Fld) (v : Nat) : (s.wr64 f v).hwSet = s.hwSet := (rfl)
@[simp] theorem wr64_mem (f : Fld) (v : Nat) : (s.wr64 f v).mem = s.mem := (rfl)
@[simp] theorem wr64_chk (f : Fld) (v : Nat) : (s.wr64 f v).chk = s.chk := (rfl)
@[simp] theorem wr64_valid (f : Fld) (v : Nat) : (s.wr64 f v).valid = s.valid := (rfl)
@[simp] theorem wr64_clk (f : Fld) (v : Nat) : (s.wr64 f v).clk = s.clk := (rfl)
@[simp] theorem wr64_time (f : Fld) (v : Nat) : (s.wr64 f v).time = s.time := (rfl)
@[simp] theorem wr64_boot (f : Fld) (v : Nat) : (s.wr64 f v).boot = s.boot := (rfl)
@[simp] theorem wr64_keep (f : Fld) (v : Nat) : (s.wr64 f v).keep = s.keep := (rfl)
@[simp] theorem wr64_sec (f : Fld) (v : Nat) : (s.wr64 f v).sec = s.sec := (rfl)
@[simp] theorem wr64_age (f : Fld) (v : Nat) : (s.wr64 f v).age = s.age := (rfl)
@[simp] theorem wr64_hif (f : Fld) (v : Nat) : (s.wr64 f v).hif = s.hif := (rfl)
@[simp] theorem wr64_alm (f : Fld) (v : Nat) : (s.wr64 f v).alm = s.alm := (rfl)
@[simp] theorem wr64_leng (f : Fld) (v : Nat) : (s.wr64 f v).leng = s.leng := (rfl)
@[simp] theorem wr64_mtr (f : Fld) (v : Nat) : (s.wr64 f v).mtr = s.mtr := (rfl)
@[simp] theorem wr64_net (f : Fld) (v : Nat) : (s.wr64 f v).net = s.net := (rfl)
@[simp] theorem wr64_flt (f : Fld) (v : Nat) : (s.wr64 f v).flt = s.flt := (rfl)
@[simp] theorem wr64_jrnl (f : Fld) (v : Nat) : (s.wr64 f v).jrnl = s.jrnl := (rfl)
@[simp] theorem wr64_ecc (f : Fld) (v : Nat) : (s.wr64 f v).ecc = s.ecc := (rfl)
@[simp] theorem wr64_mode (f : Fld) (v : Nat) : (s.wr64 f v).mode = s.mode := (rfl)
@[simp] theorem wr64_safe (f : Fld) (v : Nat) : (s.wr64 f v).safe = s.safe := (rfl)
@[simp] theorem wr64_legs (f : Fld) (v : Nat) : (s.wr64 f v).legs = s.legs := (rfl)
@[simp] theorem wr64_ids (f : Fld) (v : Nat) : (s.wr64 f v).ids = s.ids := (rfl)
@[simp] theorem wr64_grids (f : Fld) (v : Nat) : (s.wr64 f v).grids = s.grids := (rfl)
@[simp] theorem wr64_chs (f : Fld) (v : Nat) : (s.wr64 f v).chs = s.chs := (rfl)
@[simp] theorem wr64_forms (f : Fld) (v : Nat) : (s.wr64 f v).forms = s.forms := (rfl)
@[simp] theorem wr64_dcs (f : Fld) (v : Nat) : (s.wr64 f v).dcs = s.dcs := (rfl)
@[simp] theorem wr64_isl (f : Fld) (v : Nat) : (s.wr64 f v).isl = s.isl := (rfl)
@[simp] theorem wr64_ride (f : Fld) (v : Nat) : (s.wr64 f v).ride = s.ride := (rfl)
@[simp] theorem wr64_subsSeen (f : Fld) (v : Nat) : (s.wr64 f v).subsSeen = s.subsSeen := (rfl)
@[simp] theorem wr64_syncAt (f : Fld) (v : Nat) : (s.wr64 f v).syncAt = s.syncAt := (rfl)
@[simp] theorem wr64_syncOutAt (f : Fld) (v : Nat) : (s.wr64 f v).syncOutAt = s.syncOutAt := (rfl)
@[simp] theorem wr64_mach (f : Fld) (v : Nat) : (s.wr64 f v).mach = s.mach := (rfl)
@[simp] theorem wr64_mods (f : Fld) (v : Nat) : (s.wr64 f v).mods = s.mods := (rfl)
@[simp] theorem wr64_blks (f : Fld) (v : Nat) : (s.wr64 f v).blks = s.blks := (rfl)
@[simp] theorem wr64_padc (f : Fld) (v : Nat) : (s.wr64 f v).padc = s.padc := (rfl)
@[simp] theorem wr64_cmps (f : Fld) (v : Nat) : (s.wr64 f v).cmps = s.cmps := (rfl)
@[simp] theorem wr64_ramps (f : Fld) (v : Nat) : (s.wr64 f v).ramps = s.ramps := (rfl)
@[simp] theorem wr64_stRun (f : Fld) (v : Nat) : (s.wr64 f v).stRun = s.stRun := (rfl)
@[simp] theorem wr64_stWait (f : Fld) (v : Nat) : (s.wr64 f v).stWait = s.stWait := (rfl)
@[simp] theorem wr64_trips (f : Fld) (v : Nat) : (s.wr64 f v).trips = s.trips := (rfl)
@[simp] theorem wr64_gdos (f : Fld) (v : Nat) : (s.wr64 f v).gdos = s.gdos := (rfl)
@[simp] theorem wr64_free (f : Fld) (v : Nat) : (s.wr64 f v).free = s.free := (rfl)
@[simp] theorem wr64_tick (f : Fld) (v : Nat) : (s.wr64 f v).tick = s.tick := (rfl)
@[simp] theorem wr64_pending (f : Fld) (v : Nat) : (s.wr64 f v).pending = s.pending := (rfl)

@[simp] theorem latch_variant (f : Fld) : (s.latch f).variant = s.variant := (rfl)
@[simp] theorem latch_phase (f : Fld) : (s.latch f).phase = s.phase := (rfl)
@[simp] theorem latch_tmode (f : Fld) : (s.latch f).tmode = s.tmode := (rfl)
@[simp] theorem latch_mem (f : Fld) : (s.latch f).mem = s.mem := (rfl)
@[simp] theorem latch_chk (f : Fld) : (s.latch f).chk = s.chk := (rfl)
@[simp] theorem latch_valid (f : Fld) : (s.latch f).valid = s.valid := (rfl)
@[simp] theorem latch_clk (f : Fld) : (s.latch f).clk = s.clk := (rfl)
@[simp] theorem latch_time (f : Fld) : (s.latch f).time = s.time := (rfl)
@[simp] theorem latch_boot (f : Fld) : (s.latch f).boot = s.boot := (rfl)
@[simp] theorem latch_keep (f : Fld) : (s.latch f).keep = s.keep := (rfl)
@[simp] theorem latch_sec (f : Fld) : (s.latch f).sec = s.sec := (rfl)
@[simp] theorem latch_age (f : Fld) : (s.latch f).age = s.age := (rfl)
@[simp] theorem latch_hif (f : Fld) : (s.latch f).hif = s.hif := (rfl)
@[simp] theorem latch_alm (f : Fld) : (s.latch f).alm = s.alm := (rfl)
@[simp] theorem latch_leng (f : Fld) : (s.latch f).leng = s.leng := (rfl)
@[simp] theorem latch_mtr (f : Fld) : (s.latch f).mtr = s.mtr := (rfl)
@[simp] theorem latch_net (f : Fld) : (s.latch f).net = s.net := (rfl)
@[simp] theorem latch_flt (f : Fld) : (s.latch f).flt = s.flt := (rfl)
@[simp] theorem latch_jrnl (f : Fld) : (s.latch f).jrnl = s.jrnl := (rfl)
@[simp] theorem latch_ecc (f : Fld) : (s.latch f).ecc = s.ecc := (rfl)
@[simp] theorem latch_mode (f : Fld) : (s.latch f).mode = s.mode := (rfl)
@[simp] theorem latch_safe (f : Fld) : (s.latch f).safe = s.safe := (rfl)
@[simp] theorem latch_legs (f : Fld) : (s.latch f).legs = s.legs := (rfl)
@[simp] theorem latch_ids (f : Fld) : (s.latch f).ids = s.ids := (rfl)
@[simp] theorem latch_grids (f : Fld) : (s.latch f).grids = s.grids := (rfl)
@[simp] theorem latch_chs (f : Fld) : (s.latch f).chs = s.chs := (rfl)
@[simp] theorem latch_forms (f : Fld) : (s.latch f).forms = s.forms := (rfl)
@[simp] theorem latch_dcs (f : Fld) : (s.latch f).dcs = s.dcs := (rfl)
@[simp] theorem latch_isl (f : Fld) : (s.latch f).isl = s.isl := (rfl)
@[simp] theorem latch_ride (f : Fld) : (s.latch f).ride = s.ride := (rfl)
@[simp] theorem latch_subsSeen (f : Fld) : (s.latch f).subsSeen = s.subsSeen := (rfl)
@[simp] theorem latch_syncAt (f : Fld) : (s.latch f).syncAt = s.syncAt := (rfl)
@[simp] theorem latch_syncOutAt (f : Fld) : (s.latch f).syncOutAt = s.syncOutAt := (rfl)
@[simp] theorem latch_mach (f : Fld) : (s.latch f).mach = s.mach := (rfl)
@[simp] theorem latch_mods (f : Fld) : (s.latch f).mods = s.mods := (rfl)
@[simp] theorem latch_blks (f : Fld) : (s.latch f).blks = s.blks := (rfl)
@[simp] theorem latch_padc (f : Fld) : (s.latch f).padc = s.padc := (rfl)
@[simp] theorem latch_cmps (f : Fld) : (s.latch f).cmps = s.cmps := (rfl)
@[simp] theorem latch_ramps (f : Fld) : (s.latch f).ramps = s.ramps := (rfl)
@[simp] theorem latch_stRun (f : Fld) : (s.latch f).stRun = s.stRun := (rfl)
@[simp] theorem latch_stWait (f : Fld) : (s.latch f).stWait = s.stWait := (rfl)
@[simp] theorem latch_trips (f : Fld) : (s.latch f).trips = s.trips := (rfl)
@[simp] theorem latch_gdos (f : Fld) : (s.latch f).gdos = s.gdos := (rfl)
@[simp] theorem latch_free (f : Fld) : (s.latch f).free = s.free := (rfl)
@[simp] theorem latch_tick (f : Fld) : (s.latch f).tick = s.tick := (rfl)
@[simp] theorem latch_pending (f : Fld) : (s.latch f).pending = s.pending := (rfl)

@[simp] theorem fresh_variant : (s.fresh).variant = s.variant := (rfl)
@[simp] theorem fresh_phase : (s.fresh).phase = s.phase := (rfl)
@[simp] theorem fresh_tmode : (s.fresh).tmode = s.tmode := (rfl)
@[simp] theorem fresh_regs : (s.fresh).regs = s.regs := (rfl)
@[simp] theorem fresh_hwSet : (s.fresh).hwSet = s.hwSet := (rfl)
@[simp] theorem fresh_mem : (s.fresh).mem = s.mem := (rfl)
@[simp] theorem fresh_chk : (s.fresh).chk = s.chk := (rfl)
@[simp] theorem fresh_valid : (s.fresh).valid = s.valid := (rfl)
@[simp] theorem fresh_clk : (s.fresh).clk = s.clk := (rfl)
@[simp] theorem fresh_time : (s.fresh).time = s.time := (rfl)
@[simp] theorem fresh_boot : (s.fresh).boot = s.boot := (rfl)
@[simp] theorem fresh_keep : (s.fresh).keep = s.keep := (rfl)
@[simp] theorem fresh_sec : (s.fresh).sec = s.sec := (rfl)
@[simp] theorem fresh_age : (s.fresh).age = s.age := (rfl)
@[simp] theorem fresh_hif : (s.fresh).hif = s.hif := (rfl)
@[simp] theorem fresh_alm : (s.fresh).alm = s.alm := (rfl)
@[simp] theorem fresh_leng : (s.fresh).leng = s.leng := (rfl)
@[simp] theorem fresh_mtr : (s.fresh).mtr = s.mtr := (rfl)
@[simp] theorem fresh_net : (s.fresh).net = s.net := (rfl)
@[simp] theorem fresh_flt : (s.fresh).flt = s.flt := (rfl)
@[simp] theorem fresh_jrnl : (s.fresh).jrnl = s.jrnl := (rfl)
@[simp] theorem fresh_ecc : (s.fresh).ecc = s.ecc := (rfl)
@[simp] theorem fresh_mode : (s.fresh).mode = s.mode := (rfl)
@[simp] theorem fresh_safe : (s.fresh).safe = s.safe := (rfl)
@[simp] theorem fresh_legs : (s.fresh).legs = s.legs := (rfl)
@[simp] theorem fresh_ids : (s.fresh).ids = s.ids := (rfl)
@[simp] theorem fresh_grids : (s.fresh).grids = s.grids := (rfl)
@[simp] theorem fresh_chs : (s.fresh).chs = s.chs := (rfl)
@[simp] theorem fresh_forms : (s.fresh).forms = s.forms := (rfl)
@[simp] theorem fresh_dcs : (s.fresh).dcs = s.dcs := (rfl)
@[simp] theorem fresh_isl : (s.fresh).isl = s.isl := (rfl)
@[simp] theorem fresh_ride : (s.fresh).ride = s.ride := (rfl)
@[simp] theorem fresh_subsSeen : (s.fresh).subsSeen = s.subsSeen := (rfl)
@[simp] theorem fresh_syncAt : (s.fresh).syncAt = s.syncAt := (rfl)
@[simp] theorem fresh_syncOutAt : (s.fresh).syncOutAt = s.syncOutAt := (rfl)
@[simp] theorem fresh_mach : (s.fresh).mach = s.mach := (rfl)
@[simp] theorem fresh_mods : (s.fresh).mods = s.mods := (rfl)
@[simp] theorem fresh_blks : (s.fresh).blks = s.blks := (rfl)
@[simp] theorem fresh_padc : (s.fresh).padc = s.padc := (rfl)
@[simp] theorem fresh_cmps : (s.fresh).cmps = s.cmps := (rfl)
@[simp] theorem fresh_ramps : (s.fresh).ramps = s.ramps := (rfl)
@[simp] theorem fresh_stRun : (s.fresh).stRun = s.stRun := (rfl)
@[simp] theorem fresh_stWait : (s.fresh).stWait = s.stWait := (rfl)
@[simp] theorem fresh_trips : (s.fresh).trips = s.trips := (rfl)
@[simp] theorem fresh_gdos : (s.fresh).gdos = s.gdos := (rfl)
@[simp] theorem fresh_tick : (s.fresh).tick = s.tick := (rfl)
@[simp] theorem fresh_pending : (s.fresh).pending = s.pending := (rfl)

@[simp] theorem wrQ_variant (f : Fld) (x : Rat) : (s.wrQ f x).variant = s.variant := (rfl)
@[simp] theorem wrQ_phase (f : Fld) (x : Rat) : (s.wrQ f x).phase = s.phase := (rfl)
@[simp] theorem wrQ_tmode (f : Fld) (x : Rat) : (s.wrQ f x).tmode = s.tmode := (rfl)
@[simp] theorem wrQ_hwSet (f : Fld) (x : Rat) : (s.wrQ f x).hwSet = s.hwSet := (rfl)
@[simp] theorem wrQ_mem (f : Fld) (x : Rat) : (s.wrQ f x).mem = s.mem := (rfl)
@[simp] theorem wrQ_chk (f : Fld) (x : Rat) : (s.wrQ f x).chk = s.chk := (rfl)
@[simp] theorem wrQ_valid (f : Fld) (x : Rat) : (s.wrQ f x).valid = s.valid := (rfl)
@[simp] theorem wrQ_clk (f : Fld) (x : Rat) : (s.wrQ f x).clk = s.clk := (rfl)
@[simp] theorem wrQ_time (f : Fld) (x : Rat) : (s.wrQ f x).time = s.time := (rfl)
@[simp] theorem wrQ_boot (f : Fld) (x : Rat) : (s.wrQ f x).boot = s.boot := (rfl)
@[simp] theorem wrQ_keep (f : Fld) (x : Rat) : (s.wrQ f x).keep = s.keep := (rfl)
@[simp] theorem wrQ_sec (f : Fld) (x : Rat) : (s.wrQ f x).sec = s.sec := (rfl)
@[simp] theorem wrQ_age (f : Fld) (x : Rat) : (s.wrQ f x).age = s.age := (rfl)
@[simp] theorem wrQ_hif (f : Fld) (x : Rat) : (s.wrQ f x).hif = s.hif := (rfl)
@[simp] theorem wrQ_alm (f : Fld) (x : Rat) : (s.wrQ f x).alm = s.alm := (rfl)
@[simp] theorem wrQ_leng (f : Fld) (x : Rat) : (s.wrQ f x).leng = s.leng := (rfl)
@[simp] theorem wrQ_mtr (f : Fld) (x : Rat) : (s.wrQ f x).mtr = s.mtr := (rfl)
@[simp] theorem wrQ_net (f : Fld) (x : Rat) : (s.wrQ f x).net = s.net := (rfl)
@[simp] theorem wrQ_flt (f : Fld) (x : Rat) : (s.wrQ f x).flt = s.flt := (rfl)
@[simp] theorem wrQ_jrnl (f : Fld) (x : Rat) : (s.wrQ f x).jrnl = s.jrnl := (rfl)
@[simp] theorem wrQ_ecc (f : Fld) (x : Rat) : (s.wrQ f x).ecc = s.ecc := (rfl)
@[simp] theorem wrQ_mode (f : Fld) (x : Rat) : (s.wrQ f x).mode = s.mode := (rfl)
@[simp] theorem wrQ_safe (f : Fld) (x : Rat) : (s.wrQ f x).safe = s.safe := (rfl)
@[simp] theorem wrQ_legs (f : Fld) (x : Rat) : (s.wrQ f x).legs = s.legs := (rfl)
@[simp] theorem wrQ_ids (f : Fld) (x : Rat) : (s.wrQ f x).ids = s.ids := (rfl)
@[simp] theorem wrQ_grids (f : Fld) (x : Rat) : (s.wrQ f x).grids = s.grids := (rfl)
@[simp] theorem wrQ_chs (f : Fld) (x : Rat) : (s.wrQ f x).chs = s.chs := (rfl)
@[simp] theorem wrQ_forms (f : Fld) (x : Rat) : (s.wrQ f x).forms = s.forms := (rfl)
@[simp] theorem wrQ_dcs (f : Fld) (x : Rat) : (s.wrQ f x).dcs = s.dcs := (rfl)
@[simp] theorem wrQ_isl (f : Fld) (x : Rat) : (s.wrQ f x).isl = s.isl := (rfl)
@[simp] theorem wrQ_ride (f : Fld) (x : Rat) : (s.wrQ f x).ride = s.ride := (rfl)
@[simp] theorem wrQ_subsSeen (f : Fld) (x : Rat) : (s.wrQ f x).subsSeen = s.subsSeen := (rfl)
@[simp] theorem wrQ_syncAt (f : Fld) (x : Rat) : (s.wrQ f x).syncAt = s.syncAt := (rfl)
@[simp] theorem wrQ_syncOutAt (f : Fld) (x : Rat) : (s.wrQ f x).syncOutAt = s.syncOutAt := (rfl)
@[simp] theorem wrQ_mach (f : Fld) (x : Rat) : (s.wrQ f x).mach = s.mach := (rfl)
@[simp] theorem wrQ_mods (f : Fld) (x : Rat) : (s.wrQ f x).mods = s.mods := (rfl)
@[simp] theorem wrQ_blks (f : Fld) (x : Rat) : (s.wrQ f x).blks = s.blks := (rfl)
@[simp] theorem wrQ_padc (f : Fld) (x : Rat) : (s.wrQ f x).padc = s.padc := (rfl)
@[simp] theorem wrQ_cmps (f : Fld) (x : Rat) : (s.wrQ f x).cmps = s.cmps := (rfl)
@[simp] theorem wrQ_ramps (f : Fld) (x : Rat) : (s.wrQ f x).ramps = s.ramps := (rfl)
@[simp] theorem wrQ_stRun (f : Fld) (x : Rat) : (s.wrQ f x).stRun = s.stRun := (rfl)
@[simp] theorem wrQ_stWait (f : Fld) (x : Rat) : (s.wrQ f x).stWait = s.stWait := (rfl)
@[simp] theorem wrQ_trips (f : Fld) (x : Rat) : (s.wrQ f x).trips = s.trips := (rfl)
@[simp] theorem wrQ_gdos (f : Fld) (x : Rat) : (s.wrQ f x).gdos = s.gdos := (rfl)
@[simp] theorem wrQ_tick (f : Fld) (x : Rat) : (s.wrQ f x).tick = s.tick := (rfl)
@[simp] theorem wrQ_pending (f : Fld) (x : Rat) : (s.wrQ f x).pending = s.pending := (rfl)

@[simp] theorem setLeg_variant (n : Nat) (v : LegM) : (s.setLeg n v).variant = s.variant := (rfl)
@[simp] theorem setLeg_phase (n : Nat) (v : LegM) : (s.setLeg n v).phase = s.phase := (rfl)
@[simp] theorem setLeg_tmode (n : Nat) (v : LegM) : (s.setLeg n v).tmode = s.tmode := (rfl)
@[simp] theorem setLeg_regs (n : Nat) (v : LegM) : (s.setLeg n v).regs = s.regs := (rfl)
@[simp] theorem setLeg_hwSet (n : Nat) (v : LegM) : (s.setLeg n v).hwSet = s.hwSet := (rfl)
@[simp] theorem setLeg_mem (n : Nat) (v : LegM) : (s.setLeg n v).mem = s.mem := (rfl)
@[simp] theorem setLeg_chk (n : Nat) (v : LegM) : (s.setLeg n v).chk = s.chk := (rfl)
@[simp] theorem setLeg_valid (n : Nat) (v : LegM) : (s.setLeg n v).valid = s.valid := (rfl)
@[simp] theorem setLeg_clk (n : Nat) (v : LegM) : (s.setLeg n v).clk = s.clk := (rfl)
@[simp] theorem setLeg_time (n : Nat) (v : LegM) : (s.setLeg n v).time = s.time := (rfl)
@[simp] theorem setLeg_boot (n : Nat) (v : LegM) : (s.setLeg n v).boot = s.boot := (rfl)
@[simp] theorem setLeg_keep (n : Nat) (v : LegM) : (s.setLeg n v).keep = s.keep := (rfl)
@[simp] theorem setLeg_sec (n : Nat) (v : LegM) : (s.setLeg n v).sec = s.sec := (rfl)
@[simp] theorem setLeg_age (n : Nat) (v : LegM) : (s.setLeg n v).age = s.age := (rfl)
@[simp] theorem setLeg_hif (n : Nat) (v : LegM) : (s.setLeg n v).hif = s.hif := (rfl)
@[simp] theorem setLeg_alm (n : Nat) (v : LegM) : (s.setLeg n v).alm = s.alm := (rfl)
@[simp] theorem setLeg_leng (n : Nat) (v : LegM) : (s.setLeg n v).leng = s.leng := (rfl)
@[simp] theorem setLeg_mtr (n : Nat) (v : LegM) : (s.setLeg n v).mtr = s.mtr := (rfl)
@[simp] theorem setLeg_net (n : Nat) (v : LegM) : (s.setLeg n v).net = s.net := (rfl)
@[simp] theorem setLeg_flt (n : Nat) (v : LegM) : (s.setLeg n v).flt = s.flt := (rfl)
@[simp] theorem setLeg_jrnl (n : Nat) (v : LegM) : (s.setLeg n v).jrnl = s.jrnl := (rfl)
@[simp] theorem setLeg_ecc (n : Nat) (v : LegM) : (s.setLeg n v).ecc = s.ecc := (rfl)
@[simp] theorem setLeg_mode (n : Nat) (v : LegM) : (s.setLeg n v).mode = s.mode := (rfl)
@[simp] theorem setLeg_safe (n : Nat) (v : LegM) : (s.setLeg n v).safe = s.safe := (rfl)
@[simp] theorem setLeg_ids (n : Nat) (v : LegM) : (s.setLeg n v).ids = s.ids := (rfl)
@[simp] theorem setLeg_grids (n : Nat) (v : LegM) : (s.setLeg n v).grids = s.grids := (rfl)
@[simp] theorem setLeg_chs (n : Nat) (v : LegM) : (s.setLeg n v).chs = s.chs := (rfl)
@[simp] theorem setLeg_forms (n : Nat) (v : LegM) : (s.setLeg n v).forms = s.forms := (rfl)
@[simp] theorem setLeg_dcs (n : Nat) (v : LegM) : (s.setLeg n v).dcs = s.dcs := (rfl)
@[simp] theorem setLeg_isl (n : Nat) (v : LegM) : (s.setLeg n v).isl = s.isl := (rfl)
@[simp] theorem setLeg_ride (n : Nat) (v : LegM) : (s.setLeg n v).ride = s.ride := (rfl)
@[simp] theorem setLeg_subsSeen (n : Nat) (v : LegM) : (s.setLeg n v).subsSeen = s.subsSeen := (rfl)
@[simp] theorem setLeg_syncAt (n : Nat) (v : LegM) : (s.setLeg n v).syncAt = s.syncAt := (rfl)
@[simp] theorem setLeg_syncOutAt (n : Nat) (v : LegM) : (s.setLeg n v).syncOutAt = s.syncOutAt := (rfl)
@[simp] theorem setLeg_mach (n : Nat) (v : LegM) : (s.setLeg n v).mach = s.mach := (rfl)
@[simp] theorem setLeg_mods (n : Nat) (v : LegM) : (s.setLeg n v).mods = s.mods := (rfl)
@[simp] theorem setLeg_blks (n : Nat) (v : LegM) : (s.setLeg n v).blks = s.blks := (rfl)
@[simp] theorem setLeg_padc (n : Nat) (v : LegM) : (s.setLeg n v).padc = s.padc := (rfl)
@[simp] theorem setLeg_cmps (n : Nat) (v : LegM) : (s.setLeg n v).cmps = s.cmps := (rfl)
@[simp] theorem setLeg_ramps (n : Nat) (v : LegM) : (s.setLeg n v).ramps = s.ramps := (rfl)
@[simp] theorem setLeg_stRun (n : Nat) (v : LegM) : (s.setLeg n v).stRun = s.stRun := (rfl)
@[simp] theorem setLeg_stWait (n : Nat) (v : LegM) : (s.setLeg n v).stWait = s.stWait := (rfl)
@[simp] theorem setLeg_trips (n : Nat) (v : LegM) : (s.setLeg n v).trips = s.trips := (rfl)
@[simp] theorem setLeg_gdos (n : Nat) (v : LegM) : (s.setLeg n v).gdos = s.gdos := (rfl)
@[simp] theorem setLeg_free (n : Nat) (v : LegM) : (s.setLeg n v).free = s.free := (rfl)
@[simp] theorem setLeg_tick (n : Nat) (v : LegM) : (s.setLeg n v).tick = s.tick := (rfl)
@[simp] theorem setLeg_pending (n : Nat) (v : LegM) : (s.setLeg n v).pending = s.pending := (rfl)

@[simp] theorem setGrid_variant (n : Nat) (v : GridM) : (s.setGrid n v).variant = s.variant := (rfl)
@[simp] theorem setGrid_phase (n : Nat) (v : GridM) : (s.setGrid n v).phase = s.phase := (rfl)
@[simp] theorem setGrid_tmode (n : Nat) (v : GridM) : (s.setGrid n v).tmode = s.tmode := (rfl)
@[simp] theorem setGrid_regs (n : Nat) (v : GridM) : (s.setGrid n v).regs = s.regs := (rfl)
@[simp] theorem setGrid_hwSet (n : Nat) (v : GridM) : (s.setGrid n v).hwSet = s.hwSet := (rfl)
@[simp] theorem setGrid_mem (n : Nat) (v : GridM) : (s.setGrid n v).mem = s.mem := (rfl)
@[simp] theorem setGrid_chk (n : Nat) (v : GridM) : (s.setGrid n v).chk = s.chk := (rfl)
@[simp] theorem setGrid_valid (n : Nat) (v : GridM) : (s.setGrid n v).valid = s.valid := (rfl)
@[simp] theorem setGrid_clk (n : Nat) (v : GridM) : (s.setGrid n v).clk = s.clk := (rfl)
@[simp] theorem setGrid_time (n : Nat) (v : GridM) : (s.setGrid n v).time = s.time := (rfl)
@[simp] theorem setGrid_boot (n : Nat) (v : GridM) : (s.setGrid n v).boot = s.boot := (rfl)
@[simp] theorem setGrid_keep (n : Nat) (v : GridM) : (s.setGrid n v).keep = s.keep := (rfl)
@[simp] theorem setGrid_sec (n : Nat) (v : GridM) : (s.setGrid n v).sec = s.sec := (rfl)
@[simp] theorem setGrid_age (n : Nat) (v : GridM) : (s.setGrid n v).age = s.age := (rfl)
@[simp] theorem setGrid_hif (n : Nat) (v : GridM) : (s.setGrid n v).hif = s.hif := (rfl)
@[simp] theorem setGrid_alm (n : Nat) (v : GridM) : (s.setGrid n v).alm = s.alm := (rfl)
@[simp] theorem setGrid_leng (n : Nat) (v : GridM) : (s.setGrid n v).leng = s.leng := (rfl)
@[simp] theorem setGrid_mtr (n : Nat) (v : GridM) : (s.setGrid n v).mtr = s.mtr := (rfl)
@[simp] theorem setGrid_net (n : Nat) (v : GridM) : (s.setGrid n v).net = s.net := (rfl)
@[simp] theorem setGrid_flt (n : Nat) (v : GridM) : (s.setGrid n v).flt = s.flt := (rfl)
@[simp] theorem setGrid_jrnl (n : Nat) (v : GridM) : (s.setGrid n v).jrnl = s.jrnl := (rfl)
@[simp] theorem setGrid_ecc (n : Nat) (v : GridM) : (s.setGrid n v).ecc = s.ecc := (rfl)
@[simp] theorem setGrid_mode (n : Nat) (v : GridM) : (s.setGrid n v).mode = s.mode := (rfl)
@[simp] theorem setGrid_safe (n : Nat) (v : GridM) : (s.setGrid n v).safe = s.safe := (rfl)
@[simp] theorem setGrid_legs (n : Nat) (v : GridM) : (s.setGrid n v).legs = s.legs := (rfl)
@[simp] theorem setGrid_ids (n : Nat) (v : GridM) : (s.setGrid n v).ids = s.ids := (rfl)
@[simp] theorem setGrid_chs (n : Nat) (v : GridM) : (s.setGrid n v).chs = s.chs := (rfl)
@[simp] theorem setGrid_forms (n : Nat) (v : GridM) : (s.setGrid n v).forms = s.forms := (rfl)
@[simp] theorem setGrid_dcs (n : Nat) (v : GridM) : (s.setGrid n v).dcs = s.dcs := (rfl)
@[simp] theorem setGrid_isl (n : Nat) (v : GridM) : (s.setGrid n v).isl = s.isl := (rfl)
@[simp] theorem setGrid_ride (n : Nat) (v : GridM) : (s.setGrid n v).ride = s.ride := (rfl)
@[simp] theorem setGrid_subsSeen (n : Nat) (v : GridM) : (s.setGrid n v).subsSeen = s.subsSeen := (rfl)
@[simp] theorem setGrid_syncAt (n : Nat) (v : GridM) : (s.setGrid n v).syncAt = s.syncAt := (rfl)
@[simp] theorem setGrid_syncOutAt (n : Nat) (v : GridM) : (s.setGrid n v).syncOutAt = s.syncOutAt := (rfl)
@[simp] theorem setGrid_mach (n : Nat) (v : GridM) : (s.setGrid n v).mach = s.mach := (rfl)
@[simp] theorem setGrid_mods (n : Nat) (v : GridM) : (s.setGrid n v).mods = s.mods := (rfl)
@[simp] theorem setGrid_blks (n : Nat) (v : GridM) : (s.setGrid n v).blks = s.blks := (rfl)
@[simp] theorem setGrid_padc (n : Nat) (v : GridM) : (s.setGrid n v).padc = s.padc := (rfl)
@[simp] theorem setGrid_cmps (n : Nat) (v : GridM) : (s.setGrid n v).cmps = s.cmps := (rfl)
@[simp] theorem setGrid_ramps (n : Nat) (v : GridM) : (s.setGrid n v).ramps = s.ramps := (rfl)
@[simp] theorem setGrid_stRun (n : Nat) (v : GridM) : (s.setGrid n v).stRun = s.stRun := (rfl)
@[simp] theorem setGrid_stWait (n : Nat) (v : GridM) : (s.setGrid n v).stWait = s.stWait := (rfl)
@[simp] theorem setGrid_trips (n : Nat) (v : GridM) : (s.setGrid n v).trips = s.trips := (rfl)
@[simp] theorem setGrid_gdos (n : Nat) (v : GridM) : (s.setGrid n v).gdos = s.gdos := (rfl)
@[simp] theorem setGrid_free (n : Nat) (v : GridM) : (s.setGrid n v).free = s.free := (rfl)
@[simp] theorem setGrid_tick (n : Nat) (v : GridM) : (s.setGrid n v).tick = s.tick := (rfl)
@[simp] theorem setGrid_pending (n : Nat) (v : GridM) : (s.setGrid n v).pending = s.pending := (rfl)

@[simp] theorem setCh_variant (n : Nat) (v : ChM) : (s.setCh n v).variant = s.variant := (rfl)
@[simp] theorem setCh_phase (n : Nat) (v : ChM) : (s.setCh n v).phase = s.phase := (rfl)
@[simp] theorem setCh_tmode (n : Nat) (v : ChM) : (s.setCh n v).tmode = s.tmode := (rfl)
@[simp] theorem setCh_regs (n : Nat) (v : ChM) : (s.setCh n v).regs = s.regs := (rfl)
@[simp] theorem setCh_hwSet (n : Nat) (v : ChM) : (s.setCh n v).hwSet = s.hwSet := (rfl)
@[simp] theorem setCh_mem (n : Nat) (v : ChM) : (s.setCh n v).mem = s.mem := (rfl)
@[simp] theorem setCh_chk (n : Nat) (v : ChM) : (s.setCh n v).chk = s.chk := (rfl)
@[simp] theorem setCh_valid (n : Nat) (v : ChM) : (s.setCh n v).valid = s.valid := (rfl)
@[simp] theorem setCh_clk (n : Nat) (v : ChM) : (s.setCh n v).clk = s.clk := (rfl)
@[simp] theorem setCh_time (n : Nat) (v : ChM) : (s.setCh n v).time = s.time := (rfl)
@[simp] theorem setCh_boot (n : Nat) (v : ChM) : (s.setCh n v).boot = s.boot := (rfl)
@[simp] theorem setCh_keep (n : Nat) (v : ChM) : (s.setCh n v).keep = s.keep := (rfl)
@[simp] theorem setCh_sec (n : Nat) (v : ChM) : (s.setCh n v).sec = s.sec := (rfl)
@[simp] theorem setCh_age (n : Nat) (v : ChM) : (s.setCh n v).age = s.age := (rfl)
@[simp] theorem setCh_hif (n : Nat) (v : ChM) : (s.setCh n v).hif = s.hif := (rfl)
@[simp] theorem setCh_alm (n : Nat) (v : ChM) : (s.setCh n v).alm = s.alm := (rfl)
@[simp] theorem setCh_leng (n : Nat) (v : ChM) : (s.setCh n v).leng = s.leng := (rfl)
@[simp] theorem setCh_mtr (n : Nat) (v : ChM) : (s.setCh n v).mtr = s.mtr := (rfl)
@[simp] theorem setCh_net (n : Nat) (v : ChM) : (s.setCh n v).net = s.net := (rfl)
@[simp] theorem setCh_flt (n : Nat) (v : ChM) : (s.setCh n v).flt = s.flt := (rfl)
@[simp] theorem setCh_jrnl (n : Nat) (v : ChM) : (s.setCh n v).jrnl = s.jrnl := (rfl)
@[simp] theorem setCh_ecc (n : Nat) (v : ChM) : (s.setCh n v).ecc = s.ecc := (rfl)
@[simp] theorem setCh_mode (n : Nat) (v : ChM) : (s.setCh n v).mode = s.mode := (rfl)
@[simp] theorem setCh_safe (n : Nat) (v : ChM) : (s.setCh n v).safe = s.safe := (rfl)
@[simp] theorem setCh_legs (n : Nat) (v : ChM) : (s.setCh n v).legs = s.legs := (rfl)
@[simp] theorem setCh_ids (n : Nat) (v : ChM) : (s.setCh n v).ids = s.ids := (rfl)
@[simp] theorem setCh_grids (n : Nat) (v : ChM) : (s.setCh n v).grids = s.grids := (rfl)
@[simp] theorem setCh_forms (n : Nat) (v : ChM) : (s.setCh n v).forms = s.forms := (rfl)
@[simp] theorem setCh_dcs (n : Nat) (v : ChM) : (s.setCh n v).dcs = s.dcs := (rfl)
@[simp] theorem setCh_isl (n : Nat) (v : ChM) : (s.setCh n v).isl = s.isl := (rfl)
@[simp] theorem setCh_ride (n : Nat) (v : ChM) : (s.setCh n v).ride = s.ride := (rfl)
@[simp] theorem setCh_subsSeen (n : Nat) (v : ChM) : (s.setCh n v).subsSeen = s.subsSeen := (rfl)
@[simp] theorem setCh_syncAt (n : Nat) (v : ChM) : (s.setCh n v).syncAt = s.syncAt := (rfl)
@[simp] theorem setCh_syncOutAt (n : Nat) (v : ChM) : (s.setCh n v).syncOutAt = s.syncOutAt := (rfl)
@[simp] theorem setCh_mach (n : Nat) (v : ChM) : (s.setCh n v).mach = s.mach := (rfl)
@[simp] theorem setCh_mods (n : Nat) (v : ChM) : (s.setCh n v).mods = s.mods := (rfl)
@[simp] theorem setCh_blks (n : Nat) (v : ChM) : (s.setCh n v).blks = s.blks := (rfl)
@[simp] theorem setCh_padc (n : Nat) (v : ChM) : (s.setCh n v).padc = s.padc := (rfl)
@[simp] theorem setCh_cmps (n : Nat) (v : ChM) : (s.setCh n v).cmps = s.cmps := (rfl)
@[simp] theorem setCh_ramps (n : Nat) (v : ChM) : (s.setCh n v).ramps = s.ramps := (rfl)
@[simp] theorem setCh_stRun (n : Nat) (v : ChM) : (s.setCh n v).stRun = s.stRun := (rfl)
@[simp] theorem setCh_stWait (n : Nat) (v : ChM) : (s.setCh n v).stWait = s.stWait := (rfl)
@[simp] theorem setCh_trips (n : Nat) (v : ChM) : (s.setCh n v).trips = s.trips := (rfl)
@[simp] theorem setCh_gdos (n : Nat) (v : ChM) : (s.setCh n v).gdos = s.gdos := (rfl)
@[simp] theorem setCh_free (n : Nat) (v : ChM) : (s.setCh n v).free = s.free := (rfl)
@[simp] theorem setCh_tick (n : Nat) (v : ChM) : (s.setCh n v).tick = s.tick := (rfl)
@[simp] theorem setCh_pending (n : Nat) (v : ChM) : (s.setCh n v).pending = s.pending := (rfl)

@[simp] theorem setForm_variant (n : Nat) (v : FormM) : (s.setForm n v).variant = s.variant := (rfl)
@[simp] theorem setForm_phase (n : Nat) (v : FormM) : (s.setForm n v).phase = s.phase := (rfl)
@[simp] theorem setForm_tmode (n : Nat) (v : FormM) : (s.setForm n v).tmode = s.tmode := (rfl)
@[simp] theorem setForm_regs (n : Nat) (v : FormM) : (s.setForm n v).regs = s.regs := (rfl)
@[simp] theorem setForm_hwSet (n : Nat) (v : FormM) : (s.setForm n v).hwSet = s.hwSet := (rfl)
@[simp] theorem setForm_mem (n : Nat) (v : FormM) : (s.setForm n v).mem = s.mem := (rfl)
@[simp] theorem setForm_chk (n : Nat) (v : FormM) : (s.setForm n v).chk = s.chk := (rfl)
@[simp] theorem setForm_valid (n : Nat) (v : FormM) : (s.setForm n v).valid = s.valid := (rfl)
@[simp] theorem setForm_clk (n : Nat) (v : FormM) : (s.setForm n v).clk = s.clk := (rfl)
@[simp] theorem setForm_time (n : Nat) (v : FormM) : (s.setForm n v).time = s.time := (rfl)
@[simp] theorem setForm_boot (n : Nat) (v : FormM) : (s.setForm n v).boot = s.boot := (rfl)
@[simp] theorem setForm_keep (n : Nat) (v : FormM) : (s.setForm n v).keep = s.keep := (rfl)
@[simp] theorem setForm_sec (n : Nat) (v : FormM) : (s.setForm n v).sec = s.sec := (rfl)
@[simp] theorem setForm_age (n : Nat) (v : FormM) : (s.setForm n v).age = s.age := (rfl)
@[simp] theorem setForm_hif (n : Nat) (v : FormM) : (s.setForm n v).hif = s.hif := (rfl)
@[simp] theorem setForm_alm (n : Nat) (v : FormM) : (s.setForm n v).alm = s.alm := (rfl)
@[simp] theorem setForm_leng (n : Nat) (v : FormM) : (s.setForm n v).leng = s.leng := (rfl)
@[simp] theorem setForm_mtr (n : Nat) (v : FormM) : (s.setForm n v).mtr = s.mtr := (rfl)
@[simp] theorem setForm_net (n : Nat) (v : FormM) : (s.setForm n v).net = s.net := (rfl)
@[simp] theorem setForm_flt (n : Nat) (v : FormM) : (s.setForm n v).flt = s.flt := (rfl)
@[simp] theorem setForm_jrnl (n : Nat) (v : FormM) : (s.setForm n v).jrnl = s.jrnl := (rfl)
@[simp] theorem setForm_ecc (n : Nat) (v : FormM) : (s.setForm n v).ecc = s.ecc := (rfl)
@[simp] theorem setForm_mode (n : Nat) (v : FormM) : (s.setForm n v).mode = s.mode := (rfl)
@[simp] theorem setForm_safe (n : Nat) (v : FormM) : (s.setForm n v).safe = s.safe := (rfl)
@[simp] theorem setForm_legs (n : Nat) (v : FormM) : (s.setForm n v).legs = s.legs := (rfl)
@[simp] theorem setForm_ids (n : Nat) (v : FormM) : (s.setForm n v).ids = s.ids := (rfl)
@[simp] theorem setForm_grids (n : Nat) (v : FormM) : (s.setForm n v).grids = s.grids := (rfl)
@[simp] theorem setForm_chs (n : Nat) (v : FormM) : (s.setForm n v).chs = s.chs := (rfl)
@[simp] theorem setForm_dcs (n : Nat) (v : FormM) : (s.setForm n v).dcs = s.dcs := (rfl)
@[simp] theorem setForm_isl (n : Nat) (v : FormM) : (s.setForm n v).isl = s.isl := (rfl)
@[simp] theorem setForm_ride (n : Nat) (v : FormM) : (s.setForm n v).ride = s.ride := (rfl)
@[simp] theorem setForm_subsSeen (n : Nat) (v : FormM) : (s.setForm n v).subsSeen = s.subsSeen := (rfl)
@[simp] theorem setForm_syncAt (n : Nat) (v : FormM) : (s.setForm n v).syncAt = s.syncAt := (rfl)
@[simp] theorem setForm_syncOutAt (n : Nat) (v : FormM) : (s.setForm n v).syncOutAt = s.syncOutAt := (rfl)
@[simp] theorem setForm_mach (n : Nat) (v : FormM) : (s.setForm n v).mach = s.mach := (rfl)
@[simp] theorem setForm_mods (n : Nat) (v : FormM) : (s.setForm n v).mods = s.mods := (rfl)
@[simp] theorem setForm_blks (n : Nat) (v : FormM) : (s.setForm n v).blks = s.blks := (rfl)
@[simp] theorem setForm_padc (n : Nat) (v : FormM) : (s.setForm n v).padc = s.padc := (rfl)
@[simp] theorem setForm_cmps (n : Nat) (v : FormM) : (s.setForm n v).cmps = s.cmps := (rfl)
@[simp] theorem setForm_ramps (n : Nat) (v : FormM) : (s.setForm n v).ramps = s.ramps := (rfl)
@[simp] theorem setForm_stRun (n : Nat) (v : FormM) : (s.setForm n v).stRun = s.stRun := (rfl)
@[simp] theorem setForm_stWait (n : Nat) (v : FormM) : (s.setForm n v).stWait = s.stWait := (rfl)
@[simp] theorem setForm_trips (n : Nat) (v : FormM) : (s.setForm n v).trips = s.trips := (rfl)
@[simp] theorem setForm_gdos (n : Nat) (v : FormM) : (s.setForm n v).gdos = s.gdos := (rfl)
@[simp] theorem setForm_free (n : Nat) (v : FormM) : (s.setForm n v).free = s.free := (rfl)
@[simp] theorem setForm_tick (n : Nat) (v : FormM) : (s.setForm n v).tick = s.tick := (rfl)
@[simp] theorem setForm_pending (n : Nat) (v : FormM) : (s.setForm n v).pending = s.pending := (rfl)

@[simp] theorem setDc_variant (n : Nat) (v : DcM) : (s.setDc n v).variant = s.variant := (rfl)
@[simp] theorem setDc_phase (n : Nat) (v : DcM) : (s.setDc n v).phase = s.phase := (rfl)
@[simp] theorem setDc_tmode (n : Nat) (v : DcM) : (s.setDc n v).tmode = s.tmode := (rfl)
@[simp] theorem setDc_regs (n : Nat) (v : DcM) : (s.setDc n v).regs = s.regs := (rfl)
@[simp] theorem setDc_hwSet (n : Nat) (v : DcM) : (s.setDc n v).hwSet = s.hwSet := (rfl)
@[simp] theorem setDc_mem (n : Nat) (v : DcM) : (s.setDc n v).mem = s.mem := (rfl)
@[simp] theorem setDc_chk (n : Nat) (v : DcM) : (s.setDc n v).chk = s.chk := (rfl)
@[simp] theorem setDc_valid (n : Nat) (v : DcM) : (s.setDc n v).valid = s.valid := (rfl)
@[simp] theorem setDc_clk (n : Nat) (v : DcM) : (s.setDc n v).clk = s.clk := (rfl)
@[simp] theorem setDc_time (n : Nat) (v : DcM) : (s.setDc n v).time = s.time := (rfl)
@[simp] theorem setDc_boot (n : Nat) (v : DcM) : (s.setDc n v).boot = s.boot := (rfl)
@[simp] theorem setDc_keep (n : Nat) (v : DcM) : (s.setDc n v).keep = s.keep := (rfl)
@[simp] theorem setDc_sec (n : Nat) (v : DcM) : (s.setDc n v).sec = s.sec := (rfl)
@[simp] theorem setDc_age (n : Nat) (v : DcM) : (s.setDc n v).age = s.age := (rfl)
@[simp] theorem setDc_hif (n : Nat) (v : DcM) : (s.setDc n v).hif = s.hif := (rfl)
@[simp] theorem setDc_alm (n : Nat) (v : DcM) : (s.setDc n v).alm = s.alm := (rfl)
@[simp] theorem setDc_leng (n : Nat) (v : DcM) : (s.setDc n v).leng = s.leng := (rfl)
@[simp] theorem setDc_mtr (n : Nat) (v : DcM) : (s.setDc n v).mtr = s.mtr := (rfl)
@[simp] theorem setDc_net (n : Nat) (v : DcM) : (s.setDc n v).net = s.net := (rfl)
@[simp] theorem setDc_flt (n : Nat) (v : DcM) : (s.setDc n v).flt = s.flt := (rfl)
@[simp] theorem setDc_jrnl (n : Nat) (v : DcM) : (s.setDc n v).jrnl = s.jrnl := (rfl)
@[simp] theorem setDc_ecc (n : Nat) (v : DcM) : (s.setDc n v).ecc = s.ecc := (rfl)
@[simp] theorem setDc_mode (n : Nat) (v : DcM) : (s.setDc n v).mode = s.mode := (rfl)
@[simp] theorem setDc_safe (n : Nat) (v : DcM) : (s.setDc n v).safe = s.safe := (rfl)
@[simp] theorem setDc_legs (n : Nat) (v : DcM) : (s.setDc n v).legs = s.legs := (rfl)
@[simp] theorem setDc_ids (n : Nat) (v : DcM) : (s.setDc n v).ids = s.ids := (rfl)
@[simp] theorem setDc_grids (n : Nat) (v : DcM) : (s.setDc n v).grids = s.grids := (rfl)
@[simp] theorem setDc_chs (n : Nat) (v : DcM) : (s.setDc n v).chs = s.chs := (rfl)
@[simp] theorem setDc_forms (n : Nat) (v : DcM) : (s.setDc n v).forms = s.forms := (rfl)
@[simp] theorem setDc_isl (n : Nat) (v : DcM) : (s.setDc n v).isl = s.isl := (rfl)
@[simp] theorem setDc_ride (n : Nat) (v : DcM) : (s.setDc n v).ride = s.ride := (rfl)
@[simp] theorem setDc_subsSeen (n : Nat) (v : DcM) : (s.setDc n v).subsSeen = s.subsSeen := (rfl)
@[simp] theorem setDc_syncAt (n : Nat) (v : DcM) : (s.setDc n v).syncAt = s.syncAt := (rfl)
@[simp] theorem setDc_syncOutAt (n : Nat) (v : DcM) : (s.setDc n v).syncOutAt = s.syncOutAt := (rfl)
@[simp] theorem setDc_mach (n : Nat) (v : DcM) : (s.setDc n v).mach = s.mach := (rfl)
@[simp] theorem setDc_mods (n : Nat) (v : DcM) : (s.setDc n v).mods = s.mods := (rfl)
@[simp] theorem setDc_blks (n : Nat) (v : DcM) : (s.setDc n v).blks = s.blks := (rfl)
@[simp] theorem setDc_padc (n : Nat) (v : DcM) : (s.setDc n v).padc = s.padc := (rfl)
@[simp] theorem setDc_cmps (n : Nat) (v : DcM) : (s.setDc n v).cmps = s.cmps := (rfl)
@[simp] theorem setDc_ramps (n : Nat) (v : DcM) : (s.setDc n v).ramps = s.ramps := (rfl)
@[simp] theorem setDc_stRun (n : Nat) (v : DcM) : (s.setDc n v).stRun = s.stRun := (rfl)
@[simp] theorem setDc_stWait (n : Nat) (v : DcM) : (s.setDc n v).stWait = s.stWait := (rfl)
@[simp] theorem setDc_trips (n : Nat) (v : DcM) : (s.setDc n v).trips = s.trips := (rfl)
@[simp] theorem setDc_gdos (n : Nat) (v : DcM) : (s.setDc n v).gdos = s.gdos := (rfl)
@[simp] theorem setDc_free (n : Nat) (v : DcM) : (s.setDc n v).free = s.free := (rfl)
@[simp] theorem setDc_tick (n : Nat) (v : DcM) : (s.setDc n v).tick = s.tick := (rfl)
@[simp] theorem setDc_pending (n : Nat) (v : DcM) : (s.setDc n v).pending = s.pending := (rfl)

@[simp] theorem setMin_variant (n : Nat) (v : ModIn) : (s.setMin n v).variant = s.variant := (rfl)
@[simp] theorem setMin_phase (n : Nat) (v : ModIn) : (s.setMin n v).phase = s.phase := (rfl)
@[simp] theorem setMin_tmode (n : Nat) (v : ModIn) : (s.setMin n v).tmode = s.tmode := (rfl)
@[simp] theorem setMin_regs (n : Nat) (v : ModIn) : (s.setMin n v).regs = s.regs := (rfl)
@[simp] theorem setMin_hwSet (n : Nat) (v : ModIn) : (s.setMin n v).hwSet = s.hwSet := (rfl)
@[simp] theorem setMin_mem (n : Nat) (v : ModIn) : (s.setMin n v).mem = s.mem := (rfl)
@[simp] theorem setMin_chk (n : Nat) (v : ModIn) : (s.setMin n v).chk = s.chk := (rfl)
@[simp] theorem setMin_valid (n : Nat) (v : ModIn) : (s.setMin n v).valid = s.valid := (rfl)
@[simp] theorem setMin_clk (n : Nat) (v : ModIn) : (s.setMin n v).clk = s.clk := (rfl)
@[simp] theorem setMin_time (n : Nat) (v : ModIn) : (s.setMin n v).time = s.time := (rfl)
@[simp] theorem setMin_boot (n : Nat) (v : ModIn) : (s.setMin n v).boot = s.boot := (rfl)
@[simp] theorem setMin_keep (n : Nat) (v : ModIn) : (s.setMin n v).keep = s.keep := (rfl)
@[simp] theorem setMin_sec (n : Nat) (v : ModIn) : (s.setMin n v).sec = s.sec := (rfl)
@[simp] theorem setMin_age (n : Nat) (v : ModIn) : (s.setMin n v).age = s.age := (rfl)
@[simp] theorem setMin_hif (n : Nat) (v : ModIn) : (s.setMin n v).hif = s.hif := (rfl)
@[simp] theorem setMin_alm (n : Nat) (v : ModIn) : (s.setMin n v).alm = s.alm := (rfl)
@[simp] theorem setMin_leng (n : Nat) (v : ModIn) : (s.setMin n v).leng = s.leng := (rfl)
@[simp] theorem setMin_mtr (n : Nat) (v : ModIn) : (s.setMin n v).mtr = s.mtr := (rfl)
@[simp] theorem setMin_net (n : Nat) (v : ModIn) : (s.setMin n v).net = s.net := (rfl)
@[simp] theorem setMin_flt (n : Nat) (v : ModIn) : (s.setMin n v).flt = s.flt := (rfl)
@[simp] theorem setMin_jrnl (n : Nat) (v : ModIn) : (s.setMin n v).jrnl = s.jrnl := (rfl)
@[simp] theorem setMin_ecc (n : Nat) (v : ModIn) : (s.setMin n v).ecc = s.ecc := (rfl)
@[simp] theorem setMin_mode (n : Nat) (v : ModIn) : (s.setMin n v).mode = s.mode := (rfl)
@[simp] theorem setMin_safe (n : Nat) (v : ModIn) : (s.setMin n v).safe = s.safe := (rfl)
@[simp] theorem setMin_legs (n : Nat) (v : ModIn) : (s.setMin n v).legs = s.legs := (rfl)
@[simp] theorem setMin_ids (n : Nat) (v : ModIn) : (s.setMin n v).ids = s.ids := (rfl)
@[simp] theorem setMin_grids (n : Nat) (v : ModIn) : (s.setMin n v).grids = s.grids := (rfl)
@[simp] theorem setMin_chs (n : Nat) (v : ModIn) : (s.setMin n v).chs = s.chs := (rfl)
@[simp] theorem setMin_forms (n : Nat) (v : ModIn) : (s.setMin n v).forms = s.forms := (rfl)
@[simp] theorem setMin_dcs (n : Nat) (v : ModIn) : (s.setMin n v).dcs = s.dcs := (rfl)
@[simp] theorem setMin_isl (n : Nat) (v : ModIn) : (s.setMin n v).isl = s.isl := (rfl)
@[simp] theorem setMin_ride (n : Nat) (v : ModIn) : (s.setMin n v).ride = s.ride := (rfl)
@[simp] theorem setMin_subsSeen (n : Nat) (v : ModIn) : (s.setMin n v).subsSeen = s.subsSeen := (rfl)
@[simp] theorem setMin_syncAt (n : Nat) (v : ModIn) : (s.setMin n v).syncAt = s.syncAt := (rfl)
@[simp] theorem setMin_syncOutAt (n : Nat) (v : ModIn) : (s.setMin n v).syncOutAt = s.syncOutAt := (rfl)
@[simp] theorem setMin_mach (n : Nat) (v : ModIn) : (s.setMin n v).mach = s.mach := (rfl)
@[simp] theorem setMin_blks (n : Nat) (v : ModIn) : (s.setMin n v).blks = s.blks := (rfl)
@[simp] theorem setMin_padc (n : Nat) (v : ModIn) : (s.setMin n v).padc = s.padc := (rfl)
@[simp] theorem setMin_cmps (n : Nat) (v : ModIn) : (s.setMin n v).cmps = s.cmps := (rfl)
@[simp] theorem setMin_ramps (n : Nat) (v : ModIn) : (s.setMin n v).ramps = s.ramps := (rfl)
@[simp] theorem setMin_stRun (n : Nat) (v : ModIn) : (s.setMin n v).stRun = s.stRun := (rfl)
@[simp] theorem setMin_stWait (n : Nat) (v : ModIn) : (s.setMin n v).stWait = s.stWait := (rfl)
@[simp] theorem setMin_trips (n : Nat) (v : ModIn) : (s.setMin n v).trips = s.trips := (rfl)
@[simp] theorem setMin_gdos (n : Nat) (v : ModIn) : (s.setMin n v).gdos = s.gdos := (rfl)
@[simp] theorem setMin_free (n : Nat) (v : ModIn) : (s.setMin n v).free = s.free := (rfl)
@[simp] theorem setMin_tick (n : Nat) (v : ModIn) : (s.setMin n v).tick = s.tick := (rfl)
@[simp] theorem setMin_pending (n : Nat) (v : ModIn) : (s.setMin n v).pending = s.pending := (rfl)

@[simp] theorem setBlk_variant (n : Nat) (v : ModBlk) : (s.setBlk n v).variant = s.variant := (rfl)
@[simp] theorem setBlk_phase (n : Nat) (v : ModBlk) : (s.setBlk n v).phase = s.phase := (rfl)
@[simp] theorem setBlk_tmode (n : Nat) (v : ModBlk) : (s.setBlk n v).tmode = s.tmode := (rfl)
@[simp] theorem setBlk_regs (n : Nat) (v : ModBlk) : (s.setBlk n v).regs = s.regs := (rfl)
@[simp] theorem setBlk_hwSet (n : Nat) (v : ModBlk) : (s.setBlk n v).hwSet = s.hwSet := (rfl)
@[simp] theorem setBlk_mem (n : Nat) (v : ModBlk) : (s.setBlk n v).mem = s.mem := (rfl)
@[simp] theorem setBlk_chk (n : Nat) (v : ModBlk) : (s.setBlk n v).chk = s.chk := (rfl)
@[simp] theorem setBlk_valid (n : Nat) (v : ModBlk) : (s.setBlk n v).valid = s.valid := (rfl)
@[simp] theorem setBlk_clk (n : Nat) (v : ModBlk) : (s.setBlk n v).clk = s.clk := (rfl)
@[simp] theorem setBlk_time (n : Nat) (v : ModBlk) : (s.setBlk n v).time = s.time := (rfl)
@[simp] theorem setBlk_boot (n : Nat) (v : ModBlk) : (s.setBlk n v).boot = s.boot := (rfl)
@[simp] theorem setBlk_keep (n : Nat) (v : ModBlk) : (s.setBlk n v).keep = s.keep := (rfl)
@[simp] theorem setBlk_sec (n : Nat) (v : ModBlk) : (s.setBlk n v).sec = s.sec := (rfl)
@[simp] theorem setBlk_age (n : Nat) (v : ModBlk) : (s.setBlk n v).age = s.age := (rfl)
@[simp] theorem setBlk_hif (n : Nat) (v : ModBlk) : (s.setBlk n v).hif = s.hif := (rfl)
@[simp] theorem setBlk_alm (n : Nat) (v : ModBlk) : (s.setBlk n v).alm = s.alm := (rfl)
@[simp] theorem setBlk_leng (n : Nat) (v : ModBlk) : (s.setBlk n v).leng = s.leng := (rfl)
@[simp] theorem setBlk_mtr (n : Nat) (v : ModBlk) : (s.setBlk n v).mtr = s.mtr := (rfl)
@[simp] theorem setBlk_net (n : Nat) (v : ModBlk) : (s.setBlk n v).net = s.net := (rfl)
@[simp] theorem setBlk_flt (n : Nat) (v : ModBlk) : (s.setBlk n v).flt = s.flt := (rfl)
@[simp] theorem setBlk_jrnl (n : Nat) (v : ModBlk) : (s.setBlk n v).jrnl = s.jrnl := (rfl)
@[simp] theorem setBlk_ecc (n : Nat) (v : ModBlk) : (s.setBlk n v).ecc = s.ecc := (rfl)
@[simp] theorem setBlk_mode (n : Nat) (v : ModBlk) : (s.setBlk n v).mode = s.mode := (rfl)
@[simp] theorem setBlk_safe (n : Nat) (v : ModBlk) : (s.setBlk n v).safe = s.safe := (rfl)
@[simp] theorem setBlk_legs (n : Nat) (v : ModBlk) : (s.setBlk n v).legs = s.legs := (rfl)
@[simp] theorem setBlk_ids (n : Nat) (v : ModBlk) : (s.setBlk n v).ids = s.ids := (rfl)
@[simp] theorem setBlk_grids (n : Nat) (v : ModBlk) : (s.setBlk n v).grids = s.grids := (rfl)
@[simp] theorem setBlk_chs (n : Nat) (v : ModBlk) : (s.setBlk n v).chs = s.chs := (rfl)
@[simp] theorem setBlk_forms (n : Nat) (v : ModBlk) : (s.setBlk n v).forms = s.forms := (rfl)
@[simp] theorem setBlk_dcs (n : Nat) (v : ModBlk) : (s.setBlk n v).dcs = s.dcs := (rfl)
@[simp] theorem setBlk_isl (n : Nat) (v : ModBlk) : (s.setBlk n v).isl = s.isl := (rfl)
@[simp] theorem setBlk_ride (n : Nat) (v : ModBlk) : (s.setBlk n v).ride = s.ride := (rfl)
@[simp] theorem setBlk_subsSeen (n : Nat) (v : ModBlk) : (s.setBlk n v).subsSeen = s.subsSeen := (rfl)
@[simp] theorem setBlk_syncAt (n : Nat) (v : ModBlk) : (s.setBlk n v).syncAt = s.syncAt := (rfl)
@[simp] theorem setBlk_syncOutAt (n : Nat) (v : ModBlk) : (s.setBlk n v).syncOutAt = s.syncOutAt := (rfl)
@[simp] theorem setBlk_mach (n : Nat) (v : ModBlk) : (s.setBlk n v).mach = s.mach := (rfl)
@[simp] theorem setBlk_mods (n : Nat) (v : ModBlk) : (s.setBlk n v).mods = s.mods := (rfl)
@[simp] theorem setBlk_padc (n : Nat) (v : ModBlk) : (s.setBlk n v).padc = s.padc := (rfl)
@[simp] theorem setBlk_cmps (n : Nat) (v : ModBlk) : (s.setBlk n v).cmps = s.cmps := (rfl)
@[simp] theorem setBlk_ramps (n : Nat) (v : ModBlk) : (s.setBlk n v).ramps = s.ramps := (rfl)
@[simp] theorem setBlk_stRun (n : Nat) (v : ModBlk) : (s.setBlk n v).stRun = s.stRun := (rfl)
@[simp] theorem setBlk_stWait (n : Nat) (v : ModBlk) : (s.setBlk n v).stWait = s.stWait := (rfl)
@[simp] theorem setBlk_trips (n : Nat) (v : ModBlk) : (s.setBlk n v).trips = s.trips := (rfl)
@[simp] theorem setBlk_gdos (n : Nat) (v : ModBlk) : (s.setBlk n v).gdos = s.gdos := (rfl)
@[simp] theorem setBlk_free (n : Nat) (v : ModBlk) : (s.setBlk n v).free = s.free := (rfl)
@[simp] theorem setBlk_tick (n : Nat) (v : ModBlk) : (s.setBlk n v).tick = s.tick := (rfl)
@[simp] theorem setBlk_pending (n : Nat) (v : ModBlk) : (s.setBlk n v).pending = s.pending := (rfl)

@[simp] theorem setConv_variant (n : Nat) (v : PadcM) : (s.setConv n v).variant = s.variant := (rfl)
@[simp] theorem setConv_phase (n : Nat) (v : PadcM) : (s.setConv n v).phase = s.phase := (rfl)
@[simp] theorem setConv_tmode (n : Nat) (v : PadcM) : (s.setConv n v).tmode = s.tmode := (rfl)
@[simp] theorem setConv_regs (n : Nat) (v : PadcM) : (s.setConv n v).regs = s.regs := (rfl)
@[simp] theorem setConv_hwSet (n : Nat) (v : PadcM) : (s.setConv n v).hwSet = s.hwSet := (rfl)
@[simp] theorem setConv_mem (n : Nat) (v : PadcM) : (s.setConv n v).mem = s.mem := (rfl)
@[simp] theorem setConv_chk (n : Nat) (v : PadcM) : (s.setConv n v).chk = s.chk := (rfl)
@[simp] theorem setConv_valid (n : Nat) (v : PadcM) : (s.setConv n v).valid = s.valid := (rfl)
@[simp] theorem setConv_clk (n : Nat) (v : PadcM) : (s.setConv n v).clk = s.clk := (rfl)
@[simp] theorem setConv_time (n : Nat) (v : PadcM) : (s.setConv n v).time = s.time := (rfl)
@[simp] theorem setConv_boot (n : Nat) (v : PadcM) : (s.setConv n v).boot = s.boot := (rfl)
@[simp] theorem setConv_keep (n : Nat) (v : PadcM) : (s.setConv n v).keep = s.keep := (rfl)
@[simp] theorem setConv_sec (n : Nat) (v : PadcM) : (s.setConv n v).sec = s.sec := (rfl)
@[simp] theorem setConv_age (n : Nat) (v : PadcM) : (s.setConv n v).age = s.age := (rfl)
@[simp] theorem setConv_hif (n : Nat) (v : PadcM) : (s.setConv n v).hif = s.hif := (rfl)
@[simp] theorem setConv_alm (n : Nat) (v : PadcM) : (s.setConv n v).alm = s.alm := (rfl)
@[simp] theorem setConv_leng (n : Nat) (v : PadcM) : (s.setConv n v).leng = s.leng := (rfl)
@[simp] theorem setConv_mtr (n : Nat) (v : PadcM) : (s.setConv n v).mtr = s.mtr := (rfl)
@[simp] theorem setConv_net (n : Nat) (v : PadcM) : (s.setConv n v).net = s.net := (rfl)
@[simp] theorem setConv_flt (n : Nat) (v : PadcM) : (s.setConv n v).flt = s.flt := (rfl)
@[simp] theorem setConv_jrnl (n : Nat) (v : PadcM) : (s.setConv n v).jrnl = s.jrnl := (rfl)
@[simp] theorem setConv_ecc (n : Nat) (v : PadcM) : (s.setConv n v).ecc = s.ecc := (rfl)
@[simp] theorem setConv_mode (n : Nat) (v : PadcM) : (s.setConv n v).mode = s.mode := (rfl)
@[simp] theorem setConv_safe (n : Nat) (v : PadcM) : (s.setConv n v).safe = s.safe := (rfl)
@[simp] theorem setConv_legs (n : Nat) (v : PadcM) : (s.setConv n v).legs = s.legs := (rfl)
@[simp] theorem setConv_ids (n : Nat) (v : PadcM) : (s.setConv n v).ids = s.ids := (rfl)
@[simp] theorem setConv_grids (n : Nat) (v : PadcM) : (s.setConv n v).grids = s.grids := (rfl)
@[simp] theorem setConv_chs (n : Nat) (v : PadcM) : (s.setConv n v).chs = s.chs := (rfl)
@[simp] theorem setConv_forms (n : Nat) (v : PadcM) : (s.setConv n v).forms = s.forms := (rfl)
@[simp] theorem setConv_dcs (n : Nat) (v : PadcM) : (s.setConv n v).dcs = s.dcs := (rfl)
@[simp] theorem setConv_isl (n : Nat) (v : PadcM) : (s.setConv n v).isl = s.isl := (rfl)
@[simp] theorem setConv_ride (n : Nat) (v : PadcM) : (s.setConv n v).ride = s.ride := (rfl)
@[simp] theorem setConv_subsSeen (n : Nat) (v : PadcM) : (s.setConv n v).subsSeen = s.subsSeen := (rfl)
@[simp] theorem setConv_syncAt (n : Nat) (v : PadcM) : (s.setConv n v).syncAt = s.syncAt := (rfl)
@[simp] theorem setConv_syncOutAt (n : Nat) (v : PadcM) : (s.setConv n v).syncOutAt = s.syncOutAt := (rfl)
@[simp] theorem setConv_mach (n : Nat) (v : PadcM) : (s.setConv n v).mach = s.mach := (rfl)
@[simp] theorem setConv_mods (n : Nat) (v : PadcM) : (s.setConv n v).mods = s.mods := (rfl)
@[simp] theorem setConv_blks (n : Nat) (v : PadcM) : (s.setConv n v).blks = s.blks := (rfl)
@[simp] theorem setConv_cmps (n : Nat) (v : PadcM) : (s.setConv n v).cmps = s.cmps := (rfl)
@[simp] theorem setConv_ramps (n : Nat) (v : PadcM) : (s.setConv n v).ramps = s.ramps := (rfl)
@[simp] theorem setConv_stRun (n : Nat) (v : PadcM) : (s.setConv n v).stRun = s.stRun := (rfl)
@[simp] theorem setConv_stWait (n : Nat) (v : PadcM) : (s.setConv n v).stWait = s.stWait := (rfl)
@[simp] theorem setConv_trips (n : Nat) (v : PadcM) : (s.setConv n v).trips = s.trips := (rfl)
@[simp] theorem setConv_gdos (n : Nat) (v : PadcM) : (s.setConv n v).gdos = s.gdos := (rfl)
@[simp] theorem setConv_free (n : Nat) (v : PadcM) : (s.setConv n v).free = s.free := (rfl)
@[simp] theorem setConv_tick (n : Nat) (v : PadcM) : (s.setConv n v).tick = s.tick := (rfl)
@[simp] theorem setConv_pending (n : Nat) (v : PadcM) : (s.setConv n v).pending = s.pending := (rfl)

@[simp] theorem setCmp_variant (n : Nat) (v : CmpM) : (s.setCmp n v).variant = s.variant := (rfl)
@[simp] theorem setCmp_phase (n : Nat) (v : CmpM) : (s.setCmp n v).phase = s.phase := (rfl)
@[simp] theorem setCmp_tmode (n : Nat) (v : CmpM) : (s.setCmp n v).tmode = s.tmode := (rfl)
@[simp] theorem setCmp_regs (n : Nat) (v : CmpM) : (s.setCmp n v).regs = s.regs := (rfl)
@[simp] theorem setCmp_hwSet (n : Nat) (v : CmpM) : (s.setCmp n v).hwSet = s.hwSet := (rfl)
@[simp] theorem setCmp_mem (n : Nat) (v : CmpM) : (s.setCmp n v).mem = s.mem := (rfl)
@[simp] theorem setCmp_chk (n : Nat) (v : CmpM) : (s.setCmp n v).chk = s.chk := (rfl)
@[simp] theorem setCmp_valid (n : Nat) (v : CmpM) : (s.setCmp n v).valid = s.valid := (rfl)
@[simp] theorem setCmp_clk (n : Nat) (v : CmpM) : (s.setCmp n v).clk = s.clk := (rfl)
@[simp] theorem setCmp_time (n : Nat) (v : CmpM) : (s.setCmp n v).time = s.time := (rfl)
@[simp] theorem setCmp_boot (n : Nat) (v : CmpM) : (s.setCmp n v).boot = s.boot := (rfl)
@[simp] theorem setCmp_keep (n : Nat) (v : CmpM) : (s.setCmp n v).keep = s.keep := (rfl)
@[simp] theorem setCmp_sec (n : Nat) (v : CmpM) : (s.setCmp n v).sec = s.sec := (rfl)
@[simp] theorem setCmp_age (n : Nat) (v : CmpM) : (s.setCmp n v).age = s.age := (rfl)
@[simp] theorem setCmp_hif (n : Nat) (v : CmpM) : (s.setCmp n v).hif = s.hif := (rfl)
@[simp] theorem setCmp_alm (n : Nat) (v : CmpM) : (s.setCmp n v).alm = s.alm := (rfl)
@[simp] theorem setCmp_leng (n : Nat) (v : CmpM) : (s.setCmp n v).leng = s.leng := (rfl)
@[simp] theorem setCmp_mtr (n : Nat) (v : CmpM) : (s.setCmp n v).mtr = s.mtr := (rfl)
@[simp] theorem setCmp_net (n : Nat) (v : CmpM) : (s.setCmp n v).net = s.net := (rfl)
@[simp] theorem setCmp_flt (n : Nat) (v : CmpM) : (s.setCmp n v).flt = s.flt := (rfl)
@[simp] theorem setCmp_jrnl (n : Nat) (v : CmpM) : (s.setCmp n v).jrnl = s.jrnl := (rfl)
@[simp] theorem setCmp_ecc (n : Nat) (v : CmpM) : (s.setCmp n v).ecc = s.ecc := (rfl)
@[simp] theorem setCmp_mode (n : Nat) (v : CmpM) : (s.setCmp n v).mode = s.mode := (rfl)
@[simp] theorem setCmp_safe (n : Nat) (v : CmpM) : (s.setCmp n v).safe = s.safe := (rfl)
@[simp] theorem setCmp_legs (n : Nat) (v : CmpM) : (s.setCmp n v).legs = s.legs := (rfl)
@[simp] theorem setCmp_ids (n : Nat) (v : CmpM) : (s.setCmp n v).ids = s.ids := (rfl)
@[simp] theorem setCmp_grids (n : Nat) (v : CmpM) : (s.setCmp n v).grids = s.grids := (rfl)
@[simp] theorem setCmp_chs (n : Nat) (v : CmpM) : (s.setCmp n v).chs = s.chs := (rfl)
@[simp] theorem setCmp_forms (n : Nat) (v : CmpM) : (s.setCmp n v).forms = s.forms := (rfl)
@[simp] theorem setCmp_dcs (n : Nat) (v : CmpM) : (s.setCmp n v).dcs = s.dcs := (rfl)
@[simp] theorem setCmp_isl (n : Nat) (v : CmpM) : (s.setCmp n v).isl = s.isl := (rfl)
@[simp] theorem setCmp_ride (n : Nat) (v : CmpM) : (s.setCmp n v).ride = s.ride := (rfl)
@[simp] theorem setCmp_subsSeen (n : Nat) (v : CmpM) : (s.setCmp n v).subsSeen = s.subsSeen := (rfl)
@[simp] theorem setCmp_syncAt (n : Nat) (v : CmpM) : (s.setCmp n v).syncAt = s.syncAt := (rfl)
@[simp] theorem setCmp_syncOutAt (n : Nat) (v : CmpM) : (s.setCmp n v).syncOutAt = s.syncOutAt := (rfl)
@[simp] theorem setCmp_mach (n : Nat) (v : CmpM) : (s.setCmp n v).mach = s.mach := (rfl)
@[simp] theorem setCmp_mods (n : Nat) (v : CmpM) : (s.setCmp n v).mods = s.mods := (rfl)
@[simp] theorem setCmp_blks (n : Nat) (v : CmpM) : (s.setCmp n v).blks = s.blks := (rfl)
@[simp] theorem setCmp_padc (n : Nat) (v : CmpM) : (s.setCmp n v).padc = s.padc := (rfl)
@[simp] theorem setCmp_ramps (n : Nat) (v : CmpM) : (s.setCmp n v).ramps = s.ramps := (rfl)
@[simp] theorem setCmp_stRun (n : Nat) (v : CmpM) : (s.setCmp n v).stRun = s.stRun := (rfl)
@[simp] theorem setCmp_stWait (n : Nat) (v : CmpM) : (s.setCmp n v).stWait = s.stWait := (rfl)
@[simp] theorem setCmp_trips (n : Nat) (v : CmpM) : (s.setCmp n v).trips = s.trips := (rfl)
@[simp] theorem setCmp_gdos (n : Nat) (v : CmpM) : (s.setCmp n v).gdos = s.gdos := (rfl)
@[simp] theorem setCmp_free (n : Nat) (v : CmpM) : (s.setCmp n v).free = s.free := (rfl)
@[simp] theorem setCmp_tick (n : Nat) (v : CmpM) : (s.setCmp n v).tick = s.tick := (rfl)
@[simp] theorem setCmp_pending (n : Nat) (v : CmpM) : (s.setCmp n v).pending = s.pending := (rfl)

@[simp] theorem setRamp_variant (n : Nat) (v : RampM) : (s.setRamp n v).variant = s.variant := (rfl)
@[simp] theorem setRamp_phase (n : Nat) (v : RampM) : (s.setRamp n v).phase = s.phase := (rfl)
@[simp] theorem setRamp_tmode (n : Nat) (v : RampM) : (s.setRamp n v).tmode = s.tmode := (rfl)
@[simp] theorem setRamp_regs (n : Nat) (v : RampM) : (s.setRamp n v).regs = s.regs := (rfl)
@[simp] theorem setRamp_hwSet (n : Nat) (v : RampM) : (s.setRamp n v).hwSet = s.hwSet := (rfl)
@[simp] theorem setRamp_mem (n : Nat) (v : RampM) : (s.setRamp n v).mem = s.mem := (rfl)
@[simp] theorem setRamp_chk (n : Nat) (v : RampM) : (s.setRamp n v).chk = s.chk := (rfl)
@[simp] theorem setRamp_valid (n : Nat) (v : RampM) : (s.setRamp n v).valid = s.valid := (rfl)
@[simp] theorem setRamp_clk (n : Nat) (v : RampM) : (s.setRamp n v).clk = s.clk := (rfl)
@[simp] theorem setRamp_time (n : Nat) (v : RampM) : (s.setRamp n v).time = s.time := (rfl)
@[simp] theorem setRamp_boot (n : Nat) (v : RampM) : (s.setRamp n v).boot = s.boot := (rfl)
@[simp] theorem setRamp_keep (n : Nat) (v : RampM) : (s.setRamp n v).keep = s.keep := (rfl)
@[simp] theorem setRamp_sec (n : Nat) (v : RampM) : (s.setRamp n v).sec = s.sec := (rfl)
@[simp] theorem setRamp_age (n : Nat) (v : RampM) : (s.setRamp n v).age = s.age := (rfl)
@[simp] theorem setRamp_hif (n : Nat) (v : RampM) : (s.setRamp n v).hif = s.hif := (rfl)
@[simp] theorem setRamp_alm (n : Nat) (v : RampM) : (s.setRamp n v).alm = s.alm := (rfl)
@[simp] theorem setRamp_leng (n : Nat) (v : RampM) : (s.setRamp n v).leng = s.leng := (rfl)
@[simp] theorem setRamp_mtr (n : Nat) (v : RampM) : (s.setRamp n v).mtr = s.mtr := (rfl)
@[simp] theorem setRamp_net (n : Nat) (v : RampM) : (s.setRamp n v).net = s.net := (rfl)
@[simp] theorem setRamp_flt (n : Nat) (v : RampM) : (s.setRamp n v).flt = s.flt := (rfl)
@[simp] theorem setRamp_jrnl (n : Nat) (v : RampM) : (s.setRamp n v).jrnl = s.jrnl := (rfl)
@[simp] theorem setRamp_ecc (n : Nat) (v : RampM) : (s.setRamp n v).ecc = s.ecc := (rfl)
@[simp] theorem setRamp_mode (n : Nat) (v : RampM) : (s.setRamp n v).mode = s.mode := (rfl)
@[simp] theorem setRamp_safe (n : Nat) (v : RampM) : (s.setRamp n v).safe = s.safe := (rfl)
@[simp] theorem setRamp_legs (n : Nat) (v : RampM) : (s.setRamp n v).legs = s.legs := (rfl)
@[simp] theorem setRamp_ids (n : Nat) (v : RampM) : (s.setRamp n v).ids = s.ids := (rfl)
@[simp] theorem setRamp_grids (n : Nat) (v : RampM) : (s.setRamp n v).grids = s.grids := (rfl)
@[simp] theorem setRamp_chs (n : Nat) (v : RampM) : (s.setRamp n v).chs = s.chs := (rfl)
@[simp] theorem setRamp_forms (n : Nat) (v : RampM) : (s.setRamp n v).forms = s.forms := (rfl)
@[simp] theorem setRamp_dcs (n : Nat) (v : RampM) : (s.setRamp n v).dcs = s.dcs := (rfl)
@[simp] theorem setRamp_isl (n : Nat) (v : RampM) : (s.setRamp n v).isl = s.isl := (rfl)
@[simp] theorem setRamp_ride (n : Nat) (v : RampM) : (s.setRamp n v).ride = s.ride := (rfl)
@[simp] theorem setRamp_subsSeen (n : Nat) (v : RampM) : (s.setRamp n v).subsSeen = s.subsSeen := (rfl)
@[simp] theorem setRamp_syncAt (n : Nat) (v : RampM) : (s.setRamp n v).syncAt = s.syncAt := (rfl)
@[simp] theorem setRamp_syncOutAt (n : Nat) (v : RampM) : (s.setRamp n v).syncOutAt = s.syncOutAt := (rfl)
@[simp] theorem setRamp_mach (n : Nat) (v : RampM) : (s.setRamp n v).mach = s.mach := (rfl)
@[simp] theorem setRamp_mods (n : Nat) (v : RampM) : (s.setRamp n v).mods = s.mods := (rfl)
@[simp] theorem setRamp_blks (n : Nat) (v : RampM) : (s.setRamp n v).blks = s.blks := (rfl)
@[simp] theorem setRamp_padc (n : Nat) (v : RampM) : (s.setRamp n v).padc = s.padc := (rfl)
@[simp] theorem setRamp_cmps (n : Nat) (v : RampM) : (s.setRamp n v).cmps = s.cmps := (rfl)
@[simp] theorem setRamp_stRun (n : Nat) (v : RampM) : (s.setRamp n v).stRun = s.stRun := (rfl)
@[simp] theorem setRamp_stWait (n : Nat) (v : RampM) : (s.setRamp n v).stWait = s.stWait := (rfl)
@[simp] theorem setRamp_trips (n : Nat) (v : RampM) : (s.setRamp n v).trips = s.trips := (rfl)
@[simp] theorem setRamp_gdos (n : Nat) (v : RampM) : (s.setRamp n v).gdos = s.gdos := (rfl)
@[simp] theorem setRamp_free (n : Nat) (v : RampM) : (s.setRamp n v).free = s.free := (rfl)
@[simp] theorem setRamp_tick (n : Nat) (v : RampM) : (s.setRamp n v).tick = s.tick := (rfl)
@[simp] theorem setRamp_pending (n : Nat) (v : RampM) : (s.setRamp n v).pending = s.pending := (rfl)

@[simp] theorem setTrip_variant (n : Nat) (v : TripM) : (s.setTrip n v).variant = s.variant := (rfl)
@[simp] theorem setTrip_phase (n : Nat) (v : TripM) : (s.setTrip n v).phase = s.phase := (rfl)
@[simp] theorem setTrip_tmode (n : Nat) (v : TripM) : (s.setTrip n v).tmode = s.tmode := (rfl)
@[simp] theorem setTrip_regs (n : Nat) (v : TripM) : (s.setTrip n v).regs = s.regs := (rfl)
@[simp] theorem setTrip_hwSet (n : Nat) (v : TripM) : (s.setTrip n v).hwSet = s.hwSet := (rfl)
@[simp] theorem setTrip_mem (n : Nat) (v : TripM) : (s.setTrip n v).mem = s.mem := (rfl)
@[simp] theorem setTrip_chk (n : Nat) (v : TripM) : (s.setTrip n v).chk = s.chk := (rfl)
@[simp] theorem setTrip_valid (n : Nat) (v : TripM) : (s.setTrip n v).valid = s.valid := (rfl)
@[simp] theorem setTrip_clk (n : Nat) (v : TripM) : (s.setTrip n v).clk = s.clk := (rfl)
@[simp] theorem setTrip_time (n : Nat) (v : TripM) : (s.setTrip n v).time = s.time := (rfl)
@[simp] theorem setTrip_boot (n : Nat) (v : TripM) : (s.setTrip n v).boot = s.boot := (rfl)
@[simp] theorem setTrip_keep (n : Nat) (v : TripM) : (s.setTrip n v).keep = s.keep := (rfl)
@[simp] theorem setTrip_sec (n : Nat) (v : TripM) : (s.setTrip n v).sec = s.sec := (rfl)
@[simp] theorem setTrip_age (n : Nat) (v : TripM) : (s.setTrip n v).age = s.age := (rfl)
@[simp] theorem setTrip_hif (n : Nat) (v : TripM) : (s.setTrip n v).hif = s.hif := (rfl)
@[simp] theorem setTrip_alm (n : Nat) (v : TripM) : (s.setTrip n v).alm = s.alm := (rfl)
@[simp] theorem setTrip_leng (n : Nat) (v : TripM) : (s.setTrip n v).leng = s.leng := (rfl)
@[simp] theorem setTrip_mtr (n : Nat) (v : TripM) : (s.setTrip n v).mtr = s.mtr := (rfl)
@[simp] theorem setTrip_net (n : Nat) (v : TripM) : (s.setTrip n v).net = s.net := (rfl)
@[simp] theorem setTrip_flt (n : Nat) (v : TripM) : (s.setTrip n v).flt = s.flt := (rfl)
@[simp] theorem setTrip_jrnl (n : Nat) (v : TripM) : (s.setTrip n v).jrnl = s.jrnl := (rfl)
@[simp] theorem setTrip_ecc (n : Nat) (v : TripM) : (s.setTrip n v).ecc = s.ecc := (rfl)
@[simp] theorem setTrip_mode (n : Nat) (v : TripM) : (s.setTrip n v).mode = s.mode := (rfl)
@[simp] theorem setTrip_safe (n : Nat) (v : TripM) : (s.setTrip n v).safe = s.safe := (rfl)
@[simp] theorem setTrip_legs (n : Nat) (v : TripM) : (s.setTrip n v).legs = s.legs := (rfl)
@[simp] theorem setTrip_ids (n : Nat) (v : TripM) : (s.setTrip n v).ids = s.ids := (rfl)
@[simp] theorem setTrip_grids (n : Nat) (v : TripM) : (s.setTrip n v).grids = s.grids := (rfl)
@[simp] theorem setTrip_chs (n : Nat) (v : TripM) : (s.setTrip n v).chs = s.chs := (rfl)
@[simp] theorem setTrip_forms (n : Nat) (v : TripM) : (s.setTrip n v).forms = s.forms := (rfl)
@[simp] theorem setTrip_dcs (n : Nat) (v : TripM) : (s.setTrip n v).dcs = s.dcs := (rfl)
@[simp] theorem setTrip_isl (n : Nat) (v : TripM) : (s.setTrip n v).isl = s.isl := (rfl)
@[simp] theorem setTrip_ride (n : Nat) (v : TripM) : (s.setTrip n v).ride = s.ride := (rfl)
@[simp] theorem setTrip_subsSeen (n : Nat) (v : TripM) : (s.setTrip n v).subsSeen = s.subsSeen := (rfl)
@[simp] theorem setTrip_syncAt (n : Nat) (v : TripM) : (s.setTrip n v).syncAt = s.syncAt := (rfl)
@[simp] theorem setTrip_syncOutAt (n : Nat) (v : TripM) : (s.setTrip n v).syncOutAt = s.syncOutAt := (rfl)
@[simp] theorem setTrip_mach (n : Nat) (v : TripM) : (s.setTrip n v).mach = s.mach := (rfl)
@[simp] theorem setTrip_mods (n : Nat) (v : TripM) : (s.setTrip n v).mods = s.mods := (rfl)
@[simp] theorem setTrip_blks (n : Nat) (v : TripM) : (s.setTrip n v).blks = s.blks := (rfl)
@[simp] theorem setTrip_padc (n : Nat) (v : TripM) : (s.setTrip n v).padc = s.padc := (rfl)
@[simp] theorem setTrip_cmps (n : Nat) (v : TripM) : (s.setTrip n v).cmps = s.cmps := (rfl)
@[simp] theorem setTrip_ramps (n : Nat) (v : TripM) : (s.setTrip n v).ramps = s.ramps := (rfl)
@[simp] theorem setTrip_stRun (n : Nat) (v : TripM) : (s.setTrip n v).stRun = s.stRun := (rfl)
@[simp] theorem setTrip_stWait (n : Nat) (v : TripM) : (s.setTrip n v).stWait = s.stWait := (rfl)
@[simp] theorem setTrip_gdos (n : Nat) (v : TripM) : (s.setTrip n v).gdos = s.gdos := (rfl)
@[simp] theorem setTrip_free (n : Nat) (v : TripM) : (s.setTrip n v).free = s.free := (rfl)
@[simp] theorem setTrip_tick (n : Nat) (v : TripM) : (s.setTrip n v).tick = s.tick := (rfl)
@[simp] theorem setTrip_pending (n : Nat) (v : TripM) : (s.setTrip n v).pending = s.pending := (rfl)

@[simp] theorem setGdo_variant (n : Nat) (v : GdoM) : (s.setGdo n v).variant = s.variant := (rfl)
@[simp] theorem setGdo_phase (n : Nat) (v : GdoM) : (s.setGdo n v).phase = s.phase := (rfl)
@[simp] theorem setGdo_tmode (n : Nat) (v : GdoM) : (s.setGdo n v).tmode = s.tmode := (rfl)
@[simp] theorem setGdo_regs (n : Nat) (v : GdoM) : (s.setGdo n v).regs = s.regs := (rfl)
@[simp] theorem setGdo_hwSet (n : Nat) (v : GdoM) : (s.setGdo n v).hwSet = s.hwSet := (rfl)
@[simp] theorem setGdo_mem (n : Nat) (v : GdoM) : (s.setGdo n v).mem = s.mem := (rfl)
@[simp] theorem setGdo_chk (n : Nat) (v : GdoM) : (s.setGdo n v).chk = s.chk := (rfl)
@[simp] theorem setGdo_valid (n : Nat) (v : GdoM) : (s.setGdo n v).valid = s.valid := (rfl)
@[simp] theorem setGdo_clk (n : Nat) (v : GdoM) : (s.setGdo n v).clk = s.clk := (rfl)
@[simp] theorem setGdo_time (n : Nat) (v : GdoM) : (s.setGdo n v).time = s.time := (rfl)
@[simp] theorem setGdo_boot (n : Nat) (v : GdoM) : (s.setGdo n v).boot = s.boot := (rfl)
@[simp] theorem setGdo_keep (n : Nat) (v : GdoM) : (s.setGdo n v).keep = s.keep := (rfl)
@[simp] theorem setGdo_sec (n : Nat) (v : GdoM) : (s.setGdo n v).sec = s.sec := (rfl)
@[simp] theorem setGdo_age (n : Nat) (v : GdoM) : (s.setGdo n v).age = s.age := (rfl)
@[simp] theorem setGdo_hif (n : Nat) (v : GdoM) : (s.setGdo n v).hif = s.hif := (rfl)
@[simp] theorem setGdo_alm (n : Nat) (v : GdoM) : (s.setGdo n v).alm = s.alm := (rfl)
@[simp] theorem setGdo_leng (n : Nat) (v : GdoM) : (s.setGdo n v).leng = s.leng := (rfl)
@[simp] theorem setGdo_mtr (n : Nat) (v : GdoM) : (s.setGdo n v).mtr = s.mtr := (rfl)
@[simp] theorem setGdo_net (n : Nat) (v : GdoM) : (s.setGdo n v).net = s.net := (rfl)
@[simp] theorem setGdo_flt (n : Nat) (v : GdoM) : (s.setGdo n v).flt = s.flt := (rfl)
@[simp] theorem setGdo_jrnl (n : Nat) (v : GdoM) : (s.setGdo n v).jrnl = s.jrnl := (rfl)
@[simp] theorem setGdo_ecc (n : Nat) (v : GdoM) : (s.setGdo n v).ecc = s.ecc := (rfl)
@[simp] theorem setGdo_mode (n : Nat) (v : GdoM) : (s.setGdo n v).mode = s.mode := (rfl)
@[simp] theorem setGdo_safe (n : Nat) (v : GdoM) : (s.setGdo n v).safe = s.safe := (rfl)
@[simp] theorem setGdo_legs (n : Nat) (v : GdoM) : (s.setGdo n v).legs = s.legs := (rfl)
@[simp] theorem setGdo_ids (n : Nat) (v : GdoM) : (s.setGdo n v).ids = s.ids := (rfl)
@[simp] theorem setGdo_grids (n : Nat) (v : GdoM) : (s.setGdo n v).grids = s.grids := (rfl)
@[simp] theorem setGdo_chs (n : Nat) (v : GdoM) : (s.setGdo n v).chs = s.chs := (rfl)
@[simp] theorem setGdo_forms (n : Nat) (v : GdoM) : (s.setGdo n v).forms = s.forms := (rfl)
@[simp] theorem setGdo_dcs (n : Nat) (v : GdoM) : (s.setGdo n v).dcs = s.dcs := (rfl)
@[simp] theorem setGdo_isl (n : Nat) (v : GdoM) : (s.setGdo n v).isl = s.isl := (rfl)
@[simp] theorem setGdo_ride (n : Nat) (v : GdoM) : (s.setGdo n v).ride = s.ride := (rfl)
@[simp] theorem setGdo_subsSeen (n : Nat) (v : GdoM) : (s.setGdo n v).subsSeen = s.subsSeen := (rfl)
@[simp] theorem setGdo_syncAt (n : Nat) (v : GdoM) : (s.setGdo n v).syncAt = s.syncAt := (rfl)
@[simp] theorem setGdo_syncOutAt (n : Nat) (v : GdoM) : (s.setGdo n v).syncOutAt = s.syncOutAt := (rfl)
@[simp] theorem setGdo_mach (n : Nat) (v : GdoM) : (s.setGdo n v).mach = s.mach := (rfl)
@[simp] theorem setGdo_mods (n : Nat) (v : GdoM) : (s.setGdo n v).mods = s.mods := (rfl)
@[simp] theorem setGdo_blks (n : Nat) (v : GdoM) : (s.setGdo n v).blks = s.blks := (rfl)
@[simp] theorem setGdo_padc (n : Nat) (v : GdoM) : (s.setGdo n v).padc = s.padc := (rfl)
@[simp] theorem setGdo_cmps (n : Nat) (v : GdoM) : (s.setGdo n v).cmps = s.cmps := (rfl)
@[simp] theorem setGdo_ramps (n : Nat) (v : GdoM) : (s.setGdo n v).ramps = s.ramps := (rfl)
@[simp] theorem setGdo_stRun (n : Nat) (v : GdoM) : (s.setGdo n v).stRun = s.stRun := (rfl)
@[simp] theorem setGdo_stWait (n : Nat) (v : GdoM) : (s.setGdo n v).stWait = s.stWait := (rfl)
@[simp] theorem setGdo_trips (n : Nat) (v : GdoM) : (s.setGdo n v).trips = s.trips := (rfl)
@[simp] theorem setGdo_free (n : Nat) (v : GdoM) : (s.setGdo n v).free = s.free := (rfl)
@[simp] theorem setGdo_tick (n : Nat) (v : GdoM) : (s.setGdo n v).tick = s.tick := (rfl)
@[simp] theorem setGdo_pending (n : Nat) (v : GdoM) : (s.setGdo n v).pending = s.pending := (rfl)

@[simp] theorem setFltRec_variant (n : Nat) (v : FltRec) : (s.setFltRec n v).variant = s.variant := (rfl)
@[simp] theorem setFltRec_phase (n : Nat) (v : FltRec) : (s.setFltRec n v).phase = s.phase := (rfl)
@[simp] theorem setFltRec_tmode (n : Nat) (v : FltRec) : (s.setFltRec n v).tmode = s.tmode := (rfl)
@[simp] theorem setFltRec_regs (n : Nat) (v : FltRec) : (s.setFltRec n v).regs = s.regs := (rfl)
@[simp] theorem setFltRec_hwSet (n : Nat) (v : FltRec) : (s.setFltRec n v).hwSet = s.hwSet := (rfl)
@[simp] theorem setFltRec_mem (n : Nat) (v : FltRec) : (s.setFltRec n v).mem = s.mem := (rfl)
@[simp] theorem setFltRec_chk (n : Nat) (v : FltRec) : (s.setFltRec n v).chk = s.chk := (rfl)
@[simp] theorem setFltRec_valid (n : Nat) (v : FltRec) : (s.setFltRec n v).valid = s.valid := (rfl)
@[simp] theorem setFltRec_clk (n : Nat) (v : FltRec) : (s.setFltRec n v).clk = s.clk := (rfl)
@[simp] theorem setFltRec_time (n : Nat) (v : FltRec) : (s.setFltRec n v).time = s.time := (rfl)
@[simp] theorem setFltRec_boot (n : Nat) (v : FltRec) : (s.setFltRec n v).boot = s.boot := (rfl)
@[simp] theorem setFltRec_keep (n : Nat) (v : FltRec) : (s.setFltRec n v).keep = s.keep := (rfl)
@[simp] theorem setFltRec_sec (n : Nat) (v : FltRec) : (s.setFltRec n v).sec = s.sec := (rfl)
@[simp] theorem setFltRec_age (n : Nat) (v : FltRec) : (s.setFltRec n v).age = s.age := (rfl)
@[simp] theorem setFltRec_hif (n : Nat) (v : FltRec) : (s.setFltRec n v).hif = s.hif := (rfl)
@[simp] theorem setFltRec_alm (n : Nat) (v : FltRec) : (s.setFltRec n v).alm = s.alm := (rfl)
@[simp] theorem setFltRec_leng (n : Nat) (v : FltRec) : (s.setFltRec n v).leng = s.leng := (rfl)
@[simp] theorem setFltRec_mtr (n : Nat) (v : FltRec) : (s.setFltRec n v).mtr = s.mtr := (rfl)
@[simp] theorem setFltRec_net (n : Nat) (v : FltRec) : (s.setFltRec n v).net = s.net := (rfl)
@[simp] theorem setFltRec_jrnl (n : Nat) (v : FltRec) : (s.setFltRec n v).jrnl = s.jrnl := (rfl)
@[simp] theorem setFltRec_ecc (n : Nat) (v : FltRec) : (s.setFltRec n v).ecc = s.ecc := (rfl)
@[simp] theorem setFltRec_mode (n : Nat) (v : FltRec) : (s.setFltRec n v).mode = s.mode := (rfl)
@[simp] theorem setFltRec_safe (n : Nat) (v : FltRec) : (s.setFltRec n v).safe = s.safe := (rfl)
@[simp] theorem setFltRec_legs (n : Nat) (v : FltRec) : (s.setFltRec n v).legs = s.legs := (rfl)
@[simp] theorem setFltRec_ids (n : Nat) (v : FltRec) : (s.setFltRec n v).ids = s.ids := (rfl)
@[simp] theorem setFltRec_grids (n : Nat) (v : FltRec) : (s.setFltRec n v).grids = s.grids := (rfl)
@[simp] theorem setFltRec_chs (n : Nat) (v : FltRec) : (s.setFltRec n v).chs = s.chs := (rfl)
@[simp] theorem setFltRec_forms (n : Nat) (v : FltRec) : (s.setFltRec n v).forms = s.forms := (rfl)
@[simp] theorem setFltRec_dcs (n : Nat) (v : FltRec) : (s.setFltRec n v).dcs = s.dcs := (rfl)
@[simp] theorem setFltRec_isl (n : Nat) (v : FltRec) : (s.setFltRec n v).isl = s.isl := (rfl)
@[simp] theorem setFltRec_ride (n : Nat) (v : FltRec) : (s.setFltRec n v).ride = s.ride := (rfl)
@[simp] theorem setFltRec_subsSeen (n : Nat) (v : FltRec) : (s.setFltRec n v).subsSeen = s.subsSeen := (rfl)
@[simp] theorem setFltRec_syncAt (n : Nat) (v : FltRec) : (s.setFltRec n v).syncAt = s.syncAt := (rfl)
@[simp] theorem setFltRec_syncOutAt (n : Nat) (v : FltRec) : (s.setFltRec n v).syncOutAt = s.syncOutAt := (rfl)
@[simp] theorem setFltRec_mach (n : Nat) (v : FltRec) : (s.setFltRec n v).mach = s.mach := (rfl)
@[simp] theorem setFltRec_mods (n : Nat) (v : FltRec) : (s.setFltRec n v).mods = s.mods := (rfl)
@[simp] theorem setFltRec_blks (n : Nat) (v : FltRec) : (s.setFltRec n v).blks = s.blks := (rfl)
@[simp] theorem setFltRec_padc (n : Nat) (v : FltRec) : (s.setFltRec n v).padc = s.padc := (rfl)
@[simp] theorem setFltRec_cmps (n : Nat) (v : FltRec) : (s.setFltRec n v).cmps = s.cmps := (rfl)
@[simp] theorem setFltRec_ramps (n : Nat) (v : FltRec) : (s.setFltRec n v).ramps = s.ramps := (rfl)
@[simp] theorem setFltRec_stRun (n : Nat) (v : FltRec) : (s.setFltRec n v).stRun = s.stRun := (rfl)
@[simp] theorem setFltRec_stWait (n : Nat) (v : FltRec) : (s.setFltRec n v).stWait = s.stWait := (rfl)
@[simp] theorem setFltRec_trips (n : Nat) (v : FltRec) : (s.setFltRec n v).trips = s.trips := (rfl)
@[simp] theorem setFltRec_gdos (n : Nat) (v : FltRec) : (s.setFltRec n v).gdos = s.gdos := (rfl)
@[simp] theorem setFltRec_free (n : Nat) (v : FltRec) : (s.setFltRec n v).free = s.free := (rfl)
@[simp] theorem setFltRec_tick (n : Nat) (v : FltRec) : (s.setFltRec n v).tick = s.tick := (rfl)
@[simp] theorem setFltRec_pending (n : Nat) (v : FltRec) : (s.setFltRec n v).pending = s.pending := (rfl)

@[simp] theorem setQueue_variant (p q : Nat) (l : List QFrame) : (s.setQueue p q l).variant = s.variant := (rfl)
@[simp] theorem setQueue_phase (p q : Nat) (l : List QFrame) : (s.setQueue p q l).phase = s.phase := (rfl)
@[simp] theorem setQueue_tmode (p q : Nat) (l : List QFrame) : (s.setQueue p q l).tmode = s.tmode := (rfl)
@[simp] theorem setQueue_regs (p q : Nat) (l : List QFrame) : (s.setQueue p q l).regs = s.regs := (rfl)
@[simp] theorem setQueue_hwSet (p q : Nat) (l : List QFrame) : (s.setQueue p q l).hwSet = s.hwSet := (rfl)
@[simp] theorem setQueue_mem (p q : Nat) (l : List QFrame) : (s.setQueue p q l).mem = s.mem := (rfl)
@[simp] theorem setQueue_chk (p q : Nat) (l : List QFrame) : (s.setQueue p q l).chk = s.chk := (rfl)
@[simp] theorem setQueue_valid (p q : Nat) (l : List QFrame) : (s.setQueue p q l).valid = s.valid := (rfl)
@[simp] theorem setQueue_clk (p q : Nat) (l : List QFrame) : (s.setQueue p q l).clk = s.clk := (rfl)
@[simp] theorem setQueue_time (p q : Nat) (l : List QFrame) : (s.setQueue p q l).time = s.time := (rfl)
@[simp] theorem setQueue_boot (p q : Nat) (l : List QFrame) : (s.setQueue p q l).boot = s.boot := (rfl)
@[simp] theorem setQueue_keep (p q : Nat) (l : List QFrame) : (s.setQueue p q l).keep = s.keep := (rfl)
@[simp] theorem setQueue_sec (p q : Nat) (l : List QFrame) : (s.setQueue p q l).sec = s.sec := (rfl)
@[simp] theorem setQueue_age (p q : Nat) (l : List QFrame) : (s.setQueue p q l).age = s.age := (rfl)
@[simp] theorem setQueue_hif (p q : Nat) (l : List QFrame) : (s.setQueue p q l).hif = s.hif := (rfl)
@[simp] theorem setQueue_alm (p q : Nat) (l : List QFrame) : (s.setQueue p q l).alm = s.alm := (rfl)
@[simp] theorem setQueue_leng (p q : Nat) (l : List QFrame) : (s.setQueue p q l).leng = s.leng := (rfl)
@[simp] theorem setQueue_mtr (p q : Nat) (l : List QFrame) : (s.setQueue p q l).mtr = s.mtr := (rfl)
@[simp] theorem setQueue_flt (p q : Nat) (l : List QFrame) : (s.setQueue p q l).flt = s.flt := (rfl)
@[simp] theorem setQueue_jrnl (p q : Nat) (l : List QFrame) : (s.setQueue p q l).jrnl = s.jrnl := (rfl)
@[simp] theorem setQueue_ecc (p q : Nat) (l : List QFrame) : (s.setQueue p q l).ecc = s.ecc := (rfl)
@[simp] theorem setQueue_mode (p q : Nat) (l : List QFrame) : (s.setQueue p q l).mode = s.mode := (rfl)
@[simp] theorem setQueue_safe (p q : Nat) (l : List QFrame) : (s.setQueue p q l).safe = s.safe := (rfl)
@[simp] theorem setQueue_legs (p q : Nat) (l : List QFrame) : (s.setQueue p q l).legs = s.legs := (rfl)
@[simp] theorem setQueue_ids (p q : Nat) (l : List QFrame) : (s.setQueue p q l).ids = s.ids := (rfl)
@[simp] theorem setQueue_grids (p q : Nat) (l : List QFrame) : (s.setQueue p q l).grids = s.grids := (rfl)
@[simp] theorem setQueue_chs (p q : Nat) (l : List QFrame) : (s.setQueue p q l).chs = s.chs := (rfl)
@[simp] theorem setQueue_forms (p q : Nat) (l : List QFrame) : (s.setQueue p q l).forms = s.forms := (rfl)
@[simp] theorem setQueue_dcs (p q : Nat) (l : List QFrame) : (s.setQueue p q l).dcs = s.dcs := (rfl)
@[simp] theorem setQueue_isl (p q : Nat) (l : List QFrame) : (s.setQueue p q l).isl = s.isl := (rfl)
@[simp] theorem setQueue_ride (p q : Nat) (l : List QFrame) : (s.setQueue p q l).ride = s.ride := (rfl)
@[simp] theorem setQueue_subsSeen (p q : Nat) (l : List QFrame) : (s.setQueue p q l).subsSeen = s.subsSeen := (rfl)
@[simp] theorem setQueue_syncAt (p q : Nat) (l : List QFrame) : (s.setQueue p q l).syncAt = s.syncAt := (rfl)
@[simp] theorem setQueue_syncOutAt (p q : Nat) (l : List QFrame) : (s.setQueue p q l).syncOutAt = s.syncOutAt := (rfl)
@[simp] theorem setQueue_mach (p q : Nat) (l : List QFrame) : (s.setQueue p q l).mach = s.mach := (rfl)
@[simp] theorem setQueue_mods (p q : Nat) (l : List QFrame) : (s.setQueue p q l).mods = s.mods := (rfl)
@[simp] theorem setQueue_blks (p q : Nat) (l : List QFrame) : (s.setQueue p q l).blks = s.blks := (rfl)
@[simp] theorem setQueue_padc (p q : Nat) (l : List QFrame) : (s.setQueue p q l).padc = s.padc := (rfl)
@[simp] theorem setQueue_cmps (p q : Nat) (l : List QFrame) : (s.setQueue p q l).cmps = s.cmps := (rfl)
@[simp] theorem setQueue_ramps (p q : Nat) (l : List QFrame) : (s.setQueue p q l).ramps = s.ramps := (rfl)
@[simp] theorem setQueue_stRun (p q : Nat) (l : List QFrame) : (s.setQueue p q l).stRun = s.stRun := (rfl)
@[simp] theorem setQueue_stWait (p q : Nat) (l : List QFrame) : (s.setQueue p q l).stWait = s.stWait := (rfl)
@[simp] theorem setQueue_trips (p q : Nat) (l : List QFrame) : (s.setQueue p q l).trips = s.trips := (rfl)
@[simp] theorem setQueue_gdos (p q : Nat) (l : List QFrame) : (s.setQueue p q l).gdos = s.gdos := (rfl)
@[simp] theorem setQueue_free (p q : Nat) (l : List QFrame) : (s.setQueue p q l).free = s.free := (rfl)
@[simp] theorem setQueue_tick (p q : Nat) (l : List QFrame) : (s.setQueue p q l).tick = s.tick := (rfl)
@[simp] theorem setQueue_pending (p q : Nat) (l : List QFrame) : (s.setQueue p q l).pending = s.pending := (rfl)

@[simp] theorem setSp_variant (n : Nat) (v : SpSlot) : (s.setSp n v).variant = s.variant := (rfl)
@[simp] theorem setSp_phase (n : Nat) (v : SpSlot) : (s.setSp n v).phase = s.phase := (rfl)
@[simp] theorem setSp_tmode (n : Nat) (v : SpSlot) : (s.setSp n v).tmode = s.tmode := (rfl)
@[simp] theorem setSp_regs (n : Nat) (v : SpSlot) : (s.setSp n v).regs = s.regs := (rfl)
@[simp] theorem setSp_hwSet (n : Nat) (v : SpSlot) : (s.setSp n v).hwSet = s.hwSet := (rfl)
@[simp] theorem setSp_mem (n : Nat) (v : SpSlot) : (s.setSp n v).mem = s.mem := (rfl)
@[simp] theorem setSp_chk (n : Nat) (v : SpSlot) : (s.setSp n v).chk = s.chk := (rfl)
@[simp] theorem setSp_valid (n : Nat) (v : SpSlot) : (s.setSp n v).valid = s.valid := (rfl)
@[simp] theorem setSp_clk (n : Nat) (v : SpSlot) : (s.setSp n v).clk = s.clk := (rfl)
@[simp] theorem setSp_time (n : Nat) (v : SpSlot) : (s.setSp n v).time = s.time := (rfl)
@[simp] theorem setSp_boot (n : Nat) (v : SpSlot) : (s.setSp n v).boot = s.boot := (rfl)
@[simp] theorem setSp_keep (n : Nat) (v : SpSlot) : (s.setSp n v).keep = s.keep := (rfl)
@[simp] theorem setSp_sec (n : Nat) (v : SpSlot) : (s.setSp n v).sec = s.sec := (rfl)
@[simp] theorem setSp_age (n : Nat) (v : SpSlot) : (s.setSp n v).age = s.age := (rfl)
@[simp] theorem setSp_hif (n : Nat) (v : SpSlot) : (s.setSp n v).hif = s.hif := (rfl)
@[simp] theorem setSp_alm (n : Nat) (v : SpSlot) : (s.setSp n v).alm = s.alm := (rfl)
@[simp] theorem setSp_leng (n : Nat) (v : SpSlot) : (s.setSp n v).leng = s.leng := (rfl)
@[simp] theorem setSp_mtr (n : Nat) (v : SpSlot) : (s.setSp n v).mtr = s.mtr := (rfl)
@[simp] theorem setSp_flt (n : Nat) (v : SpSlot) : (s.setSp n v).flt = s.flt := (rfl)
@[simp] theorem setSp_jrnl (n : Nat) (v : SpSlot) : (s.setSp n v).jrnl = s.jrnl := (rfl)
@[simp] theorem setSp_ecc (n : Nat) (v : SpSlot) : (s.setSp n v).ecc = s.ecc := (rfl)
@[simp] theorem setSp_mode (n : Nat) (v : SpSlot) : (s.setSp n v).mode = s.mode := (rfl)
@[simp] theorem setSp_safe (n : Nat) (v : SpSlot) : (s.setSp n v).safe = s.safe := (rfl)
@[simp] theorem setSp_legs (n : Nat) (v : SpSlot) : (s.setSp n v).legs = s.legs := (rfl)
@[simp] theorem setSp_ids (n : Nat) (v : SpSlot) : (s.setSp n v).ids = s.ids := (rfl)
@[simp] theorem setSp_grids (n : Nat) (v : SpSlot) : (s.setSp n v).grids = s.grids := (rfl)
@[simp] theorem setSp_chs (n : Nat) (v : SpSlot) : (s.setSp n v).chs = s.chs := (rfl)
@[simp] theorem setSp_forms (n : Nat) (v : SpSlot) : (s.setSp n v).forms = s.forms := (rfl)
@[simp] theorem setSp_dcs (n : Nat) (v : SpSlot) : (s.setSp n v).dcs = s.dcs := (rfl)
@[simp] theorem setSp_isl (n : Nat) (v : SpSlot) : (s.setSp n v).isl = s.isl := (rfl)
@[simp] theorem setSp_ride (n : Nat) (v : SpSlot) : (s.setSp n v).ride = s.ride := (rfl)
@[simp] theorem setSp_subsSeen (n : Nat) (v : SpSlot) : (s.setSp n v).subsSeen = s.subsSeen := (rfl)
@[simp] theorem setSp_syncAt (n : Nat) (v : SpSlot) : (s.setSp n v).syncAt = s.syncAt := (rfl)
@[simp] theorem setSp_syncOutAt (n : Nat) (v : SpSlot) : (s.setSp n v).syncOutAt = s.syncOutAt := (rfl)
@[simp] theorem setSp_mach (n : Nat) (v : SpSlot) : (s.setSp n v).mach = s.mach := (rfl)
@[simp] theorem setSp_mods (n : Nat) (v : SpSlot) : (s.setSp n v).mods = s.mods := (rfl)
@[simp] theorem setSp_blks (n : Nat) (v : SpSlot) : (s.setSp n v).blks = s.blks := (rfl)
@[simp] theorem setSp_padc (n : Nat) (v : SpSlot) : (s.setSp n v).padc = s.padc := (rfl)
@[simp] theorem setSp_cmps (n : Nat) (v : SpSlot) : (s.setSp n v).cmps = s.cmps := (rfl)
@[simp] theorem setSp_ramps (n : Nat) (v : SpSlot) : (s.setSp n v).ramps = s.ramps := (rfl)
@[simp] theorem setSp_stRun (n : Nat) (v : SpSlot) : (s.setSp n v).stRun = s.stRun := (rfl)
@[simp] theorem setSp_stWait (n : Nat) (v : SpSlot) : (s.setSp n v).stWait = s.stWait := (rfl)
@[simp] theorem setSp_trips (n : Nat) (v : SpSlot) : (s.setSp n v).trips = s.trips := (rfl)
@[simp] theorem setSp_gdos (n : Nat) (v : SpSlot) : (s.setSp n v).gdos = s.gdos := (rfl)
@[simp] theorem setSp_free (n : Nat) (v : SpSlot) : (s.setSp n v).free = s.free := (rfl)
@[simp] theorem setSp_tick (n : Nat) (v : SpSlot) : (s.setSp n v).tick = s.tick := (rfl)
@[simp] theorem setSp_pending (n : Nat) (v : SpSlot) : (s.setSp n v).pending = s.pending := (rfl)

@[simp] theorem setStrm_variant (n : Nat) (v : StrmM) : (s.setStrm n v).variant = s.variant := (rfl)
@[simp] theorem setStrm_phase (n : Nat) (v : StrmM) : (s.setStrm n v).phase = s.phase := (rfl)
@[simp] theorem setStrm_tmode (n : Nat) (v : StrmM) : (s.setStrm n v).tmode = s.tmode := (rfl)
@[simp] theorem setStrm_regs (n : Nat) (v : StrmM) : (s.setStrm n v).regs = s.regs := (rfl)
@[simp] theorem setStrm_hwSet (n : Nat) (v : StrmM) : (s.setStrm n v).hwSet = s.hwSet := (rfl)
@[simp] theorem setStrm_mem (n : Nat) (v : StrmM) : (s.setStrm n v).mem = s.mem := (rfl)
@[simp] theorem setStrm_chk (n : Nat) (v : StrmM) : (s.setStrm n v).chk = s.chk := (rfl)
@[simp] theorem setStrm_valid (n : Nat) (v : StrmM) : (s.setStrm n v).valid = s.valid := (rfl)
@[simp] theorem setStrm_clk (n : Nat) (v : StrmM) : (s.setStrm n v).clk = s.clk := (rfl)
@[simp] theorem setStrm_time (n : Nat) (v : StrmM) : (s.setStrm n v).time = s.time := (rfl)
@[simp] theorem setStrm_boot (n : Nat) (v : StrmM) : (s.setStrm n v).boot = s.boot := (rfl)
@[simp] theorem setStrm_keep (n : Nat) (v : StrmM) : (s.setStrm n v).keep = s.keep := (rfl)
@[simp] theorem setStrm_sec (n : Nat) (v : StrmM) : (s.setStrm n v).sec = s.sec := (rfl)
@[simp] theorem setStrm_age (n : Nat) (v : StrmM) : (s.setStrm n v).age = s.age := (rfl)
@[simp] theorem setStrm_hif (n : Nat) (v : StrmM) : (s.setStrm n v).hif = s.hif := (rfl)
@[simp] theorem setStrm_alm (n : Nat) (v : StrmM) : (s.setStrm n v).alm = s.alm := (rfl)
@[simp] theorem setStrm_leng (n : Nat) (v : StrmM) : (s.setStrm n v).leng = s.leng := (rfl)
@[simp] theorem setStrm_mtr (n : Nat) (v : StrmM) : (s.setStrm n v).mtr = s.mtr := (rfl)
@[simp] theorem setStrm_flt (n : Nat) (v : StrmM) : (s.setStrm n v).flt = s.flt := (rfl)
@[simp] theorem setStrm_jrnl (n : Nat) (v : StrmM) : (s.setStrm n v).jrnl = s.jrnl := (rfl)
@[simp] theorem setStrm_ecc (n : Nat) (v : StrmM) : (s.setStrm n v).ecc = s.ecc := (rfl)
@[simp] theorem setStrm_mode (n : Nat) (v : StrmM) : (s.setStrm n v).mode = s.mode := (rfl)
@[simp] theorem setStrm_safe (n : Nat) (v : StrmM) : (s.setStrm n v).safe = s.safe := (rfl)
@[simp] theorem setStrm_legs (n : Nat) (v : StrmM) : (s.setStrm n v).legs = s.legs := (rfl)
@[simp] theorem setStrm_ids (n : Nat) (v : StrmM) : (s.setStrm n v).ids = s.ids := (rfl)
@[simp] theorem setStrm_grids (n : Nat) (v : StrmM) : (s.setStrm n v).grids = s.grids := (rfl)
@[simp] theorem setStrm_chs (n : Nat) (v : StrmM) : (s.setStrm n v).chs = s.chs := (rfl)
@[simp] theorem setStrm_forms (n : Nat) (v : StrmM) : (s.setStrm n v).forms = s.forms := (rfl)
@[simp] theorem setStrm_dcs (n : Nat) (v : StrmM) : (s.setStrm n v).dcs = s.dcs := (rfl)
@[simp] theorem setStrm_isl (n : Nat) (v : StrmM) : (s.setStrm n v).isl = s.isl := (rfl)
@[simp] theorem setStrm_ride (n : Nat) (v : StrmM) : (s.setStrm n v).ride = s.ride := (rfl)
@[simp] theorem setStrm_subsSeen (n : Nat) (v : StrmM) : (s.setStrm n v).subsSeen = s.subsSeen := (rfl)
@[simp] theorem setStrm_syncAt (n : Nat) (v : StrmM) : (s.setStrm n v).syncAt = s.syncAt := (rfl)
@[simp] theorem setStrm_syncOutAt (n : Nat) (v : StrmM) : (s.setStrm n v).syncOutAt = s.syncOutAt := (rfl)
@[simp] theorem setStrm_mach (n : Nat) (v : StrmM) : (s.setStrm n v).mach = s.mach := (rfl)
@[simp] theorem setStrm_mods (n : Nat) (v : StrmM) : (s.setStrm n v).mods = s.mods := (rfl)
@[simp] theorem setStrm_blks (n : Nat) (v : StrmM) : (s.setStrm n v).blks = s.blks := (rfl)
@[simp] theorem setStrm_padc (n : Nat) (v : StrmM) : (s.setStrm n v).padc = s.padc := (rfl)
@[simp] theorem setStrm_cmps (n : Nat) (v : StrmM) : (s.setStrm n v).cmps = s.cmps := (rfl)
@[simp] theorem setStrm_ramps (n : Nat) (v : StrmM) : (s.setStrm n v).ramps = s.ramps := (rfl)
@[simp] theorem setStrm_stRun (n : Nat) (v : StrmM) : (s.setStrm n v).stRun = s.stRun := (rfl)
@[simp] theorem setStrm_stWait (n : Nat) (v : StrmM) : (s.setStrm n v).stWait = s.stWait := (rfl)
@[simp] theorem setStrm_trips (n : Nat) (v : StrmM) : (s.setStrm n v).trips = s.trips := (rfl)
@[simp] theorem setStrm_gdos (n : Nat) (v : StrmM) : (s.setStrm n v).gdos = s.gdos := (rfl)
@[simp] theorem setStrm_free (n : Nat) (v : StrmM) : (s.setStrm n v).free = s.free := (rfl)
@[simp] theorem setStrm_tick (n : Nat) (v : StrmM) : (s.setStrm n v).tick = s.tick := (rfl)
@[simp] theorem setStrm_pending (n : Nat) (v : StrmM) : (s.setStrm n v).pending = s.pending := (rfl)

end State
end Sys2Proof.Machine
end

