-- ==== Sys2Proof/Laws/Regs.lean ====
section
/-! SUPPORT. Registers and fields: what a written register or field reads as afterwards, and what a write leaves alone. -/

namespace Sys2Proof.Machine

/-- The number a written word holds. -/
theorem wordPut_toNat (w : Word) {hi lo : Nat} (v : Nat) (h : lo ≤ hi) (hb : hi < 32) :
    (wordPut w hi lo v).toNat = w.toNat / 2 ^ (hi + 1) * 2 ^ (hi + 1) + v % 2 ^ (hi + 1 - lo) * 2 ^ lo + w.toNat % 2 ^ lo := by
  have hw : w.toNat < 2 ^ 32 := w.isLt
  have e : 2 ^ (hi + 1) = 2 ^ (hi + 1 - lo) * 2 ^ lo := by rw [← pow_add]; congr 1; omega
  have hr : v % 2 ^ (hi + 1 - lo) < 2 ^ (hi + 1 - lo) := Nat.mod_lt _ (by positivity)
  have hc : w.toNat % 2 ^ lo < 2 ^ lo := Nat.mod_lt _ (by positivity)
  have hA : w.toNat / 2 ^ (hi + 1) < 2 ^ (32 - (hi + 1)) := by
    apply Nat.div_lt_of_lt_mul
    rw [← pow_add]
    have : hi + 1 + (32 - (hi + 1)) = 32 := by omega
    rwa [this]
  have e2 : 2 ^ (32 - (hi + 1)) * 2 ^ (hi + 1) = 2 ^ 32 := by rw [← pow_add]; congr 1; omega
  unfold wordPut
  rw [BitVec.toNat_ofNat]
  apply Nat.mod_eq_of_lt
  generalize w.toNat / 2 ^ (hi + 1) = A at *
  generalize v % 2 ^ (hi + 1 - lo) = r at *
  generalize w.toNat % 2 ^ lo = c at *
  have h1 : r * 2 ^ lo + c < 2 ^ (hi + 1) := by rw [e]; nlinarith
  have h2 : (A + 1) * 2 ^ (hi + 1) ≤ 2 ^ (32 - (hi + 1)) * 2 ^ (hi + 1) := Nat.mul_le_mul_right _ hA
  rw [e2] at h2
  have h3 : (A + 1) * 2 ^ (hi + 1) = A * 2 ^ (hi + 1) + 2 ^ (hi + 1) := by ring
  omega

theorem wordGet_wordPut (w : Word) {hi lo : Nat} (v : Nat) (h : lo ≤ hi) (hb : hi < 32) :
    wordGet (wordPut w hi lo v) hi lo = v % 2 ^ (hi + 1 - lo) := by
  unfold wordGet
  rw [wordPut_toNat w v h hb]
  have e : 2 ^ (hi + 1) = 2 ^ (hi + 1 - lo) * 2 ^ lo := by rw [← pow_add]; congr 1; omega
  have hc : w.toNat % 2 ^ lo < 2 ^ lo := Nat.mod_lt _ (by positivity)
  rw [e, ← mul_assoc, ← add_mul, add_comm, Nat.add_mul_div_right _ _ (by positivity), Nat.div_eq_of_lt hc]
  simp

/-- A field below the one written keeps its value. -/
theorem wordGet_wordPut_below (w : Word) {hi lo i j : Nat} (v : Nat) (h : lo ≤ hi) (hb : hi < 32) (hj : j ≤ i) (hi' : i < lo) :
    wordGet (wordPut w hi lo v) i j = wordGet w i j := by
  unfold wordGet
  rw [wordPut_toNat w v h hb]
  have e1 : 2 ^ lo = 2 ^ (i + 1) * 2 ^ (lo - (i + 1)) := by rw [← pow_add]; congr 1; omega
  have e2 : 2 ^ (hi + 1) = 2 ^ (i + 1) * 2 ^ (hi - i) := by rw [← pow_add]; congr 1; omega
  have e3 : 2 ^ (i + 1) = 2 ^ j * 2 ^ (i + 1 - j) := by rw [← pow_add]; congr 1; omega
  have key : ∀ x y : Nat, x % 2 ^ (i + 1) = y % 2 ^ (i + 1) → x / 2 ^ j % 2 ^ (i + 1 - j) = y / 2 ^ j % 2 ^ (i + 1 - j) := by
    intro x y hxy
    rw [e3] at hxy
    rw [← Nat.mod_mul_right_div_self, ← Nat.mod_mul_right_div_self, hxy]
  apply key
  have hm : w.toNat % 2 ^ lo % 2 ^ (i + 1) = w.toNat % 2 ^ (i + 1) := Nat.mod_mod_of_dvd _ ⟨_, e1⟩
  rw [Nat.add_mod, hm]
  have hz : (w.toNat / 2 ^ (hi + 1) * 2 ^ (hi + 1) + v % 2 ^ (hi + 1 - lo) * 2 ^ lo) % 2 ^ (i + 1) = 0 := by
    apply Nat.mod_eq_zero_of_dvd
    exact dvd_add (dvd_mul_of_dvd_right ⟨_, e2⟩ _) (dvd_mul_of_dvd_right ⟨_, e1⟩ _)
  rw [hz]
  simp

/-- A field above the one written keeps its value. -/
theorem wordGet_wordPut_above (w : Word) {hi lo i j : Nat} (v : Nat) (h : lo ≤ hi) (hb : hi < 32) (hj : hi < j) :
    wordGet (wordPut w hi lo v) i j = wordGet w i j := by
  unfold wordGet
  rw [wordPut_toNat w v h hb]
  have e : 2 ^ (hi + 1) = 2 ^ (hi + 1 - lo) * 2 ^ lo := by rw [← pow_add]; congr 1; omega
  have e2 : 2 ^ j = 2 ^ (hi + 1) * 2 ^ (j - (hi + 1)) := by rw [← pow_add]; congr 1; omega
  have hr : v % 2 ^ (hi + 1 - lo) < 2 ^ (hi + 1 - lo) := Nat.mod_lt _ (by positivity)
  have hc : w.toNat % 2 ^ lo < 2 ^ lo := Nat.mod_lt _ (by positivity)
  have h1 : v % 2 ^ (hi + 1 - lo) * 2 ^ lo + w.toNat % 2 ^ lo < 2 ^ (hi + 1) := by
    rw [e]
    generalize v % 2 ^ (hi + 1 - lo) = r at *
    generalize w.toNat % 2 ^ lo = c at *
    nlinarith
  congr 1
  rw [e2, ← Nat.div_div_eq_div_mul, ← Nat.div_div_eq_div_mul, add_assoc, add_comm,
    Nat.add_mul_div_right _ _ (by positivity), Nat.div_eq_of_lt h1]
  simp

namespace State

variable (s : State)

@[simp] theorem reg_setReg_self (a : Nat) (w : Word) : (s.setReg a w).reg a = w := by
  simp [reg, setReg]

theorem reg_setReg_ne {a b : Nat} (w : Word) (h : b ≠ a) : (s.setReg a w).reg b = s.reg b := by
  simp [reg, setReg, SMap.get_set_ne _ _ _ h]

theorem reg_wr_ne (f : Fld) (v : Nat) {b : Nat} (h : b ≠ f.addr) : (s.wr f v).reg b = s.reg b := by
  simp [wr, reg_setReg_ne _ _ h]

theorem rd_wr_ne (f g : Fld) (v : Nat) (h : g.addr ≠ f.addr) : (s.wr f v).rd g = s.rd g := by
  simp [rd, reg_wr_ne _ _ _ h]

/-- A field reads back what was written to it, modulo its width. -/
theorem rd_wr_self (f : Fld) (v : Nat) (h : f.lo ≤ f.hi) (hb : f.hi < 32) : (s.wr f v).rd f = v % 2 ^ f.width := by
  simp [rd, wr, wordGet_wordPut _ _ h hb, Fld.width]

/-- A field of the same register beside the one written keeps its value. -/
theorem rd_wr_beside (f g : Fld) (v : Nat) (h : f.lo ≤ f.hi) (hb : f.hi < 32) (hg : g.lo ≤ g.hi) (ha : g.addr = f.addr)
    (hd : g.hi < f.lo ∨ f.hi < g.lo) : (s.wr f v).rd g = s.rd g := by
  rcases hd with hd | hd
  · simp [rd, wr, ha, wordGet_wordPut_below _ _ h hb hg hd]
  · simp [rd, wr, ha, wordGet_wordPut_above _ _ h hb hd]

end State
end Sys2Proof.Machine
end

