-- ==== Sys2Proof/Laws/HostWord.lean ====
section
/-! SUPPORT. The plain write of a register: what it answers on a page that is not locked, and what a refused word leaves. -/

namespace Sys2Proof.Machine
namespace State

variable (s : State)

/-- On a page that is not locked a register takes the word as it is. -/
@[simp] theorem heldRwl_unlocked {a : Nat} (v : Word) (h : s.locked a = false) : s.heldRwl a v = v := by
  unfold heldRwl; split <;> simp [h]

/-- A register without RWL fields takes the word as it is. -/
theorem heldRwl_noRwl {a : Nat} (v : Word) {r : RegDef} (hr : RegMap.find a = some r) (h0 : r.rwl = 0) : s.heldRwl a v = v := by
  have hv : v &&& 4294967295#32 = v := BitVec.and_allOnes
  unfold heldRwl; simp [hr, h0, hv]

/-- An accepted word is written plainly. -/
@[simp] theorem genIf_true (a : Nat) (v : Word) : s.genIf a v true = s.genWrite a v := rfl

/-- A refused word changes nothing. -/
@[simp] theorem genIf_false_state (a : Nat) (v : Word) : (s.genIf a v false).1 = s := rfl

/-- A refused word on a page that is not locked answers RANGE. -/
@[simp] theorem genIf_false_unlocked {a : Nat} (v : Word) (h : s.locked a = false) : s.genIf a v false = (s, .range) := by
  simp [genIf, h]

/-- A plain write changes no register but its own. -/
theorem genWrite_reg_ne {a b : Nat} (v : Word) (h : b ≠ a) : (s.genWrite a v).1.reg b = s.reg b := by
  unfold genWrite
  split
  · rfl
  · exact reg_setReg_ne s _ h

/-- A plain write on a page that is not locked completes OK. -/
theorem genWrite_unlocked {a : Nat} (v : Word) (h : s.locked a = false) : (s.genWrite a v).2 = .ok := by
  unfold genWrite; split <;> simp [h]

/-! The end of a host word leaves everything but the notes of the tick. -/

@[simp] theorem settle_variant : s.settle.variant = s.variant := (rfl)
@[simp] theorem settle_phase : s.settle.phase = s.phase := (rfl)
@[simp] theorem settle_tmode : s.settle.tmode = s.tmode := (rfl)
@[simp] theorem settle_regs : s.settle.regs = s.regs := (rfl)
@[simp] theorem settle_mem : s.settle.mem = s.mem := (rfl)
@[simp] theorem settle_chk : s.settle.chk = s.chk := (rfl)
@[simp] theorem settle_valid : s.settle.valid = s.valid := (rfl)
@[simp] theorem settle_clk : s.settle.clk = s.clk := (rfl)
@[simp] theorem settle_time : s.settle.time = s.time := (rfl)
@[simp] theorem settle_boot : s.settle.boot = s.boot := (rfl)
@[simp] theorem settle_keep : s.settle.keep = s.keep := (rfl)
@[simp] theorem settle_sec : s.settle.sec = s.sec := (rfl)
@[simp] theorem settle_age : s.settle.age = s.age := (rfl)
@[simp] theorem settle_hif : s.settle.hif = s.hif := (rfl)
@[simp] theorem settle_alm : s.settle.alm = s.alm := (rfl)
@[simp] theorem settle_leng : s.settle.leng = s.leng := (rfl)
@[simp] theorem settle_mtr : s.settle.mtr = s.mtr := (rfl)
@[simp] theorem settle_net : s.settle.net = s.net := (rfl)
@[simp] theorem settle_flt : s.settle.flt = s.flt := (rfl)
@[simp] theorem settle_jrnl : s.settle.jrnl = s.jrnl := (rfl)
@[simp] theorem settle_ecc : s.settle.ecc = s.ecc := (rfl)
@[simp] theorem settle_safe : s.settle.safe = s.safe := (rfl)
@[simp] theorem settle_legs : s.settle.legs = s.legs := (rfl)
@[simp] theorem settle_ids : s.settle.ids = s.ids := (rfl)
@[simp] theorem settle_grids : s.settle.grids = s.grids := (rfl)
@[simp] theorem settle_chs : s.settle.chs = s.chs := (rfl)
@[simp] theorem settle_forms : s.settle.forms = s.forms := (rfl)
@[simp] theorem settle_dcs : s.settle.dcs = s.dcs := (rfl)
@[simp] theorem settle_isl : s.settle.isl = s.isl := (rfl)
@[simp] theorem settle_ride : s.settle.ride = s.ride := (rfl)
@[simp] theorem settle_subsSeen : s.settle.subsSeen = s.subsSeen := (rfl)
@[simp] theorem settle_syncAt : s.settle.syncAt = s.syncAt := (rfl)
@[simp] theorem settle_mach : s.settle.mach = s.mach := (rfl)
@[simp] theorem settle_mods : s.settle.mods = s.mods := (rfl)
@[simp] theorem settle_blks : s.settle.blks = s.blks := (rfl)
@[simp] theorem settle_padc : s.settle.padc = s.padc := (rfl)
@[simp] theorem settle_cmps : s.settle.cmps = s.cmps := (rfl)
@[simp] theorem settle_ramps : s.settle.ramps = s.ramps := (rfl)
@[simp] theorem settle_stRun : s.settle.stRun = s.stRun := (rfl)
@[simp] theorem settle_stWait : s.settle.stWait = s.stWait := (rfl)
@[simp] theorem settle_trips : s.settle.trips = s.trips := (rfl)
@[simp] theorem settle_gdos : s.settle.gdos = s.gdos := (rfl)
@[simp] theorem settle_free : s.settle.free = s.free := (rfl)
@[simp] theorem settle_tick : s.settle.tick = s.tick := (rfl)
@[simp] theorem settle_pending : s.settle.pending = s.pending := (rfl)
@[simp] theorem settle_hwSet : s.settle.hwSet = [] := (rfl)
@[simp] theorem settle_mode : s.settle.mode = { s.mode with hwAt := none } := (rfl)
@[simp] theorem settle_reg (a : Nat) : s.settle.reg a = s.reg a := (rfl)
@[simp] theorem settle_rd (f : Fld) : s.settle.rd f = s.rd f := (rfl)
@[simp] theorem settle_bit (f : Fld) : s.settle.bit f = s.bit f := (rfl)
@[simp] theorem settle_f32 (f : Fld) : s.settle.f32 f = s.f32 f := (rfl)
@[simp] theorem settle_rd64 (f : Fld) : s.settle.rd64 f = s.rd64 f := (rfl)
@[simp] theorem settle_byte (a : Nat) : s.settle.byte a = s.byte a := (rfl)
@[simp] theorem settle_modeNow : s.settle.modeNow = s.modeNow := (rfl)
@[simp] theorem settle_settle : s.settle.settle = s.settle := (rfl)

/-- A word whose turn it is completes with its effect, noted when it fails. -/
theorem hostWord_of_turn {a : Nat} {v : Word} {eff : State → State × Status} {u : State} (h : s.turn a v = some u) :
    s.hostWord a v eff = (noteWrite a (eff u)).settle := by
  simp [hostWord, h]

/-- A word whose turn it is not changes nothing. -/
theorem hostWord_of_none {a : Nat} {v : Word} {eff : State → State × Status} (h : s.turn a v = none) : s.hostWord a v eff = s := by
  simp [hostWord, h]

end State
end Sys2Proof.Machine
end

