-- ==== Sys2Proof/Laws/Kept.lean ====
section
/-! SUPPORT. What a fault raise, a level change and a journal record leave alone: everything but the registers, the records, the journal
queue, the cells and the other parts named in `State.kept`. -/

namespace Sys2Proof.Machine
namespace State

/-- The parts of the state that the operations below leave alone; the others are blank. -/
def kept (s : State) : State :=
  { s with regs := [], hwSet := [], boot := {}, flt := [], jrnl := {}, mode := {}, safe := {}, legs := [], trips := [], ramps := [], cmps := [], gdos := [] }

/-- An update of other parts keeps them. -/
@[simp] theorem kept_upd (s : State) (regs : SMap Word) (hwSet : SMap Word) (boot : BootM) (flt : SMap FltRec) (jrnl : JrnlM) (mode : ModeM) (safe : SafeM) (legs : SMap LegM) (cmps : SMap CmpM) (ramps : SMap RampM) (trips : SMap TripM) (gdos : SMap GdoM) :
    kept (State.mk s.variant s.phase s.tmode regs hwSet s.mem s.chk s.valid s.clk s.time boot s.keep s.sec s.age s.hif s.alm s.leng s.mtr s.net flt jrnl s.ecc mode safe legs s.ids s.grids s.chs s.forms s.dcs s.isl s.ride s.subsSeen s.syncAt s.syncOutAt s.mach s.mods s.blks s.padc cmps ramps s.stRun s.stWait trips gdos s.free s.tick s.pending) = kept s := (rfl)

@[simp] theorem kept_each (s : State) (n : Nat) (f : State → Nat → State) (h : ∀ s i, kept (f s i) = kept s) :
    kept (s.each n f) = kept s := by
  unfold each
  generalize List.range n = l
  induction l generalizing s with
  | nil => rfl
  | cons i t ih => rw [List.foldl_cons, ih, h]

@[simp] theorem kept_foldl {α : Type} (l : List α) (s : State) (f : State → α → State) (h : ∀ s i, kept (f s i) = kept s) :
    kept (l.foldl f s) = kept s := by
  induction l generalizing s with
  | nil => rfl
  | cons i t ih => rw [List.foldl_cons, ih, h]

@[simp] theorem kept_setReg (s : State) (a : Nat) (w : Word) : kept (s.setReg a w) = kept s := (rfl)
@[simp] theorem kept_wr (s : State) (f : Fld) (v : Nat) : kept (s.wr f v) = kept s := (rfl)
@[simp] theorem kept_latch (s : State) (f : Fld) : kept (s.latch f) = kept s := (rfl)
@[simp] theorem kept_setBit (s : State) (f : Fld) (b : Bool) : kept (s.setBit f b) = kept s := (rfl)
@[simp] theorem kept_wrF (s : State) (f : Fld) (v : F32) : kept (s.wrF f v) = kept s := (rfl)
@[simp] theorem kept_sat (s : State) (f : Fld) : kept (s.sat f) = kept s := (rfl)
@[simp] theorem kept_satBy (s : State) (f : Fld) (k : Nat) : kept (s.satBy f k) = kept s := (rfl)
@[simp] theorem kept_wrap (s : State) (f : Fld) : kept (s.wrap f) = kept s := (rfl)
@[simp] theorem kept_wr64 (s : State) (f : Fld) (v : Nat) : kept (s.wr64 f v) = kept s := (rfl)
@[simp] theorem kept_setLeg (s : State) (n : Nat) (v : LegM) : kept (s.setLeg n v) = kept s := (rfl)
@[simp] theorem kept_setCmp (s : State) (n : Nat) (v : CmpM) : kept (s.setCmp n v) = kept s := (rfl)
@[simp] theorem kept_setRamp (s : State) (n : Nat) (v : RampM) : kept (s.setRamp n v) = kept s := (rfl)
@[simp] theorem kept_setTrip (s : State) (n : Nat) (v : TripM) : kept (s.setTrip n v) = kept s := (rfl)
@[simp] theorem kept_setGdo (s : State) (n : Nat) (v : GdoM) : kept (s.setGdo n v) = kept s := (rfl)
@[simp] theorem kept_setFltRec (s : State) (n : Nat) (v : FltRec) : kept (s.setFltRec n v) = kept s := (rfl)
@[simp] theorem kept_clear (s : State) (l : List Fld) : kept (s.clear l) = kept s := by
  induction l generalizing s with
  | nil => rfl
  | cons f t ih => rw [clear, ih, kept_wr]

@[simp] theorem kept_iraw (s : State) (pg b : Nat) (v : Bool) : kept (s.iraw pg b v) = kept s := by
  unfold State.iraw
  simp [apply_ite kept]
@[simp] theorem kept_ipulse (s : State) (pg b : Nat) : kept (s.ipulse pg b) = kept s := by
  unfold State.ipulse
  simp
@[simp] theorem kept_putTime (s : State) (a t : Nat) : kept (s.putTime a t) = kept s := by
  unfold State.putTime
  simp
@[simp] theorem kept_jrnlPush (s : State) (r : JRec) : kept (s.jrnlPush r) = kept s := by
  unfold State.jrnlPush
  simp [apply_ite kept]
@[simp] theorem kept_jrnlAdd (s : State) (kind src cls flags dclass scope aux data : Nat) : kept (s.jrnlAdd kind src cls flags dclass scope aux data) = kept s := by
  unfold State.jrnlAdd
  simp
@[simp] theorem kept_ascend (s : State) (b : Nat) : kept (s.ascend b) = kept s := by
  unfold State.ascend
  split <;> simp [apply_ite kept]
@[simp] theorem kept_wake (s : State) (b : Nat) : kept (s.wake b) = kept s := by
  unfold State.wake
  simp [apply_ite kept]
@[simp] theorem kept_rampRestart (s : State) (n t : Nat) : kept (s.rampRestart n t) = kept s := by
  unfold State.rampRestart
  simp [apply_ite kept]
@[simp] theorem kept_blankOpen (s : State) (n : Nat) : kept (s.blankOpen n) = kept s := by
  unfold State.blankOpen
  simp [apply_ite kept]
@[simp] theorem kept_pinEdge (s : State) (n : Nat) (e : PinEdge) : kept (s.pinEdge n e) = kept s := by
  unfold State.pinEdge
  simp [apply_ite kept]
@[simp] theorem kept_edgesDue (s : State) (n t : Nat) : kept (s.edgesDue n t) = kept s := by
  unfold State.edgesDue
  simp
@[simp] theorem kept_cellDrive (s : State) (n : Nat) (v : Lvl) (safe hush : Bool) (t : Nat) : kept (s.cellDrive n v safe hush t) = kept s := by
  unfold State.cellDrive
  dsimp only
  split
  · simp
  · split <;> simp
@[simp] theorem kept_cellCut (s : State) (n t : Nat) : kept (s.cellCut n t) = kept s := by
  unfold State.cellCut
  simp
@[simp] theorem kept_cellAt (s : State) (n t : Nat) : kept (s.cellAt n t) = kept s := by
  unfold State.cellAt
  simp [apply_ite kept]
@[simp] theorem kept_cellUpdate (s : State) (n : Nat) : kept (s.cellUpdate n) = kept s := by
  unfold State.cellUpdate
  simp
@[simp] theorem kept_legTick (s : State) (n : Nat) : kept (s.legTick n) = kept s := by
  unfold State.legTick
  dsimp only
  split
  · split <;> simp
  · split <;> split <;> simp
@[simp] theorem kept_cellsAll (s : State) : kept (s.cellsAll) = kept s := by
  unfold State.cellsAll
  simp
@[simp] theorem kept_cellsIn (s : State) (m : Nat) : kept (s.cellsIn m) = kept s := by
  unfold State.cellsIn
  simp [apply_ite kept]
@[simp] theorem kept_subUpdate (s : State) (ceased : Bool) (c : Nat) : kept (s.subUpdate ceased c) = kept s := by
  unfold State.subUpdate
  simp
@[simp] theorem kept_channelsUpdate (s : State) (ceased : Bool) : kept (s.channelsUpdate ceased) = kept s := by
  unfold State.channelsUpdate
  simp
@[simp] theorem kept_demandCmp (s : State) (k m : Nat) (on : Bool) : kept (s.demandCmp k m on) = kept s := by
  unfold State.demandCmp
  simp [apply_ite kept]
@[simp] theorem kept_demandMod (s : State) (k m : Nat) (on : Bool) : kept (s.demandMod k m on) = kept s := by
  unfold State.demandMod
  simp [apply_ite kept]
@[simp] theorem kept_demandTrip (s : State) (k m : Nat) (on : Bool) : kept (s.demandTrip k m on) = kept s := by
  unfold State.demandTrip
  simp [apply_ite kept]
@[simp] theorem kept_gdoUpdate (s : State) (k : Nat) : kept (s.gdoUpdate k) = kept s := by
  unfold State.gdoUpdate
  simp [apply_ite kept]
@[simp] theorem kept_gdosAll (s : State) : kept (s.gdosAll) = kept s := by
  unfold State.gdosAll
  simp
@[simp] theorem kept_stoSync (s : State) : kept (s.stoSync) = kept s := by
  unfold State.stoSync
  simp [apply_ite kept]
@[simp] theorem kept_ceaseGrid (s : State) : kept (s.ceaseGrid) = kept s := by
  unfold State.ceaseGrid
  simp [apply_ite kept]
@[simp] theorem kept_safeStopBegin (s : State) (shutdown : Bool) : kept (s.safeStopBegin shutdown) = kept s := by
  unfold State.safeStopBegin
  simp [apply_ite kept]
@[simp] theorem kept_fltLevels (s : State) : kept (s.fltLevels) = kept s := by
  unfold State.fltLevels
  simp
@[simp] theorem kept_modeDue (s : State) (cause : Nat) : kept (s.modeDue cause) = kept s := by
  unfold State.modeDue
  simp [apply_ite kept]
@[simp] theorem kept_tripReact (s : State) (scope : Nat) : kept (s.tripReact scope) = kept s := by
  unfold State.tripReact
  simp [apply_ite kept]
@[simp] theorem kept_fltReact (s : State) (c scope : Nat) : kept (s.fltReact c scope) = kept s := by
  unfold State.fltReact
  simp [apply_ite kept]
@[simp] theorem kept_fltLast (s : State) (n c : Nat) : kept (s.fltLast n c) = kept s := by
  unfold State.fltLast
  simp
@[simp] theorem kept_graceMap (s : State) (f : Nat → Nat) : kept (s.graceMap f) = kept s := by
  unfold State.graceMap
  simp
@[simp] theorem kept_graceHalt (s : State) : kept (s.graceHalt) = kept s := by
  unfold State.graceHalt
  simp
@[simp] theorem kept_graceResume (s : State) : kept (s.graceResume) = kept s := by
  unfold State.graceResume
  simp
@[simp] theorem kept_fltHoldSync (s : State) : kept (s.fltHoldSync) = kept s := by
  unfold State.fltHoldSync
  simp
@[simp] theorem kept_raiseOne (s : State) (n ch : Nat) (forced : Bool) : kept (s.raiseOne n ch forced) = kept s := by
  unfold State.raiseOne
  simp [apply_ite kept]
@[simp] theorem kept_fltExpire (s : State) (n : Nat) : kept (s.fltExpire n) = kept s := by
  unfold State.fltExpire
  simp [apply_ite kept]
@[simp] theorem kept_graceRun (s : State) (n : Nat) : kept (s.graceRun n) = kept s := by
  unfold State.graceRun
  simp [apply_ite kept]
@[simp] theorem kept_raiseFlt (s : State) (n ch : Nat) (forced : Bool) : kept (s.raiseFlt n ch forced) = kept s := by
  unfold State.raiseFlt
  simp [apply_ite kept]
@[simp] theorem kept_detect (s : State) (n : Nat) : kept (s.detect n) = kept s := by
  unfold State.detect
  simp
@[simp] theorem kept_fltClose (s : State) (n : Nat) : kept (s.fltClose n) = kept s := by
  unfold State.fltClose
  simp [apply_ite kept]
@[simp] theorem kept_fltAck (s : State) (v : Word) : kept (s.fltAck v) = kept s := by
  unfold State.fltAck
  simp [apply_ite kept]
@[simp] theorem kept_uvReport (s : State) (hi : Bool) : kept (s.uvReport hi) = kept s := by
  unfold State.uvReport
  simp [apply_ite kept]

end State
end Sys2Proof.Machine
end

