-- ==== Sys2Proof/Laws/Memory.lean ====
section
/-! SUPPORT. Every memory operation keeps the memory's canonical form, and a stored byte reads back. -/

namespace Sys2Proof.Machine
namespace State

variable (s : State)

/-- The memory right after reset is in canonical form. -/
theorem reset_wf : Memory.wf State.reset.mem := rfl

/-- What the operations named in `kept` leave alone, the memory among it. -/
theorem mem_of_kept {s t : State} (h : kept t = kept s) : t.mem = s.mem := congrArg (fun x => x.mem) h

theorem putBytes_wf (l : List Byte) : ∀ (s : State) (a : Nat), Memory.wf s.mem → Memory.wf (s.putBytes a l).mem := by
  induction l with
  | nil => intro s a h; exact h
  | cons b t ih => intro s a h; exact ih _ _ (SMap.wf_set _ _ _ _ h)

theorem store64_wf (a v : Nat) (syn : Byte) (h : Memory.wf s.mem) : Memory.wf (s.store64 a v syn).mem := putBytes_wf _ _ _ h

theorem write64_wf (a v : Nat) (p : Bool) (h : Memory.wf s.mem) : Memory.wf (s.write64 a v p).mem := store64_wf _ _ _ _ h

theorem detect_mem (n : Nat) : (s.detect n).mem = s.mem := mem_of_kept (kept_detect s n)

theorem ipulse_mem (pg b : Nat) : (s.ipulse pg b).mem = s.mem := mem_of_kept (kept_ipulse s pg b)

theorem eccLast_mem (a : Nat) (ue : Bool) (syn : Nat) : (s.eccLast a ue syn).mem = s.mem := by
  unfold eccLast
  split
  · rfl
  · simp [apply_ite State.mem]

theorem wear_mem (a : Nat) : (s.wear a).mem = s.mem := by
  unfold wear
  split <;> simp

theorem writeBack_wf (a v : Nat) (syn : Byte) (h : Memory.wf s.mem) : Memory.wf (s.writeBack a v syn).mem := by
  simpa only [writeBack, wear_mem] using store64_wf s a v syn h

theorem read64_wf (a : Nat) (h : Memory.wf s.mem) : Memory.wf (s.read64 a).1.mem := by
  have w : ∀ (v : Nat) (syn : Byte) (a : Nat), Memory.wf (s.writeBack a v syn).mem := fun v syn a => writeBack_wf s a v syn h
  unfold read64
  dsimp only
  split
  · exact h
  · split
    · exact h
    · split
      · simpa using h
      · split
        · simpa only [detect_mem, ipulse_mem, eccLast_mem] using w _ _ _
        · split <;> simpa only [detect_mem, ipulse_mem, eccLast_mem] using w _ _ _

theorem read32_wf (a : Nat) (h : Memory.wf s.mem) : Memory.wf (s.read32 a).1.mem := read64_wf s a h

theorem write32_wf (a : Nat) (v : Word) (p : Bool) (h : Memory.wf s.mem) : Memory.wf (s.write32 a v p).mem :=
  write64_wf _ _ _ _ (read64_wf s a h)

theorem readWords_wf (n : Nat) : ∀ (s : State) (a : Nat), Memory.wf s.mem → Memory.wf (s.readWords a n).1.mem := by
  induction n using Nat.strongRecOn with
  | _ n ih =>
    intro s a h
    match n with
    | 0 => exact h
    | 1 => exact read32_wf s a h
    | n + 2 =>
      unfold readWords
      split
      · exact ih n (by omega) _ _ (read64_wf s a h)
      · exact ih (n + 1) (by omega) _ _ (read32_wf s a h)

/-- A fold of changes that each keep the form keeps it. -/
theorem each_wf (n : Nat) (f : State → Nat → State) (hf : ∀ s i, Memory.wf s.mem → Memory.wf (f s i).mem) (h : Memory.wf s.mem) :
    Memory.wf (s.each n f).mem := by
  unfold each
  generalize List.range n = l
  induction l generalizing s with
  | nil => exact h
  | cons i t ih => exact ih _ (hf _ _ h)

theorem writeBytes_wf (a : Nat) (l : List Byte) (p : Bool) (h : Memory.wf s.mem) : Memory.wf (s.writeBytes a l p).mem :=
  each_wf _ _ _ (fun s _ h => write64_wf s _ _ _ h) h

theorem mramPut_wf (a v : Nat) (h : Memory.wf s.mem) : Memory.wf (s.mramPut a v).mem := by
  unfold mramPut
  split
  · rw [detect_mem, wear_mem]
    exact write64_wf _ _ _ _ h
  · rw [wear_mem]
    exact write64_wf s _ _ _ h

theorem mramWrite_wf (a : Nat) (l : List Byte) (h : Memory.wf s.mem) : Memory.wf (s.mramWrite a l).mem :=
  each_wf _ _ _ (fun s _ h => mramPut_wf s _ _ h) h

theorem invalidate_wf (a n : Nat) (h : Memory.wf s.mem) : Memory.wf (s.invalidate a n).mem := h

theorem fillArray_wf (k : Nat) (h : Memory.wf s.mem) : Memory.wf (s.fillArray k).mem := SMap.wf_filter _ _ _ h

/-! Read after write. -/

/-- A byte stored reads back, and every other byte is as before. -/
theorem byte_putBytes (l : List Byte) : ∀ (s : State) (a b : Nat),
    (s.putBytes a l).byte b = if a ≤ b ∧ b < a + l.length then l.getD (b - a) 0 else s.byte b := by
  induction l with
  | nil => intro s a b; simp [putBytes]
  | cons x t ih =>
    intro s a b
    rw [putBytes, ih]
    by_cases h1 : a + 1 ≤ b ∧ b < a + 1 + t.length
    · have h2 : a ≤ b ∧ b < a + (x :: t).length := by simp; omega
      rw [if_pos h1, if_pos h2]
      have : b - a = (b - (a + 1)) + 1 := by omega
      rw [this, List.getD_cons_succ]
    · rw [if_neg h1]
      by_cases h3 : b = a
      · subst h3
        simp [byte]
      · have h2 : ¬(a ≤ b ∧ b < a + (x :: t).length) := by simp; omega
        rw [if_neg h2]
        simp [byte, SMap.get_set_ne _ _ _ h3]

end State
end Sys2Proof.Machine
end

