-- ==== Sys2Proof/WellFormed.lean ====
section
/-! DEFINITION. Which commands are well formed: what the operand types do not already say of an event. -/

namespace Sys2Proof

/-- The flash offsets of images are multiples of 4 KiB from 0x2000 on (R89). -/
def imagesOk (l : List (Nat × List Byte)) : Bool := l.all fun e => e.1 % 0x1000 == 0 && decide (0x2000 ≤ e.1)

/-- A command is well formed: its lists have the lengths of what they stand for (seven metrology channels, six inputs of a block, four
junction sensors, eight oscillator pairs and gains, the 46 bytes of a safety frame), a VREF is not 0, an instant lies within its tick. -/
def Instr.wf : Instr → Bool
  | .boot _ a b imgs _ => decide (a.length ≤ 4096) && decide (b.length ≤ 4096) && imagesOk imgs
  | .dataBlockCopyDone l => l.all fun b => decide (b.length ≤ 65536)
  | .descriptorReloadDone imgs => imagesOk imgs
  | .controlDecimation _ bits => bits.length == 6
  | .overcurrentQualify _ bits => !bits.isEmpty
  | .stuckStreamDetect x => !x.bits.isEmpty
  | .metrologySample _ raw lead => raw.length == 7 && lead.length == 7
  | .padcCalibrationDone _ res => res.length == 8
  | .comparatorTrip _ _ vref => vref != 0
  | .cycleByCycleCut _ _ vref => vref != 0
  | .selfTestStepEnd smp => !smp.isEmpty
  | .frameReceive _ l _ _ _ => decide (14 ≤ l.length)
  | .frameTransmit _ sub => decide (sub < 16)
  | .twinPathCopy _ l => l.length == 46
  | .planRunStart pairs => pairs.length == 8
  | .oscillatorMeasure _ pairs => pairs.length == 8
  | .junctionSample t => t.length == 4
  | .comparatorOutputChange _ _ vref => vref != 0
  | .powerOnReset .. | .brownOut .. | .pinReset .. | .softwareReset .. | .bootNorefTimeout .. | .dataBlockCopy ..
    | .rungRequest .. | .rungDescentComplete | .wakeEvent .. | .ascentComplete .. | .clkUpdate .. | .clkRelockDone
    | .clkRelockTimeout | .clkRefloss | .clkUnlock | .clkFreqFault | .timeIncrementWrite .. | .servoLockWrite ..
    | .servoWatchdogExpiry .. | .leapArm .. | .leapCancel .. | .leapApply | .domainSwitch .. | .slewEnd | .timeSnap ..
    | .txtsFifoPop .. | .ppsInEdge .. | .ppsOutPulse | .ppsOutPulseEnd | .triggerSlotArm .. | .triggerSlotFire ..
    | .keeperMeasurement .. | .keeperRestart .. | .keeperTrimAdjust | .periodicCheckpoint | .checkpointRequest ..
    | .checkpointComplete .. | .keeperTimeSet | .keeperTimeSnap | .keeperAlarm | .dawnDetect | .wakeNLow | .keepWrite ..
    | .keepWriteArrival | .hostWriteFrame .. | .hostReadFrame .. | .hostFetchFrame .. | .hostStatusFrame ..
    | .hostFenceFrame .. | .frameAbort | .readServed | .fenceComplete | .fenceGo .. | .registerWrite .. | .dropcntClear ..
    | .pageSoftReset .. | .pageLock .. | .legCommit .. | .channelCommit .. | .almanacEntryWrite .. | .almanacEntryRead ..
    | .almanacDelivery | .mclkStart .. | .filterSettled .. | .ocstatClear .. | .vrefReady
    | .padcStart .. | .astartEdge .. | .padcConversionDone .. | .padcCalibrate .. | .padcSnapshot .. | .tripstatClear ..
    | .comparatorSelfTest .. | .admission .. | .admissionComplete | .loopExecutionStart | .loopExecutionEnd ..
    | .cpwmCounterZero .. | .cpwmPeak .. | .cpwmCompareEdge .. | .tcmPeriodStart .. | .tcmSecondInterval ..
    | .legRestoreStart .. | .directPeriodStart .. | .directOffInterval .. | .lcorrUpdate .. | .lcorrClear ..
    | .bootstrapRefresh .. | .bootstrapRefreshEnd .. | .bootstrapCheck .. | .syncInEdge .. | .legMapApply ..
    | .shootThroughCoincidence .. | .coincidenceEnd .. | .tripInputEdge .. | .tripQualify .. | .blankWindowClose ..
    | .tripLatchClear .. | .gdoPwmPeriodStart .. | .gdoPwmDutyEnd .. | .gdoChopChange .. | .gdoMinIntervalEnd ..
    | .gdoUvlo .. | .gridTrackerUpdate .. | .trackerValidSet .. | .trackerDecimationTimeout .. | .zeroCrossingTimeout ..
    | .gridSnapshot .. | .modeRequest .. | .modeExcursion | .rampdownExcursion | .modeRecovery | .modeCurve | .modeIsland
    | .modeTrip | .modeReconnect | .modeAutores | .modeRampdone | .allocationRun .. | .formFallback ..
    | .formFallbackClear .. | .deadBusQualified .. | .deadBusRiseEnd .. | .rideCurveCrossing | .injectionRequest ..
    | .probeWindowBoundary | .islandTest .. | .rocofDetect .. | .holdoverExpiry | .afdDeclare | .globalScanDue ..
    | .chargeTermination .. | .dcdcStartComplete .. | .encoderEdge .. | .encoderIndex | .encoderSpeedTimeout
    | .resolverSample .. | .machRunCommand .. | .machDirectionWrite .. | .machStop .. | .catchOnEnd | .regenEnd | .mtrZcto ..
    | .intervalClose .. | .intervalRecordPublish .. | .harmonicBlockDone .. | .pulseEmit .. | .pulseEnd .. | .mtreSnapshot ..
    | .energyPreset .. | .linkUp .. | .linkDown .. | .txDescriptorProcess | .gateListInstall .. | .gateListOperative ..
    | .gateEntryChange .. | .setpointFrameReceive .. | .setpointApply | .streamFrameQueue .. | .mdioTransaction ..
    | .mdioComplete .. | .sstopInputChange .. | .sstopDiscrepancy | .ss1Evaluation | .monitorDivergence
    | .stoFeedbackMismatch | .safetyStartupTestPass .. | .stoHoldEnd | .twinPathWindowClose | .twinPathLoss | .tplatClear ..
    | .safetyFrameProduce | .safetyParameterWrite .. | .safetyConfirm .. | .safeRelease .. | .graceExpiry .. | .faultAck ..
    | .faultAckAll .. | .faultForce .. | .journalRecordWritten .. | .journalUserAppend .. | .scrubRead | .eccTestWrite ..
    | .fuseOwnerRoot .. | .fuseAdvanceCounter .. | .fuseOperationDone | .imageLoad .. | .imageLoadDone
    | .attestationRequest .. | .attestationDone | .planRunRequest .. | .planRunComplete | .legModelTick
    | .ownerBoundsWrite .. | .sealRequest .. | .sealComplete .. | .vdrvLockoutRelease .. | .referenceReturn
    | .jtagInstruction .. => true

end Sys2Proof
end

