-- ==== Sys2Proof/Tests/Slice0.lean ====
section
/-! SUPPORT. Tests: for every statement with hypotheses, a concrete state and operands that meet those of each of its clauses together;
ill-formed commands, which the check refuses; and a few results the spec prints. -/

set_option Elab.async false

namespace Sys2Proof.Tests

open Sys2Proof Sys2Proof.Machine Sys2Proof.Machine.State

/-- The device in ACTIVE after its boot. -/
def up : State := { State.reset with phase := .up }

/-- The fields of `l` stored into `s`, in order. -/
def put (s : State) (l : List (Fld × Nat)) : State := l.foldl (fun s e => s.wr e.1 e.2) s

/-- The hypotheses of each clause of `ResetsClearEverythingButWhatTheyKeep` are met together. -/
theorem witness_ResetsClearEverythingButWhatTheyKeep :
  (∃ (s : State), (s.phase ≠ .down ∨ s.boot.lost = 31)) ∧
  (∃ (s : State), (s.phase = .down) ∧ (s.boot.lost ≠ 31)) ∧
  (∃ (s : State), (s.phase ≠ .down)) ∧
  (∃ (s : State), (s.phase ≠ .down)) ∧
  (∃ (s : State), (s.phase = .down)) ∧
  (∃ (v : Word) (s : State) (u : State), (s.turn 0x110 (F.SYS_RSTGO.put v 1) = some u) ∧ (F.SYS_RSTKEY.of v = 0xA5C3)) ∧
  (∃ (v : Word) (s : State) (u : State), (s.turn 0x110 (F.SYS_RSTGO.put v 1) = some u) ∧ (F.SYS_RSTKEY.of v ≠ 0xA5C3)) :=
  ⟨⟨(up), by decide +kernel⟩,
  ⟨({ State.reset with phase := .down, boot := { State.reset.boot with lost := 3, cause := 2 } }), by decide +kernel⟩,
  ⟨(up), by decide +kernel⟩,
  ⟨(up), by decide +kernel⟩,
  ⟨({ State.reset with phase := .down, boot := { State.reset.boot with lost := 3, cause := 2 } }), by decide +kernel⟩,
  ⟨0xA5C30000, (up), (up), by decide +kernel⟩,
  ⟨0, (up), (up), by decide +kernel⟩⟩

/-- The hypotheses of each clause of `ResetCompletesTheRecordBeingWritten` are met together. -/
theorem witness_ResetCompletesTheRecordBeingWritten :
  (∃ (s : State) (r : JRec) (q : List JRec), (s.phase ≠ .down) ∧ (s.ecc.weak = []) ∧ (s.keep.ckpt = none) ∧ (s.jrnl.queue = r :: q)) ∧
  (∃ (s : State), (s.phase ≠ .down) ∧ (s.keep.ckpt = none) ∧ (s.jrnl.queue = [])) ∧
  (∃ (s : State) (b : State), (s.ecc.weak = []) ∧ (s.rd F.KEEP_CKPER ≠ 0) ∧ (s.rung = 0) ∧ (s.phase = .up) ∧ (s.rd F.KEEP_CKBUSY = 0) ∧ (s.jrnl.queue = []) ∧ (exec .periodicCheckpoint s = .next b)) :=
  ⟨⟨({ up with jrnl := { up.jrnl with queue := [⟨4097, 5, 1, 2, 3, 4, 5, 6, 7, 8⟩, ⟨4098, 5, 1, 2, 3, 4, 5, 6, 7, 8⟩] }, mem := [(0x800020, 9), (0x800040, 9), (0x820000, 5)] }), ⟨4097, 5, 1, 2, 3, 4, 5, 6, 7, 8⟩, [⟨4098, 5, 1, 2, 3, 4, 5, 6, 7, 8⟩], by decide +kernel⟩,
  ⟨(up), by decide +kernel⟩,
  ⟨put up [(F.KEEP_CKPER, 1)], _, by decide +kernel, by decide +kernel, rfl, by decide +kernel, by decide +kernel, rfl, rfl⟩⟩

namespace BootEndsWithDoneAndACode
def hd (seq : Nat) : List Byte := let b := leBytes 4 0x424B4E56 ++ leBytes 2 1 ++ leBytes 2 0x78 ++ leBytes 4 seq ++ List.replicate 104 0#8; b ++ leBytes 4 (crc32 b)
/-- The hypotheses of each clause of `BootEndsWithDoneAndACode` are met together. -/
theorem witness_BootEndsWithDoneAndACode :
  (∃ (a : List Byte) (b : List Byte) (s : State), (s.phase = .booting) ∧ (s.tmode = false) ∧ (hdrOk a = false) ∧ (hdrOk b = false)) ∧
  (∃ (s : State), (s.rd F.CLK_REFOK = 1)) ∧
  (∃ (s : State), (s.phase = .booting) ∧ (s.tmode = false) ∧ (s.rd F.CLK_REFOK = 0)) ∧
  (∃ (s : State), (s.tmode = true ∨ s.phase ≠ .booting)) :=
  ⟨⟨[], [], (State.reset), by decide +kernel⟩,
  ⟨(put State.reset [(F.CLK_REFOK, 1)]), by decide +kernel⟩,
  ⟨(State.reset), by decide +kernel⟩,
  ⟨({ State.reset with tmode := true }), by decide +kernel⟩⟩
end BootEndsWithDoneAndACode

namespace HeaderSelection
def hd (seq : Nat) : List Byte := let b := leBytes 4 0x424B4E56 ++ leBytes 2 1 ++ leBytes 2 0x78 ++ leBytes 4 seq ++ List.replicate 104 0#8; b ++ leBytes 4 (crc32 b)
/-- The hypotheses of each clause of `HeaderSelection` are met together. -/
theorem witness_HeaderSelection :
  (∃ (a : List Byte) (b : List Byte), (hdrOk a = true) ∧ (hdrOk b = true)) ∧
  (∃ (a : List Byte) (b : List Byte), (hdrOk a = true) ∧ (hdrOk b = false)) ∧
  (∃ (a : List Byte) (b : List Byte), (hdrOk a = false) ∧ (hdrOk b = true)) ∧
  (∃ (a : List Byte) (b : List Byte), (hdrOk a = false) ∧ (hdrOk b = false)) :=
  ⟨⟨hd 1, hd 2, by decide +kernel⟩,
  ⟨hd 1, [], by decide +kernel⟩,
  ⟨[], hd 2, by decide +kernel⟩,
  ⟨[], [], by decide +kernel⟩⟩
end HeaderSelection

/-- The hypotheses of each clause of `DataBlockCopy` are met together. -/
theorem witness_DataBlockCopy :
  (∃ (v : Word) (s : State) (u : State) (e : Nat × Nat × Nat), (s.turn 0x3080 (F.BOOT_DLGO.put v 1) = some u) ∧ (u.rd F.BOOT_DLGO = 0) ∧ (u.boot.dataEnts.find? (fun e => e.1 == F.BOOT_DLENT.of v) = some e) ∧ (F.BOOT_DLBLK.of v < (e.2.1 + 65535) / 65536)) ∧
  (∃ (v : Word) (s : State) (u : State), (s.turn 0x3080 (F.BOOT_DLGO.put v 1) = some u) ∧ (u.rd F.BOOT_DLGO = 0) ∧ ((∀ e, u.boot.dataEnts.find? (fun e => e.1 == F.BOOT_DLENT.of v) = some e → (e.2.1 + 65535) / 65536 ≤ F.BOOT_DLBLK.of v))) ∧
  (∃ (v : Word) (s : State) (u : State), (s.turn 0x3080 (F.BOOT_DLGO.put v 1) = some u) ∧ (u.rd F.BOOT_DLGO = 1)) ∧
  (∃ (s : State) (c : Nat × Nat × Nat), (s.boot.copy = some c)) ∧
  (∃ (s : State) (l : List Byte) (ent : Nat) (blk : Nat) (dst : Nat) (e : Nat × Nat × Nat), (s.boot.copy = some (ent, blk, dst)) ∧ (dst < 15) ∧ (s.boot.dataEnts.find? (fun e => e.1 == ent) = some e) ∧ (l.length = min 65536 (e.2.1 - 65536 * blk))) ∧
  (∃ (s : State), (s.boot.copy = none)) :=
  ⟨⟨0, ({ up with boot := { up.boot with dataEnts := [(0, 65537, 0), (3, 1, 5)] } }), ({ up with boot := { up.boot with dataEnts := [(0, 65537, 0), (3, 1, 5)] } }), (0, 65537, 0), by decide +kernel⟩,
  ⟨0, (up), (up), by decide +kernel⟩,
  ⟨0, ({ put up [(F.BOOT_DLGO, 1)] with boot := { up.boot with copy := some (3, 0, 64) } }), ({ put up [(F.BOOT_DLGO, 1)] with boot := { up.boot with copy := some (3, 0, 64) } }), by decide +kernel⟩,
  ⟨({ up with boot := { up.boot with copy := some (3, 0, 64) } }), (3, 0, 64), by decide +kernel⟩,
  ⟨({ put up [] with boot := { up.boot with copy := some (3, 0, 14), dataEnts := [(3, 4, 5)] } }), [1, 2, 3, 4], 3, 0, 14, (3, 4, 5), by decide +kernel⟩,
  ⟨(up), by decide +kernel⟩⟩

/-- The hypotheses of each clause of `RungRequestOutcomes` are met together. -/
theorem witness_RungRequestOutcomes :
  (∃ (v : Word) (s : State) (u : State), (s.turn 0x100 v = some u) ∧ (4 < F.SYS_RUNGREQ.of v)) ∧
  (∃ (v : Word) (s : State) (u : State), (s.turn 0x100 v = some u) ∧ (F.SYS_RUNGREQ.of v = u.rung)) ∧
  (∃ (v : Word) (s : State) (u : State), (s.turn 0x100 v = some u) ∧ (F.SYS_RUNGREQ.of v < u.rung) ∧ (u.boot.ascend = none)) ∧
  (∃ (v : Word) (s : State) (u : State), (s.turn 0x100 v = some u) ∧ (u.rung < F.SYS_RUNGREQ.of v) ∧ (F.SYS_RUNGREQ.of v ≤ 4)) :=
  ⟨⟨5, (up), (up), by decide +kernel⟩,
  ⟨0, (up), (up), by decide +kernel⟩,
  ⟨0, (put up [(F.SYS_RUNG, 2)]), (put up [(F.SYS_RUNG, 2)]), by decide +kernel⟩,
  ⟨1, (up), (up), by decide +kernel⟩⟩

/-- The hypotheses of each clause of `LadderMoves` are met together. -/
theorem witness_LadderMoves :
  (∃ (s : State) (r : Nat), (s.boot.descend = some r) ∧ (r ≤ 4) ∧ (r = 4) ∧ (s.ecc.weak = [])) ∧
  (∃ (s : State), (s.boot.descend = none)) ∧
  (∃ (b : Fin 8) (s : State), (s.phase = .up) ∧ (s.keep.halted = false) ∧ (s.boot.descend = none) ∧ (s.boot.ascend = none) ∧ (s.rd (wakeEn.at b) = 1) ∧ (wakeUsable s.rung b = true)) ∧
  (∃ (b : Fin 8) (s : State), (s.rd (wakeEn.at b) = 0 ∨ wakeUsable (s.boot.descend.getD s.rung) b = false ∨ s.keep.halted = true)) ∧
  (∃ (s : State), (s.boot.ascend.isSome) ∧ (s.boot.descend = none) ∧ (s.rung ≠ 4 ∨ s.ctxWhole = true) ∧ (3 ≤ s.rung)) ∧
  (∃ (s : State), (s.boot.ascend.isSome) ∧ (s.boot.descend = none) ∧ (s.rung = 4) ∧ (s.ctxWhole = false)) ∧
  (∃ (s : State), (s.phase = .up) ∧ (s.rd F.BOOT_DONE = 0)) :=
  ⟨⟨({ put up [(F.SYS_MODE, 2)] with boot := { up.boot with descend := some 4 } }), 4, by decide +kernel⟩,
  ⟨(up), by decide +kernel⟩,
  ⟨0, (put up [(F.SYS_RUNG, 1), (wakeEn, 255)]), by decide +kernel⟩,
  ⟨0, (up), by decide +kernel⟩,
  ⟨({ put up [(F.SYS_RUNG, 3), (F.SYS_MODE, 2), (F.BOOT_DONE, 1)] with boot := { up.boot with ascend := some 0 } }), by decide +kernel⟩,
  ⟨({ put up [(F.SYS_RUNG, 4), (F.SYS_MODE, 2)] with boot := { up.boot with ascend := some 0 } }), by decide +kernel⟩,
  ⟨(up), by decide +kernel⟩⟩

/-- The hypotheses of each clause of `ClockUpdateAndTests` are met together. -/
theorem witness_ClockUpdateAndTests :
  (∃ (v : Word) (s : State) (u : State), (s.turn 0x104C v = some u) ∧ (F.CLK_UPDGO.of v = 1) ∧ (u.rd F.CLK_UPDGO = 0) ∧ ((pllOk (u.rd F.CLK_SRC) (u.rd F.CLK_REFDIV) (u.rd F.CLK_N) (u.rd F.CLK_FRAC) = false ∨
        ((u.rd F.CLK_SRC ≠ u.clk.src ∨ u.rd F.CLK_REFDIV ≠ u.clk.refdiv) ∧ u.modeNow ≠ 0)))) ∧
  (∃ (v : Word) (s : State) (u : State), (s.turn 0x104C v = some u) ∧ (F.CLK_UPDGO.of v = 1) ∧ (u.rd F.CLK_UPDGO = 0) ∧ (pllOk (u.rd F.CLK_SRC) (u.rd F.CLK_REFDIV) (u.rd F.CLK_N) (u.rd F.CLK_FRAC) = true) ∧ (u.rd F.CLK_SRC = u.clk.src) ∧ (u.rd F.CLK_REFDIV = u.clk.refdiv)) ∧
  (∃ (v : Word) (s : State) (u : State), (s.turn 0x104C v = some u) ∧ (F.CLK_UPDGO.of v = 1) ∧ (u.rd F.CLK_UPDGO = 0) ∧ (pllOk (u.rd F.CLK_SRC) (u.rd F.CLK_REFDIV) (u.rd F.CLK_N) (u.rd F.CLK_FRAC) = true) ∧ ((u.rd F.CLK_SRC ≠ u.clk.src ∨ u.rd F.CLK_REFDIV ≠ u.clk.refdiv)) ∧ (u.modeNow = 0)) ∧
  (∃ (s : State), (s.clk.relocking = true) ∧ (s.rd F.CLK_LOCK = 0)) ∧
  (∃ (s : State), (s.rd F.CLK_REFOK = 1) ∧ (s.rung < 4)) ∧
  (∃ (s : State), (s.rd F.CLK_REFOK = 0 ∨ s.rung = 4)) ∧
  (∃ (s : State), (s.rd F.CLK_LOCK = 1) ∧ (s.rung < 3)) ∧
  (∃ (s : State), (s.rd F.CLK_LOCK = 0 ∨ 3 ≤ s.rung)) :=
  ⟨⟨1, (put up [(F.CLK_N, 10)]), (put up [(F.CLK_N, 10)]), by decide +kernel⟩,
  ⟨1, (up), (up), by decide +kernel⟩,
  ⟨1, (put up [(F.CLK_SRC, 1), (F.CLK_REFDIV, 4), (F.CLK_N, 102), (F.CLK_FRAC, 6710886)]), (put up [(F.CLK_SRC, 1), (F.CLK_REFDIV, 4), (F.CLK_N, 102), (F.CLK_FRAC, 6710886)]), by decide +kernel⟩,
  ⟨({ put up [(F.CLK_LOCK, 0), (F.CLK_UPDGO, 1)] with clk := { up.clk with relocking := true } }), by decide +kernel⟩,
  ⟨(put up [(F.CLK_LOCK, 1), (F.CLK_REFOK, 1)]), by decide +kernel⟩,
  ⟨(up), by decide +kernel⟩,
  ⟨(put up [(F.CLK_LOCK, 1), (F.CLK_REFOK, 1)]), by decide +kernel⟩,
  ⟨(up), by decide +kernel⟩⟩

/-- The hypotheses of each clause of `SignedDifference` are met together. -/
theorem witness_SignedDifference :
  (∃ (w : Nat) (x : Nat) (y : Nat), (1 ≤ w) ∧ (x < 2 ^ w) ∧ (y < 2 ^ w)) :=
  ⟨1, 0, 0, by decide +kernel⟩

/-- The hypotheses of each clause of `LeapsAndIncrements` are met together. -/
theorem witness_LeapsAndIncrements :
  (∃ (k : Fin 3) (v : Word) (s : State) (u : State), (s.turn (incFld k).addr v = some u) ∧ (0x7FDF3B64 ≤ v.toNat ∧ v.toNat ≤ 0x8020C49C)) ∧
  (∃ (k : Fin 3) (v : Word) (s : State) (u : State), (s.turn (incFld k).addr v = some u) ∧ (v.toNat < 0x7FDF3B64 ∨ 0x8020C49C < v.toNat)) ∧
  (∃ (v : Word) (s : State) (u : State), (s.turn 0x20B0 (F.TIME_LEAPARM.put v 1) = some u) ∧ (u.rd F.TIME_LEAPARM = 0) ∧ (F.TIME_LEAPTGT.of v = 3 ∨ 999999999 < (sgn 32 (u.rd F.TIME_LEAPNS)).natAbs)) ∧
  (∃ (v : Word) (s : State) (u : State), (s.turn 0x20B0 (F.TIME_LEAPARM.put v 1) = some u) ∧ (u.rd F.TIME_LEAPARM = 0) ∧ (F.TIME_LEAPTGT.of v ≠ 3) ∧ ((sgn 32 (u.rd F.TIME_LEAPNS)).natAbs ≤ 999999999)) ∧
  (∃ (v : Word) (s : State) (u : State), (s.turn 0x20B0 (F.TIME_LEAPARM.put v 1) = some u) ∧ (u.rd F.TIME_LEAPARM = 1) ∧ (F.TIME_LEAPCANCEL.of v = 0) ∧ (F.TIME_LEAPTGT.of v ≠ u.rd F.TIME_LEAPTGT)) ∧
  (∃ (v : Word) (s : State) (u : State), (s.turn 0x20B0 (F.TIME_LEAPCANCEL.put v 1) = some u) ∧ (u.rd F.TIME_LEAPARM = 1)) ∧
  (∃ (s : State), (s.rd F.TIME_LEAPARM = 1) ∧ (reached 64 s.now64 (s.rd64 F.TIME_LEAPATLO) = true)) ∧
  (∃ (s : State), (s.rd F.TIME_LEAPARM = 0 ∨ reached 64 s.now64 (s.rd64 F.TIME_LEAPATLO) = false)) :=
  ⟨⟨0, 0x7FDF3B64, (up), (up), by decide +kernel⟩,
  ⟨0, 0, (up), (up), by decide +kernel⟩,
  ⟨3, (up), (up), by decide +kernel⟩,
  ⟨0, (up), (up), by decide +kernel⟩,
  ⟨0, (put up [(F.TIME_LEAPARM, 1), (F.TIME_LEAPTGT, 1)]), (put up [(F.TIME_LEAPARM, 1), (F.TIME_LEAPTGT, 1)]), by decide +kernel⟩,
  ⟨0, (put up [(F.TIME_LEAPARM, 1), (F.TIME_LEAPTGT, 1)]), (put up [(F.TIME_LEAPARM, 1), (F.TIME_LEAPTGT, 1)]), by decide +kernel⟩,
  ⟨(put up [(F.TIME_LEAPARM, 1), (F.TIME_LEAPTGT, 1)]), by decide +kernel⟩,
  ⟨(up), by decide +kernel⟩⟩

/-- The hypotheses of each clause of `DomainSwitchAndSnapshot` are met together. -/
theorem witness_DomainSwitchAndSnapshot :
  (∃ (v : Word) (s : State) (u : State), (s.turn 0x2040 v = some u) ∧ (F.TIME_SNAPGO.of v = 0)) ∧
  (∃ (k : Nat) (u : State), (k < 4) ∧ (k = u.rd F.TIME_ACTIVE)) ∧
  (∃ (k : Nat) (u : State), (k < 4) ∧ (k ≠ u.rd F.TIME_ACTIVE)) ∧
  (∃ (u : State) (k : Nat), (u.timeRuns = true) ∧ (u.time.switchTo = some k)) ∧
  (∃ (s : State), (s.slewNow = 0)) ∧
  (∃ (s : State), (s.slewNow ≠ 0)) ∧
  (∃ (v : Word) (s : State) (u : State), (s.turn 0x2040 (F.TIME_SNAPGO.put v 1) = some u) ∧ (F.TIME_ACTIVE.of v = u.rd F.TIME_ACTIVE)) :=
  ⟨⟨0, (up), (up), by decide +kernel⟩,
  ⟨0, (up), by decide +kernel⟩,
  ⟨1, (up), by decide +kernel⟩,
  ⟨({ put up [(F.TIME_AEN, 1), (F.TIME_SLEWWIN, 5)] with time := { up.time with switchTo := some 1, a := 3, loaded := true } }), 1, by decide +kernel⟩,
  ⟨(up), by decide +kernel⟩,
  ⟨({ put up [(F.TIME_AEN, 1), (F.TIME_BEN, 1)] with time := { up.time with slew := 5000, slewLen := 10, slewAt := 3, a := 7 } }), by decide +kernel⟩,
  ⟨0, (up), (up), by decide +kernel⟩⟩

/-- The hypotheses of each clause of `ServoTriggersAndPulses` are met together. -/
theorem witness_ServoTriggersAndPulses :
  (∃ (v : Word) (s : State) (u : State), (s.turn 0x205C v = some u)) ∧
  (∃ (d : Fin 2) (s : State), (s.rd F.TIME_SRVWDT ≠ 0) ∧ (s.rd F.TIME_SRVWDT * 500000 ≤ s.tick - (if (d : Nat) = 0 then s.time.srvA else s.time.srvB)) ∧ (s.rdBit F.TIME_DLOCK d = true)) ∧
  (∃ (d : Fin 2) (s : State), (s.rd F.TIME_SRVWDT = 0 ∨ s.rdBit F.TIME_DLOCK d = false ∨
    s.tick - (if (d : Nat) = 0 then s.time.srvA else s.time.srvB) < s.rd F.TIME_SRVWDT * 500000)) ∧
  (∃ (v : Word) (s : State) (u : State) (x : TxStamp) (l : List TxStamp), (s.turn 0x20F0 (F.TIME_POP.put v 1) = some u) ∧ (F.TIME_TXPORT.of v = 0) ∧ (u.time.fifoA = x :: l)) ∧
  (∃ (v : Word) (s : State) (u : State), (s.turn 0x20F0 (F.TIME_POP.put v 1) = some u) ∧ (F.TIME_TXPORT.of v = 1) ∧ (u.time.fifoB = [])) ∧
  (∃ (f : Bool) (s : State), (s.rd F.TIME_INEN = 1) ∧ (s.rd F.TIME_INEDGE = (if f then 1 else 0)) ∧ ((∀ x, s.time.lastPps = some x → 50000000 ≤ s.tick - x))) ∧
  (∃ (f : Bool) (s : State), (s.rd F.TIME_INEN = 0 ∨ s.rd F.TIME_INEDGE ≠ (if f then 1 else 0) ∨
    (∃ x, s.time.lastPps = some x ∧ s.tick - x < 50000000))) ∧
  (∃ (s : State), (s.rd F.TIME_OUTEN = 1) ∧ (s.phase = .up) ∧ (s.time.ppsDue = true)) ∧
  (∃ (s : State), (s.rd F.TIME_OUTEN = 0 ∨ s.time.ppsDue = false)) ∧
  (∃ (s : State), (s.time.ppsEnd ≤ s.tick)) ∧
  (∃ (s : State), (s.tick < s.time.ppsEnd)) ∧
  (∃ (n : Fin 4) (v : Word) (s : State) (u : State), (s.turn (0x2168 + 0x10 * n) ((F.TIME_TRGARM n).put v 1) = some u) ∧ (u.rd (F.TIME_TRGARM n) = 1)) ∧
  (∃ (n : Fin 4) (v : Word) (s : State) (u : State), (s.turn (0x2168 + 0x10 * n) ((F.TIME_TRGARM n).put v 1) = some u) ∧ (u.rd (F.TIME_TRGARM n) = 0) ∧ ((F.TIME_TRGTGT n).of v = 0 ∨ 3 < (F.TIME_TRGTGT n).of v)) ∧
  (∃ (n : Fin 4) (v : Word) (s : State) (u : State), (s.turn (0x2168 + 0x10 * n) ((F.TIME_TRGARM n).put v 1) = some u) ∧ (u.rd (F.TIME_TRGARM n) = 0) ∧ (1 ≤ (F.TIME_TRGTGT n).of v) ∧ ((F.TIME_TRGTGT n).of v ≤ 3)) ∧
  (∃ (n : Fin 4) (s : State), (s.rd F.TIME_LEAPARM = 0) ∧ ((∀ k, k < (n : Nat) → s.rd (F.TIME_TRGARM k) = 0)) ∧ (s.trgDue n = false)) ∧
  (∃ (n : Fin 4) (s : State), (s.rd F.TIME_LEAPARM = 0) ∧ ((∀ k, k < (n : Nat) → s.rd (F.TIME_TRGARM k) = 0)) ∧ (s.trgDue n = true) ∧ (s.rd (F.TIME_TRGTGT n) = 3)) :=
  ⟨⟨0, (up), (up), by decide +kernel⟩,
  ⟨0, ({ put up [(F.TIME_SRVWDT, 5), (F.TIME_DLOCK, 3)] with tick := 2500000 }), by decide +kernel⟩,
  ⟨0, (up), by decide +kernel⟩,
  ⟨0, ({ up with time := { up.time with fifoA := [⟨0, 1, 2, 3, 4⟩] } }), ({ up with time := { up.time with fifoA := [⟨0, 1, 2, 3, 4⟩] } }), ⟨0, 1, 2, 3, 4⟩, [], by decide +kernel⟩,
  ⟨1, (up), (up), by decide +kernel⟩,
  ⟨false, (put up [(F.TIME_INEN, 1)]), by decide +kernel⟩,
  ⟨true, (up), by decide +kernel⟩,
  ⟨({ put up [(F.TIME_OUTEN, 1)] with time := { up.time with ppsDue := true } }), by decide +kernel⟩,
  ⟨(up), by decide +kernel⟩,
  ⟨(up), by decide +kernel⟩,
  ⟨({ up with time := { up.time with ppsEnd := 9 } }), by decide +kernel⟩,
  ⟨0, 0, (put up [(F.TIME_TRGARM 0, 1), (F.TIME_TRGTGT 0, 2), (F.TIME_TRGARM 3, 1), (F.TIME_TRGTGT 3, 2)]), (put up [(F.TIME_TRGARM 0, 1), (F.TIME_TRGTGT 0, 2), (F.TIME_TRGARM 3, 1), (F.TIME_TRGTGT 3, 2)]), by decide +kernel⟩,
  ⟨0, 0, (up), (up), by decide +kernel⟩,
  ⟨0, 1, (up), (up), by decide +kernel⟩,
  ⟨0, (up), by decide +kernel⟩,
  ⟨0, (put up [(F.TIME_TRGARM 0, 1), (F.TIME_TRGTGT 0, 3)]), by decide +kernel⟩⟩

/-- The hypotheses of each clause of `KeeperMeasurementThresholds` are met together. -/
theorem witness_KeeperMeasurementThresholds :
  (∃ (s : State), (s.keep.halted = false)) ∧
  (∃ (s : State), (s.keep.halted = true)) ∧
  (∃ (l : Fin 4096) (s : State), (s.keep.halted = true) ∧ (s.keep.rfGone = false) ∧ (700 ≤ (l : Nat))) ∧
  (∃ (l : Fin 4096) (s : State), (s.keep.halted = true) ∧ (s.keep.rfGone = true ∨ (l : Nat) < 700)) :=
  ⟨⟨(up), by decide +kernel⟩,
  ⟨({ up with keep := { up.keep with halted := true, rfGone := false } }), by decide +kernel⟩,
  ⟨700, ({ up with keep := { up.keep with halted := true, rfGone := false } }), by decide +kernel⟩,
  ⟨0, ({ up with keep := { up.keep with halted := true, rfGone := false } }), by decide +kernel⟩⟩

/-- The hypotheses of each clause of `KeeperTimeAndWakes` are met together. -/
theorem witness_KeeperTimeAndWakes :
  (∃ (s : State), (s.keepRuns = true)) ∧
  (∃ (s : State), (s.keepRuns = false)) ∧
  (∃ (s : State), (s.rd F.KEEP_KTSET = 1) ∧ (s.keep.halted = false) ∧ (s.keep.low2 = false)) ∧
  (∃ (s : State), (s.rd F.KEEP_KTSNAP = 1)) ∧
  (∃ (s : State), (s.rd F.KEEP_ALMEN = 1) ∧ (s.keepRuns = true) ∧ (reached 48 s.keep.sec (s.rd F.KEEP_KALMLO + 2 ^ 32 * s.rd F.KEEP_KALMHI) = true) ∧ (s.phase = .down)) ∧
  (∃ (s : State), (s.rd F.KEEP_DAWNEN = 1) ∧ (s.keep.halted = false) ∧ (s.keep.dawnLow = false) ∧ (s.phase = .down)) ∧
  (∃ (s : State), (s.phase = .down) ∧ (s.keep.halted = false)) :=
  ⟨⟨(put up [(F.KEEP_TRIM, 255), (F.KEEP_KTVALID, 1)]), by decide +kernel⟩,
  ⟨(up), by decide +kernel⟩,
  ⟨({ put up [(F.KEEP_KTSET, 1)] with keep := { up.keep with low2 := false, halted := false } }), by decide +kernel⟩,
  ⟨({ put up [(F.KEEP_KTSNAP, 1)] with keep := { up.keep with sec := 2 ^ 48 - 1, sub := 32767 } }), by decide +kernel⟩,
  ⟨({ put up [(F.KEEP_ALMEN, 1), (F.KEEP_KTVALID, 1), (F.KEEP_KALMLO, 5)] with phase := .down, keep := { up.keep with sec := 5, low2 := false, halted := false } }), by decide +kernel⟩,
  ⟨({ put up [(F.KEEP_DAWNEN, 1)] with phase := .down, keep := { up.keep with halted := false, dawnLow := false } }), by decide +kernel⟩,
  ⟨({ put up [(F.KEEP_ALMEN, 1), (F.KEEP_KTVALID, 1), (F.KEEP_KALMLO, 5)] with phase := .down, keep := { up.keep with sec := 5, low2 := false, halted := false } }), by decide +kernel⟩⟩

/-- The hypotheses of each clause of `CheckpointsBegin` are met together. -/
theorem witness_CheckpointsBegin :
  (∃ (s : State), (s.ecc.weak = []) ∧ (s.rd F.KEEP_CKPER ≠ 0) ∧ (s.rung = 0) ∧ (s.phase = .up) ∧ (s.rd F.KEEP_CKBUSY = 0)) ∧
  (∃ (s : State), (s.rd F.KEEP_CKPER = 0 ∨ s.rung ≠ 0 ∨ s.phase ≠ .up ∨ s.rd F.KEEP_CKBUSY = 1)) ∧
  (∃ (v : Word) (s : State) (u : State), (s.turn 0x4040 (F.KEEP_CKREQ.put v 1) = some u) ∧ (u.ecc.weak = []) ∧ (u.rd F.KEEP_XBUSY = 0) ∧ (F.KEEP_ICHG.of v ≠ 3) ∧ (u.rd F.KEEP_CKBUSY = 0)) ∧
  (∃ (v : Word) (s : State) (u : State), (s.turn 0x4040 (F.KEEP_CKREQ.put v 1) = some u) ∧ (u.rd F.KEEP_XBUSY = 1)) ∧
  (∃ (v : Word) (s : State) (u : State), (s.turn 0x4040 (F.KEEP_CKREQ.put v 1) = some u) ∧ (u.rd F.KEEP_XBUSY = 0) ∧ (F.KEEP_ICHG.of v = 3)) ∧
  (∃ (g : Bool) (s : State), (s.keep.ckpt.isSome) ∧ (s.ecc.weak = []) ∧ (s.age.run = none) ∧ (g = false)) ∧
  (∃ (s : State), (s.keep.ckpt = none)) :=
  ⟨⟨(put up [(F.KEEP_CKPER, 1), (F.KEEP_NEXTSLOT, 7), (F.KEEP_CKSEQ, 0xFFFFFFFF)]), by decide +kernel⟩,
  ⟨(up), by decide +kernel⟩,
  ⟨0, (up), (up), by decide +kernel⟩,
  ⟨0, (put up [(F.KEEP_XBUSY, 1)]), (put up [(F.KEEP_XBUSY, 1)]), by decide +kernel⟩,
  ⟨0xC, (up), (up), by decide +kernel⟩,
  ⟨false, ({ up with keep := { up.keep with ckpt := some (1, [5]) } }), by decide +kernel⟩,
  ⟨(up), by decide +kernel⟩⟩

/-- The hypotheses of each clause of `CompletedCheckpointIsFound` are met together. -/
theorem witness_CompletedCheckpointIsFound :
  (∃ (s : State), (s.ecc.weak = []) ∧ (s.rd F.KEEP_CKPER ≠ 0) ∧ (s.rung = 0) ∧ (s.phase = .up) ∧ (s.rd F.KEEP_CKBUSY = 0)) :=
  ⟨(put up [(F.KEEP_CKPER, 1), (F.KEEP_NEXTSLOT, 7), (F.KEEP_CKSEQ, 9)]), by decide +kernel⟩

/-- The hypotheses of each clause of `KeeperCrossingWrites` are met together. -/
theorem witness_KeeperCrossingWrites :
  (∃ (w : Fin 1024) (v : Word) (s : State) (u : State), (17 ≤ (w : Nat)) ∧ (s.turn (0x4000 + 4 * w) v = some u) ∧ (u.rd F.KEEP_XBUSY = 0) ∧ (u.keepRange (4 * w) v = true)) ∧
  (∃ (w : Fin 1024) (v : Word) (s : State) (u : State), (17 ≤ (w : Nat)) ∧ (s.turn (0x4000 + 4 * w) v = some u) ∧ (u.rd F.KEEP_XBUSY = 1)) ∧
  (∃ (w : Fin 1024) (v : Word) (s : State) (u : State), (17 ≤ (w : Nat)) ∧ (s.turn (0x4000 + 4 * w) v = some u) ∧ (u.rd F.KEEP_XBUSY = 0) ∧ (u.keepRange (4 * w) v = false)) ∧
  (∃ (v : Word) (s : State), (s.keep.crossing = some (0x4040, v)) ∧ (s.keep.halted = false) ∧ (F.KEEP_HARVEN.of v = 0)) ∧
  (∃ (v : Word) (s : State), (s.keep.crossing = some (0x4040, v)) ∧ (s.keep.halted = false) ∧ (F.KEEP_ICHG.of v = 0)) ∧
  (∃ (v : Word) (s : State), (s.keep.crossing = some (0x4058, v)) ∧ (s.keep.halted = false)) ∧
  (∃ (v : Word) (s : State), (s.keep.crossing = some (0x4054, v)) ∧ (s.keep.halted = false)) ∧
  (∃ (a : Nat) (v : Word) (s : State), (s.keep.crossing = some (a, v)) ∧ (s.keep.halted = true)) :=
  ⟨⟨17, 0, (up), (up), by decide +kernel⟩,
  ⟨17, 0, (put up [(F.KEEP_XBUSY, 1)]), (put up [(F.KEEP_XBUSY, 1)]), by decide +kernel⟩,
  ⟨22, 0, (up), (up), by decide +kernel⟩,
  ⟨0, ({ up with keep := { up.keep with crossing := some (0x4040, 0), halted := false } }), by decide +kernel⟩,
  ⟨0, ({ up with keep := { up.keep with crossing := some (0x4040, 0), halted := false } }), by decide +kernel⟩,
  ⟨2500, ({ up with keep := { up.keep with crossing := some (0x4058, 2500), halted := false } }), by decide +kernel⟩,
  ⟨0x00100010, ({ up with keep := { up.keep with crossing := some (0x4054, 0x00100010), halted := false } }), by decide +kernel⟩,
  ⟨0x4058, 2500, ({ up with keep := { up.keep with crossing := some (0x4058, 2500), halted := true } }), by decide +kernel⟩⟩

namespace HostFrameChecks
def wf (op : Byte) (l : List Byte) : List Byte := l ++ beBytes 2 (crc16 (op :: l))
def wr1 (a : Nat) (n k : Nat) : List Byte := wf 0x02 (beBytes 3 a ++ beBytes 1 n ++ (List.range (4 * k)).map (fun i => BitVec.ofNat 8 (i + 1)))
def rd1 (a : Nat) (n : Nat) : List Byte := wf 0x0B (beBytes 3 a ++ beBytes 1 n)
/-- The hypotheses of each clause of `HostFrameChecks` are met together. -/
theorem witness_HostFrameChecks :
  (∃ (l : List Byte) (s : State), (s.phase = .up) ∧ (s.rung = 0) ∧ (s.boot.descend = none) ∧ (6 + 4 * (l.getD 3 0).toNat ≤ l.length) ∧ (crcOk 0x02 l (6 + 4 * (l.getD 3 0).toNat) = false)) ∧
  (∃ (l : List Byte) (s : State), (s.phase = .up) ∧ (s.rung = 0) ∧ (s.boot.descend = none) ∧ (6 + 4 * (l.getD 3 0).toNat ≤ l.length) ∧ (crcOk 0x02 l (6 + 4 * (l.getD 3 0).toNat) = true) ∧ (s.hrdy = false)) ∧
  (∃ (l : List Byte) (s : State), (s.phase = .up) ∧ (s.rung = 0) ∧ (s.boot.descend = none) ∧ (6 + 4 * (l.getD 3 0).toNat ≤ l.length) ∧ (crcOk 0x02 l (6 + 4 * (l.getD 3 0).toNat) = true) ∧ (s.hrdy = true) ∧ (frameRange (beVal (l.take 3)) (l.getD 3 0).toNat = false)) ∧
  (∃ (l : List Byte) (s : State), (s.phase = .up) ∧ (s.rung = 0) ∧ (s.boot.descend = none) ∧ (6 + 4 * (l.getD 3 0).toNat ≤ l.length) ∧ (crcOk 0x02 l (6 + 4 * (l.getD 3 0).toNat) = true) ∧ (s.hrdy = true) ∧ (frameRange (beVal (l.take 3)) (l.getD 3 0).toNat = true)) ∧
  (∃ (l : List Byte) (s : State), (s.phase = .up) ∧ (s.rung = 0) ∧ (s.boot.descend = none) ∧ (6 ≤ l.length) ∧ (crcOk 0x0B l 6 = false)) ∧
  (∃ (l : List Byte) (s : State), (s.phase = .up) ∧ (s.rung = 0) ∧ (s.boot.descend = none) ∧ (6 ≤ l.length) ∧ (crcOk 0x0B l 6 = true) ∧ (s.hrdy = false)) ∧
  (∃ (l : List Byte) (s : State), (s.phase = .up) ∧ (s.rung = 0) ∧ (s.boot.descend = none) ∧ (6 ≤ l.length) ∧ (crcOk 0x0B l 6 = true) ∧ (s.hrdy = true) ∧ (frameRange (beVal (l.take 3)) (l.getD 3 0).toNat = false)) ∧
  (∃ (l : List Byte) (s : State), (s.phase = .up) ∧ (s.rung = 0) ∧ (s.boot.descend = none) ∧ (6 ≤ l.length) ∧ (crcOk 0x0B l 6 = true) ∧ (s.hrdy = true) ∧ (frameRange (beVal (l.take 3)) (l.getD 3 0).toNat = true)) ∧
  (∃ (l : List Byte) (s : State), (s.phase = .up) ∧ (s.rung = 0) ∧ (s.boot.descend = none) ∧ (2 ≤ l.length) ∧ (crcOk 0x0F l 2 = false)) ∧
  (∃ (l : List Byte) (s : State), (s.phase = .up) ∧ (s.rung = 0) ∧ (s.boot.descend = none) ∧ (2 ≤ l.length) ∧ (crcOk 0x0F l 2 = true) ∧ (s.hrdy = false)) ∧
  (∃ (l : List Byte) (s : State), (s.phase = .up) ∧ (s.rung = 0) ∧ (s.boot.descend = none) ∧ (2 ≤ l.length) ∧ (crcOk 0x0F l 2 = true) ∧ (s.hrdy = true)) :=
  ⟨⟨List.replicate 6 0, (up), by decide +kernel⟩,
  ⟨wr1 0x40 1 1, ({ up with hif := { up.hif with reading := some (0, 1) } }), by decide +kernel⟩,
  ⟨wr1 0x41 1 1, (up), by decide +kernel⟩,
  ⟨wr1 0x40 1 1, (up), by decide +kernel⟩,
  ⟨List.replicate 6 0, (up), by decide +kernel⟩,
  ⟨rd1 0x40 1, ({ up with hif := { up.hif with reading := some (0, 1) } }), by decide +kernel⟩,
  ⟨rd1 0xFFC 2, (up), by decide +kernel⟩,
  ⟨rd1 0x40 1, (up), by decide +kernel⟩,
  ⟨List.replicate 6 0, (up), by decide +kernel⟩,
  ⟨wf 0x0F [], ({ up with hif := { up.hif with reading := some (0, 1) } }), by decide +kernel⟩,
  ⟨wf 0x0F [], (up), by decide +kernel⟩⟩
end HostFrameChecks

namespace SplitReadsAndStatus
def wf (op : Byte) (l : List Byte) : List Byte := l ++ beBytes 2 (crc16 (op :: l))
def wr1 (a : Nat) (n k : Nat) : List Byte := wf 0x02 (beBytes 3 a ++ beBytes 1 n ++ (List.range (4 * k)).map (fun i => BitVec.ofNat 8 (i + 1)))
def rd1 (a : Nat) (n : Nat) : List Byte := wf 0x0B (beBytes 3 a ++ beBytes 1 n)
/-- The hypotheses of each clause of `SplitReadsAndStatus` are met together. -/
theorem witness_SplitReadsAndStatus :
  (∃ (s : State) (a : Nat) (n : Nat), (s.hif.reading = some (a, n)) ∧ ((∀ w ∈ s.hif.buf, w.addr / 0x1000 ≠ a / 0x1000)) ∧ (a % 0x1000 + 4 * n ≤ 0x1000) ∧ (inWin a = false) ∧ (a < 0x100000) ∧ (s.has (pageOf a) = true)) ∧
  (∃ (s : State) (a : Nat) (n : Nat), (s.hif.reading = some (a, n)) ∧ ((∀ w ∈ s.hif.buf, w.addr / 0x1000 ≠ a / 0x1000)) ∧ (a % 0x1000 + 4 * n ≤ 0x1000) ∧ (inWin a = false) ∧ (a < 0x100000) ∧ (s.has (pageOf a) = false)) ∧
  (∃ (s : State) (a : Nat) (n : Nat), (s.hif.reading = some (a, n)) ∧ ((∀ w ∈ s.hif.buf, w.addr / 0x1000 ≠ a / 0x1000)) ∧ (a % 4 = 0) ∧ ((∀ i, i < n → inWin (a + 4 * i) = true ∧ mramHidden (a + 4 * i) = false ∧ s.isInvalid ((a + 4 * i) / 8 * 8) = false ∧
          s.synd ((a + 4 * i) / 8 * 8) = 0xFF))) ∧
  (∃ (s : State) (a : Nat) (n : Nat), (s.hif.reading = some (a, n)) ∧ ((∃ w ∈ s.hif.buf, w.addr / 0x1000 = a / 0x1000))) ∧
  (∃ (l : List Byte) (s : State), (s.phase = .up) ∧ (s.rung = 0) ∧ (s.boot.descend = none) ∧ (2 ≤ l.length) ∧ (crcOk 0x0C l 2 = false)) ∧
  (∃ (l : List Byte) (s : State), (s.phase = .up) ∧ (s.rung = 0) ∧ (s.boot.descend = none) ∧ (2 ≤ l.length) ∧ (crcOk 0x0C l 2 = true) ∧ (s.hif.reading.isSome)) ∧
  (∃ (l : List Byte) (s : State), (s.phase = .up) ∧ (s.rung = 0) ∧ (s.boot.descend = none) ∧ (2 ≤ l.length) ∧ (crcOk 0x0C l 2 = true) ∧ (s.hif.reading = none) ∧ (s.hif.held = none)) ∧
  (∃ (l : List Byte) (s : State) (r : ReadRes), (s.phase = .up) ∧ (s.rung = 0) ∧ (s.boot.descend = none) ∧ (2 ≤ l.length) ∧ (crcOk 0x0C l 2 = true) ∧ (s.hif.reading = none) ∧ (s.hif.held = some r) ∧ ((∀ w ∈ r.words, w.2 = Status.ok))) ∧
  (∃ (l : List Byte) (s : State) (r : ReadRes) (i : Nat) (w : Word) (c : Status), (s.phase = .up) ∧ (s.rung = 0) ∧ (s.boot.descend = none) ∧ (2 ≤ l.length) ∧ (crcOk 0x0C l 2 = true) ∧ (s.hif.reading = none) ∧ (s.hif.held = some r) ∧ ((∀ x ∈ r.words.take i, x.2 = Status.ok)) ∧ (r.words[i]? = some (w, c)) ∧ (c ≠ .ok)) ∧
  (∃ (l : List Byte) (s : State), (s.phase = .up) ∧ (s.rung = 0) ∧ (s.boot.descend = none) ∧ (2 ≤ l.length) ∧ (crcOk 0x05 l 2 = true)) ∧
  (∃ (l : List Byte) (s : State), (s.phase = .up) ∧ (s.rung = 0) ∧ (s.boot.descend = none) ∧ (2 ≤ l.length) ∧ (crcOk 0x05 l 2 = false)) ∧
  (∃ (s : State), (s.phase = .up) ∧ (s.rung = 0) ∧ (s.boot.descend = none)) ∧
  (∃ (l : List Byte), (l.length < 2)) :=
  ⟨⟨({ up with hif := { up.hif with reading := some (0x40, 2) } }), 0x40, 2, by decide +kernel⟩,
  ⟨({ up with variant := .vnk8232, hif := { up.hif with reading := some (0x30008, 2) } }), 0x30008, 2, by decide +kernel⟩,
  ⟨({ (up.write64 0x300000 0 true).write64 0x300008 0 true with hif := { up.hif with reading := some (0x300000, 4) } }), 0x300000, 4, by decide +kernel⟩,
  ⟨({ up with hif := { up.hif with reading := some (0x40, 2), buf := [⟨0x44, 1, false, 0⟩] } }), 0x40, 2, by decide +kernel⟩,
  ⟨[0, 0], (up), by decide +kernel⟩,
  ⟨wf 0x0C [], ({ up with hif := { up.hif with reading := some (0x40, 2) } }), by decide +kernel⟩,
  ⟨wf 0x0C [], (up), by decide +kernel⟩,
  ⟨wf 0x0C [], ({ put up [(F.HIF_WEVALID, 1), (F.HIF_WECODE, 5), (F.HIF_WEADDR, 0xFFFFFF)] with hif := { up.hif with held := some ⟨0x40, [(5, .ok), (6, .ok)]⟩ } }), ⟨0x40, [(5, .ok), (6, .ok)]⟩, by decide +kernel⟩,
  ⟨wf 0x0C [], ({ up with hif := { up.hif with held := some ⟨0x40, [(5, .ok), (6, .poison), (7, .absent)]⟩ } }), ⟨0x40, [(5, .ok), (6, .poison), (7, .absent)]⟩, 1, 6, .poison, by decide +kernel⟩,
  ⟨wf 0x05 [], (up), by decide +kernel⟩,
  ⟨[0, 0], (up), by decide +kernel⟩,
  ⟨(up), by decide +kernel⟩,
  ⟨[], by decide +kernel⟩⟩
end SplitReadsAndStatus

/-- The hypotheses of each clause of `BufferOrderAndFences` are met together. -/
theorem witness_BufferOrderAndFences :
  (∃ (a : Nat) (v : Word) (s : State) (u : State), (s.turn a v = some u)) ∧
  (∃ (v : Word) (s : State) (u : State), (s.turn 0x5048 (F.HIF_FENCEGO.put v 1) = some u) ∧ (u.rd F.HIF_FENCEGO = 0)) ∧
  (∃ (v : Word) (s : State) (u : State), (s.turn 0x5048 (F.HIF_FENCEGO.put v 1) = some u) ∧ (u.rd F.HIF_FENCEGO = 1)) ∧
  (∃ (s : State), (s.hif.buf = [])) ∧
  (∃ (s : State), ((∃ w ∈ s.hif.buf, w.fence < s.hif.fenceOut))) :=
  ⟨⟨0x5048, 0, (up), (up), by decide +kernel⟩,
  ⟨0, (up), (up), by decide +kernel⟩,
  ⟨0, ({ put up [(F.HIF_FENCEGO, 1)] with hif := { up.hif with fenceOut := 1 } }), ({ put up [(F.HIF_FENCEGO, 1)] with hif := { up.hif with fenceOut := 1 } }), by decide +kernel⟩,
  ⟨(up), by decide +kernel⟩,
  ⟨({ up with hif := { up.hif with fenceOut := 1, buf := [⟨0x1040, 3, false, 0⟩] } }), by decide +kernel⟩⟩

/-- The hypotheses of each clause of `WrittenWordTargets` are met together. -/
theorem witness_WrittenWordTargets :
  (∃ (g : Fin 4096) (w : Fin 1024) (s : State), (s.phase = .up) ∧ (s.rung < 3) ∧ (s.hif.buf = []) ∧ (inMram (wordAddr g w) = true)) ∧
  (∃ (g : Fin 4096) (w : Fin 1024) (s : State), (s.phase = .up) ∧ (s.rung < 3) ∧ (s.hif.buf = []) ∧ (inMap (wordAddr g w) = false)) ∧
  (∃ (g : Fin 4096) (w : Fin 1024) (s : State), (s.phase = .up) ∧ (s.rung < 3) ∧ (s.hif.buf = []) ∧ (inMap (wordAddr g w) = true) ∧ (inWin (wordAddr g w) = false) ∧ (s.has (pageOf (wordAddr g w)) = false)) ∧
  (∃ (a : Nat) (s : State) (c : Status), (c ≠ .ok) ∧ (a < 2 ^ 24) ∧ (s.rd F.HIF_WEVALID = 1)) ∧
  (∃ (a : Nat) (s : State) (c : Status), (c ≠ .ok) ∧ (a < 2 ^ 24) ∧ (s.rd F.HIF_WEVALID = 0)) ∧
  (∃ (g : Fin 4096) (w : Fin 1024) (s : State), (s.phase = .up) ∧ (s.rung < 3) ∧ (s.hif.buf = []) ∧ (0x300000 ≤ wordAddr g w) ∧ (wordAddr g w < 0x3FC000) ∧ (s.lengGuard (wordAddr g w) = false) ∧ (s.isInvalid (wordAddr g w) = false) ∧ (s.synd (wordAddr g w) = 0)) ∧
  (∃ (q : Fin 91) (g : Fin 4096) (w : Fin 1024) (s : State), (s.phase = .up) ∧ (s.rung < 3) ∧ (s.hif.buf = []) ∧ (s.subsSeen = s.subWord) ∧ (RegMap.unitOf q ≠ 0) ∧ (s.has (0x1000 * q) = true) ∧ (wordAddr g w = 0x1000 * q + 0x14)) ∧
  (∃ (q : Fin 91) (g : Fin 4096) (w : Fin 1024) (s : State), (s.phase = .up) ∧ (s.rung < 3) ∧ (s.hif.buf = []) ∧ (s.subsSeen = s.subWord) ∧ (RegMap.unitOf q ≠ 0) ∧ (s.has (0x1000 * q) = true) ∧ (wordAddr g w = 0x1000 * q + 0x18)) :=
  ⟨⟨0x800, 0, (up), by decide +kernel⟩,
  ⟨0xFFF, 0, (up), by decide +kernel⟩,
  ⟨0x17, 0, ({ up with variant := .vnk8232 }), by decide +kernel⟩,
  ⟨0, (put up [(F.HIF_WEVALID, 1)]), .busy, by decide +kernel⟩,
  ⟨0, (up), .busy, by decide +kernel⟩,
  ⟨0x300, 2, (up.write64 0x300008 5 false), by decide +kernel⟩,
  ⟨5, 5, 5, (up), by decide +kernel⟩,
  ⟨5, 5, 6, (up), by decide +kernel⟩⟩

/-- The hypotheses of each clause of `PageHeadersAndCounters` are met together. -/
theorem witness_PageHeadersAndCounters :
  (∃ (q : Fin 91) (v : Word) (s : State), (s.phase = .up) ∧ (s.rung < 3) ∧ (s.hif.buf = []) ∧ (s.subsSeen = s.subWord) ∧ (RegMap.unitOf q ≠ 0) ∧ (s.has (0x1000 * q) = true) ∧ ((F.SRST 0).of v = 0) ∧ ((F.EN 0).of v = s.rd (F.EN (0x1000 * q)))) ∧
  (∃ (v : Word) (s : State), (s.phase = .up) ∧ (s.rung < 3) ∧ (s.hif.buf = []) ∧ (s.subsSeen = s.subWord) ∧ ((F.LOCK 0).of v = 0) ∧ ((F.EN 0).of v = s.rd (F.EN 0x5000))) ∧
  (∃ (c : Fin 8) (s : State), (s.phase = .up) ∧ (s.rung < 3) ∧ (s.hif.buf = []) ∧ (s.subsSeen = s.subWord) ∧ (s.has (Pg.CH c) = true)) ∧
  (∃ (q : Fin 91) (s : State), (s.phase = .up) ∧ (s.rung < 3) ∧ (s.hif.buf = []) ∧ (s.subsSeen = s.subWord) ∧ (RegMap.unitOf q ≠ 0) ∧ (s.has (0x1000 * q) = true) ∧ (s.rd F.FLT_FEN = 0) ∧ (s.rd F.HIF_WEVALID = 0)) ∧
  (∃ (q : Fin 91), (RegMap.unitOf q = 0)) ∧
  (∃ (q : Fin 91) (v : Word) (s : State), (s.phase = .up) ∧ (s.rung < 3) ∧ (s.hif.buf = []) ∧ (s.subsSeen = s.subWord) ∧ (RegMap.unitOf q ≠ 0) ∧ (s.has (0x1000 * q) = true) ∧ (s.rd F.FLT_FEN = 1) ∧ ((∀ b, b < 32 → v.getLsbD b = true → RegMap.fltOfForce q b = none))) ∧
  (∃ (q : Fin 91) (s : State), (s.phase = .up) ∧ (s.rung < 3) ∧ (s.hif.buf = []) ∧ (RegMap.unitOf q ≠ 0) ∧ (s.has (0x1000 * q) = false)) ∧
  (∃ (c : Fin 8) (s : State), (s.phase = .up) ∧ (s.rung < 3) ∧ (s.hif.buf = []) ∧ (s.has (Pg.CH c) = false)) ∧
  (∃ (i : Nat) (q : Nat), (isumPages0[i]? = some q)) ∧
  (∃ (i : Nat) (q : Nat), (isumPages1[i]? = some q)) ∧
  (∃ (s : State), (s.boot.dark = false) ∧ (s.boot.jtag ≠ 3) ∧ (s.tmode = false) ∧ (s.phase ≠ .down)) ∧
  (∃ (s : State), (s.phase = .up) ∧ (s.rung < 3) ∧ (s.hif.buf = []) ∧ (s.subsSeen = s.subWord)) :=
  ⟨⟨0, 0, (up), by decide +kernel⟩,
  ⟨0, (up), by decide +kernel⟩,
  ⟨0, (up), by decide +kernel⟩,
  ⟨0, (put up [(F.FLT_FEN, 0)]), by decide +kernel⟩,
  ⟨12, by decide +kernel⟩,
  ⟨0, 0, (up), by decide +kernel⟩,
  ⟨0x50, ({ up with variant := .vnk8232 }), by decide +kernel⟩,
  ⟨7, ({ up with variant := .vnk8232 }), by decide +kernel⟩,
  ⟨0, 0, by decide +kernel⟩,
  ⟨0, 0x43, by decide +kernel⟩,
  ⟨(up), by decide +kernel⟩,
  ⟨(up), by decide +kernel⟩⟩

/-- The hypotheses of each clause of `FaultsOpenEscalateAndClose` are met together. -/
theorem witness_FaultsOpenEscalateAndClose :
  (∃ (s : State) (c : Nat), (s.rd F.CLK_REFOK = 1) ∧ (s.rung < 4) ∧ (s.rd (F.FLT_CLASS 2) = c) ∧ (1 ≤ c) ∧ (c ≤ 2) ∧ (s.flt = []) ∧ (s.rd (F.FLT_OPEN 2) = 0)) ∧
  (∃ (s : State), (s.rd F.CLK_REFOK = 1) ∧ (s.rung < 4) ∧ (s.rd (F.FLT_CLASS 2) = 7)) ∧
  (∃ (n : Fin 256) (d : Nat) (s : State), (s.rd (F.FLT_OPEN n) = 1) ∧ ((s.fltRec n).timer = some d) ∧ (d ≤ s.tick) ∧ (s.rung < 3) ∧ ((∀ e ∈ s.flt, e.1 < n → s.graceOver e.1 = false)) ∧ (1 ≤ s.rd (F.FLT_CUR n)) ∧ (s.rd (F.FLT_CUR n) ≤ 3)) ∧
  (∃ (n : Fin 256) (s : State), ((∀ e ∈ s.flt, e.1 < n → s.graceOver e.1 = false)) ∧ (s.rd (F.FLT_OPEN n) = 0 ∨ s.graceOver n = false ∨ s.rd (F.FLT_CUR n) = 0 ∨ 3 < s.rd (F.FLT_CUR n))) ∧
  (∃ (v : Word) (s : State) (u : State), (s.turn 0x6048 (F.FLT_ACKGO.put v 1) = some u) ∧ (v.getLsbD 30 = false) ∧ (u.rd (F.FLT_OPEN (v.toNat % 256)) = 1)) ∧
  (∃ (v : Word) (s : State) (u : State), (s.turn 0x6048 (F.FLT_ACKALL.put v 1) = some u)) ∧
  (∃ (s : State), (s.phase = .up) ∧ (s.rung = 0) ∧ (s.hif.buf = []) ∧ (s.subsSeen = s.subWord) ∧ (s.rd F.FLT_FEN = 1) ∧ (s.flt = []) ∧ (s.rd (F.FLT_OPEN 4) = 0) ∧ (s.rd (F.FLT_CLASS 4) = 1)) :=
  ⟨⟨(put up [(F.CLK_REFOK, 1)]), 2, by decide +kernel⟩,
  ⟨(put up [(F.CLK_REFOK, 1), (F.FLT_CLASS 2, 7)]), by decide +kernel⟩,
  ⟨2, 100, ({ put up [(F.FLT_OPEN 2, 1), (F.FLT_CUR 2, 3)] with tick := 100, flt := [(2, { isOpen := true, timer := some 100 })] }), by decide +kernel⟩,
  ⟨0, (put up [(F.CLK_REFOK, 1)]), by decide +kernel⟩,
  ⟨2, ({ put up [(F.FLT_OPEN 2, 1), (F.FLT_CUR 2, 3)] with flt := [(2, { isOpen := true, timer := some 100 })] }), ({ put up [(F.FLT_OPEN 2, 1), (F.FLT_CUR 2, 3)] with flt := [(2, { isOpen := true, timer := some 100 })] }), by decide +kernel⟩,
  ⟨0, (put up [(F.CLK_REFOK, 1)]), (put up [(F.CLK_REFOK, 1)]), by decide +kernel⟩,
  ⟨(put up [(F.CLK_REFOK, 1)]), by decide +kernel⟩⟩

/-- The hypotheses of each clause of `JournalQueueAndRing` are met together. -/
theorem witness_JournalQueueAndRing :
  (∃ (v : Word) (s : State) (u : State), (s.turn 0x704C (F.JRNL_USERGO.put v 1) = some u) ∧ (u.jrnl.queue.length < 28)) ∧
  (∃ (v : Word) (s : State) (u : State), (s.turn 0x704C (F.JRNL_USERGO.put v 1) = some u) ∧ (28 ≤ u.jrnl.queue.length)) ∧
  (∃ (g : Bool) (s : State) (r : JRec) (q : List JRec), (s.ecc.weak = []) ∧ (s.jrnl.queue = r :: q) ∧ (q.length < 64) ∧ (g = true)) ∧
  (∃ (s : State), (s.jrnl.queue = [])) :=
  ⟨⟨0, (up), (up), by decide +kernel⟩,
  ⟨0, ({ up with jrnl := { up.jrnl with queue := List.replicate 28 ⟨5, 5, 1, 2, 3, 4, 5, 6, 7, 8⟩ } }), ({ up with jrnl := { up.jrnl with queue := List.replicate 28 ⟨5, 5, 1, 2, 3, 4, 5, 6, 7, 8⟩ } }), by decide +kernel⟩,
  ⟨true, ({ up with jrnl := { up.jrnl with queue := [⟨4095, 5, 1, 2, 3, 4, 5, 6, 7, 8⟩, ⟨4096, 5, 1, 2, 3, 4, 5, 6, 7, 8⟩] } }), ⟨4095, 5, 1, 2, 3, 4, 5, 6, 7, 8⟩, [⟨4096, 5, 1, 2, 3, 4, 5, 6, 7, 8⟩], by decide +kernel⟩,
  ⟨(up), by decide +kernel⟩⟩

namespace SingleErrorsCorrectDoubleErrorsDetected
def ew (_ x : Nat) (y : Nat) : State := up.store64 0x300008 x (BitVec.ofNat 8 y)
/-- The hypotheses of each clause of `SingleErrorsCorrectDoubleErrorsDetected` are met together. -/
theorem witness_SingleErrorsCorrectDoubleErrorsDetected :
  (∃ (s : State) (a : Nat) (d : Nat) (i : Nat), (d < 2 ^ 64) ∧ (i < 64) ∧ (s.isInvalid (a / 8 * 8) = false) ∧ (s.raw64 (a / 8 * 8) = d ^^^ 2 ^ i) ∧ (s.synd (a / 8 * 8) = BitVec.ofNat 8 (eccCheck d ^^^ eccCheck (d ^^^ 2 ^ i)))) ∧
  (∃ (s : State) (a : Nat) (d : Nat) (i : Nat) (j : Nat), (d < 2 ^ 64) ∧ (i < 64) ∧ (j < 64) ∧ (i ≠ j) ∧ (s.isInvalid (a / 8 * 8) = false) ∧ (s.raw64 (a / 8 * 8) = d ^^^ 2 ^ i ^^^ 2 ^ j) ∧ (s.synd (a / 8 * 8) = BitVec.ofNat 8 (eccCheck d ^^^ eccCheck (d ^^^ 2 ^ i ^^^ 2 ^ j)))) ∧
  (∃ (s : State) (a : Nat) (d : Nat) (k : Nat), (d < 2 ^ 64) ∧ (k < 8) ∧ (s.isInvalid (a / 8 * 8) = false) ∧ (s.raw64 (a / 8 * 8) = d) ∧ (s.synd (a / 8 * 8) = BitVec.ofNat 8 (2 ^ k))) ∧
  (∃ (s : State) (a : Nat), (s.isInvalid (a / 8 * 8) = false) ∧ (s.synd (a / 8 * 8) = 0)) :=
  ⟨⟨(ew 5 (5 ^^^ 2 ^ 63) (eccCheck 5 ^^^ eccCheck (5 ^^^ 2 ^ 63))), 0x300008, 5, 63, by decide +kernel⟩,
  ⟨(ew 5 (5 ^^^ 2 ^ 63 ^^^ 1) (eccCheck 5 ^^^ eccCheck (5 ^^^ 2 ^ 63 ^^^ 1))), 0x300008, 5, 0, 63, by decide +kernel⟩,
  ⟨(ew 5 5 128), 0x300008, 5, 7, by decide +kernel⟩,
  ⟨(ew 5 5 0), 0x300008, by decide +kernel⟩⟩
end SingleErrorsCorrectDoubleErrorsDetected

/-- The hypotheses of each clause of `TestWritesAndScrubbing` are met together. -/
theorem witness_TestWritesAndScrubbing :
  (∃ (v : Word) (s : State) (u : State), (s.turn 0x8040 (F.ECC_TGO.put v 1) = some u) ∧ (u.rd F.ECC_TESTEN = 0) ∧ (u.rd F.HIF_WEVALID = 0)) ∧
  (∃ (v : Word) (s : State) (u : State), (s.turn 0x8040 (F.ECC_TGO.put v 1) = some u) ∧ (u.rd F.ECC_TESTEN = 1) ∧ (1 < u.modeNow) ∧ (u.rd F.HIF_WEVALID = 0)) ∧
  (∃ (v : Word) (s : State) (u : State), (s.turn 0x8040 (F.ECC_TGO.put v 1) = some u) ∧ (u.rd F.ECC_TESTEN = 1) ∧ (u.modeNow ≤ 1) ∧ (4 < u.rd F.ECC_TARR ∨ arraySize (u.rd F.ECC_TARR) ≤ u.rd F.ECC_TOFS) ∧ (u.rd F.HIF_WEVALID = 0)) ∧
  (∃ (v : Word) (s : State) (u : State), (s.turn 0x8040 (F.ECC_TGO.put v 1) = some u) ∧ (u.rd F.ECC_TESTEN = 1) ∧ (u.modeNow ≤ 1) ∧ (u.rd F.ECC_TARR ≤ 4) ∧ (u.rd F.ECC_TOFS < arraySize (u.rd F.ECC_TARR)) ∧ (u.rd F.ECC_TOFS % 8 = 0)) ∧
  (∃ (s : State), (s.rd F.ECC_SCRUBRATE = 0 ∨ 1 < s.rung ∨ s.phase ≠ .up)) ∧
  (∃ (s : State), (s.rd F.ECC_SCRUBRATE ≠ 0) ∧ (s.rung ≤ 1) ∧ (s.phase = .up) ∧ (s.isInvalid (arrayBase s.ecc.arr + s.ecc.ofs) = true ∨ s.synd ((arrayBase s.ecc.arr + s.ecc.ofs) / 8 * 8) = 0) ∧ (s.ecc.ofs + 8 < arraySize s.ecc.arr)) ∧
  (∃ (s : State) (d : Nat) (i : Nat), (s.rd F.ECC_SCRUBRATE ≠ 0) ∧ (s.rung ≤ 1) ∧ (s.phase = .up) ∧ (d < 2 ^ 64) ∧ (i < 64) ∧ ((arrayBase s.ecc.arr + s.ecc.ofs) % 8 = 0) ∧ (s.isInvalid (arrayBase s.ecc.arr + s.ecc.ofs) = false) ∧ (s.raw64 (arrayBase s.ecc.arr + s.ecc.ofs) = d ^^^ 2 ^ i) ∧ (s.synd (arrayBase s.ecc.arr + s.ecc.ofs) = BitVec.ofNat 8 (eccCheck d ^^^ eccCheck (d ^^^ 2 ^ i)))) :=
  ⟨⟨0, (up), (up), by decide +kernel⟩,
  ⟨0, (put up [(F.ECC_TESTEN, 1), (F.SYS_MODE, 2)]), (put up [(F.ECC_TESTEN, 1), (F.SYS_MODE, 2)]), by decide +kernel⟩,
  ⟨0, (put up [(F.ECC_TESTEN, 1), (F.ECC_TARR, 5)]), (put up [(F.ECC_TESTEN, 1), (F.ECC_TARR, 5)]), by decide +kernel⟩,
  ⟨0, (put up [(F.ECC_TESTEN, 1), (F.ECC_TARR, 4), (F.ECC_TOFS, 0xFF8), (F.ECC_TDATALO, 77), (F.ECC_TCHK, 9)]), (put up [(F.ECC_TESTEN, 1), (F.ECC_TARR, 4), (F.ECC_TOFS, 0xFF8), (F.ECC_TDATALO, 77), (F.ECC_TCHK, 9)]), by decide +kernel⟩,
  ⟨(put up [(F.ECC_SCRUBRATE, 0)]), by decide +kernel⟩,
  ⟨(up), by decide +kernel⟩,
  ⟨((put up [(F.ECC_SCRUBRATE, 1)]).store64 (arrayBase up.ecc.arr + up.ecc.ofs) (5 ^^^ 2 ^ 63) (eccCheck 5 ^^^ eccCheck (5 ^^^ 2 ^ 63))), 5, 63, by decide +kernel⟩⟩

/-- The hypotheses of each clause of `FuseOperations` are met together. -/
theorem witness_FuseOperations :
  (∃ (v : Word) (s : State) (u : State), (s.turn 0x90C0 (F.SEC_FUSEOP.put (F.SEC_FUSEGO.put v 1) 1) = some u) ∧ (u.locked Pg.SEC = true)) ∧
  (∃ (v : Word) (s : State) (u : State), (s.turn 0x90C0 (F.SEC_FUSEOP.put (F.SEC_FUSEGO.put v 1) 1) = some u) ∧ (u.locked Pg.SEC = false) ∧ (F.SEC_FUSEKEY.of v ≠ 0x5A3C)) ∧
  (∃ (v : Word) (s : State) (u : State), (s.turn 0x90C0 (F.SEC_FUSEOP.put (F.SEC_FUSEGO.put v 1) 1) = some u) ∧ (u.locked Pg.SEC = false) ∧ (F.SEC_FUSEKEY.of v = 0x5A3C)) ∧
  (∃ (v : Word) (s : State) (u : State), (s.turn 0x90C0 (F.SEC_FUSEOP.put (F.SEC_FUSEGO.put v 1) 2) = some u) ∧ (u.locked Pg.SEC = false) ∧ (F.SEC_FUSEKEY.of v = 0x5A3C)) ∧
  (∃ (s : State) (k : Nat) (h : Nat), (s.sec.fop = some (1, k, h)) ∧ (k = 0)) ∧
  (∃ (s : State) (k : Nat) (h : Nat), (s.sec.fop = some (1, k, h)) ∧ (k ≠ 0)) ∧
  (∃ (s : State) (k : Nat) (h : Nat), (s.sec.fop = some (1, k, h)) ∧ (s.boot.descWait = none)) ∧
  (∃ (s : State) (k : Nat) (x : Nat), (s.sec.fop = some (2, k, x)) ∧ (k < 4)) ∧
  (∃ (s : State), (s.sec.fop = none)) :=
  ⟨⟨0, (put up [(F.LOCK Pg.SEC, 1)]), (put up [(F.LOCK Pg.SEC, 1)]), by decide +kernel⟩,
  ⟨0, (up), (up), by decide +kernel⟩,
  ⟨0x5A3C0000, (up), (up), by decide +kernel⟩,
  ⟨0x5A3C0000, (up), (up), by decide +kernel⟩,
  ⟨({ up with sec := { up.sec with fop := some (1, 0, 9) } }), 0, 9, by decide +kernel⟩,
  ⟨({ up with sec := { up.sec with fop := some (1, 1, 9) } }), 1, 9, by decide +kernel⟩,
  ⟨({ up with sec := { up.sec with fop := some (1, 0, 9) } }), 0, 9, by decide +kernel⟩,
  ⟨({ up with sec := { up.sec with fop := some (2, 3, 9) } }), 3, 9, by decide +kernel⟩,
  ⟨(up), by decide +kernel⟩⟩

namespace LoadsAndAttestation
def im (ty rt sv : Nat) (vm : Nat) (pl : List Byte) : State := let s := ((((put up [(F.SEC_LBUSY, 1), (F.SEC_LOADGO, 1), (F.SEC_LLEN, 0xC48 + pl.length)]).write64 0x300000 (0x31495147 + 2 ^ 32 * (1 + 65536 * ty + 2 ^ 24 * rt)) false).write64 0x300008 (pl.length + 2 ^ 32 * (sv + 256 * vm)) false)).writeBytes (0x300000 + 0xC48) pl false; { s with sec := { s.sec with load := s.imageRead.2 } }
def idl (s : State) : State := { put s [(F.SEC_LBUSY, 0), (F.SEC_LOADGO, 0)] with sec := { s.sec with load := none } }
/-- The hypotheses of each clause of `LoadsAndAttestation` are met together. -/
theorem witness_LoadsAndAttestation :
  (∃ (v : Word) (s : State) (u : State), (s.turn 0x9100 (F.SEC_LOADGO.put v 1) = some u) ∧ (u.locked 0x9100 = false)) ∧
  (∃ (s : State), (s.rd F.SEC_LBUSY = 1) ∧ (s.sec.load.bind gqParse = none) ∧ (s.rd (F.FLT_CLASS 0x0A) = 1)) ∧
  (∃ (s : State), (s.rd F.SEC_LBUSY = 0)) ∧
  (∃ (v : Word) (s : State) (u : State), (s.turn 0x9140 (F.SEC_ATTGO.put v 1) = some u) ∧ (u.rd F.SEC_ABUSY = 1)) ∧
  (∃ (v : Word) (s : State) (u : State), (s.turn 0x9140 (F.SEC_ATTGO.put v 1) = some u) ∧ (u.rd F.SEC_ABUSY = 0)) ∧
  (∃ (s : State), (s.rd F.SEC_ABUSY = 1) ∧ (s.sec.report.length = 256)) :=
  ⟨⟨0, (up), (up), by decide +kernel⟩,
  ⟨(put up [(F.SEC_LBUSY, 1)]), by decide +kernel⟩,
  ⟨(up), by decide +kernel⟩,
  ⟨0, ({ put up [(F.SEC_ABUSY, 1), (F.SEC_ATTSEQ, 0xFFFFFFFF)] with sec := { up.sec with report := List.replicate 256 7 } }), ({ put up [(F.SEC_ABUSY, 1), (F.SEC_ATTSEQ, 0xFFFFFFFF)] with sec := { up.sec with report := List.replicate 256 7 } }), by decide +kernel⟩,
  ⟨0, (up), (up), by decide +kernel⟩,
  ⟨({ put up [(F.SEC_ABUSY, 1), (F.SEC_ATTSEQ, 0xFFFFFFFF)] with sec := { up.sec with report := List.replicate 256 7 } }), by decide +kernel⟩⟩
end LoadsAndAttestation

/-- The hypotheses of each clause of `AgeingPlanAndBounds` are met together. -/
theorem witness_AgeingPlanAndBounds :
  (∃ (v : Word) (s : State) (u : State), (s.turn 0xA040 (F.AGE_RUN.put (F.AGE_MEAS.put v 0) 1) = some u)) ∧
  (∃ (s : State), (s.modeNow ≠ 5) ∧ (s.rung = 0) ∧ (s.rd F.AGE_BUSY = 0) ∧ (s.age.req = true ∨ s.rd F.AGE_PEND = 1) ∧ (s.ecc.weak = []) ∧ (s.rd F.KEEP_CKBUSY = 0)) ∧
  (∃ (s : State), (s.modeNow ≠ 5) ∧ (s.rung = 0) ∧ (s.rd F.AGE_BUSY = 0) ∧ (s.age.req = true ∨ s.rd F.AGE_PEND = 1) ∧ (s.rd F.KEEP_CKBUSY = 1)) ∧
  (∃ (s : State), ((s.age.req = false ∧ s.rd F.AGE_PEND = 0) ∨ s.modeNow = 5 ∨ s.rung ≠ 0 ∨ s.rd F.AGE_BUSY = 1)) ∧
  (∃ (l : List (Nat × Nat)) (s : State), (s.age.run = some l) ∧ (s.keep.ckpt.isSome) ∧ (s.ecc.weak = [])) ∧
  (∃ (s : State), (s.rd F.AGE_BUSY = 1) ∧ (s.age.run = none) ∧ (s.bndN F.AGE_GTMAX ≤ 4) ∧ (s.bndN F.AGE_OFSMAX ≤ 64)) ∧
  (∃ (s : State), (s.rd F.AGE_BUSY = 0 ∨ s.age.run.isSome)) ∧
  (∃ (v : Word) (l : List (Nat × Nat)) (s : State) (u : State), (s.turn 0xA040 (F.AGE_MEAS.put v 1) = some u) ∧ (F.AGE_RUN.of v = 0) ∧ ((∀ p ∈ l, p.1 ≤ p.2)) ∧ (u.rung < 2)) ∧
  (∃ (v : Word) (l : List (Nat × Nat)) (s : State) (u : State), (s.turn 0xA040 (F.AGE_MEAS.put v 1) = some u) ∧ (F.AGE_RUN.of v = 0) ∧ ((∀ p ∈ l, p.1 ≤ p.2)) ∧ (2 ≤ u.rung)) ∧
  (∃ (l : List Int) (s : State), (s.rung = 0) ∧ ((∀ x ∈ l.take 4, x < 115000))) ∧
  (∃ (s : State), (2 ≤ s.rung)) ∧
  (∃ (w : Fin 16) (v : Word) (s : State) (u : State), (s.turn (0xA200 + 4 * w) v = some u) ∧ (1 < u.modeNow)) ∧
  (∃ (w : Fin 16) (v : Word) (s : State) (u : State), (s.turn (0xA200 + 4 * w) v = some u) ∧ (u.modeNow ≤ 1) ∧ (u.locked (0xA200 + 4 * w) = false) ∧ (boundRange (0x200 + 4 * w) v = false)) ∧
  (∃ (w : Fin 16) (v : Word) (s : State) (u : State), (s.turn (0xA200 + 4 * w) v = some u) ∧ (u.modeNow ≤ 1) ∧ (u.ecc.weak = []) ∧ (u.locked (0xA200 + 4 * w) = false) ∧ (boundRange (0x200 + 4 * w) v = true)) :=
  ⟨⟨0, (up), (up), by decide +kernel⟩,
  ⟨(put up [(F.AGE_PEND, 1)]), by decide +kernel⟩,
  ⟨(put up [(F.AGE_PEND, 1), (F.KEEP_CKBUSY, 1)]), by decide +kernel⟩,
  ⟨(up), by decide +kernel⟩,
  ⟨[(5, 5), (3, 9)], ({ put up [(F.AGE_BUSY, 1), (F.KEEP_CKBUSY, 1)] with keep := { up.keep with ckpt := some (0, []) }, age := { up.age with run := some [(5, 5), (3, 9)], dRun := 6 } }), by decide +kernel⟩,
  ⟨(put up [(F.AGE_BUSY, 1), (F.AGE_RODEG 3, 900), (F.AGE_GTMAX, 4), (F.AGE_OFSMAX, 64), (F.AGE_RUNCNT, 65535)]), by decide +kernel⟩,
  ⟨(up), by decide +kernel⟩,
  ⟨0, [], (up), (up), by decide +kernel⟩,
  ⟨0, [], (put up [(F.SYS_RUNG, 2)]), (put up [(F.SYS_RUNG, 2)]), by decide +kernel⟩,
  ⟨[], (up), by decide +kernel⟩,
  ⟨(put up [(F.SYS_RUNG, 2)]), by decide +kernel⟩,
  ⟨0, 0, (put up [(F.SYS_MODE, 5)]), (put up [(F.SYS_MODE, 5)]), by decide +kernel⟩,
  ⟨0, 0, (up), (up), by decide +kernel⟩,
  ⟨5, 5, (up), (up), by decide +kernel⟩⟩

/-- The hypotheses of each clause of `ModulatorInputs` are met together. -/
theorem witness_ModulatorInputs :
  (∃ (m : Fin 4) (s : State), (s.mclkMay m = true) ∧ (s.rd (F.MOD_RUN m) = 0)) ∧
  (∃ (m : Fin 4) (s : State), (s.mclkMay m = false ∨ s.rd (F.MOD_RUN m) = 1)) ∧
  (∃ (n : Fin 24) (s : State), (s.modRuns n = true) ∧ (3 * s.rd (F.MOD_OSRC (n / 6)) ≤ (s.min' n).taken)) ∧
  (∃ (n : Fin 24) (s : State), (s.modRuns n = true) ∧ (2 * s.rd (F.MOD_OCOSR (n / 6)) ≤ (s.min' n).taken)) ∧
  (∃ (n : Fin 24) (s : State), (s.modRuns n = true) ∧ ((s.min' n).taken < 3 * s.rd (F.MOD_OSRC (n / 6)))) ∧
  (∃ (n : Fin 24) (s : State), (s.modRuns n = true) ∧ ((s.min' n).taken < 2 * s.rd (F.MOD_OCOSR (n / 6)))) ∧
  (∃ (n : Fin 24) (s : State), (s.modRuns n = true) ∧ (s.rd (F.MOD_METEN n) = 1) ∧ (53 * (if s.rd (F.MOD_DIV (n / 6)) = 25 then 250 else 125) ≤ s.samplePts n (s.min' n).startM)) ∧
  (∃ (n : Fin 24) (k : Fin 3) (s : State), (s.modRuns n = false ∨ (k = 2 ∧ s.rd (F.MOD_METEN n) = 0))) ∧
  (∃ (m : Fin 4) (s : State), (s.rd (F.MOD_RUN m) = 0)) ∧
  (∃ (m : Fin 4) (l : List (List Bool)) (s : State) (u : State), (u = (blkIns m).foldl (fun s n => s.modSamples n (l.getD (n % 6) [])) s) ∧ (u.decimDue m = false)) ∧
  (∃ (m : Fin 4) (l : List (List Bool)) (s : State) (u : State), (u = (blkIns m).foldl (fun s n => s.modSamples n (l.getD (n % 6) [])) s) ∧ (u.rd (F.MOD_RUN m) = 1) ∧ (u.decimDue m = true) ∧ ((∃ n : Nat, n < 24 ∧ n / 6 = (m : Nat) ∧ u.modRuns n = true ∧ (u.min' n).setC = true)) ∧ ((u.blk m).decims ≠ 0) ∧ (u.decimSkip m ((u.tick - (u.blk m).tk) / max 1 (u.rd (F.MOD_DIV m))) = true)) ∧
  (∃ (m : Fin 4) (l : List (List Bool)) (s : State) (u : State), (u = (blkIns m).foldl (fun s n => s.modSamples n (l.getD (n % 6) [])) s) ∧ (u.rd (F.MOD_RUN m) = 1) ∧ (u.decimDue m = true) ∧ ((∃ n : Nat, n < 24 ∧ n / 6 = (m : Nat) ∧ u.modRuns n = true ∧ (u.min' n).setC = true)) ∧ ((u.blk m).decims = 0 ∨ u.decimSkip m ((u.tick - (u.blk m).tk) / max 1 (u.rd (F.MOD_DIV m))) = false)) ∧
  (∃ (n : Fin 24) (b : Bool) (s : State), (s.modRuns n = true) ∧ ((s.min' n).taken < s.samplePts n (s.min' n).start) ∧ (s.ocTests n = false) ∧ ((s.min' n).run = 255) ∧ ((s.min' n).lvl = b)) ∧
  (∃ (n : Fin 24) (b : Bool) (s : State), (s.modRuns n = true) ∧ ((s.min' n).taken < s.samplePts n (s.min' n).start) ∧ (s.ocTests n = false) ∧ ((s.min' n).run < 255 ∨ (s.min' n).lvl ≠ b ∨
      ((s.min' n).run = 256 ∧ (s.min' n).told = true))) ∧
  (∃ (n : Fin 24) (s : State), (s.modRuns n = false ∨ s.samplePts n (s.min' n).start ≤ (s.min' n).taken)) ∧
  (∃ (n : Fin 24) (b : Bool) (s : State), (s.modRuns n = true) ∧ ((s.min' n).taken < s.samplePts n (s.min' n).start) ∧ (s.ocTests n = true) ∧ ((s.min' n).ocTold = false) ∧ ((s.min' n).ocRun < 16) ∧ (s.rd (F.MOD_OCCNT n) ≤ (s.min' n).ocRun + 1) ∧ (s.rd (F.MOD_OCHI n) < sincRaw 2 (s.rd (F.MOD_OCOSR (n / 6))) ((b :: (s.min' n).bits).take 766) ∨
      sincRaw 2 (s.rd (F.MOD_OCOSR (n / 6))) ((b :: (s.min' n).bits).take 766) < s.rd (F.MOD_OCLO n))) ∧
  (∃ (n : Fin 24) (b : Bool) (s : State), (s.modRuns n = true) ∧ ((s.min' n).taken < s.samplePts n (s.min' n).start) ∧ ((s.min' n).run < 255 ∨ (s.min' n).lvl ≠ b) ∧ (s.ocTests n = false ∨ (s.rd (F.MOD_OCLO n) ≤ sincRaw 2 (s.rd (F.MOD_OCOSR (n / 6))) ((b :: (s.min' n).bits).take 766) ∧
      sincRaw 2 (s.rd (F.MOD_OCOSR (n / 6))) ((b :: (s.min' n).bits).take 766) ≤ s.rd (F.MOD_OCHI n)))) ∧
  (∃ (i : BitVec 24) (r : BitVec 8) (s : State) (u : State), (s.turn 0x40080 (r ++ i) = some u)) :=
  ⟨⟨0, (put up [(F.MOD_BEN 0, 1), (F.MOD_BEN 3, 1), (F.EN Pg.MOD, 1)]), by decide +kernel⟩,
  ⟨0, (up), by decide +kernel⟩,
  ⟨0, ({ put up [(F.EN Pg.MOD, 1), (F.MOD_RUN 0, 1), (F.MOD_EN 0, 1), (F.MOD_METEN 0, 1), (F.MOD_RUN 3, 1), (F.MOD_EN 23, 1), (F.MOD_METEN 23, 1)] with tick := 2000000, mods := [(0, { taken := 768 }), (23, { taken := 5000 })] }), by decide +kernel⟩,
  ⟨0, ({ put up [(F.EN Pg.MOD, 1), (F.MOD_RUN 0, 1), (F.MOD_EN 0, 1), (F.MOD_METEN 0, 1), (F.MOD_RUN 3, 1), (F.MOD_EN 23, 1), (F.MOD_METEN 23, 1)] with tick := 2000000, mods := [(0, { taken := 768 }), (23, { taken := 5000 })] }), by decide +kernel⟩,
  ⟨0, (put up [(F.EN Pg.MOD, 1), (F.MOD_RUN 0, 1), (F.MOD_EN 0, 1), (F.MOD_METEN 0, 1), (F.MOD_RUN 3, 1), (F.MOD_EN 23, 1), (F.MOD_OCEN 0, 1), (F.MOD_OCEN 23, 1), (F.MOD_OCGRP 0, 5)]), by decide +kernel⟩,
  ⟨0, (put up [(F.EN Pg.MOD, 1), (F.MOD_RUN 0, 1), (F.MOD_EN 0, 1), (F.MOD_METEN 0, 1), (F.MOD_RUN 3, 1), (F.MOD_EN 23, 1), (F.MOD_OCEN 0, 1), (F.MOD_OCEN 23, 1), (F.MOD_OCGRP 0, 5)]), by decide +kernel⟩,
  ⟨0, ({ put (put up [(F.EN Pg.MOD, 1), (F.MOD_RUN 0, 1), (F.MOD_EN 0, 1), (F.MOD_METEN 0, 1), (F.MOD_RUN 3, 1), (F.MOD_EN 23, 1), (F.MOD_OCEN 0, 1), (F.MOD_OCEN 23, 1), (F.MOD_OCGRP 0, 5)]) [(F.MOD_OCCNT 0, 3), (F.MOD_OCLO 0, 5), (F.MOD_OCOSR 0, 4)] with tick := 2000000, mods := [(0, { setC := true, setO := true, ocRun := 3 })] }), by decide +kernel⟩,
  ⟨0, 0, (up), by decide +kernel⟩,
  ⟨0, (up), by decide +kernel⟩,
  ⟨0, [], (up), _, rfl, by decide +kernel⟩,
  ⟨3, [], ({ put up [(F.EN Pg.MOD, 1), (F.MOD_RUN 0, 1), (F.MOD_EN 0, 1), (F.MOD_EN 23, 1), (F.MOD_RUN 3, 1), (F.MOD_OSRC 0, 32), (F.MOD_OSRC 3, 32), (F.MOD_SMODE 0, 1), (F.MOD_SMODE 3, 1), (F.LEGX_MAPA_VALID 0, 1), (F.EN (Pg.LEG 0), 1), (F.LEG_MODE 0, 1)] with tick := 2000000, mods := [(0, { setC := true, bits := List.replicate 95 true }), (23, { setC := true })], blks := [(0, { decims := 4, tk := 1000000, due := [5, 1999990] }), (3, { decims := 4, tk := 1999900, due := [1999990] })] }), _, rfl, by decide +kernel⟩,
  ⟨0, [], ({ put up [(F.EN Pg.MOD, 1), (F.MOD_RUN 0, 1), (F.MOD_EN 0, 1), (F.MOD_EN 23, 1), (F.MOD_RUN 3, 1), (F.MOD_OSRC 0, 32), (F.MOD_OSRC 3, 32)] with tick := 2000000, mods := [(0, { setC := true, bits := List.replicate 95 true }), (23, { setC := true })] }), _, rfl, by decide +kernel⟩,
  ⟨0, true, ({ put up [(F.EN Pg.MOD, 1), (F.MOD_RUN 0, 1), (F.MOD_EN 0, 1), (F.MOD_EN 23, 1), (F.MOD_RUN 3, 1), (F.MOD_OSRC 0, 32), (F.MOD_OSRC 3, 32)] with tick := 2000000, mods := [(0, { setC := true, run := 255, lvl := true }), (23, { setC := true, run := 256, told := true })] }), by decide +kernel⟩,
  ⟨0, true, ({ put up [(F.EN Pg.MOD, 1), (F.MOD_RUN 0, 1), (F.MOD_EN 0, 1), (F.MOD_EN 23, 1), (F.MOD_RUN 3, 1), (F.MOD_OSRC 0, 32), (F.MOD_OSRC 3, 32)] with tick := 2000000, mods := [(0, { setC := true, bits := List.replicate 95 true }), (23, { setC := true })] }), by decide +kernel⟩,
  ⟨0, (up), by decide +kernel⟩,
  ⟨0, true, ({ put (put up [(F.EN Pg.MOD, 1), (F.MOD_RUN 0, 1), (F.MOD_EN 0, 1), (F.MOD_METEN 0, 1), (F.MOD_RUN 3, 1), (F.MOD_EN 23, 1), (F.MOD_OCEN 0, 1), (F.MOD_OCEN 23, 1), (F.MOD_OCGRP 0, 5)]) [(F.MOD_OCCNT 0, 3), (F.MOD_OCLO 0, 5), (F.MOD_OCOSR 0, 4)] with tick := 2000000, mods := [(0, { setC := true, setO := true, ocRun := 3 })] }), by decide +kernel⟩,
  ⟨0, true, ({ put up [(F.EN Pg.MOD, 1), (F.MOD_RUN 0, 1), (F.MOD_EN 0, 1), (F.MOD_EN 23, 1), (F.MOD_RUN 3, 1), (F.MOD_OSRC 0, 32), (F.MOD_OSRC 3, 32)] with tick := 2000000, mods := [(0, { setC := true, bits := List.replicate 95 true }), (23, { setC := true })] }), by decide +kernel⟩,
  ⟨0, 0, (up), (up), by decide +kernel⟩⟩

/-- The hypotheses of each clause of `PrecisionConverters` are met together. -/
theorem witness_PrecisionConverters :
  (∃ (c : Fin 2) (v : Word) (s : State) (u : State), (s.turn (0x41100 + 0x400 * c) ((F.PADC_START c).put v 1) = some u) ∧ ((F.PADC_RATE c).of v ≤ 8) ∧ ((F.PADC_EN c).of v = 1) ∧ ((F.PADC_CALGO c).of v = 0) ∧ (u.enabled Pg.PADC = true) ∧ (u.padcRung = true) ∧ ((u.conv c).startAt ≠ some u.tick) ∧ (u.rd (F.PADC_CALBUSY c) = 0) ∧ (u.rd (F.PADC_RUN c) = 0)) ∧
  (∃ (c : Fin 2) (v : Word) (s : State) (u : State), (s.turn (0x41100 + 0x400 * c) ((F.PADC_START c).put v 1) = some u) ∧ ((F.PADC_RATE c).of v ≤ 8) ∧ ((F.PADC_EN c).of v = 1) ∧ ((F.PADC_CALGO c).of v = 0) ∧ (u.enabled Pg.PADC = true) ∧ (u.padcRung = true) ∧ ((u.conv c).startAt ≠ some u.tick) ∧ (u.rd (F.PADC_CALBUSY c) = 0) ∧ (u.rd (F.PADC_RUN c) = 1) ∧ ((F.PADC_RATE c).of v = u.rd (F.PADC_RATE c)) ∧ ((F.PADC_LAST c).of v = u.rd (F.PADC_LAST c)) ∧ ((F.PADC_CONT c).of v = u.rd (F.PADC_CONT c))) ∧
  (∃ (c : Fin 2) (v : Word) (s : State) (u : State), (s.turn (0x41100 + 0x400 * c) ((F.PADC_START c).put v 1) = some u) ∧ (8 < (F.PADC_RATE c).of v)) ∧
  (∃ (b : Bool) (c : Fin 2) (s : State), (s.enabled Pg.PADC = true) ∧ (s.padcRung = true) ∧ ((s.conv c).startAt ≠ some s.tick) ∧ (s.rd (F.PADC_EN c) = 1) ∧ (s.rd (F.PADC_TRIG c) % 2 = 1) ∧ (s.bit (F.PADC_ASPOL c) = b) ∧ (s.rd (F.PADC_RUN c) = 0) ∧ (s.rd (F.PADC_CALBUSY c) = 0)) ∧
  (∃ (c : Fin 2) (e : Nat) (s : State), (s.rd (F.PADC_RUN c) = 1) ∧ (s.padcRung = true) ∧ ((s.conv c).snapAt ≠ some s.tick) ∧ (s.rd (F.PADC_CUR c) = e) ∧ (s.rd (F.PADC_CALOFS c (s.padcGain c e)) = 0) ∧ (s.rd (F.PADC_CALGAIN c (s.padcGain c e)) = 2 ^ 22) ∧ ((s.padcAcc c e).cnt < 0xFFFFFFFF)) ∧
  (∃ (c : Fin 2) (v : Word) (s : State) (u : State), (s.turn (0x41100 + 0x400 * c) ((F.PADC_CALGO c).put v 1) = some u) ∧ ((F.PADC_RATE c).of v ≤ 8) ∧ ((F.PADC_EN c).of v = 1) ∧ ((F.PADC_START c).of v = 0) ∧ (u.enabled Pg.PADC = true) ∧ (u.padcRung = true) ∧ (u.rd (F.PADC_RUN c) = 0)) ∧
  (∃ (c : Fin 2) (s : State), (s.rd (F.PADC_CALBUSY c) = 1) ∧ (s.padcRung = true)) ∧
  (∃ (c : Fin 2) (s : State), (s.rd (F.PADC_CALBUSY c) = 0 ∨ s.padcRung = false)) ∧
  (∃ (c : Fin 2) (s : State), (s.rd (F.PADC_RUN c) = 0 ∨ s.padcRung = false)) ∧
  (∃ (v : Word) (s : State) (u : State), (s.turn 0x41050 (F.PADC_SNAPGO.put v 1) = some u)) ∧
  (∃ (s : State) (x : Nat) (y : Nat), ((s.conv 0).snapAt = some s.tick) ∧ (s.rd F.PADC_XEN = 1) ∧ ((List.range 16).find? (fun e => s.bit (F.PADC_SHARED 0 e)) = some x) ∧ ((List.range 16).find? (fun e => s.bit (F.PADC_SHARED 1 e)) = some y) ∧ ((s.snapOf 0 x).cnt ≠ 0) ∧ ((s.snapOf 1 y).cnt ≠ 0)) ∧
  (∃ (s : State) (x : Nat) (y : Nat), ((s.conv 0).snapAt = some s.tick) ∧ (s.rd F.PADC_XEN = 1) ∧ ((List.range 16).find? (fun e => s.bit (F.PADC_SHARED 0 e)) = some x) ∧ ((List.range 16).find? (fun e => s.bit (F.PADC_SHARED 1 e)) = some y) ∧ ((s.snapOf 0 x).cnt = 0 ∨ (s.snapOf 1 y).cnt = 0)) ∧
  (∃ (s : State), ((s.conv 0).snapAt ≠ some s.tick ∨ s.rd F.PADC_XEN = 0)) :=
  ⟨⟨0, 0x80000000, (put up [(F.EN Pg.PADC, 1), (F.PADC_EN 0, 1), (F.PADC_EN 1, 1), (F.PADC_CALGAIN 0 0, 2 ^ 22), (F.PADC_CALGAIN 1 0, 2 ^ 22), (F.PADC_CALOFS 0 0, 0)]), (put up [(F.EN Pg.PADC, 1), (F.PADC_EN 0, 1), (F.PADC_EN 1, 1), (F.PADC_CALGAIN 0 0, 2 ^ 22), (F.PADC_CALGAIN 1 0, 2 ^ 22), (F.PADC_CALOFS 0 0, 0)]), by decide +kernel⟩,
  ⟨0, 0x80000000, (put (put up [(F.EN Pg.PADC, 1), (F.PADC_EN 0, 1), (F.PADC_EN 1, 1), (F.PADC_CALGAIN 0 0, 2 ^ 22), (F.PADC_CALGAIN 1 0, 2 ^ 22), (F.PADC_CALOFS 0 0, 0)]) [(F.PADC_RUN 0, 1), (F.PADC_RUN 1, 1), (F.PADC_OVRCNT 0, 65535), (F.PADC_RATE 0, 0), (F.PADC_RATE 1, 0), (F.PADC_LAST 0, 0), (F.PADC_LAST 1, 0)]), (put (put up [(F.EN Pg.PADC, 1), (F.PADC_EN 0, 1), (F.PADC_EN 1, 1), (F.PADC_CALGAIN 0 0, 2 ^ 22), (F.PADC_CALGAIN 1 0, 2 ^ 22), (F.PADC_CALOFS 0 0, 0)]) [(F.PADC_RUN 0, 1), (F.PADC_RUN 1, 1), (F.PADC_OVRCNT 0, 65535), (F.PADC_RATE 0, 0), (F.PADC_RATE 1, 0), (F.PADC_LAST 0, 0), (F.PADC_LAST 1, 0)]), by decide +kernel⟩,
  ⟨0, 0xFFFFFFFF, (up), (up), by decide +kernel⟩,
  ⟨false, 0, (put (put up [(F.EN Pg.PADC, 1), (F.PADC_EN 0, 1), (F.PADC_EN 1, 1), (F.PADC_CALGAIN 0 0, 2 ^ 22), (F.PADC_CALGAIN 1 0, 2 ^ 22), (F.PADC_CALOFS 0 0, 0)]) [(F.PADC_TRIG 0, 1)]), by decide +kernel⟩,
  ⟨0, 0, (put (put up [(F.EN Pg.PADC, 1), (F.PADC_EN 0, 1), (F.PADC_EN 1, 1), (F.PADC_CALGAIN 0 0, 2 ^ 22), (F.PADC_CALGAIN 1 0, 2 ^ 22), (F.PADC_CALOFS 0 0, 0)]) [(F.PADC_RUN 0, 1), (F.PADC_RUN 1, 1), (F.PADC_OVRCNT 0, 65535)]), by decide +kernel⟩,
  ⟨0, 0x80000000, (put up [(F.EN Pg.PADC, 1), (F.PADC_EN 0, 1), (F.PADC_EN 1, 1), (F.PADC_CALGAIN 0 0, 2 ^ 22), (F.PADC_CALGAIN 1 0, 2 ^ 22), (F.PADC_CALOFS 0 0, 0)]), (put up [(F.EN Pg.PADC, 1), (F.PADC_EN 0, 1), (F.PADC_EN 1, 1), (F.PADC_CALGAIN 0 0, 2 ^ 22), (F.PADC_CALGAIN 1 0, 2 ^ 22), (F.PADC_CALOFS 0 0, 0)]), by decide +kernel⟩,
  ⟨0, (put (put up [(F.EN Pg.PADC, 1), (F.PADC_EN 0, 1), (F.PADC_EN 1, 1), (F.PADC_CALGAIN 0 0, 2 ^ 22), (F.PADC_CALGAIN 1 0, 2 ^ 22), (F.PADC_CALOFS 0 0, 0)]) [(F.PADC_CALBUSY 0, 1), (F.PADC_CALBUSY 1, 1)]), by decide +kernel⟩,
  ⟨0, (up), by decide +kernel⟩,
  ⟨0, (up), by decide +kernel⟩,
  ⟨0, (up), (up), by decide +kernel⟩,
  ⟨({ put up [(F.PADC_XEN, 1), (F.PADC_SHARED 0 2, 1), (F.PADC_SHARED 1 15, 1)] with tick := 7, padc := [(0, { snapAt := some 7, snapAcc := [(2, { sum := 9, cnt := 2 })] }), (1, { snapAt := some 7, snapAcc := [(15, { sum := -9, cnt := 2 })] })] }), 2, 15, by decide +kernel⟩,
  ⟨({ put up [(F.PADC_XEN, 1), (F.PADC_SHARED 0 2, 1), (F.PADC_SHARED 1 15, 1)] with tick := 7, padc := [(0, { snapAt := some 7, snapAcc := [(2, { sum := 9, cnt := 2 })] }), (1, { snapAt := some 7 })] }), 2, 15, by decide +kernel⟩,
  ⟨(up), by decide +kernel⟩⟩

/-- The hypotheses of each clause of `Comparators` are met together. -/
theorem witness_Comparators :
  (∃ (n : Fin 16) (s : State), (s.cmpOn n = false)) ∧
  (∃ (n : Fin 16) (s : State), (s.cmpOn n = true) ∧ (s.rd (F.CMP_WIN n) = 0) ∧ (s.rd (F.CMP_HYST n) = 0) ∧ (s.rd (F.CMP_POL n) = 0) ∧ (s.rd F.PADC_EXT = 0)) ∧
  (∃ (n : Fin 16) (p : Nat) (r : Nat) (s : State), (s.cmpSense n p r = true) ∧ (s.rd (F.CMP_ACT n) = 1) ∧ (s.cmpBlank n = false) ∧ (s.cmpSusp n = false) ∧ ((s.cmp n).acted = false)) ∧
  (∃ (n : Fin 16) (p : Nat) (r : Nat) (s : State), (s.cmpSense n p r = true) ∧ (s.rd (F.CMP_ACT n) = 1) ∧ (s.cmpBlank n = false) ∧ (s.cmpSusp n = false) ∧ ((s.cmp n).acted = true)) ∧
  (∃ (n : Fin 16) (p : Nat) (r : Nat) (s : State), (s.cmpSense n p r = false)) ∧
  (∃ (n : Fin 16) (p : Nat) (r : Nat) (s : State), (s.cmpSense n p r = true) ∧ (s.rd (F.CMP_ACT n) = 2) ∧ (s.cmpBlank n = false) ∧ (s.cmpSusp n = false) ∧ ((s.cmp n).cutAt ≠ some s.tick)) ∧
  (∃ (k : Fin 16) (s : State) (u : State), (s.turn 0x4204C (BitVec.ofNat 32 (2 ^ (k : Nat))) = some u) ∧ (u.rdBit F.CMP_TRIPSTAT k = true) ∧ ((u.hwBits 0x4204C).getLsbD k = false)) ∧
  (∃ (v : Word) (n : Nat) (s : State) (u : State), (s.turn 0x42058 (F.CMP_STGO.put v 1) = some u) ∧ (F.CMP_STIDX.of v = n)) ∧
  (∃ (x : SelfTest) (s : State), (s.stRun = some x) ∧ (x.cmp < 16) ∧ (s.stWait = [])) ∧
  (∃ (l : List Bool) (x : SelfTest) (w : Nat × Bool) (r : List (Nat × Bool)) (s : State), (s.stRun = some x) ∧ (x.cmp < 16) ∧ (s.stWait = w :: r) ∧ ((l.getD 0 false == x.pre) = true) ∧ (x.type = 0) ∧ (s.stRefused w.1 = false)) ∧
  (∃ (l : List Bool) (x : SelfTest) (w : Nat × Bool) (r : List (Nat × Bool)) (s : State), (s.stRun = some x) ∧ (x.cmp < 16) ∧ (s.stWait = w :: r) ∧ ((l.getD 0 false == x.pre) = true) ∧ (x.type = 0) ∧ (s.stRefused w.1 = true) ∧ (r = [])) ∧
  (∃ (s : State), (s.stRun = none)) :=
  ⟨⟨0, (up), by decide +kernel⟩,
  ⟨0, (put up [(F.EN Pg.CMP, 1), (F.PADC_VRDY, 1), (F.CMP_EN 0, 1), (F.CMP_EN 15, 1), (F.CMP_HYST 0, 0), (F.CMP_LEGGRP 0, 5), (F.CMP_ACT 15, 2), (F.CMP_ACT 0, 1), (F.CMP_LEGGRP 15, 0xFFFFFF)]), by decide +kernel⟩,
  ⟨0, 1250000000, 0, (put up [(F.EN Pg.CMP, 1), (F.PADC_VRDY, 1), (F.CMP_EN 0, 1), (F.CMP_EN 15, 1), (F.CMP_HYST 0, 0), (F.CMP_LEGGRP 0, 5), (F.CMP_ACT 15, 2), (F.CMP_ACT 0, 1), (F.CMP_LEGGRP 15, 0xFFFFFF)]), by decide +kernel⟩,
  ⟨0, 1250000000, 0, ({ put up [(F.EN Pg.CMP, 1), (F.PADC_VRDY, 1), (F.CMP_EN 0, 1), (F.CMP_EN 15, 1), (F.CMP_HYST 0, 0), (F.CMP_LEGGRP 0, 5), (F.CMP_ACT 15, 2), (F.CMP_ACT 0, 1), (F.CMP_LEGGRP 15, 0xFFFFFF)] with cmps := [(0, { acted := true })] }), by decide +kernel⟩,
  ⟨0, 0, 0, (up), by decide +kernel⟩,
  ⟨15, 1250000000, 0, (put up [(F.EN Pg.CMP, 1), (F.PADC_VRDY, 1), (F.CMP_EN 0, 1), (F.CMP_EN 15, 1), (F.CMP_HYST 0, 0), (F.CMP_LEGGRP 0, 5), (F.CMP_ACT 15, 2), (F.CMP_ACT 0, 1), (F.CMP_LEGGRP 15, 0xFFFFFF)]), by decide +kernel⟩,
  ⟨0, (put (put up [(F.EN Pg.CMP, 1), (F.PADC_VRDY, 1), (F.CMP_EN 0, 1), (F.CMP_EN 15, 1), (F.CMP_HYST 0, 0), (F.CMP_LEGGRP 0, 5), (F.CMP_ACT 15, 2), (F.CMP_ACT 0, 1), (F.CMP_LEGGRP 15, 0xFFFFFF)]) [(F.CMP_TRIPSTAT, 0x8001), (F.CMP_OUT, 1)]), (put (put up [(F.EN Pg.CMP, 1), (F.PADC_VRDY, 1), (F.CMP_EN 0, 1), (F.CMP_EN 15, 1), (F.CMP_HYST 0, 0), (F.CMP_LEGGRP 0, 5), (F.CMP_ACT 15, 2), (F.CMP_ACT 0, 1), (F.CMP_LEGGRP 15, 0xFFFFFF)]) [(F.CMP_TRIPSTAT, 0x8001), (F.CMP_OUT, 1)]), by decide +kernel⟩,
  ⟨0, 0, (up), (up), by decide +kernel⟩,
  ⟨{ cmp := 3, type := 0, pre := true, stexp := false }, ({ put up [(F.EN Pg.CMP, 1), (F.PADC_VRDY, 1), (F.CMP_EN 0, 1), (F.CMP_EN 15, 1), (F.CMP_HYST 0, 0), (F.CMP_LEGGRP 0, 5), (F.CMP_ACT 15, 2), (F.CMP_ACT 0, 1), (F.CMP_LEGGRP 15, 0xFFFFFF)] with stRun := some { cmp := 3, type := 0, pre := true, stexp := false } }), by decide +kernel⟩,
  ⟨[], { host := true, cmp := 5, type := 0, pre := false, stexp := false }, (3, false), [], ({ put up [(F.EN Pg.CMP, 1), (F.CMP_EN 3, 1)] with stRun := some { host := true, cmp := 5, type := 0, pre := false, stexp := false }, stWait := [(3, false)] }), by decide +kernel⟩,
  ⟨[], { host := true, cmp := 5, type := 0, pre := false, stexp := false }, (3, true), [], ({ up with stRun := some { host := true, cmp := 5, type := 0, pre := false, stexp := false }, stWait := [(3, true)] }), by decide +kernel⟩,
  ⟨(up), by decide +kernel⟩⟩

/-- The hypotheses of each clause of `InterlockAndTripInputs` are met together. -/
theorem witness_InterlockAndTripInputs :
  (∃ (n : Fin 24) (s : State), (s.has (Pg.LEG n) = true) ∧ (s.rd (F.LEG_XON n) = 0) ∧ (s.stoHolds = false)) ∧
  (∃ (n : Fin 24) (s : State), (s.has (Pg.LEG n) = false ∨ s.rd (F.LEG_XON n) = 1)) ∧
  (∃ (n : Fin 24) (s : State), (s.rd (F.LEG_XON n) = 1) ∧ (s.has (Pg.LEG n) = true) ∧ ((s.leg n).forceEnd = none) ∧ (s.stoHolds = false) ∧ (s.overridden n = true)) ∧
  (∃ (n : Fin 24) (s : State), (s.rd (F.LEG_XON n) = 0)) ∧
  (∃ (i : Fin 8) (s : State), (s.tripLive i = true) ∧ ((s.trip i).qualified = false) ∧ (s.rd (F.TRIP_FUNC i) = 1) ∧ ((s.trip i).blankOpen = false)) ∧
  (∃ (i : Fin 8) (s : State), (s.tripLive i = true) ∧ ((s.trip i).qualified = false) ∧ (s.rd (F.TRIP_FUNC i) = 2)) ∧
  (∃ (i : Fin 8) (s : State), (s.tripLive i = false ∨ (s.trip i).qualified = true ∨ (s.rd (F.TRIP_FUNC i) = 1 ∧ (s.trip i).blankOpen = true))) ∧
  (∃ (i : Fin 8) (s : State) (u : State), (s.turn 0x430C0 (BitVec.ofNat 32 (2 ^ (i : Nat))) = some u) ∧ (u.rdBit F.TRIP_LAT i = true) ∧ ((u.hwBits 0x430C0).getLsbD i = false)) :=
  ⟨⟨23, ({ put up [(F.LEG_XON 0, 1), (F.LEGX_SAFEL 0, 1)] with legs := [(0, { demCmp := 1 })], safe := { up.safe with hold := false } }), by decide +kernel⟩,
  ⟨0, (put up [(F.LEG_XON 0, 1), (F.LEG_XON 23, 1)]), by decide +kernel⟩,
  ⟨0, ({ put up [(F.LEG_XON 0, 1), (F.LEGX_SAFEL 0, 1)] with legs := [(0, { demCmp := 1 })], safe := { up.safe with hold := false } }), by decide +kernel⟩,
  ⟨0, (up), by decide +kernel⟩,
  ⟨0, (put up [(F.EN Pg.TRIP, 1), (F.TRIP_FUNC 0, 1), (F.TRIP_FUNC 7, 2), (F.TRIP_GRP 0, 0x800001), (F.TRIP_RAW, 0x81)]), by decide +kernel⟩,
  ⟨7, (put up [(F.EN Pg.TRIP, 1), (F.TRIP_FUNC 0, 1), (F.TRIP_FUNC 7, 2), (F.TRIP_GRP 0, 0x800001), (F.TRIP_RAW, 0x81)]), by decide +kernel⟩,
  ⟨0, (up), by decide +kernel⟩,
  ⟨0, ({ put up [(F.TRIP_LAT, 0x81)] with trips := [(0, { qualified := true })], legs := [(3, { demTrip := 0x81 })] }), ({ put up [(F.TRIP_LAT, 0x81)] with trips := [(0, { qualified := true })], legs := [(3, { demTrip := 0x81 })] }), by decide +kernel⟩⟩

namespace DriversAndBootstrap
def rel : State := { up with safe := { up.safe with hold := false } }
def gd (m : Nat) (l : List (Fld × Nat)) : State := put rel ([(F.SYS_MODE, 3), (F.SAFE_STOA, 0), (F.LEGX_GDEN 0, 1), (F.LEGX_GDEN 1, 1), (F.LEGX_GDEN 2, 1), (F.LEGX_GDEN 3, 1), (F.LEGX_GDMODE 0, m), (F.LEGX_GDMODE 1, m), (F.LEGX_GDMODE 2, m), (F.LEGX_GDMODE 3, m)] ++ l)
def lr (m : Nat) (l : List (Fld × Nat)) : State := put rel ([(F.SYS_MODE, 3), (F.SAFE_STOA, 0), (F.EN (Pg.CH 0), 1), (F.EN (Pg.LEG 0), 1), (F.LEGX_MAPA_VALID 0, 1), (F.LEG_MODE 0, m), (F.CH_TYPE 0, 0)] ++ l)
/-- The hypotheses of each clause of `DriversAndBootstrap` are met together. -/
theorem witness_DriversAndBootstrap :
  (∃ (k : Fin 4) (s : State), (s.rd (F.LEGX_GDMODE k) = 1) ∧ (s.gdoForced k = false)) ∧
  (∃ (k : Fin 4) (s : State), (s.rd (F.LEGX_GDMODE k) ≠ 1 ∨ s.gdoForced k = true)) ∧
  (∃ (k : Fin 4) (s : State), (s.rd (F.LEGX_GDMODE k) = 2) ∧ (s.gdoForced k = false)) ∧
  (∃ (b : Bool) (k : Fin 4) (s : State), ((b = true ↔ 2 ≤ (k : Nat))) ∧ (s.rd (F.LEGX_GDMODE k) = 0) ∧ (s.rd (F.LEGX_GDEN k) = 1) ∧ (s.modeNow ≠ 0) ∧ (s.rung < 3) ∧ (s.phase = .up) ∧ (s.stoHolds = false) ∧ (s.rd F.SAFE_STOA = 0)) ∧
  (∃ (n : Fin 24) (s : State), (s.btEn n = true) ∧ (s.legRuns n = true) ∧ ((s.leg n).driving = true) ∧ ((s.leg n).modCmd = .hi) ∧ ((s.leg n).refresh = false) ∧ (s.interlocked n = false) ∧ (s.noIdleDue n = true)) ∧
  (∃ (n : Fin 24) (s : State), (s.btEn n = false ∨ s.legRuns n = false ∨ (s.leg n).driving = false ∨ (s.leg n).modCmd ≠ .hi ∨ (s.leg n).refresh = true)) ∧
  (∃ (n : Fin 24) (s : State), ((s.leg n).refresh = true) ∧ (s.enabled Pg.CMP = false) ∧ (s.legRuns n = true) ∧ (s.interlocked n = false) ∧ ((s.leg n).driving = true) ∧ (s.noIdleDue n = true)) ∧
  (∃ (n : Fin 24) (s : State), ((s.leg n).refresh = false)) ∧
  (∃ (n : Fin 24) (s : State), ((s.leg n).checkDue = true)) ∧
  (∃ (n : Fin 24) (s : State), ((s.leg n).checkDue = false)) :=
  ⟨⟨0, (gd 1 []), by decide +kernel⟩,
  ⟨0, (up), by decide +kernel⟩,
  ⟨0, (gd 2 []), by decide +kernel⟩,
  ⟨true, 3, (gd 0 [(F.LEGX_GDLVL 0, 1), (F.LEGX_GDLVL 3, 1), (F.LEGX_GDUVLO 0, 1), (F.LEGX_GDUVLO 3, 1)]), by decide +kernel⟩,
  ⟨0, ({ lr 1 [(F.LEG_BTEN 0, 1)] with legs := [(0, { driving := true, modCmd := .hi, cell := .hi, ctrOn := true })] }), by decide +kernel⟩,
  ⟨0, (up), by decide +kernel⟩,
  ⟨0, ({ lr 2 [(F.LEG_DRVT 0, 1), (F.LEGX_BTCHK 0, 1)] with legs := [(0, { driving := true, modCmd := .hi, cell := .lo, refresh := true })] }), by decide +kernel⟩,
  ⟨0, (up), by decide +kernel⟩,
  ⟨0, ({ lr 2 [] with legs := [(0, { checkDue := true })] }), by decide +kernel⟩,
  ⟨0, (up), by decide +kernel⟩⟩
end DriversAndBootstrap

namespace CommitsAndCarrier
def rel : State := { up with safe := { up.safe with hold := false } }
def lr (m : Nat) (l : List (Fld × Nat)) : State := put rel ([(F.SYS_MODE, 3), (F.SAFE_STOA, 0), (F.EN (Pg.CH 0), 1), (F.EN (Pg.LEG 0), 1), (F.LEGX_MAPA_VALID 0, 1), (F.LEG_MODE 0, m), (F.CH_TYPE 0, 0)] ++ l)
/-- The hypotheses of each clause of `CommitsAndCarrier` are met together. -/
theorem witness_CommitsAndCarrier :
  (∃ (n : Fin 24) (v : Word) (s : State) (u : State), (s.turn (Pg.LEG n + 0x20) ((F.COMMIT (Pg.LEG n)).put v 1) = some u) ∧ (u.has (Pg.LEG n) = true)) ∧
  (∃ (c : Fin 8) (v : Word) (s : State) (u : State), (s.has (Pg.CH c) = true) ∧ (u.turn (Pg.CH c + 0x20) ((F.COMMIT (Pg.CH c)).put v 1) = some s)) ∧
  (∃ (n : Fin 24) (s : State), (s.ctrRuns n = true) ∧ (s.rd (F.LEG_MODE n) = 1) ∧ (s.machLeg n = false) ∧ ((s.leg n).pend = none) ∧ (s.enabled Pg.CMP = false) ∧ (s.noIdleDue n = true) ∧ (s.rd (F.LEG_ACT_RATIO n) = 0) ∧ (s.rd (F.LEG_ACT_PER n) < s.rd (F.LEG_ACT_CMP n))) ∧
  (∃ (n : Fin 24) (s : State), (s.ctrRuns n = true) ∧ (s.rd (F.LEG_MODE n) = 1) ∧ (s.machLeg n = false) ∧ ((s.leg n).pend = none) ∧ (s.enabled Pg.CMP = false) ∧ (s.noIdleDue n = true) ∧ (s.legRuns n = true) ∧ (s.interlocked n = false) ∧ ((s.leg n).refresh = false)) ∧
  (∃ (n : Fin 24) (h : Shadow) (s : State), (s.ctrRuns n = true) ∧ (s.rd (F.LEG_MODE n) = 1) ∧ ((s.leg n).pend = some h) ∧ ((s.leg n).cmTick ≠ some s.tick)) ∧
  (∃ (n : Fin 24) (s : State), (s.ctrRuns n = true) ∧ ((s.leg n).up = true) ∧ (s.rd (F.LEG_RLDPK n) = 0) ∧ (s.rd (F.LEG_MODE n) = 1)) ∧
  (∃ (n : Fin 24) (s : State), (s.ctrRuns n = false)) ∧
  (∃ (n : Fin 24) (s : State), (s.ctrRuns n = true) ∧ (0 < (s.leg n).cUse) ∧ ((s.leg n).cUse < s.rd (F.LEG_ACT_PER n)) ∧ ((s.leg n).cut = false) ∧ (s.enabled Pg.CMP = false) ∧ ((s.leg n).shift = 0) ∧ (s.noIdleDue n = true)) ∧
  (∃ (b : Bool) (s : State), (s.rd F.LEGX_INEN = 1) ∧ (b = s.bit F.LEGX_INPOL) ∧ ((∀ k, s.syncAt = some k → 100 ≤ s.tick - k))) ∧
  (∃ (n : Fin 24) (k : Nat) (s : State), ((s.leg n).syncLoad = some k) ∧ (16 * s.tick < k)) ∧
  (∃ (n : Fin 24) (k : Nat) (s : State), ((s.leg n).syncLoad = some k) ∧ (k ≤ 16 * s.tick) ∧ (s.ctrRuns n = true) ∧ (s.rd (F.LEG_MODE n) = 1)) ∧
  (∃ (b : Bool) (s : State), (s.rd F.LEGX_INEN = 0 ∨ b ≠ s.bit F.LEGX_INPOL ∨ (∃ k, s.syncAt = some k ∧ s.tick - k < 100))) :=
  ⟨⟨0, 0, (up), (up), by decide +kernel⟩,
  ⟨0, 0, (up), (up), by decide +kernel⟩,
  ⟨0, ({ lr 1 [(F.LEG_ACT_PER 0, 1000), (F.LEG_ACT_CMP 0, 1400)] with legs := [(0, { ctrOn := true, ctrFirst := true })] }), by decide +kernel⟩,
  ⟨0, ({ lr 1 [(F.LEG_ACT_PER 0, 1000), (F.LEG_ACT_CMP 0, 400)] with legs := [(0, { ctrOn := true, driving := true, up := false })] }), by decide +kernel⟩,
  ⟨0, ⟨1, 2, 3, 4, 5, 6, 7⟩, ({ lr 1 [(F.LEG_ACT_PER 0, 1000)] with legs := [(0, { ctrOn := true, pend := some ⟨1, 2, 3, 4, 5, 6, 7⟩ })] }), by decide +kernel⟩,
  ⟨0, ({ lr 1 [(F.LEG_ACT_PER 0, 1000), (F.LEG_ACT_CMP 0, 1400)] with legs := [(0, { ctrOn := true, ctrFirst := true })] }), by decide +kernel⟩,
  ⟨0, (up), by decide +kernel⟩,
  ⟨0, ({ lr 1 [(F.LEG_ACT_PER 0, 1000), (F.LEG_ACT_CMP 0, 32768), (F.LEG_ACT_RATIO 0, 1)] with legs := [(0, { ctrOn := true, cUse := 500 })] }), by decide +kernel⟩,
  ⟨false, (put up [(F.LEGX_INEN, 1)]), by decide +kernel⟩,
  ⟨0, 192, ({ lr 1 [(F.LEG_ACT_PER 0, 1000), (F.LEG_SYNCPH 0, 1000)] with legs := [(0, { ctrOn := true, syncLoad := some 192 })] }), by decide +kernel⟩,
  ⟨0, 192, ({ lr 1 [(F.LEG_ACT_PER 0, 1000), (F.LEG_SYNCPH 0, 1001)] with tick := 50, legs := [(0, { ctrOn := true, syncLoad := some 192 })] }), by decide +kernel⟩,
  ⟨true, (up), by decide +kernel⟩⟩
end CommitsAndCarrier

namespace TcmAndDirectPeriods
def rel : State := { up with safe := { up.safe with hold := false } }
def lr (m : Nat) (l : List (Fld × Nat)) : State := put rel ([(F.SYS_MODE, 3), (F.SAFE_STOA, 0), (F.EN (Pg.CH 0), 1), (F.EN (Pg.LEG 0), 1), (F.LEGX_MAPA_VALID 0, 1), (F.LEG_MODE 0, m), (F.CH_TYPE 0, 0)] ++ l)
def tl : List (Fld × Nat) := [(F.LEGX_VINT 0, 0), (F.LEGX_VDC 0, 1), (F.MOD_COUT 1, 0x43C80000), (F.LEG_LIFS 0, 0x42480000), (F.LEG_RVFS 0, 0x43C80000), (F.LEG_ACT_IREF 0, 0x41200000)] ++ (List.range 16).flatMap (fun j => [(F.LEG_LTAB 0 j, 0x38D1B717), (F.LEG_IRTAB 0 j, 0x3F800000)])
def tx : TcmIn := (((lr 2 tl).tcmIn 0 0).1).getD ⟨0,0,0,0,0,0,0⟩
/-- The hypotheses of each clause of `TcmAndDirectPeriods` are met together. -/
theorem witness_TcmAndDirectPeriods :
  (∃ (n : Fin 24) (b : Fin 2) (e : Fin 8) (s : State) (x : TcmIn), (s.rd (F.LEG_MODE n) = 2) ∧ (s.legRuns n = true) ∧ ((s.leg n).driving = true) ∧ (s.rd (F.LEG_FB n) = 0) ∧ (s.rd (F.LEG_SHED n) = 0) ∧ ((s.leg n).part ≠ .none) ∧ ((s.leg n).idle = false) ∧ ((s.leg n).fbDue = false) ∧ ((s.leg n).pend = none) ∧ (s.rd (F.LEGX_MAPA_POS n) = 0) ∧ (s.shedTo (s.legGrp n) = s.nAct (s.legGrp n)) ∧ (s.tcmIn n (8 * b + e) = (some x, s)) ∧ (s.rd (F.LEG_POL n) = 0) ∧ (s.sigmaNeg n x.i = false) ∧ (F32.isPos x.a = true) ∧ (F32.isPos x.b = true) ∧ (s.rd (F.LEG_DRVT n) = 0) ∧ (s.enabled Pg.CMP = false) ∧ (s.rd (F.LEGX_IDEN (s.legGrp n / 3)) = 0) ∧ (s.noIdleDue n = true) ∧ (let d := F32.mul F32.twoW (F32.add x.i x.ir);
 (let t1 := max (max 384 (s.rd (F.LEG_ACT_DTR n) + s.rd F.AGE_DTAGE)) (units (F32.sub (F32.div (F32.mul x.l d) x.a) 0));
 (let t2 := max (max 384 (s.rd (F.LEG_ACT_DTF n) + s.rd F.AGE_DTAGE)) (units (F32.div (F32.mul x.l d) x.b));
 (6640 ≤ t1 + t2) ∧ (t1 + t2 ≤ 400000))))) ∧
  (∃ (n : Fin 24) (s : State), (s.rd (F.LEG_MODE n) = 2) ∧ (s.legRuns n = true) ∧ ((s.leg n).driving = true) ∧ (s.rd (F.LEG_FB n) = 0) ∧ (s.rd (F.LEG_SHED n) = 0) ∧ (s.rd (F.LEGX_MAPA_POS n) < s.nAct (s.legGrp n)) ∧ (F32.isPos (s.f32 (F.MOD_COUT (s.rd (F.LEGX_VDC (s.legGrp n))))) = false)) ∧
  (∃ (n : Fin 24) (s : State), (s.rd (F.LEG_MODE n) ≠ 2 ∨ s.legRuns n = false)) ∧
  (∃ (n : Fin 24) (b : Fin 16) (s : State) (x : TcmIn), (s.rd (F.LEG_MODE n) = 2) ∧ ((s.leg n).driving = true) ∧ ((s.leg n).part = .first) ∧ (s.rd (F.LEG_POL n) = 0) ∧ ((s.leg n).floor = false) ∧ (s.tcmIn n b = (some x, s)) ∧ (F32.isPos x.b = true) ∧ ((s.leg n).t1 ≤ 400000) ∧ (s.noIdleDue n = true) ∧ (let t2 := max (max 384 (s.rd (F.LEG_ACT_DTF n) + s.rd (F.LEG_DTAGE n))) (units (F32.div (F32.mul (s.leg n).lHeld (s.leg n).dIHeld) x.b));
 (400000 < (s.leg n).t1 + t2))) ∧
  (∃ (n : Fin 24) (s : State), (s.rd (F.LEG_MODE n) ≠ 2 ∨ (s.leg n).driving = false ∨ (s.leg n).part ≠ .first)) ∧
  (∃ (n : Fin 24) (s : State), (s.rd (F.LEG_MODE n) = 2) ∧ (s.legRuns n = true) ∧ (s.rd (F.LEG_SHED n) = 1) ∧ (s.rd (F.LEGX_MAPA_POS n) ≠ 0) ∧ (s.rd (F.LEGX_MAPA_POS n) < s.nAct (s.legGrp n))) ∧
  (∃ (n : Fin 24) (s : State), (s.rd (F.LEG_MODE n) = 3) ∧ (s.legRuns n = true) ∧ ((s.leg n).pend = none) ∧ (s.enabled Pg.CMP = false) ∧ (s.noIdleDue n = true) ∧ (s.interlocked n = false) ∧ ((s.leg n).refresh = false)) ∧
  (∃ (n : Fin 24) (s : State), (s.rd (F.LEG_MODE n) = 3) ∧ (s.legRuns n = true) ∧ ((s.leg n).pend = none) ∧ (s.enabled Pg.CMP = false) ∧ (s.noIdleDue n = true) ∧ (s.rd (F.LEG_ACT_TON n) + s.rd (F.LEG_ACT_TOFF n) < 6640)) ∧
  (∃ (n : Fin 24) (s : State), (s.rd (F.LEG_MODE n) = 3) ∧ ((s.leg n).driving = true) ∧ ((s.leg n).part = .first) ∧ (s.noIdleDue n = true) ∧ (s.legRuns n = false)) ∧
  (∃ (n : Fin 24) (s : State), (s.rd (F.LEG_MODE n) = 3) ∧ ((s.leg n).driving = true) ∧ ((s.leg n).part = .first) ∧ (s.noIdleDue n = true) ∧ (s.legRuns n = true) ∧ (s.interlocked n = false)) ∧
  (∃ (n : Fin 24) (s : State), (s.rd (F.LEG_MODE n) ≠ 3)) :=
  ⟨⟨0, 0, 0, ({ lr 2 tl with legs := [(0, { driving := true, part := .second })] }), tx, by decide +kernel⟩,
  ⟨0, ({ lr 2 (tl ++ [(F.MOD_COUT 1, 0)]) with legs := [(0, { driving := true, part := .second })] }), by decide +kernel⟩,
  ⟨0, (up), by decide +kernel⟩,
  ⟨0, 0, ({ lr 2 tl with legs := [(0, { driving := true, part := .first, t1 := 399000, lHeld := 0x38D1B717, dIHeld := 0x41A00000 })] }), tx, by decide +kernel⟩,
  ⟨0, (up), by decide +kernel⟩,
  ⟨0, (lr 2 [(F.LEG_SHED 0, 1), (F.LEGX_MAPA_POS 0, 1), (F.LEGX_NACT 0, 1)]), by decide +kernel⟩,
  ⟨0, (lr 3 []), by decide +kernel⟩,
  ⟨0, (lr 3 []), by decide +kernel⟩,
  ⟨0, ({ lr 3 [] with legs := [(0, { driving := true, part := .first })], safe := up.safe }), by decide +kernel⟩,
  ⟨0, ({ lr 3 [] with legs := [(0, { driving := true, part := .first })] }), by decide +kernel⟩,
  ⟨0, (up), by decide +kernel⟩⟩
end TcmAndDirectPeriods

namespace IdentificationAndMap
def rel : State := { up with safe := { up.safe with hold := false } }
def lr (m : Nat) (l : List (Fld × Nat)) : State := put rel ([(F.SYS_MODE, 3), (F.SAFE_STOA, 0), (F.EN (Pg.CH 0), 1), (F.EN (Pg.LEG 0), 1), (F.LEGX_MAPA_VALID 0, 1), (F.LEG_MODE 0, m), (F.CH_TYPE 0, 0)] ++ l)
def sm : SlotM := { neg := false, dIx := 0x41A00000, qpred := 0x3A83126F, yb := 0, ybDc := 0, iph := List.replicate 8 0x41200000 }
def si : State := { lr 2 [(F.LEGX_IDW 0, 4), (F.LEGX_IDNEXT 0, 0), (F.LEG_IDCNT 0, 65535)] with legs := [(0, { slot := some sm })], blks := [(0, { decims := 2, tk := 20000, tk1 := 18000 })] }
def sm2 : SlotM := { sm with moved := true }
/-- The hypotheses of each clause of `IdentificationAndMap` are met together. -/
theorem witness_IdentificationAndMap :
  (∃ (n : Fin 24) (s : State) (m : SlotM), ((s.leg n).slot = some m) ∧ (s.rd (F.LEGX_IDW (s.legGrp n)) ≤ m.iph.length) ∧ (F32.isPos m.qpred = true) ∧ ((s.leg n).slotNow = false) ∧ (m.moved = false)) ∧
  (∃ (n : Fin 24) (s : State) (m : SlotM), ((s.leg n).slot = some m) ∧ (s.rd (F.LEGX_IDW (s.legGrp n)) ≤ m.iph.length) ∧ ((s.leg n).slotNow = false) ∧ (F32.isPos m.qpred = false ∨ m.moved = true)) ∧
  (∃ (n : Fin 24) (s : State), ((s.leg n).slot = none ∨ (s.leg n).slotNow = true ∨ (∃ m, (s.leg n).slot = some m ∧ m.iph.length < s.rd (F.LEGX_IDW (s.legGrp n))))) ∧
  (∃ (n : Fin 24) (v : Word) (s : State) (u : State), (s.turn (Pg.LEG n + 0x18C) ((F.LEG_CLR n).put v 1) = some u) ∧ (u.has (Pg.LEG n) = true)) ∧
  (∃ (v : Word) (s : State) (u : State), (s.turn 0x38040 (F.LEGX_MAPAPPLY.put v 1) = some u) ∧ ((∀ n, n < 24 → u.mapFault n = 0))) ∧
  (∃ (v : Word) (s : State) (u : State) (n : Fin 24), (s.turn 0x38040 (F.LEGX_MAPAPPLY.put v 1) = some u) ∧ (u.subsSeen = u.subWord) ∧ (u.mapFault n % 2 = 1) ∧ ((∀ k, k < (n : Nat) → u.mapFault k % 2 = 0))) :=
  ⟨⟨0, (si), sm, by decide +kernel⟩,
  ⟨0, ({ si with legs := [(0, { slot := some sm2 })] }), sm2, by decide +kernel⟩,
  ⟨0, (up), by decide +kernel⟩,
  ⟨0, 0, (up), (up), by decide +kernel⟩,
  ⟨0, (up), (up), by decide +kernel⟩,
  ⟨0, ({ put up [(F.LEGX_MAP_VALID 20, 1), (F.LEGX_MAP_VALID 21, 1)] with variant := .vnk8232 }), ({ put up [(F.LEGX_MAP_VALID 20, 1), (F.LEGX_MAP_VALID 21, 1)] with variant := .vnk8232 }), 20, by decide +kernel⟩⟩
end IdentificationAndMap

namespace MachinePositionAndCommands
def mc (l : List (Fld × Nat)) : State := let s := put { up with safe := { up.safe with hold := false } } ([(F.EN Pg.MACH, 1), (F.MACH_LINES, 1024), (F.MACH_CH, 2), (F.CH_TYPE 2, 3), (F.EN (Pg.CH 2), 1), (F.SYS_MODE, 3)] ++ l); { s with subsSeen := s.subWord }
/-- The hypotheses of each clause of `MachinePositionAndCommands` are met together. -/
theorem witness_MachinePositionAndCommands :
  (∃ (a : Bool) (b : Bool) (s : State), (s.encOn = true) ∧ ((quadPlace a b + 4 - quadPlace s.mach.a s.mach.b) % 4 = 1)) ∧
  (∃ (a : Bool) (b : Bool) (s : State), (s.encOn = true) ∧ ((quadPlace a b + 4 - quadPlace s.mach.a s.mach.b) % 4 = 3)) ∧
  (∃ (a : Bool) (b : Bool) (s : State), (s.encOn = true) ∧ ((quadPlace a b + 4 - quadPlace s.mach.a s.mach.b) % 4 = 2)) ∧
  (∃ (s : State), (s.encOn = true) ∧ (s.mach.zseen = false)) ∧
  (∃ (s : State), (s.encOn = true) ∧ (s.mach.zseen = true) ∧ (s.mach.cnt < 4 * max 1 (s.rd F.MACH_LINES)) ∧ (s.rd F.MACH_ZOFS < 4 * max 1 (s.rd F.MACH_LINES))) ∧
  (∃ (s : State), (s.encOn = false)) ∧
  (∃ (s : State), (s.has Pg.MACH = true) ∧ (s.enabled Pg.MACH = true) ∧ (s.rd F.MACH_SRC = 1)) ∧
  (∃ (v : Word) (s : State) (u : State) (c : Nat), (s.turn 0x500A0 (F.MACH_RUN.put v 1) = some u) ∧ (u.has Pg.MACH = true) ∧ (u.subsSeen = u.subWord) ∧ (u.rd F.MACH_CH = c) ∧ (u.rd F.MACH_PHASE = 1 ∨ u.rd F.MACH_PHASE = 2)) ∧
  (∃ (v : Word) (s : State) (u : State) (c : Nat), (s.turn 0x500A0 (F.MACH_RUN.put v 1) = some u) ∧ (u.has Pg.MACH = true) ∧ (u.subsSeen = u.subWord) ∧ (u.rd F.MACH_CH = c) ∧ (u.rd F.MACH_PHASE = 0) ∧ (u.rd F.MACH_RUN = 0) ∧ (u.chType c = 3) ∧ (u.chEn c = true) ∧ (u.released c = true) ∧ (u.sub c = 1) ∧ (u.rd F.MACH_PVALID = 1) ∧ (F32.le (F32.abs (u.f32 F.MACH_SPEED)) (u.f32 F.MACH_CATCHTHR) = true)) ∧
  (∃ (v : Word) (s : State) (u : State) (c : Nat), (s.turn 0x500A0 (F.MACH_RUN.put v 1) = some u) ∧ (u.has Pg.MACH = true) ∧ (u.subsSeen = u.subWord) ∧ (u.rd F.MACH_CH = c) ∧ (u.rd F.MACH_PHASE = 0) ∧ (u.rd F.MACH_RUN = 0) ∧ (u.chType c = 3) ∧ (u.chEn c = true) ∧ (u.released c = true) ∧ (u.sub c = 1) ∧ (u.rd F.MACH_PVALID = 0)) ∧
  (∃ (v : Word) (s : State) (u : State), (s.turn 0x500A0 v = some u) ∧ (u.has Pg.MACH = true) ∧ (u.subsSeen = u.subWord) ∧ (u.rd F.MACH_PHASE = 3) ∧ (u.rd F.MACH_RUN = 1) ∧ (F.MACH_RUN.of v = 1) ∧ (u.machActive = true) ∧ (F.MACH_DIR.of v ≠ u.rd F.MACH_DIR)) ∧
  (∃ (v : Word) (s : State) (u : State) (c : Nat), (s.turn 0x500A0 (F.MACH_RUN.put v 0) = some u) ∧ (u.has Pg.MACH = true) ∧ (u.rd F.MACH_PHASE = 3) ∧ (u.rd F.MACH_RUN = 1) ∧ (u.rd F.MACH_CH = c) ∧ (u.chType c = 3) ∧ (u.sub c = 3) ∧ (F.MACH_DIR.of v = u.rd F.MACH_DIR) ∧ (u.subsSeen = u.subWord)) ∧
  (∃ (s : State), (s.rd F.MACH_PHASE = 1)) ∧
  (∃ (s : State), (s.rd F.MACH_PHASE ≠ 1)) ∧
  (∃ (s : State), (s.rd F.MACH_PHASE = 2) ∧ (F32.le (F32.abs (s.f32 F.MACH_SPEED)) (s.f32 F.MACH_REVTHR) = true)) ∧
  (∃ (s : State), (s.rd F.MACH_PHASE ≠ 2)) :=
  ⟨⟨true, false, (mc []), by decide +kernel⟩,
  ⟨false, true, (mc []), by decide +kernel⟩,
  ⟨true, true, (mc []), by decide +kernel⟩,
  ⟨(mc []), by decide +kernel⟩,
  ⟨({ mc [] with mach := { up.mach with b := true, zseen := true, cnt := 5 } }), by decide +kernel⟩,
  ⟨(up), by decide +kernel⟩,
  ⟨(mc [(F.MACH_SRC, 1), (F.MACH_RAMIN, 3), (F.MACH_RAMAX, 5)]), by decide +kernel⟩,
  ⟨0, (mc [(F.MACH_PHASE, 1)]), (mc [(F.MACH_PHASE, 1)]), 2, by decide +kernel⟩,
  ⟨0, (mc [(subF 2, 1), (F.MACH_PVALID, 1)]), (mc [(subF 2, 1), (F.MACH_PVALID, 1)]), 2, by decide +kernel⟩,
  ⟨0, (mc [(subF 2, 1)]), (mc [(subF 2, 1)]), 2, by decide +kernel⟩,
  ⟨0xC0000000, (mc [(F.MACH_PHASE, 3), (F.MACH_RUN, 1), (subF 2, 3)]), (mc [(F.MACH_PHASE, 3), (F.MACH_RUN, 1), (subF 2, 3)]), by decide +kernel⟩,
  ⟨0, (mc [(F.MACH_PHASE, 3), (F.MACH_RUN, 1), (subF 2, 3)]), (mc [(F.MACH_PHASE, 3), (F.MACH_RUN, 1), (subF 2, 3)]), 2, by decide +kernel⟩,
  ⟨(mc [(F.MACH_PHASE, 1)]), by decide +kernel⟩,
  ⟨(up), by decide +kernel⟩,
  ⟨(mc [(F.MACH_PHASE, 2), (F.MACH_REVTHR, 0x3F800000)]), by decide +kernel⟩,
  ⟨(up), by decide +kernel⟩⟩
end MachinePositionAndCommands

namespace GridTracker
def gt : State := put { up with blks := [(0, { decims := 2, tk := 20000, tk1 := 18000 })] } [(F.EN (Pg.GRID 0), 1), (F.EN (Pg.GRID 1), 1), (F.GRID_TYPE 1, 2), (F.GRID_VMIN 0, 0x41200000), (F.GRID_VA 0, 1), (F.GRID_VB 0, 2), (F.GRID_VC 0, 3), (F.MOD_COUT 1, 0x43A28000), (F.MOD_COUT 2, 0xC3228000), (F.MOD_COUT 3, 0xC3228000)]
/-- The hypotheses of each clause of `GridTracker` are met together. -/
theorem witness_GridTracker :
  (∃ (p : Fin 2) (s : State), (s.gridOn p = true) ∧ (s.rd (F.GRID_TYPE p) = 2)) ∧
  (∃ (p : Fin 2) (s : State), (s.gridOn p = false)) ∧
  (∃ (p : Fin 2) (s : State), (s.gridOn p = true) ∧ ((s.grid p).good = true) ∧ (s.rd (F.GRID_VALID p) = 0)) ∧
  (∃ (p : Fin 2) (s : State), ((s.grid p).good = false ∨ s.rd (F.GRID_VALID p) = 1)) ∧
  (∃ (p : Fin 2) (s : State), (s.rd (F.GRID_VALID p) = 1)) ∧
  (∃ (p : Fin 2) (s : State), (s.rd (F.GRID_VALID p) = 0)) ∧
  (∃ (p : Fin 2) (s : State), (s.gridOn p = true) ∧ ((s.grid p).ztold = false)) ∧
  (∃ (p : Fin 2) (s : State), (s.gridOn p = false ∨ (s.grid p).ztold = true)) ∧
  (∃ (p : Fin 2) (v : Word) (s : State) (u : State), (s.turn (0x12070 + 0x1000 * p) ((F.GRID_SNAPGO p).put v 1) = some u)) :=
  ⟨⟨1, (gt), by decide +kernel⟩,
  ⟨0, (up), by decide +kernel⟩,
  ⟨0, ({ gt with grids := [(0, { good := true, th := 77 }), (1, { good := true, ztold := true })] }), by decide +kernel⟩,
  ⟨0, (up), by decide +kernel⟩,
  ⟨0, (put gt [(F.GRID_VALID 0, 1), (F.GRID_VALID 1, 1), (F.GRID_UNLCNT 1, 65535)]), by decide +kernel⟩,
  ⟨0, (up), by decide +kernel⟩,
  ⟨0, (gt), by decide +kernel⟩,
  ⟨0, (up), by decide +kernel⟩,
  ⟨0, 0, (up), (up), by decide +kernel⟩⟩
end GridTracker

namespace ModeRequests
def md (l : List (Fld × Nat)) : State := put { up with safe := { up.safe with hold := false } } l
/-- The hypotheses of each clause of `ModeRequests` are met together. -/
theorem witness_ModeRequests :
  (∃ (v : Word) (s : State) (u : State) (r : Nat), (s.turn 0x44 v = some u) ∧ (F.SYS_MODEREQ.of v = r) ∧ (r = u.modeNow)) ∧
  (∃ (v : Word) (s : State) (u : State) (r : Nat) (x : Nat), (s.turn 0x44 v = some u) ∧ (F.SYS_MODEREQ.of v = r) ∧ (r ≠ u.modeNow) ∧ ((x = 2 ∧ r = 4 ∧ u.has Pg.FORM = false) ∨
          (x = 1 ∧ (r = 4 → u.has Pg.FORM = true) ∧ reqAllowed u.modeNow r = false) ∨
          (x = 3 ∧ (r = 4 → u.has Pg.FORM = true) ∧ reqAllowed u.modeNow r = true ∧ u.rd F.SYS_MOVING = 1) ∨
          (x ≠ 0 ∧ (r = 4 → u.has Pg.FORM = true) ∧ reqAllowed u.modeNow r = true ∧ u.rd F.SYS_MOVING = 0 ∧ u.reqPerm u.modeNow r = x))) ∧
  (∃ (v : Word) (s : State) (u : State) (r : Nat), (s.turn 0x44 v = some u) ∧ (F.SYS_MODEREQ.of v = r) ∧ (r ≠ u.modeNow) ∧ ((r = 4 → u.has Pg.FORM = true)) ∧ (reqAllowed u.modeNow r = true) ∧ (u.rd F.SYS_MOVING = 0) ∧ (u.reqPerm u.modeNow r = 0)) ∧
  (∃ (s : State), (s.modeNow = 0)) :=
  ⟨⟨0, (up), (up), 0, by decide +kernel⟩,
  ⟨1, (up), (up), 1, 4, by decide +kernel⟩,
  ⟨1, (md [(F.BOOT_DONE, 1)]), (md [(F.BOOT_DONE, 1)]), 1, by decide +kernel⟩,
  ⟨(up), by decide +kernel⟩⟩
end ModeRequests

/-- The hypotheses of each clause of `HardwareTransitions` are met together. -/
theorem witness_HardwareTransitions :
  (∃ (s : State), (s.mode.ramp = false) ∧ (1 ∈ s.mode.due) ∧ (s.mayGo 1 = true)) ∧
  (∃ (s : State), (s.mode.ramp = false) ∧ (1 ∉ s.mode.due ∨ s.mayGo 1 = false)) ∧
  (∃ (s : State), (s.mode.ramp = true) ∧ (1 ∈ s.mode.due) ∧ (s.mayGo 1 = true)) ∧
  (∃ (s : State), (s.mode.ramp = true) ∧ (s.mayGo 10 = true)) ∧
  (∃ (s : State), (s.mode.ramp = true) ∧ (s.mayGo 10 = false) ∧ (leads 10 s.modeNow = true)) ∧
  (∃ (s : State), (s.mode.ramp = true) ∧ (s.mayGo 10 = false) ∧ (s.rd F.SAFE_PHASE ≠ 1)) ∧
  (∃ (k : Nat) (c : Instr) (s : State), ((k = 3 ∧ c = .modeCurve) ∨ (k = 4 ∧ c = .modeIsland) ∨ (k = 5 ∧ c = .modeTrip)) ∧ (k ∈ s.mode.due) ∧ (s.mayGo k = true)) ∧
  (∃ (k : Nat) (c : Instr) (s : State), ((k = 3 ∧ c = .modeCurve) ∨ (k = 4 ∧ c = .modeIsland) ∨ (k = 5 ∧ c = .modeTrip)) ∧ (k ∉ s.mode.due ∨ s.mayGo k = false)) ∧
  (∃ (s : State), (s.mayGo 2 = true) ∧ (s.rd F.RIDE_RECOV = 1) ∧ (s.rd F.RIDE_MC = 0) ∧ (s.rd F.SYS_PRIOR = 3 ∨ s.rd F.SYS_PRIOR = 4)) ∧
  (∃ (s : State), (s.mayGo 2 = false) ∧ (s.rd F.RIDE_RECOV = 1) ∧ (s.rd F.RIDE_MC = 0) ∧ (leads 2 s.modeNow = true)) ∧
  (∃ (s : State), (s.mayGo 2 = false) ∧ (s.rd F.RIDE_RECOV = 1) ∧ (s.rd F.RIDE_MC = 0) ∧ (s.rd F.SAFE_PHASE ≠ 1)) ∧
  (∃ (s : State), (s.rd F.RIDE_RECOV = 0 ∨ s.rd F.RIDE_MC = 1)) ∧
  (∃ (s : State), (s.mayGo 8 = true) ∧ (s.reconOk = true)) ∧
  (∃ (s : State), (s.mayGo 8 = false) ∧ (s.reconOk = true) ∧ (leads 8 s.modeNow = true)) ∧
  (∃ (s : State), (s.mayGo 8 = false) ∧ (s.reconOk = true) ∧ (s.rd F.SAFE_PHASE ≠ 1)) ∧
  (∃ (s : State), (s.reconOk = false)) ∧
  (∃ (s : State), (s.mode.autoDue = true) ∧ (s.mayGo 9 = true) ∧ (s.rd F.SYS_PRIOR = 3) ∧ (s.rd F.SYS_MOVING = 0) ∧ (s.reqPerm 2 3 = 0)) ∧
  (∃ (s : State), (s.mode.autoDue = false ∨ s.mayGo 9 = false)) ∧
  (∃ (s : State), (s.rd F.SAFE_PHASE = 1 ∨ s.mode.hwAt = some s.tick)) :=
  ⟨⟨({ put up [(F.SYS_MODE, 3), (F.RIDE_ENTCNT, 65535)] with mode := { up.mode with due := [1] } }), by decide +kernel⟩,
  ⟨(up), by decide +kernel⟩,
  ⟨({ put up [(F.SYS_MODE, 3), (F.SYS_MOVING, 1)] with mode := { up.mode with ramp := true, due := [1] } }), by decide +kernel⟩,
  ⟨({ put up [(F.SYS_MODE, 4), (F.SYS_MOVING, 1)] with mode := { up.mode with ramp := true } }), by decide +kernel⟩,
  ⟨({ put up [(F.SYS_MODE, 3), (F.SYS_MOVING, 1)] with mode := { up.mode with ramp := true, due := [1] } }), by decide +kernel⟩,
  ⟨({ put up [(F.SYS_MODE, 3), (F.SYS_MOVING, 1)] with mode := { up.mode with ramp := true, due := [1] } }), by decide +kernel⟩,
  ⟨5, .modeTrip, ({ put up [(F.SYS_MODE, 4), (F.SYS_MOVING, 1)] with mode := { up.mode with ramp := true, due := [5] } }), by decide +kernel⟩,
  ⟨3, .modeCurve, (up), by decide +kernel⟩,
  ⟨({ put up [(F.SYS_MODE, 5), (F.SYS_PRIOR, 4), (F.RIDE_RECOV, 1), (F.RIDE_RECCNT, 9)] with mode := { up.mode with due := [] } }), by decide +kernel⟩,
  ⟨({ put up [(F.SYS_MODE, 5), (F.SYS_PRIOR, 4), (F.RIDE_RECOV, 1)] with mode := { up.mode with hwAt := some up.tick } }), by decide +kernel⟩,
  ⟨({ put up [(F.SYS_MODE, 5), (F.SYS_PRIOR, 4), (F.RIDE_RECOV, 1)] with mode := { up.mode with hwAt := some up.tick } }), by decide +kernel⟩,
  ⟨(up), by decide +kernel⟩,
  ⟨({ put up [(F.SYS_MODE, 6), (F.SYS_AUTORES, 1), (F.SAFE_CVALID, 1), (F.SAFE_CONFIRM, up.rd F.SAFE_CHECK), (F.SAFE_STOA, 0), (F.BOOT_DONE, 1), (F.SAFE_SSDEM, 0)] with safe := { up.safe with tested := true, hold := false, lvlA := false, lvlB := false, accepted0 := true } }), by decide +kernel⟩,
  ⟨({ put up [(F.SYS_MODE, 6), (F.SYS_AUTORES, 1), (F.SAFE_CVALID, 1), (F.SAFE_CONFIRM, up.rd F.SAFE_CHECK), (F.SAFE_STOA, 0), (F.BOOT_DONE, 1), (F.SAFE_SSDEM, 0)] with mode := { up.mode with hwAt := some up.tick }, safe := { up.safe with tested := true, hold := false, lvlA := false, lvlB := false, accepted0 := true } }), by decide +kernel⟩,
  ⟨({ put up [(F.SYS_MODE, 6), (F.SYS_AUTORES, 1), (F.SAFE_CVALID, 1), (F.SAFE_CONFIRM, up.rd F.SAFE_CHECK), (F.SAFE_STOA, 0), (F.BOOT_DONE, 1), (F.SAFE_SSDEM, 0)] with mode := { up.mode with hwAt := some up.tick }, safe := { up.safe with tested := true, hold := false, lvlA := false, lvlB := false, accepted0 := true } }), by decide +kernel⟩,
  ⟨(up), by decide +kernel⟩,
  ⟨({ put up [(F.SYS_MODE, 2), (F.SYS_PRIOR, 3), (F.SAFE_CVALID, 1), (F.SAFE_CONFIRM, up.rd F.SAFE_CHECK), (F.BOOT_DONE, 1), (F.SAFE_SSDEM, 0)] with mode := { up.mode with autoDue := true } }), by decide +kernel⟩,
  ⟨(up), by decide +kernel⟩,
  ⟨(put up [(F.SAFE_PHASE, 1)]), by decide +kernel⟩⟩

namespace AllocationAndForming
def al (l : List (Fld × Nat)) : State := put up ([(F.CH_TYPE 0, 0), (F.EN (Pg.CH 0), 1), (F.CH_IRATED 0, 0x42480000), (F.CH_KAGE 0, 0x3F800000), (subF 0, 2)] ++ l)
/-- The hypotheses of each clause of `AllocationAndForming` are met together. -/
theorem witness_AllocationAndForming :
  (∃ (c : Fin 8) (s : State), (s.chEn c = true) ∧ (s.isGrid c = true) ∧ (s.modeNow = 3 ∨ s.modeNow = 4 ∨ s.modeNow = 5) ∧ (s.rd F.RIDE_MC = 0)) ∧
  (∃ (c : Fin 8) (s : State), (s.chEn c = true) ∧ (s.isGrid c = true) ∧ (s.modeNow < 3 ∨ 5 < s.modeNow ∨ s.rd F.RIDE_MC = 1)) ∧
  (∃ (c : Fin 8) (s : State), (s.chEn c = false ∨ s.isGrid c = false)) ∧
  (∃ (c : Fin 8) (s : State), (s.forming c = true) ∧ ((s.form c).vilRun = true) ∧ ((s.form c).rise = none)) ∧
  (∃ (c : Fin 8) (s : State), (s.forming c = false ∨ (s.form c).vilRun = false ∨ (s.form c).rise ≠ none)) ∧
  (∃ (c : Fin 8) (s : State), (s.has Pg.FORM = true) ∧ (s.rd (F.FORM_FALLBK c) = 1) ∧ (s.modeNow = 4) ∧ ((s.form c).retRun = true)) ∧
  (∃ (c : Fin 8) (s : State), (s.rd (F.FORM_FALLBK c) = 0 ∨ s.modeNow ≠ 4 ∨ (s.form c).retRun = false)) ∧
  (∃ (c : Fin 8) (s : State), (s.has Pg.FORM = true) ∧ (s.chEn c = true) ∧ (s.isGrid c = true) ∧ (s.deadNow c = true)) ∧
  (∃ (c : Fin 8) (s : State), (s.has Pg.FORM = false ∨ s.chEn c = false ∨ s.isGrid c = false ∨ s.deadNow c = false)) ∧
  (∃ (c : Fin 8) (s : State), ((s.form c).rise ≠ none)) ∧
  (∃ (c : Fin 8) (s : State), ((s.form c).rise = none)) :=
  ⟨⟨0, (al [(F.SYS_MODE, 3)]), by decide +kernel⟩,
  ⟨0, (al [(F.SYS_MODE, 5), (F.RIDE_MC, 1)]), by decide +kernel⟩,
  ⟨0, (up), by decide +kernel⟩,
  ⟨0, ({ al [(F.SYS_MODE, 4), (F.FORM_EN 0, 1), (F.FORM_FBCNT 0, 65535)] with forms := [(0, { vilRun := true })] }), by decide +kernel⟩,
  ⟨0, (up), by decide +kernel⟩,
  ⟨0, ({ al [(F.SYS_MODE, 4), (F.FORM_EN 0, 1), (F.FORM_FALLBK 0, 1)] with forms := [(0, { retRun := true })] }), by decide +kernel⟩,
  ⟨0, (up), by decide +kernel⟩,
  ⟨0, (al [(F.FORM_VDEAD 0, 0x41200000)]), by decide +kernel⟩,
  ⟨0, (up), by decide +kernel⟩,
  ⟨0, ({ al [(F.SYS_MODE, 4), (F.FORM_EN 0, 1)] with forms := [(0, { vilRun := true, rise := some 0 })] }), by decide +kernel⟩,
  ⟨0, (up), by decide +kernel⟩⟩
end AllocationAndForming

/-- The hypotheses of each clause of `RideThroughAndIslanding` are met together. -/
theorem witness_RideThroughAndIslanding :
  (∃ (k : Nat) (l : List Nat) (s : State), (s.modeNow = 5) ∧ (s.enabled Pg.RIDE = true) ∧ (s.rideDue = k :: l)) ∧
  (∃ (s : State), (s.modeNow ≠ 5 ∨ s.enabled Pg.RIDE = false ∨ s.rideDue = [])) ∧
  (∃ (v : Word) (s : State) (u : State), (s.turn 0x16040 v = some u) ∧ (u.rd F.ISL_INJON = 1) ∧ (F.ISL_PMODE.of v ≠ u.rd F.ISL_PMODE)) ∧
  (∃ (v : Word) (s : State) (u : State), (s.turn 0x16040 v = some u) ∧ (u.rd F.ISL_INJON = 0) ∧ (0x3F0 < F.ISL_PRBRAM.of v)) ∧
  (∃ (v : Word) (s : State) (u : State), (s.turn 0x16040 v = some u) ∧ (u.rd F.ISL_INJON = 0) ∧ (F.ISL_PRBRAM.of v ≤ 0x3F0) ∧ (F.ISL_TESTISL.of v = 0)) ∧
  (∃ (s : State), (s.probeDue = false)) ∧
  (∃ (s : State), (s.probeCycles ≠ s.isl.cycles) ∧ (s.probeCycles % s.rd F.ISL_NCYC = 0)) ∧
  (∃ (v : Word) (s : State) (u : State), (s.turn 0x16040 (F.ISL_TESTISL.put v 1) = some u) ∧ (u.rd F.ISL_INJON = 0) ∧ (F.ISL_PRBRAM.of v ≤ 0x3F0) ∧ (u.modeNow ≠ 4) ∧ (u.modeNow = 3 ∨ u.modeNow = 5)) ∧
  (∃ (p : Fin 2) (s : State), (s.passive p = true) ∧ ((s.zport p).roc = true)) ∧
  (∃ (p : Fin 2) (s : State), (s.passive p = false ∨ (s.zport p).roc = false)) ∧
  (∃ (s : State), (s.rd F.ISL_HOLD = 1) ∧ (s.isl.told = false)) ∧
  (∃ (s : State), (s.rd F.ISL_HOLD = 0 ∨ s.isl.told = true)) ∧
  (∃ (s : State), (s.rd F.ISL_FBACT = 1) ∧ (s.modeNow = 3 ∨ s.modeNow = 5) ∧ (s.isl.afd = true)) ∧
  (∃ (s : State), (s.rd F.ISL_FBACT = 0 ∨ s.isl.afd = false)) :=
  ⟨⟨0, [3], ({ put up [(F.SYS_MODE, 5), (F.EN Pg.RIDE, 1), (F.RIDE_NLV, 4)] with ride := { up.ride with timers := [(0, 1000000000000), (3, 1)] } }), by decide +kernel⟩,
  ⟨(up), by decide +kernel⟩,
  ⟨0xFFFFFFFF, (put up [(F.ISL_INJON, 1)]), (put up [(F.ISL_INJON, 1)]), by decide +kernel⟩,
  ⟨0x3F1, (up), (up), by decide +kernel⟩,
  ⟨0, (up), (up), by decide +kernel⟩,
  ⟨(up), by decide +kernel⟩,
  ⟨({ put up [(F.ISL_INJ, 1), (F.ISL_FBACT, 1)] with isl := { up.isl with fbEnd := true, cycles := 7 } }), by decide +kernel⟩,
  ⟨0, ({ put up [(F.SYS_MODE, 5), (F.EN Pg.RIDE, 1), (F.RIDE_NLV, 4)] with ride := { up.ride with timers := [(0, 1000000000000), (3, 1)] } }), ({ put up [(F.SYS_MODE, 5), (F.EN Pg.RIDE, 1), (F.RIDE_NLV, 4)] with ride := { up.ride with timers := [(0, 1000000000000), (3, 1)] } }), by decide +kernel⟩,
  ⟨0, ({ put up [(F.SYS_MODE, 3), (F.GRID_VALID 0, 1), (F.GRID_VALID 1, 1), (F.CH_TYPE 0, 0), (F.EN (Pg.CH 0), 1), (F.EN (Pg.CH 1), 1), (F.CH_PORT 1, 1), (F.EN Pg.ISL, 1)] with isl := { up.isl with z0 := { roc := true }, z1 := { roc := true }, served := 3 } }), by decide +kernel⟩,
  ⟨0, (up), by decide +kernel⟩,
  ⟨(put up [(F.ISL_HOLD, 1)]), by decide +kernel⟩,
  ⟨(up), by decide +kernel⟩,
  ⟨({ put up [(F.SYS_MODE, 3), (F.ISL_FBACT, 1)] with isl := { up.isl with afd := true } }), by decide +kernel⟩,
  ⟨(up), by decide +kernel⟩⟩

namespace DcChannels
def dcs (l : List (Fld × Nat)) : State := put up ([(F.EN (Pg.CH 0), 1), (F.CH_TYPE 0, 2), (F.EN (Pg.CH 7), 1), (F.CH_TYPE 7, 2)] ++ l)
def dth (c i : Nat) (l : List (Fld × Nat)) (m : DcM) (tk : Nat) : State := { put up ([(F.EN (Pg.CH c), 1), (F.CH_TYPE c, 2), (F.CH_ALMIDX c, i), (subF c, 3)] ++ l) with tick := tk, dcs := [(c, m)], alm := { up.alm with left := [(i, 10, 0)] } }
/-- The hypotheses of each clause of `DcChannels` are met together. -/
theorem witness_DcChannels :
  (∃ (c : Fin 8) (s : State), (s.isDc c = true) ∧ (s.rd (F.CH_SCANPER c) ≠ 0) ∧ (s.rd (F.CH_DCMODE c) = 0) ∧ ((s.dc c).scan = none)) ∧
  (∃ (c : Fin 8) (s : State), (s.isDc c = false ∨ s.rd (F.CH_SCANPER c) = 0 ∨ s.rd (F.CH_DCMODE c) = 1 ∨ (s.dc c).scan ≠ none)) ∧
  (∃ (c : Fin 8) (s : State), (s.isDc c = true) ∧ (s.rd (F.CH_DCMODE c) = 1) ∧ (F32.lt (s.battOn c) 0 = true) ∧ (s.rd (F.CH_CV c) = 1) ∧ (F32.le (F32.abs (s.dcI c)) (s.dcSlot c 6) = true)) ∧
  (∃ (c : Fin 8) (s : State), (s.isDc c = false ∨ s.rd (F.CH_DCMODE c) = 0 ∨ F32.lt (s.battOn c) 0 = false ∨ s.rd (F.CH_CV c) = 0 ∨
    F32.le (F32.abs (s.dcI c)) (s.dcSlot c 6) = false)) ∧
  (∃ (c : Fin 8) (s : State), (s.isDc c = true) ∧ (s.sub c = 2) ∧ (s.rd (F.CH_DCMODE c) = 0)) ∧
  (∃ (c : Fin 8) (s : State), (s.isDc c = false ∨ s.sub c ≠ 2)) ∧
  (∃ (c : Fin 8) (i : Fin 256) (n : Nat) (s : State) (u : State), (s.phase = .up) ∧ (s.rung < 3) ∧ (s.timeOrder 4 = u) ∧ (u.almOn = []) ∧ (u.phase = .up) ∧ (u.rung = 0) ∧ (u.alm.left = [(i.val, 0x0A, n)]) ∧ (u.dcRuns c = true) ∧ (u.rd (F.CH_ALMIDX c) = i) ∧ ((∀ d : Nat, d < 8 → d ≠ (c : Nat) → u.isDc d = false)) ∧ ((u.dc c).scan = none) ∧ ((u.dc c).scanDue = false) ∧ ((u.dc c).startTk = none) ∧ (let d := u.dc c;
 (d.open_ = false))) ∧
  (∃ (c : Fin 8) (i : Fin 256) (n : Nat) (s : State) (u : State), (s.phase = .up) ∧ (s.rung < 3) ∧ (s.timeOrder 4 = u) ∧ (u.almOn = []) ∧ (u.phase = .up) ∧ (u.rung = 0) ∧ (u.alm.left = [(i.val, 0x0A, n)]) ∧ (u.dcRuns c = true) ∧ (u.rd (F.CH_ALMIDX c) = i) ∧ ((∀ d : Nat, d < 8 → d ≠ (c : Nat) → u.isDc d = false)) ∧ ((u.dc c).scan = none) ∧ ((u.dc c).scanDue = false) ∧ ((u.dc c).startTk = none) ∧ (let d := u.dc c;
 (d.open_ = true) ∧ (d.neg = false))) ∧
  (∃ (c : Fin 8) (i : Fin 256) (n : Nat) (s : State) (u : State), (s.phase = .up) ∧ (s.rung < 3) ∧ (s.timeOrder 4 = u) ∧ (u.almOn = []) ∧ (u.phase = .up) ∧ (u.rung = 0) ∧ (u.alm.left = [(i.val, 0x0A, n)]) ∧ (u.dcRuns c = true) ∧ (u.rd (F.CH_ALMIDX c) = i) ∧ ((∀ d : Nat, d < 8 → d ≠ (c : Nat) → u.isDc d = false)) ∧ ((u.dc c).scan = none) ∧ ((u.dc c).scanDue = false) ∧ ((u.dc c).startTk = none) ∧ (let d := u.dc c;
 (let bad := 2 * (u.tick - d.t0) < 500000 ∨ 5000000 < 2 * (u.tick - d.t0) ∨ d.cnt = 0;
 (d.open_ = true) ∧ (d.neg = true) ∧ (d.void = true ∨ bad)))) ∧
  (∃ (c : Fin 8) (i : Fin 256) (n : Nat) (s : State) (u : State), (s.phase = .up) ∧ (s.rung < 3) ∧ (s.timeOrder 4 = u) ∧ (u.almOn = []) ∧ (u.phase = .up) ∧ (u.rung = 0) ∧ (u.alm.left = [(i.val, 0x0A, n)]) ∧ (u.dcRuns c = true) ∧ (u.rd (F.CH_ALMIDX c) = i) ∧ ((∀ d : Nat, d < 8 → d ≠ (c : Nat) → u.isDc d = false)) ∧ ((u.dc c).scan = none) ∧ ((u.dc c).scanDue = false) ∧ ((u.dc c).startTk = none) ∧ (let d := u.dc c;
 (let bad := 2 * (u.tick - d.t0) < 500000 ∨ 5000000 < 2 * (u.tick - d.t0) ∨ d.cnt = 0;
 (d.open_ = true) ∧ (d.neg = true) ∧ (d.void = false) ∧ (¬bad) ∧ (u.sub c = 3)))) :=
  ⟨⟨0, (dcs []), by decide +kernel⟩,
  ⟨0, (up), by decide +kernel⟩,
  ⟨0, ({ dcs [(F.CH_DCMODE 0, 1), (F.CH_CV 0, 1)] with dcs := [(0, { slots := [(0, 0xC0000000), (3, 0x41200000), (4, 0x41200000), (6, 0x3F800000)] })] }), by decide +kernel⟩,
  ⟨0, (up), by decide +kernel⟩,
  ⟨0, (dcs [(subF 0, 2), (subF 7, 2)]), by decide +kernel⟩,
  ⟨0, (up), by decide +kernel⟩,
  ⟨0, 5, 0, (dth 0 5 [] {} 1000000), (dth 0 5 [] {} 1000000), by decide +kernel⟩,
  ⟨0, 5, 0, (dth 0 5 [] { open_ := true, t0 := 0, cnt := 2, sum := 5 } 1000000), (dth 0 5 [] { open_ := true, t0 := 0, cnt := 2, sum := 5 } 1000000), by decide +kernel⟩,
  ⟨0, 5, 0, (dth 0 5 [] { open_ := true, neg := true, t0 := 0, cnt := 2, sum := 3, pPos := 0x40000000, dv := 0x3F800000, vop := 0x41200000 } 100), (dth 0 5 [] { open_ := true, neg := true, t0 := 0, cnt := 2, sum := 3, pPos := 0x40000000, dv := 0x3F800000, vop := 0x41200000 } 100), by decide +kernel⟩,
  ⟨0, 5, 0, (dth 0 5 [] { open_ := true, neg := true, t0 := 0, cnt := 2, sum := 3, pPos := 0x40000000, dv := 0x3F800000, vop := 0x41200000 } 1000000), (dth 0 5 [] { open_ := true, neg := true, t0 := 0, cnt := 2, sum := 3, pPos := 0x40000000, dv := 0x3F800000, vop := 0x41200000 } 1000000), by decide +kernel⟩⟩
end DcChannels

/-- The hypotheses of each clause of `LoopEngine` are met together. -/
theorem witness_LoopEngine :
  (∃ (v : Word) (s : State) (u : State), (s.turn 0x11040 (F.LENG_ADMGO.put v 1) = some u) ∧ (u.leng.admitAt = none)) ∧
  (∃ (v : Word) (s : State) (u : State), (s.turn 0x11040 (F.LENG_ADMGO.put v 1) = some u) ∧ (u.leng.admitAt ≠ none)) ∧
  (∃ (s : State), (s.leng.admitAt = none)) ∧
  (∃ (m : Nat) (s : State), (s.leng.admitAt = some m) ∧ (s.modeNow = 5)) ∧
  (∃ (m : Nat) (s : State), (s.leng.admitAt = some m) ∧ (s.modeNow ≠ 5) ∧ (m = 0)) ∧
  (∃ (s : State), (s.enabled Pg.LENG = false ∨ s.rung ≠ 0 ∨ 4 ≤ s.leng.lanes.length ∨ s.leng.wait = [])) ∧
  (∃ (s : State), (s.enabled Pg.LENG = true) ∧ (s.rung = 0) ∧ (s.leng.lanes.length < 4) ∧ (s.leng.wait ≠ []) ∧ (s.leng.lanes.length < 3)) ∧
  (∃ (d : Fin 64) (s : State), ((∀ r ∈ s.leng.lanes, r.d ≠ d))) ∧
  (∃ (d : Fin 64) (r : LoopRun) (l : List LoopRun) (s : State), (s.leng.lanes = r :: l) ∧ (r.d = d) ∧ (let a := stagesRun { s with leng := { s.leng with lanes := l } } r;
 (a.num ≠ 0))) ∧
  (∃ (d : Fin 64) (r : LoopRun) (l : List LoopRun) (s : State), (s.leng.lanes = r :: l) ∧ (r.d = d) ∧ (let a := stagesRun { s with leng := { s.leng with lanes := l } } r;
 (a.pois = true) ∧ (r.ch < 8))) ∧
  (∃ (d : Fin 64) (r : LoopRun) (l : List LoopRun) (s : State), (s.leng.lanes = r :: l) ∧ (r.d = d) ∧ (r.dead = true)) ∧
  (∃ (d : Fin 64) (r : LoopRun) (l : List LoopRun) (s : State), (s.leng.lanes = r :: l) ∧ (r.d = d) ∧ (let a := stagesRun { s with leng := { s.leng with lanes := l } } r;
 (a.pis = []))) :=
  ⟨⟨0, (up), (up), by decide +kernel⟩,
  ⟨0, ({ up with leng := { up.leng with admitAt := some 0 } }), ({ up with leng := { up.leng with admitAt := some 0 } }), by decide +kernel⟩,
  ⟨(up), by decide +kernel⟩,
  ⟨0, ({ up with leng := { up.leng with admitAt := some 0 }, regs := (put up [(F.SYS_MODE, 5)]).regs }), by decide +kernel⟩,
  ⟨0, ({ up with leng := { up.leng with admitAt := some 0 } }), by decide +kernel⟩,
  ⟨(up), by decide +kernel⟩,
  ⟨({ put up [(F.EN Pg.LENG, 1)] with leng := { up.leng with wait := [(2, 5, 3), (0, 7, 1)] } }), by decide +kernel⟩,
  ⟨0, (up), by decide +kernel⟩,
  ⟨63, { d := 63, ch := 0, nstg := 1 }, [], ({ ((up.write32 (descBase 63 + 0x40) 0xC0000000 false).write32 (loopBase 63) 0x7FC00000 false) with leng := { up.leng with lanes := [{ d := 63, ch := 0, nstg := 1 }] } }), by decide +kernel⟩,
  ⟨4, { d := 4, ch := 7, dead := true }, [], ({ up with leng := { up.leng with lanes := [{ d := 4, ch := 7, dead := true }] } }), by decide +kernel⟩,
  ⟨4, { d := 4, ch := 7, dead := true }, [], ({ up with leng := { up.leng with lanes := [{ d := 4, ch := 7, dead := true }] } }), by decide +kernel⟩,
  ⟨4, { d := 4, ch := 7, nstg := 0 }, [], ({ up with leng := { up.leng with lanes := [{ d := 4, ch := 7, nstg := 0 }] } }), by decide +kernel⟩⟩

/-- The hypotheses of each clause of `AlmanacEntries` are met together. -/
theorem witness_AlmanacEntries :
  (∃ (v : Word) (s : State) (u : State) (e : AlmEnt), (s.turn 0x10044 (F.ALM_WR.put v 1) = some u) ∧ (u.alm.fresh = []) ∧ (e = ⟨u.rd64 F.ALM_EN, u.rd64 F.ALM_VHI⟩) ∧ (e.en = true) ∧ (u.almBad e = true) ∧ (F.ALM_RD.of v = 0)) ∧
  (∃ (v : Word) (s : State) (u : State) (e : AlmEnt), (s.turn 0x10044 (F.ALM_WR.put v 1) = some u) ∧ (u.alm.fresh = []) ∧ (e = ⟨u.rd64 F.ALM_EN, u.rd64 F.ALM_VHI⟩) ∧ (e.en = false ∨ u.almBad e = false) ∧ (F.ALM_RD.of v = 0)) ∧
  (∃ (i : Fin 256) (lo : BitVec 64) (hi : BitVec 64) (p : Bool) (q : Bool) (s : State), (s.pending = []) ∧ (s.phase = .up) ∧ (s.alm.fresh = [⟨i.val, lo.toNat, hi.toNat, p, q⟩])) ∧
  (∃ (v : Word) (s : State) (u : State), (s.turn 0x10044 (F.ALM_RD.put v 1) = some u) ∧ (F.ALM_WR.of v = 0) ∧ (u.alm.fresh = []) ∧ (u.synd (almAddr (u.rd F.ALM_IDX)) = 0) ∧ (u.synd (almAddr (u.rd F.ALM_IDX) + 8) = 0)) ∧
  (∃ (v : Word), (F.ALM_WR.of v = 1) ∧ (F.ALM_RD.of v = 1)) ∧
  (∃ (s : State), (s.phase ≠ .up ∨ 3 ≤ s.rung)) ∧
  (∃ (s : State) (u : State) (z : State) (due : List (Nat × Nat × Nat)), (s.phase = .up) ∧ (s.rung < 3) ∧ (s.timeOrder 4 = u) ∧ (u.phase = .up) ∧ (u.rung = 0) ∧ (u.almScan true = (z, due)) ∧ (u.alm.left = []) ∧ (u.almOn = [])) ∧
  (∃ (s : State) (u : State), (s.phase = .up) ∧ (s.rung < 3) ∧ (s.timeOrder 4 = u) ∧ (u.almOn = []) ∧ (u.phase = .up) ∧ (u.rung = 1 ∨ u.rung = 2) ∧ ((∀ x ∈ u.alm.left, x.2.1 ≠ 0x0A))) ∧
  (∃ (i : Fin 256) (s : State) (e : AlmEnt), (s.timeOrder 4 = s) ∧ (s.almOn = [i.val]) ∧ (s.almEnt i = (s, some e)) ∧ (s.phase = .up) ∧ (s.rung = 0) ∧ (s.alm.left = []) ∧ (e.base = 0) ∧ (e.rep = 0) ∧ (e.en = true) ∧ (reached 64 s.now64 e.time = true)) ∧
  (∃ (i : Fin 256) (s : State) (e : AlmEnt), (s.timeOrder 4 = s) ∧ (s.almOn = [i.val]) ∧ (s.almEnt i = (s, some e)) ∧ (s.phase = .up) ∧ (s.rung = 0) ∧ (s.alm.left = []) ∧ (e.base = 0) ∧ (e.rep = 0) ∧ (e.en = true) ∧ (reached 64 s.now64 e.time = false)) ∧
  (∃ (i : Fin 256) (s : State), (s.timeOrder 4 = s) ∧ (s.almOn = [i.val]) ∧ (s.synd (almAddr i) = 0xFF) ∧ (s.phase = .up) ∧ (s.rung = 0) ∧ (s.alm.left = [])) ∧
  (∃ (i : Fin 256) (g : Nat) (n : Nat) (s : State) (u : State), (s.phase = .up) ∧ (s.rung < 3) ∧ (s.timeOrder 4 = u) ∧ (u.almOn = []) ∧ (u.phase = .up) ∧ (u.rung = 0) ∧ (u.alm.left = [(i.val, g, n)]) ∧ ((∀ c : Nat, c < 8 → u.isDc c = true → u.rd (F.CH_ALMIDX c) ≠ i)) ∧ (g = 1) ∧ (u.enabled Pg.LENG = true)) ∧
  (∃ (i : Fin 256) (g : Nat) (n : Nat) (s : State) (u : State), (s.phase = .up) ∧ (s.rung < 3) ∧ (s.timeOrder 4 = u) ∧ (u.almOn = []) ∧ (u.phase = .up) ∧ (u.rung = 0) ∧ (u.alm.left = [(i.val, g, n)]) ∧ ((∀ c : Nat, c < 8 → u.isDc c = true → u.rd (F.CH_ALMIDX c) ≠ i)) ∧ (g = 2) ∧ (u.enabled Pg.LENG = true) ∧ (u.loopActive n = true) ∧ ((∀ e ∈ u.leng.wait, e.2.2 ≠ n))) ∧
  (∃ (i : Fin 256) (g : Nat) (n : Nat) (s : State) (u : State), (s.phase = .up) ∧ (s.rung < 3) ∧ (s.timeOrder 4 = u) ∧ (u.almOn = []) ∧ (u.phase = .up) ∧ (u.rung = 0) ∧ (u.alm.left = [(i.val, g, n)]) ∧ ((∀ c : Nat, c < 8 → u.isDc c = true → u.rd (F.CH_ALMIDX c) ≠ i)) ∧ (g = 3) ∧ (u.enabled Pg.PADC = true) ∧ (u.rd (F.PADC_EN (n % 2)) = 1) ∧ (u.padcRung = true) ∧ ((u.conv (n % 2)).startAt ≠ some u.tick) ∧ (u.rd (F.PADC_RUN (n % 2)) = 0) ∧ (u.rd (F.PADC_CALBUSY (n % 2)) = 0)) ∧
  (∃ (i : Fin 256) (g : Nat) (n : Nat) (s : State) (u : State), (s.phase = .up) ∧ (s.rung < 3) ∧ (s.timeOrder 4 = u) ∧ (u.almOn = []) ∧ (u.phase = .up) ∧ (u.rung = 0) ∧ (u.alm.left = [(i.val, g, n)]) ∧ ((∀ c : Nat, c < 8 → u.isDc c = true → u.rd (F.CH_ALMIDX c) ≠ i)) ∧ (g = 4)) ∧
  (∃ (i : Fin 256) (g : Nat) (n : Nat) (s : State) (u : State), (s.phase = .up) ∧ (s.rung < 3) ∧ (s.timeOrder 4 = u) ∧ (u.almOn = []) ∧ (u.phase = .up) ∧ (u.rung = 0) ∧ (u.alm.left = [(i.val, g, n)]) ∧ ((∀ c : Nat, c < 8 → u.isDc c = true → u.rd (F.CH_ALMIDX c) ≠ i)) ∧ (g = 5) ∧ (u.rd (F.MTR_EN (n % 2)) = 1)) ∧
  (∃ (i : Fin 256) (g : Nat) (n : Nat) (s : State) (u : State), (s.phase = .up) ∧ (s.rung < 3) ∧ (s.timeOrder 4 = u) ∧ (u.almOn = []) ∧ (u.phase = .up) ∧ (u.rung = 0) ∧ (u.alm.left = [(i.val, g, n)]) ∧ ((∀ c : Nat, c < 8 → u.isDc c = true → u.rd (F.CH_ALMIDX c) ≠ i)) ∧ (g = 6)) ∧
  (∃ (i : Fin 256) (g : Nat) (n : Nat) (s : State) (u : State), (s.phase = .up) ∧ (s.rung < 3) ∧ (s.timeOrder 4 = u) ∧ (u.almOn = []) ∧ (u.phase = .up) ∧ (u.rung = 0) ∧ (u.alm.left = [(i.val, g, n)]) ∧ ((∀ c : Nat, c < 8 → u.isDc c = true → u.rd (F.CH_ALMIDX c) ≠ i)) ∧ (g = 7)) ∧
  (∃ (i : Fin 256) (g : Nat) (n : Nat) (s : State) (u : State), (s.phase = .up) ∧ (s.rung < 3) ∧ (s.timeOrder 4 = u) ∧ (u.almOn = []) ∧ (u.phase = .up) ∧ (u.rung = 0) ∧ (u.alm.left = [(i.val, g, n)]) ∧ ((∀ c : Nat, c < 8 → u.isDc c = true → u.rd (F.CH_ALMIDX c) ≠ i)) ∧ (g = 8) ∧ (u.stRefused (n % 16) = true)) ∧
  (∃ (i : Fin 256) (g : Nat) (n : Nat) (s : State) (u : State), (s.phase = .up) ∧ (s.rung < 3) ∧ (s.timeOrder 4 = u) ∧ (u.almOn = []) ∧ (u.phase = .up) ∧ (u.rung = 0) ∧ (u.alm.left = [(i.val, g, n)]) ∧ ((∀ c : Nat, c < 8 → u.isDc c = true → u.rd (F.CH_ALMIDX c) ≠ i)) ∧ (g = 8) ∧ (u.stRefused (n % 16) = false) ∧ (u.stRun = none)) ∧
  (∃ (i : Fin 256) (g : Nat) (n : Nat) (s : State) (u : State), (s.phase = .up) ∧ (s.rung < 3) ∧ (s.timeOrder 4 = u) ∧ (u.almOn = []) ∧ (u.phase = .up) ∧ (u.rung = 0) ∧ (u.alm.left = [(i.val, g, n)]) ∧ ((∀ c : Nat, c < 8 → u.isDc c = true → u.rd (F.CH_ALMIDX c) ≠ i)) ∧ (g = 8) ∧ (u.stRefused (n % 16) = false) ∧ (u.stRun ≠ none)) ∧
  (∃ (i : Fin 256) (g : Nat) (n : Nat) (s : State) (u : State), (s.phase = .up) ∧ (s.rung < 3) ∧ (s.timeOrder 4 = u) ∧ (u.almOn = []) ∧ (u.phase = .up) ∧ (u.rung = 0) ∧ (u.alm.left = [(i.val, g, n)]) ∧ ((∀ c : Nat, c < 8 → u.isDc c = true → u.rd (F.CH_ALMIDX c) ≠ i)) ∧ (g = 9) ∧ (u.rd (F.NET_ARMED (n % 16)) = 0 ∨ u.rd (F.NET_STAGED (n % 16)) = 0)) ∧
  (∃ (i : Fin 256) (g : Nat) (n : Nat) (s : State) (u : State), (s.phase = .up) ∧ (s.rung < 3) ∧ (s.timeOrder 4 = u) ∧ (u.almOn = []) ∧ (u.phase = .up) ∧ (u.rung = 0) ∧ (u.alm.left = [(i.val, g, n)]) ∧ ((∀ c : Nat, c < 8 → u.isDc c = true → u.rd (F.CH_ALMIDX c) ≠ i)) ∧ (g = 9) ∧ (u.rd (F.NET_ARMED (n % 16)) = 1) ∧ (u.rd (F.NET_STAGED (n % 16)) = 1)) ∧
  (∃ (i : Fin 256) (g : Nat) (n : Nat) (s : State) (u : State), (s.phase = .up) ∧ (s.rung < 3) ∧ (s.timeOrder 4 = u) ∧ (u.almOn = []) ∧ (u.phase = .up) ∧ (u.rung = 0) ∧ (u.alm.left = [(i.val, g, n)]) ∧ ((∀ c : Nat, c < 8 → u.isDc c = true → u.rd (F.CH_ALMIDX c) ≠ i)) ∧ (g = 0x0B) ∧ (u.planBlocked = true)) ∧
  (∃ (i : Fin 256) (g : Nat) (n : Nat) (s : State) (u : State), (s.phase = .up) ∧ (s.rung < 3) ∧ (s.timeOrder 4 = u) ∧ (u.almOn = []) ∧ (u.phase = .up) ∧ (u.rung = 0) ∧ (u.alm.left = [(i.val, g, n)]) ∧ ((∀ c : Nat, c < 8 → u.isDc c = true → u.rd (F.CH_ALMIDX c) ≠ i)) ∧ (g = 0x0B) ∧ (u.planBlocked = false)) :=
  ⟨⟨0, (put up [(F.ALM_EN, 1)]), (put up [(F.ALM_EN, 1)]), ⟨up.rd64 F.ALM_EN + 2 ^ 31, 0⟩, by decide +kernel⟩,
  ⟨0, (up), (up), ⟨0, 0⟩, by decide +kernel⟩,
  ⟨5, 0x80000600, 77, false, false, ({ up with alm := { up.alm with fresh := [{ idx := 5, lo := 0x80000600, hi := 77 }] } }), by decide +kernel⟩,
  ⟨0, (up), (up), by decide +kernel⟩,
  ⟨3, by decide +kernel⟩,
  ⟨(State.reset), by decide +kernel⟩,
  ⟨(up), (up), (((up)).almScan true).1, (((up)).almScan true).2, by decide +kernel⟩,
  ⟨({ put up [(F.SYS_RUNG, 1)] with alm := { up.alm with left := [(9, 6, 0), (8, 8, 3)] } }), ({ put up [(F.SYS_RUNG, 1)] with alm := { up.alm with left := [(9, 6, 0), (8, 8, 3)] } }), by decide +kernel⟩,
  ⟨5, ({ (up.write64 (almAddr 5) 0x80000600 false) with tick := 100 }), ⟨0x80000600, 0⟩, by decide +kernel⟩,
  ⟨5, ({ (up.write64 (almAddr 5) (0x80000600 + 0x7FFFFFFF00000000) false) with tick := 100 }), ⟨0x80000600 + 0x7FFFFFFF00000000, 0⟩, by decide +kernel⟩,
  ⟨5, ({ (up.write64 (almAddr 5) 0x80000600 true) with tick := 100 }), by decide +kernel⟩,
  ⟨9, 1, 2, ({ put up [(F.EN Pg.LENG, 1), (F.LENG_ACTLO, 0x11)] with alm := { up.alm with left := [(9, 1, 2)] }, leng := { up.leng with info := [(0, 2), (4, 2)] } }), ({ put up [(F.EN Pg.LENG, 1), (F.LENG_ACTLO, 0x11)] with alm := { up.alm with left := [(9, 1, 2)] }, leng := { up.leng with info := [(0, 2), (4, 2)] } }), by decide +kernel⟩,
  ⟨9, 2, 4, ({ put up [(F.EN Pg.LENG, 1), (F.LENG_ACTLO, 0x11)] with alm := { up.alm with left := [(9, 2, 4)] }, leng := { up.leng with info := [(4, 2)] } }), ({ put up [(F.EN Pg.LENG, 1), (F.LENG_ACTLO, 0x11)] with alm := { up.alm with left := [(9, 2, 4)] }, leng := { up.leng with info := [(4, 2)] } }), by decide +kernel⟩,
  ⟨9, 3, 1, ({ put up [(F.EN Pg.PADC, 1), (F.PADC_EN 1, 1), (F.PADC_TRIG 1, 2)] with alm := { up.alm with left := [(9, 3, 1)] } }), ({ put up [(F.EN Pg.PADC, 1), (F.PADC_EN 1, 1), (F.PADC_TRIG 1, 2)] with alm := { up.alm with left := [(9, 3, 1)] } }), by decide +kernel⟩,
  ⟨9, 4, 0, ({ put up [] with alm := { up.alm with left := [(9, 4, 0)] } }), ({ put up [] with alm := { up.alm with left := [(9, 4, 0)] } }), by decide +kernel⟩,
  ⟨9, 5, 0, ({ put up [(F.MTR_EN 0, 1)] with alm := { up.alm with left := [(9, 5, 0)] }, mtr := { up.mtr with p0 := { ivals := [{ topen := 3 }] } } }), ({ put up [(F.MTR_EN 0, 1)] with alm := { up.alm with left := [(9, 5, 0)] }, mtr := { up.mtr with p0 := { ivals := [{ topen := 3 }] } } }), by decide +kernel⟩,
  ⟨9, 6, 0, ({ up with alm := { up.alm with left := [(9, 6, 0)] } }), ({ up with alm := { up.alm with left := [(9, 6, 0)] } }), by decide +kernel⟩,
  ⟨9, 7, 0, ({ put up [] with alm := { up.alm with left := [(9, 7, 0)] } }), ({ put up [] with alm := { up.alm with left := [(9, 7, 0)] } }), by decide +kernel⟩,
  ⟨9, 8, 3, ({ put up [] with alm := { up.alm with left := [(9, 8, 3)] } }), ({ put up [] with alm := { up.alm with left := [(9, 8, 3)] } }), by decide +kernel⟩,
  ⟨9, 8, 3, ({ put up [(F.EN Pg.CMP, 1), (F.CMP_EN 3, 1), (F.CMP_STTYPE 3, 0)] with alm := { up.alm with left := [(9, 8, 3)] } }), ({ put up [(F.EN Pg.CMP, 1), (F.CMP_EN 3, 1), (F.CMP_STTYPE 3, 0)] with alm := { up.alm with left := [(9, 8, 3)] } }), by decide +kernel⟩,
  ⟨9, 8, 3, ({ put up [(F.EN Pg.CMP, 1), (F.CMP_EN 3, 1), (F.CMP_STTYPE 3, 0)] with alm := { up.alm with left := [(9, 8, 3)] }, stRun := some { host := true, cmp := 5, type := 0, pre := false, stexp := false } }), ({ put up [(F.EN Pg.CMP, 1), (F.CMP_EN 3, 1), (F.CMP_STTYPE 3, 0)] with alm := { up.alm with left := [(9, 8, 3)] }, stRun := some { host := true, cmp := 5, type := 0, pre := false, stexp := false } }), by decide +kernel⟩,
  ⟨9, 9, 2, ({ put up [] with alm := { up.alm with left := [(9, 9, 2)] } }), ({ put up [] with alm := { up.alm with left := [(9, 9, 2)] } }), by decide +kernel⟩,
  ⟨9, 9, 2, ({ put up [(F.NET_ARMED 2, 1), (F.NET_STAGED 2, 1), (F.NET_CMT 2, 255)] with alm := { up.alm with left := [(9, 9, 2)] }, net := { up.net with sp := [(2, { tapply := 0, writes := [(0, 2, 5)] })] } }), ({ put up [(F.NET_ARMED 2, 1), (F.NET_STAGED 2, 1), (F.NET_CMT 2, 255)] with alm := { up.alm with left := [(9, 9, 2)] }, net := { up.net with sp := [(2, { tapply := 0, writes := [(0, 2, 5)] })] } }), by decide +kernel⟩,
  ⟨9, 11, 0, ({ put up [(F.AGE_BUSY, 1)] with alm := { up.alm with left := [(9, 11, 0)] } }), ({ put up [(F.AGE_BUSY, 1)] with alm := { up.alm with left := [(9, 11, 0)] } }), by decide +kernel⟩,
  ⟨9, 11, 0, ({ put up [] with alm := { up.alm with left := [(9, 11, 0)] } }), ({ put up [] with alm := { up.alm with left := [(9, 11, 0)] } }), by decide +kernel⟩⟩

/-- The hypotheses of each clause of `MetrologyIntervals` are met together. -/
theorem witness_MetrologyIntervals :
  (∃ (p : Fin 2) (s : State), (s.rd (F.MTR_EN p) = 0 ∨ s.rung ≠ 0 ∨ (∃ k ∈ s.mtrChs p, s.modRuns (s.mtrPin p k) = false ∨ s.rd (F.MOD_METEN (s.mtrPin p k)) = 0 ∨ (s.min' (s.mtrPin p k)).setM = false))) ∧
  (∃ (p : Fin 2) (s : State), (s.rd (F.MTR_EN p) = 1) ∧ (s.rung = 0) ∧ ((∀ k ∈ s.mtrChs p, s.modRuns (s.mtrPin p k) = true ∧ s.rd (F.MOD_METEN (s.mtrPin p k)) = 1 ∧ (s.min' (s.mtrPin p k)).setM = true))) ∧
  (∃ (p : Fin 2) (s : State), (s.rd (F.MTR_EN p) = 0 ∨ (s.rd (F.MTR_ZCTOF p) = 1 ∧ (s.mtrPort p).xing = none))) ∧
  (∃ (p : Fin 2) (s : State), (s.rd (F.MTR_EN p) = 1) ∧ (s.rd (F.MTR_ZCTOF p) = 0 ∨ (s.mtrPort p).xing ≠ none) ∧ (s.rd (F.MTR_ZCTOF p) = 1)) ∧
  (∃ (p : Fin 2) (v : Word) (s : State) (u : State), (s.turn (0x48110 + 0x400 * p) ((F.MTR_ICLOSE p).put v 1) = some u) ∧ (u.rd (F.MTR_EN p) = 0)) ∧
  (∃ (p : Fin 2) (v : Word) (s : State) (u : State) (l : List Ival) (w : Ival), (s.turn (0x48110 + 0x400 * p) ((F.MTR_ICLOSE p).put v 1) = some u) ∧ (u.rd (F.MTR_EN p) = 1) ∧ ((u.mtrPort p).ivals = l ++ [w]) ∧ (w.tick = u.tick) ∧ (w.tclose = none) ∧ (l ≠ [])) ∧
  (∃ (p : Fin 2) (v : Word) (s : State) (u : State) (l : List Ival) (w : Ival), (s.turn (0x48110 + 0x400 * p) ((F.MTR_ICLOSE p).put v 1) = some u) ∧ (u.rd (F.MTR_EN p) = 1) ∧ ((u.mtrPort p).ivals = l ++ [w]) ∧ (w.tick ≠ u.tick) ∧ ((∀ x ∈ l, x.tclose.isSome = true))) ∧
  (∃ (p : Fin 2) (s : State) (w : Ival) (l : List Ival) (tc : Nat), ((s.mtrPort p).ivals = w :: l) ∧ (w.tclose = some tc)) ∧
  (∃ (p : Fin 2) (s : State), ((s.mtrPort p).ivals = [])) ∧
  (∃ (p : Fin 2) (s : State) (w : Ival) (l : List Ival), ((s.mtrPort p).ivals = w :: l) ∧ (w.tclose = none)) ∧
  (∃ (p : Fin 2) (s : State), ((s.mtrPort p).done = none)) ∧
  (∃ (p : Fin 2) (s : State) (r : List (List F32)), ((s.mtrPort p).done = some r) ∧ (s.rd F.MTR_HBASE + 720 ≤ 0x3F000)) :=
  ⟨⟨0, (up), by decide +kernel⟩,
  ⟨0, ({ put up [(F.MTR_EN 0, 1), (F.MTR_EN 1, 1), (F.MOD_RUN 0, 1), (F.MOD_EN 0, 1), (F.MOD_METEN 0, 1), (F.EN Pg.MOD, 1)] with mods := [(0, { setM := true })] }), by decide +kernel⟩,
  ⟨0, (up), by decide +kernel⟩,
  ⟨0, ({ put up [(F.MTR_EN 0, 1), (F.MTR_ZCTOF 0, 1)] with mtr := { up.mtr with p0 := { xing := some 5 } } }), by decide +kernel⟩,
  ⟨0, 0, (up), (up), by decide +kernel⟩,
  ⟨0, 0, ({ put up [(F.MTR_EN 0, 1)] with tick := 9, mtr := { up.mtr with p0 := { started := true, ivals := [{ topen := 3, tclose := some 7, tick := 8, nsamp := 0, rev := 70000, rsn := 200, vmax := 0x3F800000 }, { topen := 7, tick := 9 }] } } }), ({ put up [(F.MTR_EN 0, 1)] with tick := 9, mtr := { up.mtr with p0 := { started := true, ivals := [{ topen := 3, tclose := some 7, tick := 8, nsamp := 0, rev := 70000, rsn := 200, vmax := 0x3F800000 }, { topen := 7, tick := 9 }] } } }), [{ topen := 3, tclose := some 7, tick := 8, nsamp := 0, rev := 70000, rsn := 200, vmax := 0x3F800000 }], { topen := 7, tick := 9 }, by decide +kernel⟩,
  ⟨0, 0, ({ put up [(F.MTR_EN 0, 1)] with tick := 9, mtr := { up.mtr with p0 := { ivals := [{ topen := 3, tick := 8, nsamp := 4 }] } } }), ({ put up [(F.MTR_EN 0, 1)] with tick := 9, mtr := { up.mtr with p0 := { ivals := [{ topen := 3, tick := 8, nsamp := 4 }] } } }), [], { topen := 3, tick := 8, nsamp := 4 }, by decide +kernel⟩,
  ⟨0, ({ put up [(F.MTR_EN 0, 1)] with tick := 9, mtr := { up.mtr with p0 := { started := true, ivals := [{ topen := 3, tclose := some 7, tick := 8, nsamp := 0, rev := 70000, rsn := 200, vmax := 0x3F800000 }, { topen := 7, tick := 9 }] } } }), { topen := 3, tclose := some 7, tick := 8, nsamp := 0, rev := 70000, rsn := 200, vmax := 0x3F800000 }, [{ topen := 7, tick := 9 }], 7, by decide +kernel⟩,
  ⟨0, (up), by decide +kernel⟩,
  ⟨0, ({ put up [(F.MTR_EN 0, 1)] with tick := 9, mtr := { up.mtr with p0 := { ivals := [{ topen := 3, tick := 8, nsamp := 4 }] } } }), { topen := 3, tick := 8, nsamp := 4 }, [], by decide +kernel⟩,
  ⟨0, (up), by decide +kernel⟩,
  ⟨0, ({ put up [(F.MTR_HBASE, 0x3F000 - 720), (F.MTR_HCYC, 10)] with mtr := { up.mtr with p0 := { done := some [] }, p1 := { done := some [] } } }), [], by decide +kernel⟩⟩

/-- The hypotheses of each clause of `PulsesSnapshotAndPreset` are met together. -/
theorem witness_PulsesSnapshotAndPreset :
  (∃ (k : Fin 2) (s : State), (s.rd (F.MTR_PULEN k) = 0 ∨ s.rd (F.MTR_PEND k) = 0 ∨ (s.pulse k).active = true)) ∧
  (∃ (k : Fin 2) (s : State), (s.rd (F.MTR_PULEN k) = 1) ∧ (s.rd (F.MTR_PEND k) ≠ 0) ∧ ((s.pulse k).active = false)) ∧
  (∃ (k : Fin 2) (s : State), ((s.pulse k).q0 = none)) ∧
  (∃ (k : Fin 2) (s : State) (a : Nat) (b : Nat), ((s.pulse k).q0 = some a) ∧ ((s.pulse k).q1 = some b)) ∧
  (∃ (v : Word) (s : State) (u : State), (s.turn 0x49040 (F.MTRE_SNAPGO.put v 1) = some u)) ∧
  (∃ (v : Word) (s : State) (u : State), (s.turn 0x49050 (F.MTRE_PRESETGO.put v 1) = some u) ∧ (u.rd (F.LOCK Pg.MTRE) = 1)) ∧
  (∃ (v : Word) (s : State) (u : State), (s.turn 0x49050 (F.MTRE_PRESETGO.put v 1) = some u) ∧ (u.rd (F.LOCK Pg.MTRE) = 0) ∧ (1 < u.modeNow)) ∧
  (∃ (v : Word) (s : State) (u : State), (s.turn 0x49050 (F.MTRE_PRESETGO.put v 1) = some u) ∧ (u.rd (F.LOCK Pg.MTRE) = 0) ∧ (u.modeNow ≤ 1)) :=
  ⟨⟨0, (up), by decide +kernel⟩,
  ⟨0, (put up [(F.MTR_PULEN 0, 1), (F.MTR_PULEN 1, 1), (F.MTR_PEND 0, 65535), (F.MTR_PEND 1, 1), (F.MTR_PWID 0, 2550), (F.MTR_PCNT 0, 0xFFFFFFFF)]), by decide +kernel⟩,
  ⟨0, (up), by decide +kernel⟩,
  ⟨0, ({ put up [(F.MTR_PULEN 0, 1), (F.MTR_PEND 0, 65535), (F.MTR_PWID 0, 2550)] with mtr := { up.mtr with pul0 := { q0 := some 5, q1 := some 50 }, energy := [(0, 5), (3, 2 ^ 95), (15, (2^64-1)*2^32)] } }), 5, 50, by decide +kernel⟩,
  ⟨0, (up), (up), by decide +kernel⟩,
  ⟨0, (put up [(F.LOCK Pg.MTRE, 1)]), (put up [(F.LOCK Pg.MTRE, 1)]), by decide +kernel⟩,
  ⟨0, (put up [(F.SYS_MODE, 2)]), (put up [(F.SYS_MODE, 2)]), by decide +kernel⟩,
  ⟨0, (up), (up), by decide +kernel⟩⟩

namespace PortsAndFrames
def fr (et n : Nat) : List Byte := beBytes 6 0x112233445566 ++ beBytes 6 1 ++ beBytes 2 et ++ List.replicate n 0#8
def nu : State := put up [(F.NET_PCFG_MODE 0, 1), (F.NET_PCFG_MODE 1, 3), (F.NET_MACLO, 0x33445566), (F.NET_MACHI, 0x1122)]
def nl : State := put nu [(F.NET_PSTAT_LINK 0, 1), (F.NET_PSTAT_LINK 1, 1), (F.NET_PSTAT_SYNC 1, 1), (F.NET_PSTAT_LINKDN 1, 65535)]
def nt : State := put nl [(F.EN Pg.NET, 1), (F.NET_TXN, 512), (F.NET_TXTAIL, 3), (F.NET_TXHEAD, 511)]
def nr : State := put nl [(F.EN Pg.NET, 1), (F.NET_RXN, 512), (F.NET_RXHEAD, 511), (F.NET_RXTAIL, 3)]
/-- The hypotheses of each clause of `PortsAndFrames` are met together. -/
theorem witness_PortsAndFrames :
  (∃ (p : Fin 2) (s : State), (s.netUp = false ∨ s.rd (F.NET_PCFG_MODE p) = 0 ∨ s.rd (F.NET_PSTAT_LINK p) = 1)) ∧
  (∃ (p : Fin 2) (s : State), (s.netUp = true) ∧ (s.rd (F.NET_PCFG_MODE p) ≠ 0) ∧ (s.rd (F.NET_PSTAT_LINK p) = 0)) ∧
  (∃ (p : Fin 2) (s : State), (s.rd (F.NET_PSTAT_LINK p) = 1)) ∧
  (∃ (p : Fin 2) (b : Bool) (s : State), (s.rd (F.NET_PSTAT_LINK p) = 0) ∧ (b = false)) ∧
  (∃ (p : Fin 2) (s : State), (s.netUp = false ∨ s.rd (F.NET_PCFG_MODE p) = 0 ∨ s.rd (F.NET_PSTAT_LINK p) = 0)) ∧
  (∃ (p : Fin 2) (l : List Byte) (s : State), (s.netUp = true) ∧ (s.rd (F.NET_PCFG_MODE p) ≠ 0) ∧ (s.rd (F.NET_PSTAT_LINK p) = 1) ∧ (frType l = 0x8808)) ∧
  (∃ (p : Fin 2) (l : List Byte) (fcs : Bool) (s : State), (s.netUp = true) ∧ (s.rd (F.NET_PCFG_MODE p) ≠ 0) ∧ (s.rd (F.NET_PSTAT_LINK p) = 1) ∧ (fcs = false) ∧ (frAt l 0 6 = macOf (s.rd F.NET_MACLO) (s.rd F.NET_MACHI))) ∧
  (∃ (p : Fin 2) (l : List Byte) (fcs : Bool) (s : State), (s.netUp = true) ∧ (s.rd (F.NET_PCFG_MODE p) ≠ 0) ∧ (s.rd (F.NET_PSTAT_LINK p) = 1) ∧ (fcs = true) ∧ (frType l ≠ 0x8808) ∧ (60 ≤ l.length) ∧ (l.length + 4 ≤ s.rd F.NET_MAXLEN) ∧ (s.rung = 0) ∧ (frAt l 0 6 = macOf (s.rd F.NET_MACLO) (s.rd F.NET_MACHI)) ∧ (s.frKind l = 1 ∨ s.frKind l = 3 ∨ s.enabled Pg.NET = false)) ∧
  (∃ (p : Fin 2) (l : List Byte) (fcs : Bool) (s : State), (s.netUp = true) ∧ (s.rd (F.NET_PCFG_MODE p) ≠ 0) ∧ (s.rd (F.NET_PSTAT_LINK p) = 1) ∧ (fcs = true) ∧ (frType l ≠ 0x8808) ∧ (60 ≤ l.length) ∧ (l.length + 4 ≤ s.rd F.NET_MAXLEN) ∧ (s.rung = 0) ∧ (frAt l 0 6 = macOf (s.rd F.NET_MACLO) (s.rd F.NET_MACHI)) ∧ (s.frKind l = 0 ∨ s.frKind l = 2) ∧ (s.enabled Pg.NET = true)) ∧
  (∃ (p : Fin 2) (s : State), (s.netUp = false ∨ s.rd (F.NET_PSTAT_LINK p) = 0)) ∧
  (∃ (p : Fin 2) (s : State), (s.netUp = true) ∧ (s.rd (F.NET_PSTAT_LINK p) = 1) ∧ (s.txPick p = none)) ∧
  (∃ (p : Fin 2) (s : State) (q : Fin 8) (f : QFrame) (r : List QFrame), (s.netUp = true) ∧ (s.rd (F.NET_PSTAT_LINK p) = 1) ∧ (s.txPick p = some q.val) ∧ (s.queue p q = f :: r) ∧ (f.strm = none)) ∧
  (∃ (p : Fin 2) (s : State) (q : Fin 8), (s.rd (F.NETQ_GEN p) = 0) ∧ (s.queue p q ≠ []) ∧ ((∀ b : Fin 8, q < b → s.queue p b = []))) ∧
  (∃ (s : State), (s.netUp = false ∨ s.enabled Pg.NET = false ∨ s.rd F.NET_TXN < 2 ∨ s.rd F.NET_TXHEAD = s.rd F.NET_TXTAIL)) ∧
  (∃ (s : State) (t : State) (d : Nat) (b : Bool), (s.netUp = true) ∧ (s.enabled Pg.NET = true) ∧ (2 ≤ s.rd F.NET_TXN) ∧ (s.rd F.NET_TXHEAD ≠ s.rd F.NET_TXTAIL) ∧ (s.read64 (0x300000 + s.rd F.NET_TXDBASE + 8 * s.rd F.NET_TXHEAD) = (t, d, b)) ∧ (b = true ∨ d / 2 ^ 29 % 8 = 0 ∨ d % 2 ^ 16 < 60 ∨ s.rd F.NET_MAXLEN < d % 2 ^ 16 + 4)) ∧
  (∃ (v : Word) (s : State) (u : State), (s.turn 0x58140 (F.NET_MDGO.put v 1) = some u) ∧ (u.rd F.NET_MDGO = 1)) ∧
  (∃ (v : Word) (s : State) (u : State), (s.turn 0x58140 (F.NET_MDGO.put v 1) = some u) ∧ (u.rd F.NET_MDGO = 0)) ∧
  (∃ (s : State), (s.rd F.NET_MDGO = 0)) ∧
  (∃ (s : State), (s.rd F.NET_MDGO = 1)) :=
  ⟨⟨0, (up), by decide +kernel⟩,
  ⟨0, (nu), by decide +kernel⟩,
  ⟨0, (nl), by decide +kernel⟩,
  ⟨0, 4, (up), by decide +kernel⟩,
  ⟨0, (up), by decide +kernel⟩,
  ⟨0, fr 0x8808 46, (nl), by decide +kernel⟩,
  ⟨0, fr 0x8808 46, false, (nl), by decide +kernel⟩,
  ⟨0, fr 0x0800 46, true, (nl), by decide +kernel⟩,
  ⟨0, fr 0x0800 46, true, (nr), by decide +kernel⟩,
  ⟨0, (up), by decide +kernel⟩,
  ⟨0, (nl), by decide +kernel⟩,
  ⟨0, ({ nl with net := { nl.net with q := [(3, [{ len := 60, blks := [1] }]), (8, [{ len := 64, blks := [2], src := some 0 }, { len := 60, blks := [3] }])] } }), 3, { len := 60, blks := [1] }, [], by decide +kernel⟩,
  ⟨0, ({ nl with net := { nl.net with q := [(3, [{ len := 60, blks := [1] }]), (8, [{ len := 64, blks := [2], src := some 0 }, { len := 60, blks := [3] }])] } }), 3, by decide +kernel⟩,
  ⟨(up), by decide +kernel⟩,
  ⟨(nt), (nt), 0, 4, by decide +kernel⟩,
  ⟨0, (put up [(F.NET_MDGO, 1), (F.NET_MDOP, 2), (F.NET_MDDATA, 5)]), (put up [(F.NET_MDGO, 1), (F.NET_MDOP, 2), (F.NET_MDDATA, 5)]), by decide +kernel⟩,
  ⟨0, (up), (up), by decide +kernel⟩,
  ⟨(up), by decide +kernel⟩,
  ⟨(put up [(F.NET_MDGO, 1), (F.NET_MDOP, 2), (F.NET_MDDATA, 5)]), by decide +kernel⟩⟩
end PortsAndFrames

namespace GatesSetpointsStreams
def sf (id0 id1 nw slot ver : Nat) (ta : Nat) : List Byte := beBytes 1 1 ++ beBytes 1 ver ++ beBytes 2 3 ++ beBytes 4 7 ++ beBytes 8 ta ++ beBytes 2 id0 ++ beBytes 2 id1 ++ beBytes 1 slot ++ beBytes 1 nw ++ beBytes 1 255 ++ beBytes 1 0 ++ (List.range nw).flatMap (fun i => beBytes 1 i ++ beBytes 1 (15 - i) ++ beBytes 2 0 ++ beBytes 4 0x3F800000)
/-- The hypotheses of each clause of `GatesSetpointsStreams` are met together. -/
theorem witness_GatesSetpointsStreams :
  (∃ (p : Fin 2) (v : Word) (s : State) (u : State), (s.turn (0x59160 + 0x200 * p) ((F.NETQ_INSTALL p).put v 1) = some u) ∧ ((F.NETQ_ADMLEN p).of v = 0 ∨ 32 < (F.NETQ_ADMLEN p).of v)) ∧
  (∃ (p : Fin 2) (v : Word) (s : State) (u : State), (s.turn (0x59160 + 0x200 * p) ((F.NETQ_INSTALL p).put v 1) = some u) ∧ (1 ≤ (F.NETQ_ADMLEN p).of v) ∧ ((F.NETQ_ADMLEN p).of v ≤ 32) ∧ (u.rd (F.NETQ_PEND p) = 1)) ∧
  (∃ (p : Fin 2) (v : Word) (s : State) (u : State), (s.turn (0x59160 + 0x200 * p) ((F.NETQ_INSTALL p).put v 1) = some u) ∧ (1 ≤ (F.NETQ_ADMLEN p).of v) ∧ ((F.NETQ_ADMLEN p).of v ≤ 32) ∧ (u.rd (F.NETQ_PEND p) = 0) ∧ (u.rd (F.NETQ_CYCLE p) < 1000 ∨ 1000000000 < u.rd (F.NETQ_CYCLE p) ∨ u.rd (F.NETQ_CYCLE p) % 8 ≠ 0)) ∧
  (∃ (p : Fin 2) (v : Word) (s : State) (u : State), (s.turn (0x59160 + 0x200 * p) ((F.NETQ_INSTALL p).put v 1) = some u) ∧ (1 ≤ (F.NETQ_ADMLEN p).of v) ∧ ((F.NETQ_ADMLEN p).of v ≤ 32) ∧ (u.rd (F.NETQ_PEND p) = 0) ∧ (1000 ≤ u.rd (F.NETQ_CYCLE p)) ∧ (u.rd (F.NETQ_CYCLE p) ≤ 1000000000) ∧ (u.rd (F.NETQ_CYCLE p) % 8 = 0)) ∧
  (∃ (p : Fin 2) (s : State), ((s.port p).pend = none)) ∧
  (∃ (p : Fin 2) (s : State) (g : GateList), ((s.port p).pend = some g) ∧ (reached 64 s.now64 g.start = false)) ∧
  (∃ (p : Fin 2) (s : State) (g : GateList), ((s.port p).pend = some g) ∧ (reached 64 s.now64 g.start = true) ∧ (g.ents.length ≤ 32)) ∧
  (∃ (p : Fin 2) (s : State), (s.rd (F.NETQ_OPLEN p) = 0)) ∧
  (∃ (p : Fin 2) (s : State), (s.rd (F.NETQ_OPIDX p) + 1 < s.rd (F.NETQ_OPLEN p)) ∧ (s.rd (F.NETQ_OPLEN p) ≤ 32) ∧ ((s.gateEnts p).all (fun w => w.toNat % 2 ^ 24 != 0) = true) ∧ (((s.gateEnts p).take (s.rd (F.NETQ_OPIDX p) + 1)).foldl (fun n w => n + w.toNat % 2 ^ 24 * 8) 0 < (s.port p).cyc)) ∧
  (∃ (p : Fin 2) (s : State), (s.rd (F.NETQ_OPLEN p) ≠ 0) ∧ (s.rd (F.NETQ_OPLEN p) ≤ s.rd (F.NETQ_OPIDX p) + 1) ∧ ((s.gateEnts p).all (fun w => w.toNat % 2 ^ 24 != 0) = true)) ∧
  (∃ (l : List Byte), (l.length < 24 + 8 * frAt l 21 1 ∨ frAt l 1 1 ≠ 1 ∨ frAt l 21 1 = 0 ∨ 8 < frAt l 21 1 ∨ 15 < frAt l 20 1)) ∧
  (∃ (l : List Byte) (s : State), (24 + 8 * frAt l 21 1 ≤ l.length) ∧ (frAt l 1 1 = 1) ∧ (1 ≤ frAt l 21 1) ∧ (frAt l 21 1 ≤ 8) ∧ (frAt l 20 1 ≤ 15) ∧ ((∀ w ∈ spWrites l (frAt l 21 1), w.1 ≤ 7 ∧ w.2.1 ≤ 15)) ∧ (s.rd F.NET_ARRID < frAt l 16 2 ∨ frAt l 18 2 < s.rd F.NET_ARRID)) ∧
  (∃ (sa : BitVec 48) (l : List Byte) (s : State), (24 + 8 * frAt l 21 1 ≤ l.length) ∧ (frAt l 1 1 = 1) ∧ (1 ≤ frAt l 21 1) ∧ (frAt l 21 1 ≤ 8) ∧ (frAt l 20 1 ≤ 15) ∧ ((∀ w ∈ spWrites l (frAt l 21 1), w.1 ≤ 7 ∧ w.2.1 ≤ 15)) ∧ (frAt l 16 2 ≤ s.rd F.NET_ARRID) ∧ (s.rd F.NET_ARRID ≤ frAt l 18 2) ∧ (s.rd F.NET_MACCHK = 1) ∧ (sa.toNat ≠ macOf (s.rd F.NET_MASTERMACLO) (s.rd F.NET_MASTERMACHI))) ∧
  (∃ (sa : BitVec 48) (l : List Byte) (s : State) (n : Nat), (24 + 8 * frAt l 21 1 ≤ l.length) ∧ (frAt l 1 1 = 1) ∧ (1 ≤ frAt l 21 1) ∧ (frAt l 21 1 ≤ 8) ∧ (frAt l 20 1 ≤ 15) ∧ ((∀ w ∈ spWrites l (frAt l 21 1), w.1 ≤ 7 ∧ w.2.1 ≤ 15)) ∧ (frAt l 16 2 ≤ s.rd F.NET_ARRID) ∧ (s.rd F.NET_ARRID ≤ frAt l 18 2) ∧ (s.rd F.NET_MACCHK = 0 ∨ sa.toNat = macOf (s.rd F.NET_MASTERMACLO) (s.rd F.NET_MASTERMACHI)) ∧ (s.net.seq = some n) ∧ (sdiff 32 (frAt l 4 4) n ≤ 0)) ∧
  (∃ (sa : BitVec 48) (l : List Byte) (s : State), (24 + 8 * frAt l 21 1 ≤ l.length) ∧ (frAt l 1 1 = 1) ∧ (1 ≤ frAt l 21 1) ∧ (frAt l 21 1 ≤ 8) ∧ (frAt l 20 1 ≤ 15) ∧ ((∀ w ∈ spWrites l (frAt l 21 1), w.1 ≤ 7 ∧ w.2.1 ≤ 15)) ∧ (frAt l 16 2 ≤ s.rd F.NET_ARRID) ∧ (s.rd F.NET_ARRID ≤ frAt l 18 2) ∧ (s.rd F.NET_MACCHK = 0 ∨ sa.toNat = macOf (s.rd F.NET_MASTERMACLO) (s.rd F.NET_MASTERMACHI)) ∧ (s.net.seq = none) ∧ ((∀ w ∈ spWrites l (frAt l 21 1), s.has (Pg.CH w.1) = true)) ∧ (frAt l 8 8 = 0)) ∧
  (∃ (s : State) (u : State), (s.timeOrder 4 = u) ∧ ((∀ n, n < 16 → u.rd (F.NET_ARMED n) = 0 ∨ (u.sp n).late = some u.tick ∨ u.rd (F.NET_STAGED n) = 1 ∨ reached 64 u.now64 (u.sp n).tapply = false))) ∧
  (∃ (s : State) (u : State), (s.timeOrder 4 = u) ∧ ((∀ n, n < 16 → ∀ w ∈ (u.sp n).writes, w.1 < 8 ∧ w.2.1 < 16)) ∧ (u.rung ≠ 0)) ∧
  (∃ (s : State) (u : State), (s.timeOrder 4 = u) ∧ ((∀ n, n < 16 → ∀ w ∈ (u.sp n).writes, w.1 < 8 ∧ w.2.1 < 16)) ∧ (u.rung = 0)) ∧
  (∃ (k : Fin 8) (s : State), ((s.strm k).cur = [])) ∧
  (∃ (k : Fin 8) (s : State), ((s.strm k).cur ≠ []) ∧ (s.rd (F.STRM_PA k) = 0) ∧ (s.rd (F.STRM_PB k) = 0)) ∧
  (∃ (k : Fin 8) (s : State), ((s.strm k).cur ≠ []) ∧ (s.rd (F.STRM_PA k) = 1) ∧ (s.rd (F.STRM_PB k) = 0)) :=
  ⟨⟨0, 0, (up), (up), by decide +kernel⟩,
  ⟨0, 1, (put up [(F.NETQ_PEND 0, 1), (F.NETQ_PEND 1, 1)]), (put up [(F.NETQ_PEND 0, 1), (F.NETQ_PEND 1, 1)]), by decide +kernel⟩,
  ⟨0, 1, (put up [(F.NETQ_CYCLE 0, 1004), (F.NETQ_CYCLE 1, 1000000008)]), (put up [(F.NETQ_CYCLE 0, 1004), (F.NETQ_CYCLE 1, 1000000008)]), by decide +kernel⟩,
  ⟨0, 1, (up), (up), by decide +kernel⟩,
  ⟨0, (up), by decide +kernel⟩,
  ⟨0, ({ up with net := { up.net with p0 := { pend := some { ents := [0x01000010, 0xFF000020], cyc := 1000, base := 77, start := 77 } }, p1 := { pend := some { ents := List.replicate 32 0xFF000001, cyc := 1000, base := 77, start := 77 } } } }), { ents := [0x01000010, 0xFF000020], cyc := 1000, base := 77, start := 77 }, by decide +kernel⟩,
  ⟨0, ({ up with time := { up.time with f := 2 ^ 70 }, net := { up.net with p0 := { pend := some { ents := [0x01000010, 0xFF000020], cyc := 1000, base := 77 } }, p1 := { pend := some { ents := List.replicate 32 0xFF000001, cyc := 1000, base := 77 } } } }), { ents := [0x01000010, 0xFF000020], cyc := 1000, base := 77 }, by decide +kernel⟩,
  ⟨0, (up), by decide +kernel⟩,
  ⟨0, ({ put up [(F.NETQ_OPLEN 0, 2), (F.NETQ_OPENT 0 0, 0x01000010), (F.NETQ_OPENT 0 1, 0xFF000020)] with net := { up.net with p0 := { cyc := 1000 } } }), by decide +kernel⟩,
  ⟨0, ({ put up [(F.NETQ_OPLEN 0, 2), (F.NETQ_OPIDX 0, 1), (F.NETQ_OPENT 0 0, 0x01000010), (F.NETQ_OPENT 0 1, 0xFF000020), (F.NETQ_CYCCNT 0, 0xFFFFFFFF)] with net := { up.net with p0 := { cyc := 1000 } } }), by decide +kernel⟩,
  ⟨[], by decide +kernel⟩,
  ⟨sf 6 9 8 15 1 0, (up), by decide +kernel⟩,
  ⟨0, sf 0 9 1 0 1 0, (put up [(F.NET_MACCHK, 1), (F.NET_MASTERMACLO, 9), (F.NET_ARRID, 5)]), by decide +kernel⟩,
  ⟨0, sf 0 9 1 0 1 0, ({ put up [(F.NET_ARRID, 5)] with net := { up.net with seq := some 7 } }), 7, by decide +kernel⟩,
  ⟨0, sf 0 9 1 0 1 0, (up), by decide +kernel⟩,
  ⟨(up), (up), by decide +kernel⟩,
  ⟨({ put up [(F.SYS_RUNG, 1), (F.NET_ARMED 0, 1), (F.NET_ARMED 3, 1)] with net := { up.net with sp := [(0, { tapply := 0, writes := [(0, 2, 5)] })] } }), ({ put up [(F.SYS_RUNG, 1), (F.NET_ARMED 0, 1), (F.NET_ARMED 3, 1)] with net := { up.net with sp := [(0, { tapply := 0, writes := [(0, 2, 5)] })] } }), by decide +kernel⟩,
  ⟨(up), (up), by decide +kernel⟩,
  ⟨0, (up), by decide +kernel⟩,
  ⟨0, ({ put up [(F.STRM_FSEQ 0, 0xFFFFFFFF), (F.STRM_NSIG 7, 0), (F.STRM_PA 7, 1)] with net := { up.net with strm := [(0, { cur := [(0, false, [5])] }), (7, { cur := [(0, false, [5])] })] } }), by decide +kernel⟩,
  ⟨7, ({ put up [(F.STRM_FSEQ 0, 0xFFFFFFFF), (F.STRM_NSIG 7, 0), (F.STRM_PA 7, 1)] with net := { up.net with strm := [(0, { cur := [(0, false, [5])] }), (7, { cur := [(0, false, [5])] })] } }), by decide +kernel⟩⟩
end GatesSetpointsStreams

namespace SafetyInputsAndMonitors
def ts : State := { up with safe := { up.safe with tested := true, lvlA := false, lvlB := false } }
def tok (s : State) : State := put s [(F.SAFE_CVALID, 1), (F.SAFE_CONFIRM, s.rd F.SAFE_CHECK)]
def run3 : State := put (tok ts) [(F.SYS_MODE, 3), (F.CH_TYPE 0, 1), (F.SYS_PRIOR, 3)]
/-- The hypotheses of each clause of `SafetyInputsAndMonitors` are met together. -/
theorem witness_SafetyInputsAndMonitors :
  (∃ (s : State), (s.safe.tested = false)) ∧
  (∃ (level : Bool) (s : State), (s.safe.tested = true) ∧ (level = true) ∧ (s.rd F.SAFE_SSDEM = 0) ∧ (s.rd F.SAFE_PHASE = 0) ∧ (s.modeNow ≠ 7)) ∧
  (∃ (s : State), (s.safe.lvlA = s.safe.lvlB)) ∧
  (∃ (s : State), (s.safe.lvlA ≠ s.safe.lvlB)) ∧
  (∃ (c : Instr) (f : Fld) (s : State), ((c = .monitorDivergence ∧ f = F.SAFE_MONDIV) ∨ (c = .stoFeedbackMismatch ∧ f = F.SAFE_STOFB)) ∧ (s.safe.tested = true) ∧ (s.rd F.SAFE_PHASE ≤ 1) ∧ (s.modeNow ≠ 7)) ∧
  (∃ (c : Instr) (f : Fld) (s : State), ((c = .monitorDivergence ∧ f = F.SAFE_MONDIV) ∨ (c = .stoFeedbackMismatch ∧ f = F.SAFE_STOFB)) ∧ (s.safe.tested = false) ∧ (s.rd F.SAFE_PHASE = 0)) ∧
  (∃ (s : State), (s.rd F.SAFE_PHASE ≠ 1)) ∧
  (∃ (s : State), (s.rd F.SAFE_PHASE = 1) ∧ (s.safe.idle = true ∨ s.rd F.SAFE_TSS1 * 100 ≤ s.safe.t10 ∨ (s.rd F.SAFE_RAMPT * 100 ≤ s.safe.t10 ∧ s.machOn = false))) ∧
  (∃ (s : State), (s.rd F.SAFE_PHASE = 1) ∧ (s.safe.idle = false) ∧ (s.machOn = false) ∧ (s.safe.t10 < s.rd F.SAFE_RAMPT * 100) ∧ (s.safe.t10 < s.rd F.SAFE_TSS1 * 100)) ∧
  (∃ (s : State), (s.safe.tested = true ∨ s.phase = .down ∨ s.tmode = true)) ∧
  (∃ (a : Bool) (b : Bool) (s : State), (s.safe.tested = false) ∧ (s.phase ≠ .down) ∧ (s.tmode = false) ∧ (a = true ∨ b = true) ∧ (s.rd F.SAFE_PHASE = 0) ∧ (s.modeNow ≠ 7)) ∧
  (∃ (s : State), (s.rd F.SAFE_STOA = 1 ∨ s.rd F.SAFE_STOB = 1)) ∧
  (∃ (s : State), (s.rd F.SAFE_STOA = 0) ∧ (s.rd F.SAFE_STOB = 0)) :=
  ⟨⟨(up), by decide +kernel⟩,
  ⟨true, (put ts [(F.SAFE_SSDEM, 0)]), by decide +kernel⟩,
  ⟨(up), by decide +kernel⟩,
  ⟨({ up with safe := { up.safe with lvlA := false } }), by decide +kernel⟩,
  ⟨.monitorDivergence, F.SAFE_MONDIV, (ts), by decide +kernel⟩,
  ⟨.monitorDivergence, F.SAFE_MONDIV, (up), by decide +kernel⟩,
  ⟨(up), by decide +kernel⟩,
  ⟨({ put run3 [(F.SAFE_PHASE, 1)] with safe := { run3.safe with idle := true } }), by decide +kernel⟩,
  ⟨(put run3 [(F.SAFE_PHASE, 1)]), by decide +kernel⟩,
  ⟨(ts), by decide +kernel⟩,
  ⟨true, true, (up), by decide +kernel⟩,
  ⟨(up), by decide +kernel⟩,
  ⟨(put up [(F.SAFE_STOA, 0), (F.SAFE_STOB, 0)]), by decide +kernel⟩⟩
end SafetyInputsAndMonitors

namespace TwinPathAndRelease
def tp (path seq word src amin amax : Nat) : List Byte := let mid := beBytes 2 src ++ beBytes 2 word ++ beBytes 4 seq ++ beBytes 8 0 ++ beBytes 2 amin ++ beBytes 2 amax ++ beBytes 4 0; beBytes 1 1 ++ beBytes 1 3 ++ beBytes 1 path ++ beBytes 1 0 ++ mid ++ beBytes 4 (crc32 mid) ++ List.replicate 14 0#8
def tb : State := { put up [(F.SAFE_SRCID, 4), (F.NET_ARRID, 2), (F.SAFE_TPEN, 1)] with safe := { up.safe with tested := true, lvlA := false, lvlB := false } }
def oc (path word : Nat) : State := { tb with safe := { tb.safe with cycle := some ⟨9, path, ((tp path 9 word 4 0 3).drop 4).take 28, false⟩ } }
/-- The hypotheses of each clause of `TwinPathAndRelease` are met together. -/
theorem witness_TwinPathAndRelease :
  (∃ (l : List Byte), (tpFormat l = false)) ∧
  (∃ (pb : Bool) (l : List Byte), (tpFormat l = true) ∧ (((l.getD 2 0).toNat = 1 ↔ pb = false))) ∧
  (∃ (pb : Bool) (l : List Byte) (s : State), (tpFormat l = true) ∧ (((l.getD 2 0).toNat = 1 ↔ pb = true)) ∧ (beVal ((l.drop 4).take 2) ≠ s.rd F.SAFE_SRCID ∨ s.rd F.NET_ARRID < beVal ((l.drop 20).take 2) ∨
        beVal ((l.drop 22).take 2) < s.rd F.NET_ARRID)) ∧
  (∃ (pb : Bool) (l : List Byte) (s : State), (tpFormat l = true) ∧ (((l.getD 2 0).toNat = 1 ↔ pb = true)) ∧ (beVal ((l.drop 4).take 2) = s.rd F.SAFE_SRCID) ∧ (beVal ((l.drop 20).take 2) ≤ s.rd F.NET_ARRID) ∧ (s.rd F.NET_ARRID ≤ beVal ((l.drop 22).take 2)) ∧ (s.safe.cycle = none) ∧ (s.safe.seqSeen = false) ∧ (beVal ((l.drop 6).take 2) % 4 = 0)) ∧
  (∃ (pb : Bool) (l : List Byte) (s : State) (c : TpCycle), (tpFormat l = true) ∧ (((l.getD 2 0).toNat = 1 ↔ pb = true)) ∧ (beVal ((l.drop 4).take 2) = s.rd F.SAFE_SRCID) ∧ (beVal ((l.drop 20).take 2) ≤ s.rd F.NET_ARRID) ∧ (s.rd F.NET_ARRID ≤ beVal ((l.drop 22).take 2)) ∧ (s.safe.cycle = some c) ∧ (c.seq = beVal ((l.drop 8).take 4)) ∧ (c.path = (l.getD 2 0).toNat)) ∧
  (∃ (pb : Bool) (l : List Byte) (s : State) (c : TpCycle), (tpFormat l = true) ∧ (((l.getD 2 0).toNat = 1 ↔ pb = true)) ∧ (beVal ((l.drop 4).take 2) = s.rd F.SAFE_SRCID) ∧ (beVal ((l.drop 20).take 2) ≤ s.rd F.NET_ARRID) ∧ (s.rd F.NET_ARRID ≤ beVal ((l.drop 22).take 2)) ∧ (s.safe.cycle = some c) ∧ (c.seq = beVal ((l.drop 8).take 4)) ∧ (c.path ≠ (l.getD 2 0).toNat) ∧ (c.body = (l.drop 4).take 28) ∧ (beVal ((l.drop 6).take 2) = 0)) ∧
  (∃ (pb : Bool) (l : List Byte) (s : State) (c : TpCycle), (tpFormat l = true) ∧ (((l.getD 2 0).toNat = 1 ↔ pb = true)) ∧ (beVal ((l.drop 4).take 2) = s.rd F.SAFE_SRCID) ∧ (beVal ((l.drop 20).take 2) ≤ s.rd F.NET_ARRID) ∧ (s.rd F.NET_ARRID ≤ beVal ((l.drop 22).take 2)) ∧ (s.safe.cycle = some c) ∧ (c.seq = beVal ((l.drop 8).take 4)) ∧ (c.path ≠ (l.getD 2 0).toNat) ∧ (c.body ≠ (l.drop 4).take 28) ∧ (s.rd F.SAFE_TPEN = 1) ∧ (s.rd F.SAFE_TPLAT = 0)) ∧
  (∃ (s : State), (s.safe.cycle = none)) ∧
  (∃ (s : State) (c : TpCycle), (s.safe.cycle = some c) ∧ (s.rd F.SAFE_SINGLEMAX < min (s.rd F.SAFE_SINGLECNT + 1) 255) ∧ (s.rd F.SAFE_TPEN = 1) ∧ (s.rd F.SAFE_TPLAT = 0)) ∧
  (∃ (s : State) (c : TpCycle), (s.safe.cycle = some c) ∧ (min (s.rd F.SAFE_SINGLECNT + 1) 255 ≤ s.rd F.SAFE_SINGLEMAX)) ∧
  (∃ (s : State), (s.rd F.SAFE_TPEN = 0 ∨ s.rd F.SAFE_TPLAT = 1)) ∧
  (∃ (s : State), (s.rd F.SAFE_TPEN = 1) ∧ (s.rd F.SAFE_TPLAT = 0)) ∧
  (∃ (v : Word) (s : State) (u : State), (s.turn 0xB040 (F.SAFE_TPLAT.put v 1) = some u) ∧ (u.hwBits 0xB040 = 0) ∧ (u.safe.accepted0 = true)) ∧
  (∃ (v : Word) (s : State) (u : State), (s.turn 0xB040 (F.SAFE_TPLAT.put v 1) = some u) ∧ (u.safe.accepted0 = false)) ∧
  (∃ (v : Word) (s : State) (u : State), (s.turn 0xB040 (F.SAFE_TPLAT.put v 1) = some u) ∧ (u.safe.lvlA ≠ u.safe.lvlB)) ∧
  (∃ (s : State), (s.rd F.SAFE_TXEN = 0)) ∧
  (∃ (s : State), (s.rd F.SAFE_TXEN = 1)) ∧
  (∃ (w : Fin 32) (v : Word) (s : State) (u : State), (s.turn (0xB100 + 4 * w) v = some u) ∧ (1 < u.modeNow)) ∧
  (∃ (w : Fin 32) (v : Word) (s : State) (u : State), (s.turn (0xB100 + 4 * w) v = some u) ∧ (u.modeNow ≤ 1) ∧ (u.rd (F.LOCK Pg.SAFE) = 0) ∧ (safeRange (0x100 + 4 * w) v = false)) ∧
  (∃ (w : Fin 32) (v : Word) (s : State) (u : State), (s.turn (0xB100 + 4 * w) v = some u) ∧ (u.modeNow ≤ 1) ∧ (u.rd (F.LOCK Pg.SAFE) = 0) ∧ (safeRange (0x100 + 4 * w) v = true)) ∧
  (∃ (v : Word) (s : State) (u : State), (s.turn 0xB048 v = some u) ∧ (u.modeNow ≠ 1)) ∧
  (∃ (v : Word) (s : State) (u : State), (s.turn 0xB048 v = some u) ∧ (u.modeNow = 1)) ∧
  (∃ (v : Word) (s : State) (u : State), (s.turn 0xB050 v = some u) ∧ (F.SAFE_RELKEY.of v ≠ 0xC35A)) ∧
  (∃ (v : Word) (s : State) (u : State), (s.turn 0xB050 v = some u) ∧ (F.SAFE_RELKEY.of v = 0xC35A) ∧ (F.SAFE_RELGO.of v = 0)) ∧
  (∃ (v : Word) (s : State) (u : State), (s.turn 0xB050 v = some u) ∧ (F.SAFE_RELKEY.of v = 0xC35A) ∧ (F.SAFE_RELGO.of v = 1) ∧ (u.relReason ≠ 0)) ∧
  (∃ (v : Word) (s : State) (u : State), (s.turn 0xB050 v = some u) ∧ (F.SAFE_RELKEY.of v = 0xC35A) ∧ (F.SAFE_RELGO.of v = 1) ∧ (u.relReason = 0)) ∧
  (∃ (s : State), (s.modeNow ≠ 7 ∨ s.rd F.SAFE_PHASE ≠ 2)) ∧
  (∃ (s : State), (s.modeNow = 7) ∧ (s.rd F.SAFE_PHASE = 2) ∧ (s.safeDemand = true)) ∧
  (∃ (s : State), (s.modeNow = 7) ∧ (s.rd F.SAFE_PHASE = 2) ∧ (s.safeDemand = false) ∧ (s.rd F.SAFE_DECELLAT = 1)) :=
  ⟨⟨[], by decide +kernel⟩,
  ⟨true, tp 0 9 0 4 0 3, by decide +kernel⟩,
  ⟨true, tp 1 9 0 4 0 3, (up), by decide +kernel⟩,
  ⟨true, tp 1 9 0 4 0 3, (tb), by decide +kernel⟩,
  ⟨false, tp 0 9 0 4 0 3, (oc 0 0), ⟨9, 0, ((tp 0 9 0 4 0 3).drop 4).take 28, false⟩, by decide +kernel⟩,
  ⟨true, tp 1 9 0 4 0 3, (oc 0 0), ⟨9, 0, ((tp 0 9 0 4 0 3).drop 4).take 28, false⟩, by decide +kernel⟩,
  ⟨true, tp 1 9 1 4 0 3, (oc 0 0), ⟨9, 0, ((tp 0 9 0 4 0 3).drop 4).take 28, false⟩, by decide +kernel⟩,
  ⟨(up), by decide +kernel⟩,
  ⟨({ put (oc 0 0) [(F.SAFE_TPDEM, 1), (F.SAFE_SINGLECNT, 9)] with pending := [] }), ⟨9, 0, ((tp 0 9 0 4 0 3).drop 4).take 28, false⟩, by decide +kernel⟩,
  ⟨(oc 0 0), ⟨9, 0, ((tp 0 9 0 4 0 3).drop 4).take 28, false⟩, by decide +kernel⟩,
  ⟨(up), by decide +kernel⟩,
  ⟨(tb), by decide +kernel⟩,
  ⟨0, ({ put tb [(F.SAFE_TPLAT, 1), (F.SAFE_TPRSN, 2), (F.SAFE_SSDISCLAT, 1)] with safe := { tb.safe with accepted0 := true, lvlA := true } }), ({ put tb [(F.SAFE_TPLAT, 1), (F.SAFE_TPRSN, 2), (F.SAFE_SSDISCLAT, 1)] with safe := { tb.safe with accepted0 := true, lvlA := true } }), by decide +kernel⟩,
  ⟨0, (up), (up), by decide +kernel⟩,
  ⟨0, ({ put tb [(F.SAFE_TPLAT, 1), (F.SAFE_TPRSN, 2), (F.SAFE_SSDISCLAT, 1)] with safe := { tb.safe with accepted0 := true, lvlA := true } }), ({ put tb [(F.SAFE_TPLAT, 1), (F.SAFE_TPRSN, 2), (F.SAFE_SSDISCLAT, 1)] with safe := { tb.safe with accepted0 := true, lvlA := true } }), by decide +kernel⟩,
  ⟨(up), by decide +kernel⟩,
  ⟨(put up [(F.SAFE_TXEN, 1), (F.SAFE_TXSEQ, 0xFFFFFFFF), (F.NETQ_QLIM 0 (up.rd F.NETQ_SAFEQ), 0)]), by decide +kernel⟩,
  ⟨0, 0, (put up [(F.SYS_MODE, 2)]), (put up [(F.SYS_MODE, 2)]), by decide +kernel⟩,
  ⟨0, 0, (up), (up), by decide +kernel⟩,
  ⟨0, 0x00010001, (up), (up), by decide +kernel⟩,
  ⟨0, (up), (up), by decide +kernel⟩,
  ⟨0, (put up [(F.SYS_MODE, 1), (F.SAFE_CVALID, 1), (F.SAFE_STOA, 0)]), (put up [(F.SYS_MODE, 1), (F.SAFE_CVALID, 1), (F.SAFE_STOA, 0)]), by decide +kernel⟩,
  ⟨0, (up), (up), by decide +kernel⟩,
  ⟨0xC35A0000, (up), (up), by decide +kernel⟩,
  ⟨0xC35A0001, (up), (up), by decide +kernel⟩,
  ⟨0xC35A0001, (put up [(F.SYS_MODE, 7), (F.SAFE_PHASE, 2), (F.SAFE_CVALID, 1), (F.SAFE_CONFIRM, up.rd F.SAFE_CHECK), (F.SAFE_SSDEM, 0)]), (put up [(F.SYS_MODE, 7), (F.SAFE_PHASE, 2), (F.SAFE_CVALID, 1), (F.SAFE_CONFIRM, up.rd F.SAFE_CHECK), (F.SAFE_SSDEM, 0)]), by decide +kernel⟩,
  ⟨(up), by decide +kernel⟩,
  ⟨(put up [(F.SYS_MODE, 7), (F.SAFE_PHASE, 2), (F.SAFE_SSDEM, 1)]), by decide +kernel⟩,
  ⟨(put up [(F.SYS_MODE, 7), (F.SAFE_PHASE, 2), (F.SAFE_SSDEM, 0), (F.SAFE_DECELLAT, 1)]), by decide +kernel⟩⟩
end TwinPathAndRelease

/-- The hypotheses of each clause of `SealAndTap` are met together. -/
theorem witness_SealAndTap :
  (∃ (v : Word) (s : State) (u : State), (s.turn 0x1C0 (F.SYS_SEAL_GO.put v 1) = some u) ∧ (F.SYS_SEAL_KEY.of v ≠ 0xC3A5)) ∧
  (∃ (v : Word) (s : State) (u : State) (x : Nat), (s.turn 0x1C0 (F.SYS_SEAL_GO.put v 1) = some u) ∧ (F.SYS_SEAL_KEY.of v = 0xC3A5) ∧ ((x = 1 ∧ u.modeNow ≠ 0) ∨
          (x = 2 ∧ u.modeNow = 0 ∧ (u.secBusy = true ∨ u.rd F.AGE_BUSY = 1 ∨ u.rd F.KEEP_CKBUSY = 1 ∨ u.rd F.SYS_SEALING = 1)) ∨
          (x = 3 ∧ u.modeNow = 0 ∧ u.secBusy = false ∧ u.rd F.AGE_BUSY = 0 ∧ u.rd F.KEEP_CKBUSY = 0 ∧ u.rd F.SYS_SEALING = 0 ∧ u.boot.sealSt = 2))) ∧
  (∃ (v : Word) (s : State) (u : State), (s.turn 0x1C0 (F.SYS_SEAL_GO.put v 1) = some u) ∧ (F.SYS_SEAL_KEY.of v = 0xC3A5) ∧ (u.modeNow = 0) ∧ (u.secBusy = false) ∧ (u.rd F.AGE_BUSY = 0) ∧ (u.rd F.KEEP_CKBUSY = 0) ∧ (u.rd F.SYS_SEALING = 0) ∧ (u.boot.sealSt ≠ 2)) ∧
  (∃ (s : State), (s.rd F.SYS_SEALING = 0)) ∧
  (∃ (s : State), (s.rd F.SYS_SEALING = 1)) ∧
  (∃ (s : State), (s.boot.dark = true)) ∧
  (∃ (s : State), (s.boot.dark = false) ∧ (s.phase = .down ∨ (s.boot.jtag ≠ 3 ∧ s.tmode = true))) :=
  ⟨⟨0, (up), (up), by decide +kernel⟩,
  ⟨0xC3A50000, (put up [(F.SYS_MODE, 1)]), (put up [(F.SYS_MODE, 1)]), 1, by decide +kernel⟩,
  ⟨0xC3A50000, (up), (up), by decide +kernel⟩,
  ⟨(up), by decide +kernel⟩,
  ⟨(put up [(F.SYS_SEALING, 1)]), by decide +kernel⟩,
  ⟨({ up with phase := .down, boot := { up.boot with dark := true } }), by decide +kernel⟩,
  ⟨({ State.reset with phase := .down }), by decide +kernel⟩⟩

/-! The statements over whole steps. -/

/-- The device in ACTIVE with one command waiting. -/
def waiting : State := { up with pending := [.vrefReady] }

theorem witness_StepRunsFrontCommand : ∃ s : State, s.pending = [] := ⟨State.reset, rfl⟩

theorem witness_ExecKeepsQueueAndVariant : ∃ (c : Instr) (s t : State), exec c s = .next t := ⟨.vrefReady, waiting, _, rfl⟩

theorem witness_PresenceNeverChanges :
    (∃ s t : State, Steps s t) ∧ (∃ i q : Nat, isumPages0[i]? = some q) ∧ (∃ i q : Nat, isumPages1[i]? = some q) ∧
    (∃ s : State, s.variant = .vnk8256) ∧ (∃ s : State, s.variant = .vnk8248) ∧ (∃ s : State, s.variant = .vnk8232) :=
  ⟨⟨waiting, _, rfl⟩, ⟨31, 0x42, by decide⟩, ⟨30, 0x37, by decide⟩, ⟨up, rfl⟩, ⟨{ up with variant := .vnk8248 }, rfl⟩,
   ⟨{ up with variant := .vnk8232 }, rfl⟩⟩

theorem witness_BlownFusesStayBlown : ∃ s t : State, s.FuseOpUp ∧ Steps s t :=
  ⟨{ waiting with sec := { up.sec with fop := some (2, 0, 5) } }, _,
    (by intro k v h; simp only [Option.some.injEq, Prod.mk.injEq, true_and] at h; obtain ⟨rfl, rfl⟩ := h; decide +kernel), rfl⟩

theorem witness_WriteBufferBounded : ∃ s t : State, s.BufBound ∧ Steps s t :=
  ⟨{ waiting with hif := { up.hif with buf := List.replicate 64 ⟨0x5040, 1, false, 0⟩ } }, _, by unfold State.BufBound; decide, rfl⟩

theorem witness_MemoryStaysCanonical : ∃ s t : State, s.MemOk ∧ Steps s t :=
  ⟨{ waiting with mem := [(0x300000, 5), (0x800000, 7)] }, _, by unfold State.MemOk; decide +kernel, rfl⟩

/-! The images of `LoadsAndAttestation`. What a signature's check answers is free (R436), and so is the vendor's key: the clauses on an
image that passes are met for every choice of these in which the signature holds and the key is the image's. -/

/-- The hash of the key of zeros. -/
@[irreducible] def zeroKey : List Byte := hash32 (List.replicate 1793 0)

theorem hash_zeros : hash32 (List.replicate 1793 0) = zeroKey := by delta zeroKey; with_reducible rfl

/-- A load in progress of an image of type `ty` and root `rt` with SVN 0 and payload `pl`, its key and signature zeros, in a device with the
fuses `f`. -/
abbrev image (f : FuseM) (ty rt : Nat) (pl : List Byte) : State :=
  { put up [(F.SEC_LBUSY, 1), (F.FLT_CLASS 0x0A, 1), (F.FLT_CLASS 0x0B, 1)] with
    sec := { fuse := f, load := some (leBytes 8 (0x31495147 + 2 ^ 32 * (1 + 65536 * ty + 2 ^ 24 * rt)) ++ leBytes 8 (pl.length + 2 ^ 40 * 7) ++
      List.replicate 0xC38 0 ++ pl) } }

/-- The fuses of the owner of that key, with the counter of descriptors at `n`. -/
abbrev owner (n : Nat) : FuseM := { slot0 := leVal zeroKey, v0 := true, c2 := n }

/-- The image taken, and its fields. -/
def imageOf (s : State) : List Byte := s.sec.load.getD []
def fieldsOf (s : State) : Gq := (gqParse (imageOf s)).getD ⟨0, 0, 0, 0, 0, [], [], [], []⟩

theorem getD_some {α : Type} (o : Option α) (d : α) (h : o.isSome = true) : o = some (o.getD d) := by
  cases o with
  | none => cases h
  | some x => rfl

/-- The image is read and has the format. -/
theorem image_read (s : State) (h1 : s.sec.load.isSome = true) (h2 : (gqParse (imageOf s)).isSome = true) :
    s.sec.load = some (imageOf s) ∧ gqParse (imageOf s) = some (fieldsOf s) :=
  ⟨getD_some _ _ h1, getD_some _ _ h2⟩

/-- What passes step 1 to 7 of R436 where every signature holds. -/
theorem check_signed (hs : ∀ p s d, Config.sigVerify p s d = true) (s : State) (g : Gq) :
    s.gqCheck g = if (g.varmask / 2 ^ s.variant.code % 2 = 0 || (g.bind != 0 && g.bind != devId)) = true then .sigfail
      else if ((g.root == 0) != (g.type == 1)) = true then .sigfail
      else if (g.root = 1 && s.ownerActive = 0) = true then .noowner
      else if (hash32 g.pub != (if g.root = 0 then vendorBytes else s.ownerBytes)) = true then .sigfail
      else if (g.type != 5 && decide (g.svn < s.arb (g.type - 1))) = true then .rollback
      else .ok := by
  unfold gqCheck
  rw [hs]
  simp only [Bool.not_true, Bool.false_eq_true, if_false]

/-- A load is in progress, and the image has the format of R434. -/
def reads (s : State) : Bool := s.rd F.SEC_LBUSY == 1 && s.sec.load.isSome && (gqParse (imageOf s)).isSome

theorem reads_all (s : State) (h : reads s = true) : s.rd F.SEC_LBUSY = 1 ∧ s.sec.load.isSome = true ∧ (gqParse (imageOf s)).isSome = true := by
  simp only [reads, Bool.and_eq_true, beq_iff_eq] at h
  exact ⟨h.1.1, h.1.2, h.2⟩

/-- An owner's image of a key of zeros that gives `r` where the counter of descriptors is `n`. -/
def ownerGood (s : State) (n : Nat) (r : GqRes) : Bool :=
  decide ((fieldsOf s).pub = List.replicate 1793 0) && (fieldsOf s).varmask == 7 && (fieldsOf s).bind == 0 && (fieldsOf s).root == 1 &&
    (fieldsOf s).type != 1 && s.variant == .vnk8256 && s.boot.sealSt == 0 && (fieldsOf s).svn == 0 && decide ((fieldsOf s).type ≤ 5) &&
    r == (if (fieldsOf s).type = 3 ∧ n ≠ 0 then .rollback else .ok)

/-- The vendor's image of a key of zeros. -/
def vendorGood (s : State) : Bool :=
  decide ((fieldsOf s).pub = List.replicate 1793 0) && (fieldsOf s).varmask == 7 && (fieldsOf s).bind == 0 && (fieldsOf s).root == 0 &&
    (fieldsOf s).type == 1 && s.variant == .vnk8256 && s.sec.fuse.c0 == 0

/-- The type and the payload's length are good. -/
def typeGood (s : State) : Bool :=
  (fieldsOf s).type != 4 && ((fieldsOf s).type != 5 || (fieldsOf s).payload.length == 32) && decide ((fieldsOf s).payload.length ≤ 45056)

theorem leBytes_leVal (l : List Byte) : leBytes l.length (leVal l) = l := by
  induction l with
  | nil => rfl
  | cons b t ih =>
    have h : (b.toNat + 256 * leVal t) / 256 = leVal t := by have := b.isLt; omega
    have h' : BitVec.ofNat 8 (b.toNat + 256 * leVal t) = b := by
      apply BitVec.eq_of_toNat_eq; have := b.isLt; simp only [BitVec.toNat_ofNat]; omega
    simp only [leVal, List.length_cons, leBytes, h, h', ih]

theorem round_length (a : List Nat) (c : Nat) : (Shake.round a c).length = 25 := by
  unfold Shake.round
  dsimp only
  split
  · next e => have := congrArg List.length e; simp at this
  · next e => have := congrArg List.length e; simpa using this.symm

theorem permute_length (l : List Nat) : ∀ a : List Nat, a.length = 25 → (l.foldl Shake.round a).length = 25 := by
  induction l with
  | nil => intro a h; exact h
  | cons c l ih => intro a _; exact ih _ (round_length _ _)

theorem absorbAll_length (n : Nat) : ∀ (a : List Nat) (m : List Byte), a.length = 25 → (Shake.absorbAll n a m).length = 25 := by
  induction n with
  | zero => intro a m h; exact h
  | succ n ih => intro a m _; exact ih _ _ (permute_length _ _ (by simp))

theorem hash32_length (m : List Byte) : (hash32 m).length = 32 := by
  have h := absorbAll_length ((Shake.pad m).length / 136) (List.replicate 25 0) (Shake.pad m) (by simp)
  have h8 : ∀ l : List Nat, (l.flatMap (leBytes 8)).length = 8 * l.length := by
    intro l
    induction l with
    | nil => rfl
    | cons x t ih => rw [List.flatMap_cons, List.length_append, ih, List.length_cons, show (leBytes 8 x).length = 8 from rfl]; omega
  unfold hash32 shake256
  simp only [List.length_take, Shake.squeeze, List.append_nil, h8, h]
  decide

/-- The checks of an owner's image of a key of zeros. -/
theorem check_owner (hs : ∀ p s d, Config.sigVerify p s d = true) (s : State) (n : Nat) (r : GqRes)
    (hf : s.sec.fuse = owner n)
    (hg : ownerGood s n r = true) :
    s.gqCheck (fieldsOf s) = r := by
  rw [check_signed hs]
  unfold ownerGood at hg
  generalize fieldsOf s = g at *
  simp only [Bool.and_eq_true, decide_eq_true_eq, beq_iff_eq, bne_iff_ne, ne_eq] at hg
  obtain ⟨⟨⟨⟨⟨⟨⟨⟨⟨h1, h2⟩, h3⟩, h4⟩, h5⟩, h6⟩, h7⟩, h8⟩, h9⟩, hr⟩ := hg
  have ha : s.ownerActive = 1 := by simp [ownerActive, hf, h7]
  have hb : s.ownerBytes = zeroKey := by
    simp only [ownerBytes, ha, hf, if_true]
    have := leBytes_leVal zeroKey
    rwa [show zeroKey.length = 32 by rw [← hash_zeros, hash32_length]] at this
  have hd : s.arb (g.type - 1) = if g.type = 3 then n else 0 := by
    simp only [arb, hf]
    rcases Nat.lt_or_ge g.type 3 with h | h
    · have : g.type = 0 ∨ g.type = 2 := by omega
      rcases this with e | e <;> simp [e]
    · have : g.type = 3 ∨ g.type = 4 ∨ g.type = 5 := by omega
      rcases this with e | e | e <;> simp [e]
  rw [hr]
  have hp : hash32 g.pub = zeroKey := by rw [h1, hash_zeros]
  simp only [hp, h2, h3, h4, h6, h8, ha, hb, hd, Variant.code]
  by_cases e : g.type = 3
  · rcases Nat.eq_zero_or_pos n with z | z <;> simp [e, z]
    omega
  · simp [e, h5]

/-- The checks of the vendor's image of a key of zeros. -/
theorem check_vendor (hs : ∀ p s d, Config.sigVerify p s d = true) (hv : vendorBytes = zeroKey) (s : State)
    (hg : vendorGood s = true) :
    s.gqCheck (fieldsOf s) = .ok := by
  rw [check_signed hs]
  unfold vendorGood at hg
  generalize fieldsOf s = g at *
  simp only [Bool.and_eq_true, decide_eq_true_eq, beq_iff_eq] at hg
  obtain ⟨⟨⟨⟨⟨⟨h1, h2⟩, h3⟩, h4⟩, h5⟩, h6⟩, h7⟩ := hg
  have hp : hash32 g.pub = zeroKey := by rw [h1, hash_zeros]
  simp [hp, h2, h3, h4, h5, h6, h7, hv, Variant.code, arb]

/-- An image that passes them gives RES 0 where its type and length are good. -/
theorem passing_of (s : State) (ty : Nat) (h : reads s = true) (ht : (fieldsOf s).type = ty) (hc : s.gqCheck (fieldsOf s) = .ok)
    (hk : typeGood s = true) :
    ∃ (s : State) (l : List Byte) (g : Gq), s.rd F.SEC_LBUSY = 1 ∧ s.sec.load = some l ∧ gqParse l = some g ∧
      (s.imageCheck (some l)).1 = 0 ∧ g.type = ty := by
  obtain ⟨hb, h1, h2⟩ := reads_all s h
  refine ⟨s, imageOf s, fieldsOf s, hb, (image_read s h1 h2).1, (image_read s h1 h2).2, ?_, ht⟩
  have hp := (image_read s h1 h2).2
  unfold typeGood at hk
  generalize fieldsOf s = g at *
  generalize imageOf s = l at *
  unfold imageCheck
  rw [Option.bind_some, hp]
  simp only [hc]
  simp only [Bool.and_eq_true, bne_iff_ne, ne_eq, Bool.or_eq_true, beq_iff_eq, decide_eq_true_eq] at hk
  obtain ⟨⟨k1, k2⟩, k3⟩ := hk
  rw [if_neg k1, if_neg, if_neg]
  · simp only [Bool.or_eq_true, Bool.and_eq_true, decide_eq_true_eq, not_or, not_and]
    omega
  · simp only [Bool.and_eq_true, bne_iff_ne, decide_eq_true_eq, not_and, ne_eq, not_not]
    omega

/-- An image that fails them with `r` gives the RES of `r`. -/
theorem failing_of (s : State) (r : GqRes) (h : reads s = true) (hc : s.gqCheck (fieldsOf s) = r)
    (hr : r ≠ .ok) : (s.imageCheck (some (imageOf s))).1 = if r = .sigfail then 1 else if r = .rollback then 2 else 3 := by
  have hp : gqParse (imageOf s) = some (fieldsOf s) := getD_some _ _ (reads_all s h).2.2
  generalize fieldsOf s = g at *
  generalize imageOf s = l at *
  unfold imageCheck
  rw [Option.bind_some, hp]
  simp only [hc]
  cases r <;> first | rfl | exact absurd rfl hr

/-- The images: descriptors, configuration, a rotation, a microcode. -/
abbrev imDesc : State := image (owner 0) 3 1 [1, 2, 3, 4, 5, 6, 7, 8]
abbrev imOld : State := image (owner 9) 3 1 [1, 2, 3, 4, 5, 6, 7, 8]
abbrev imConf : State := image (owner 0) 2 1 [0x40, 0x10, 1, 0, 5, 0, 0, 0]
abbrev imRot : State := image (owner 0) 5 1 (List.replicate 32 7)
abbrev imMicro : State := image {} 1 0 [1, 2, 3, 4, 5, 6, 7, 8]
abbrev imForeign : State := image {} 3 1 [1, 2, 3, 4, 5, 6, 7, 8]

theorem imDesc_facts : (reads imDesc && ownerGood imDesc 0 .ok && typeGood imDesc && (fieldsOf imDesc).type == 3) = true := by decide +kernel
theorem imOld_facts : (reads imOld && ownerGood imOld 9 .rollback && imOld.rd (F.FLT_CLASS 0x0B) == 1) = true := by decide +kernel
theorem imConf_facts : (reads imConf && ownerGood imConf 0 .ok && typeGood imConf && (fieldsOf imConf).type == 2) = true := by decide +kernel
theorem imRot_facts : (reads imRot && ownerGood imRot 0 .ok && typeGood imRot && (fieldsOf imRot).type == 5) = true := by decide +kernel
theorem imMicro_facts : (reads imMicro && vendorGood imMicro && typeGood imMicro && (fieldsOf imMicro).type == 1) = true := by decide +kernel
theorem imForeign_facts : (reads imForeign && (fieldsOf imForeign).varmask == 7 && (fieldsOf imForeign).bind == 0 && (fieldsOf imForeign).root == 1 &&
    (fieldsOf imForeign).type == 3 && imForeign.ownerActive == 0 && imForeign.variant == .vnk8256 && imForeign.rd (F.FLT_CLASS 0x0A) == 1) = true := by
  decide +kernel

/-- An owner's image that passes. -/
theorem owner_passes (hs : ∀ p s d, Config.sigVerify p s d = true) (s : State) (ty : Nat) (hf : s.sec.fuse = owner 0)
    (h : (reads s && ownerGood s 0 .ok && typeGood s && (fieldsOf s).type == ty) = true) :
    ∃ (s : State) (l : List Byte) (g : Gq), s.rd F.SEC_LBUSY = 1 ∧ s.sec.load = some l ∧ gqParse l = some g ∧
      (s.imageCheck (some l)).1 = 0 ∧ g.type = ty := by
  simp only [Bool.and_eq_true, beq_iff_eq] at h
  exact passing_of s ty h.1.1.1 h.2 (check_owner hs s 0 .ok hf h.1.1.2) h.1.2

/-- A passing image of each type, and one of an old SVN. -/
theorem witness_LoadsAndAttestation_passing (hs : ∀ p s d, Config.sigVerify p s d = true) (hv : vendorBytes = zeroKey) :
    (∀ ty, ty = 1 ∨ ty = 2 ∨ ty = 3 ∨ ty = 5 → ∃ (s : State) (l : List Byte) (g : Gq), s.rd F.SEC_LBUSY = 1 ∧ s.sec.load = some l ∧
      gqParse l = some g ∧ (s.imageCheck (some l)).1 = 0 ∧ g.type = ty) ∧
    ∃ (s : State) (l : List Byte) (g : Gq), s.rd F.SEC_LBUSY = 1 ∧ s.sec.load = some l ∧ gqParse l = some g ∧
      (s.imageCheck (some l)).1 = 2 ∧ s.rd (F.FLT_CLASS 0x0B) = 1 := by
  constructor
  · rintro ty (h | h | h | h) <;> subst h
    · have f := imMicro_facts
      generalize imMicro = s at f
      simp only [Bool.and_eq_true, beq_iff_eq] at f
      exact passing_of s 1 f.1.1.1 f.2 (check_vendor hs hv s f.1.1.2) f.1.2
    · exact owner_passes hs imConf 2 rfl imConf_facts
    · exact owner_passes hs imDesc 3 rfl imDesc_facts
    · exact owner_passes hs imRot 5 rfl imRot_facts
  · have f := imOld_facts
    have hf : imOld.sec.fuse = owner 9 := rfl
    generalize imOld = s at f hf
    simp only [Bool.and_eq_true, beq_iff_eq] at f
    obtain ⟨r1, r2, r3⟩ := reads_all s f.1.1
    exact ⟨s, imageOf s, fieldsOf s, r1, (image_read s r2 r3).1, (image_read s r2 r3).2,
      failing_of s .rollback f.1.1 (check_owner hs s 9 .rollback hf f.1.2) (by decide), f.2⟩

/-- An image that fails a check, whatever the free values. -/
theorem witness_LoadsAndAttestation_failing :
    ∃ (s : State) (l : List Byte) (g : Gq), s.rd F.SEC_LBUSY = 1 ∧ s.sec.load = some l ∧ gqParse l = some g ∧ g.type ≠ 2 ∧
      (s.imageCheck (some l)).1 ≠ 0 ∧ (s.imageCheck (some l)).1 = 3 ∧ s.rd (F.FLT_CLASS 0x0A) = 1 := by
  have f := imForeign_facts
  generalize imForeign = s at f
  simp only [Bool.and_eq_true, beq_iff_eq] at f
  obtain ⟨⟨⟨⟨⟨⟨⟨f0, f1⟩, f2⟩, f3⟩, f4⟩, f5⟩, f6⟩, f7⟩ := f
  obtain ⟨r1, r2, r3⟩ := reads_all s f0
  have hn : s.gqCheck (fieldsOf s) = .noowner := by
    simp [gqCheck, f1, f2, f3, f4, f5, f6, Variant.code]
  have h := failing_of s .noowner f0 hn (by decide)
  exact ⟨s, imageOf s, fieldsOf s, r1, (image_read s r2 r3).1, (image_read s r2 r3).2, by omega, by rw [h]; decide, h, f7⟩

/-! Ill-formed commands, which the check refuses. -/

theorem test_wf_short_block : Instr.wf (.controlDecimation 0 [[true], [], []]) = false := by decide
theorem test_wf_short_metrology : Instr.wf (.metrologySample 0 [0, 0] [0]) = false := by decide
theorem test_wf_calibration : Instr.wf (.padcCalibrationDone 0 []) = false := by decide
theorem test_wf_zero_vref : Instr.wf (.comparatorTrip 0 0 0) = false := by decide
theorem test_wf_no_sample : Instr.wf (.selfTestStepEnd []) = false ∧ Instr.wf (.overcurrentQualify 0 []) = false ∧ Instr.wf (.stuckStreamDetect ⟨0, []⟩) = false := by decide
theorem test_wf_short_frame : Instr.wf (.frameReceive 0 [] true 0 none) = false := by decide
theorem test_wf_late_in_tick : Instr.wf (.frameTransmit 0 16) = false := by decide
theorem test_wf_safety_frame : Instr.wf (.twinPathCopy false []) = false := by decide
theorem test_wf_pairs : Instr.wf (.planRunStart []) = false ∧ Instr.wf (.junctionSample [1, 2, 3]) = false := by decide
theorem test_wf_image_offset : imagesOk [(0x2004, [])] = false ∧ imagesOk [(0x1000, [])] = false ∧ imagesOk [(0x3000, [])] = true := by
  decide
theorem test_wf_long_header (n : Nat) (h : 4096 < n) : Instr.wf (.boot 0 (List.replicate n 0) [] [] false) = false := by
  simp only [Instr.wf, List.length_replicate, decide_eq_false (Nat.not_le.mpr h), Bool.false_and]
theorem test_wf_long_block (n : Nat) (h : 65536 < n) : Instr.wf (.dataBlockCopyDone (some (List.replicate n 0))) = false := by
  simp only [Instr.wf, Option.all, List.length_replicate, decide_eq_false (Nat.not_le.mpr h)]
theorem test_wf_reload : Instr.wf (.descriptorReloadDone [(0x1000, [])]) = false := by decide
theorem test_wf_zero_vref_cut : Instr.wf (.cycleByCycleCut 0 0 0) = false := by decide
theorem test_wf_zero_vref_out : Instr.wf (.comparatorOutputChange 0 0 0) = false := by decide
theorem test_wf_oscillators : Instr.wf (.oscillatorMeasure 0 []) = false := by decide
theorem test_wf_good : Instr.wf (.junctionSample [1, 2, 3, 4]) = true ∧ Instr.wf .vrefReady = true := by decide

/-! Results the spec prints. -/

/-- The state `c` leads to from `s`. -/
def after (s : State) (c : Instr) : State :=
  match exec c s with
  | .next t => t
  | _ => State.reset

/-- R120: the check value of the string "123456789", and Example 6.1. -/
theorem test_crc16 : crc16 ((List.range 9).map fun k => BitVec.ofNat 8 (0x31 + k)) = 0x29B1 ∧ crc16 [0x05] = 0xB155 := by decide +kernel

/-- Example 0.1: a write to a page the variant lacks is dropped, counted and reported ABSENT. -/
theorem test_absent_page :
    let f : List Byte := beBytes 3 0x30008 ++ [1] ++ beBytes 4 1
    let t := after { up with variant := .vnk8232 } (.hostWriteFrame (f ++ beBytes 2 (crc16 (0x02 :: f))))
    t.rd F.HIF_ABSENTCNT = 1 ∧ t.hif.buf = [] ∧ t.hif.answer = [0xA2] := by decide +kernel

/-- Example 8.1: the means of the two converters differ by 180. -/
theorem test_padc_difference :
    let s := put up [(F.PADC_XEN, 1), (F.PADC_SHARED 0 0, 1), (F.PADC_SHARED 1 0, 1), (F.PADC_XTOL, 400)]
    let t := after { s with padc := [(0, { acc := [(0, { sum := 301995500, cnt := 50 })] }), (1, { acc := [(0, { sum := 289907040, cnt := 48 })] })] }
      (.padcSnapshot 1)
    t.padcTickEnd.rd F.PADC_XDIFF = 180 ∧ t.rd F.PADC_SNAPSEQ = 1 := by decide +kernel

/-- The legs' registers of Examples 10.1 and 10.2 at the voltage `v` and the current `i`, and what the two evaluations give. -/
def tcm (v i : Nat) : State :=
  { put { up with safe := { up.safe with hold := false } }
      ([(F.SYS_MODE, 3), (F.SAFE_STOA, 0), (F.EN (Pg.CH 0), 1), (F.EN (Pg.LEG 0), 1), (F.LEGX_MAPA_VALID 0, 1), (F.LEG_MODE 0, 2),
        (F.LEGX_VINT 0, 0), (F.LEGX_VDC 0, 1), (F.LEGX_VIN 0, 2), (F.MOD_COUT 1, 0x44480000), (F.MOD_COUT 2, v), (F.LEG_LIFS 0, 0x42480000),
        (F.LEG_RVFS 0, 0x43C80000), (F.LEG_ACT_IREF 0, i), (F.LEG_ACT_DTR 0, 0x140), (F.LEG_ACT_DTF 0, 0x140)] ++
       (List.range 16).flatMap fun j => [(F.LEG_LTAB 0 j, 0x37495370), (F.LEG_IRTAB 0 j, 0x40000000)])
    with legs := [(0, { driving := true, part := .second })] }

/-- Example 10.1: t1 is 22 588 units and t2 is 6095. -/
theorem test_tcm_period :
    let s := after (tcm 0x43660000 0x41900000) (.tcmPeriodStart 0 0 0)
    s.rd (F.LEG_LASTT1 0) = 22588 ∧ (after s (.tcmSecondInterval 0 0)).rd (F.LEG_LASTT2 0) = 6095 := by decide +kernel

/-- Example 10.2: at the period floor, t1 is 1532 units, t2 is 1457 and the idle time 3651. -/
theorem test_tcm_floor :
    let s := after (tcm 0x41200000 0x3F000000) (.tcmPeriodStart 0 0 0)
    let t := after s (.tcmSecondInterval 0 0)
    s.rd (F.LEG_LASTT1 0) = 1532 ∧ t.rd (F.LEG_LASTT2 0) = 1457 ∧ t.rd (F.LEG_LASTIDLE 0) = 3651 ∧ t.rd (F.LEG_TFLOOR 0) = 1 := by
  decide +kernel

/-- Example 10.4: CMP above PER clamps, and RATIO takes 44 999 of 100 000. -/
theorem test_cpwm_clamp :
    let s := fun l : List (Fld × Nat) =>
      after { put up ([(F.EN (Pg.LEG 0), 1), (F.LEG_MODE 0, 1), (F.LEG_ACT_PER 0, 100000)] ++ l) with legs := [(0, { ctrOn := true })] }
        (.cpwmCounterZero 0 0)
    ((s [(F.LEG_ACT_CMP 0, 180000)]).leg 0).cUse = 100000 ∧ (s [(F.LEG_ACT_CMP 0, 180000)]).rd (F.LEG_CMPCLAMP 0) = 1 ∧
      ((s [(F.LEG_ACT_CMP 0, 29491), (F.LEG_ACT_RATIO 0, 1)]).leg 0).cUse = 44999 := by decide +kernel

/-- Example 12.2: SYS.MODE and the sub-states on the way from FOLLOW over RIDE to CEASE. -/
theorem test_ride_and_cease :
    let s := put up [(F.SYS_MODE, 3), (F.SYS_PRIOR, 3), (F.CH_TYPE 1, 2), (F.EN (Pg.CH 0), 1), (F.EN (Pg.CH 1), 1), (F.LEGX_MAPA_VALID 0, 1),
      (F.LEGX_MAPA_VALID 3, 1), (F.LEGX_MAPA_CH 3, 1), (subF 0, 3), (subF 1, 3), (F.SYS_RECONT, 300)]
    let t := after { s with mode := { s.mode with due := [1] } } .modeExcursion
    let r := after { t with tick := t.tick + 1, mode := { t.mode with due := [3] } } .modeCurve
    t.reg 0x40 = 0x1035 ∧ t.reg 0x5C = 0x33 ∧ r.reg 0x40 = 0x3036 ∧ r.reg 0x5C = 0x17 ∧ r.rd F.SYS_CEASESEC = 300 := by decide +kernel

/-- Example 16.1: a leg of duty 0.92 shifts by −8000 units; one of duty 0.95 stays centred. -/
theorem test_quiet_window :
    quietShift 250000 230000 16000 4000 4000 [(476000, 500000)] = some (-8000) ∧
    quietShift 250000 237500 16000 4000 4000 [(476000, 500000)] = none := by decide +kernel

/-- Example 18.1: the setpoint frame arms slot 2 of device 37, and its repeat counts as a duplicate. -/
theorem test_setpoint_frame :
    let f : List Byte := [1, 1, 0xFF, 0xFF, 0, 0, 1, 5, 0x0D, 0xE0, 0xB6, 0xB3, 0xA7, 0x64, 0, 0, 0, 0, 3, 0xFF, 2, 2, 1, 0,
      0, 3, 0, 0, 0x48, 0x12, 0x7C, 0, 0, 4, 0, 0, 0, 0, 0, 0, 0, 0, 0, 0, 0, 0]
    let t := after (put up [(F.NET_ARRID, 37)]) (.setpointFrameReceive 0x112233445566 f)
    t.rd F.NET_SPACC = 1 ∧ t.net.sp = [(2, { tapply := 10 ^ 18, writes := [(0, 3, 0x48127C00), (0, 4, 0)] })] ∧
      (after t (.setpointFrameReceive 0x112233445566 f)).rd F.NET_SPDUP = 1 := by decide +kernel

/-- Example 21.1: the check byte of the word 5. -/
theorem test_ecc_check : eccCheck 5 = 0x0A := by decide +kernel

/-- Example 24.1: what a VNK-8248 shows of its pages, and two PIDs. -/
theorem test_presence :
    let s : State := { up with variant := .vnk8248 }
    s.regWord 0xC0 = 0xFFF7FFFF ∧ s.regWord 0xC4 = 0x7FFFFFF7 ∧ s.regWord 0x1B000 = 0x18030100 ∧ s.regWord 0x31000 = 0x20110100 := by
  decide +kernel

end Sys2Proof.Tests
end

section
/-! SUPPORT. A host word that meets an empty write buffer: its turn, its target, and the record of its failure. -/

namespace Sys2Proof.Machine
namespace State

variable {s : State}

theorem hostUp_of (hp : s.phase = .up) (hr : s.rung < 3) : s.hostUp = true := by
  simp [hostUp, hp, hr]

/-- With nothing buffered, every word's turn has come (log 11). -/
theorem turn_of_buf_nil (hu : s.hostUp = true) (hb : s.hif.buf = []) (a : Nat) (v : Word) : s.turn a v = some s := by
  simp [turn, hu, hb, bufPick, bufHas]

theorem registerWrite_of_buf_nil (hu : s.hostUp = true) (hb : s.hif.buf = []) (a : Nat) (v : Word) :
    s.registerWrite a v = (noteWrite a (s.wordWrite a v)).settle := by
  simp [registerWrite, pairHigh, hb, bufPick, hostWord_of_turn s (turn_of_buf_nil hu hb a v)]

/-! Updates that change registers alone. -/

theorem onlyRegs_setReg (s : State) (a : Nat) (w : Word) : OnlyRegs [a] s (s.setReg a w) :=
  ⟨fun _ hb => reg_setReg_ne s w (by simpa using hb), rfl⟩

theorem onlyRegs_wr (s : State) (f : Fld) (v : Nat) : OnlyRegs [f.addr] s (s.wr f v) := onlyRegs_setReg s _ _

@[simp] theorem reg_latch (s : State) (f : Fld) (b : Nat) : (s.latch f).reg b = (s.wr f (2 ^ f.width - 1)).reg b := (rfl)

@[simp] theorem rd_latch (s : State) (f g : Fld) : (s.latch f).rd g = (s.wr f (2 ^ f.width - 1)).rd g := (rfl)

theorem onlyRegs_latch (s : State) (f : Fld) : OnlyRegs [f.addr] s (s.latch f) :=
  ⟨fun _ hb => reg_wr_ne s f _ (by simpa using hb), rfl⟩

theorem OnlyRegs.trans {l : List Nat} {s t u : State} (hst : OnlyRegs l s t) (htu : OnlyRegs l t u) : OnlyRegs l s u := by
  obtain ⟨hreg, hs⟩ := hst
  obtain ⟨hreg', ht⟩ := htu
  refine ⟨fun b hb => (hreg' b hb).trans (hreg b hb), ?_⟩
  rw [← ht] at hs
  exact hs

/-! The failed write (R127). -/

@[simp] theorem noteWrite_ok (a : Nat) (t : State) : noteWrite a (t, .ok) = t := by
  simp [noteWrite]

/-- The first failure stays: a later one leaves WERR alone. -/
theorem noteWrite_of_valid (a : Nat) (c : Status) (h : s.rd F.HIF_WEVALID = 1) : noteWrite a (s, c) = s := by
  simp [noteWrite, bit, h]

theorem noteWrite_of_invalid {c : Status} (a : Nat) (hc : c ≠ .ok) (h : s.rd F.HIF_WEVALID = 0) :
    noteWrite a (s, c) = ((s.latch F.HIF_WEVALID).wr F.HIF_WECODE c.code).wr F.HIF_WEADDR a := by
  simp [noteWrite, bit, h, hc]

theorem statusCode_lt (c : Status) : c.code < 2 ^ F.HIF_WECODE.width := by
  cases c <;> decide

theorem rd_wevalid_noteWrite {c : Status} (a : Nat) (hc : c ≠ .ok) (h : s.rd F.HIF_WEVALID = 0) :
    (noteWrite a (s, c)).rd F.HIF_WEVALID = 1 := by
  rw [noteWrite_of_invalid a hc h,
    rd_wr_beside _ F.HIF_WEADDR F.HIF_WEVALID _ (by decide) (by decide) (by decide) rfl (by decide),
    rd_wr_beside _ F.HIF_WECODE F.HIF_WEVALID _ (by decide) (by decide) (by decide) rfl (by decide),
    rd_latch, rd_wr_self _ _ _ (by decide) (by decide)]
  decide

theorem rd_wecode_noteWrite {c : Status} (a : Nat) (hc : c ≠ .ok) (h : s.rd F.HIF_WEVALID = 0) :
    (noteWrite a (s, c)).rd F.HIF_WECODE = c.code := by
  rw [noteWrite_of_invalid a hc h,
    rd_wr_beside _ F.HIF_WEADDR F.HIF_WECODE _ (by decide) (by decide) (by decide) rfl (by decide),
    rd_wr_self _ _ _ (by decide) (by decide), Nat.mod_eq_of_lt (statusCode_lt c)]

theorem rd_weaddr_noteWrite {c : Status} {a : Nat} (hc : c ≠ .ok) (ha : a < 2 ^ 24) (h : s.rd F.HIF_WEVALID = 0) :
    (noteWrite a (s, c)).rd F.HIF_WEADDR = a := by
  rw [noteWrite_of_invalid a hc h, rd_wr_self _ _ _ (by decide) (by decide)]
  exact Nat.mod_eq_of_lt ha

/-- The record of a failure touches WERR alone. -/
theorem onlyRegs_noteWrite {c : Status} (a : Nat) (hc : c ≠ .ok) (h : s.rd F.HIF_WEVALID = 0) :
    OnlyRegs [0x504C] s (noteWrite a (s, c)) := by
  rw [noteWrite_of_invalid a hc h]
  exact ((onlyRegs_latch s F.HIF_WEVALID).trans (onlyRegs_wr _ F.HIF_WECODE _)).trans (onlyRegs_wr _ F.HIF_WEADDR _)

/-! The target of a word (R4, R138, R452). -/

theorem wordWrite_mram {a : Nat} (v : Word) (h : inMram a = true) : s.wordWrite a v = (s, .locked) := by
  have hc : winOpen a = false := by
    simp only [inMram, Bool.and_eq_true, decide_eq_true_eq] at h
    simp [winOpen]; omega
  simp [wordWrite, inWin, h, memWrite, hc]

theorem wordWrite_outOfMap {a : Nat} (v : Word) (h : inMap a = false) : s.wordWrite a v = (s, .range) := by
  have hw : inWin a = false := (Bool.or_eq_false_iff.mp h).2
  simp [wordWrite, hw, h]

theorem wordWrite_absent {a : Nat} (v : Word) (hm : inMap a = true) (hw : inWin a = false) (hp : s.has (pageOf a) = false) :
    s.wordWrite a v = (s.sat F.HIF_ABSENTCNT, .absent) := by
  simp [wordWrite, hm, hw, onPage, hp]

/-- A word of a present page goes to its header or to its unit; afterwards the units look at the sub-states. -/
theorem wordWrite_present {q o : Nat} (v : Word) (hq : q < 91) (ho : o < 0x1000) (hu : RegMap.unitOf q ≠ 0)
    (hp : s.has (0x1000 * q) = true) :
    s.wordWrite (0x1000 * q + o) v =
      let r := if o < 0x40 then s.headWrite (0x1000 * q + o) v else s.unitWrite (0x1000 * q + o) v
      (r.1.subSync, r.2) := by
  have hdiv : (0x1000 * q + o) / 0x1000 = q := by omega
  have hmod : (0x1000 * q + o) % 0x1000 = o := by omega
  have hpage : pageOf (0x1000 * q + o) = 0x1000 * q := by rw [pageOf, hdiv, Nat.mul_comm]
  have hw : inWin (0x1000 * q + o) = false := by
    simp [inWin, inMram]; omega
  have hm : inMap (0x1000 * q + o) = true := by
    simp [inMap, hdiv, hu]; left; omega
  simp [wordWrite, hw, hm, hpage, onPage, hp, hmod]

/-! A word that stores one register. -/

theorem subSync_of_seen (h : s.subsSeen = s.subWord) : s.subSync = s := by
  simp [subSync, h]

/-- A register other than SYS.CHSUB can be stored without the units seeing a change of sub-state. -/
theorem subSync_setReg {a : Nat} (w : Word) (ha : a ≠ 0x5C) (h : s.subsSeen = s.subWord) : (s.setReg a w).subSync = s.setReg a w := by
  refine subSync_of_seen ?_
  have hsub : (s.setReg a w).reg (Pg.SYS + 0x5C) = s.reg (Pg.SYS + 0x5C) := reg_setReg_ne s w ha.symm
  rw [setReg_subsSeen, h, subWord, subWord, hsub]

theorem restKept_setReg_settle (s : State) (a : Nat) (w : Word) : RestKept [a] s (s.setReg a w).settle := by
  refine ⟨fun b hb => ?_, rfl⟩
  rw [settle_reg, reg_setReg_ne s w (by simpa using hb)]

end State
end Sys2Proof.Machine
end

section
/-! SUPPORT. A 32-bit write of a clean, valid word of memory (R417, R421): the bytes it stores and those it keeps. -/

namespace Sys2Proof

theorem length_leBytes (n : Nat) : ∀ v, (leBytes n v).length = n := by
  induction n with
  | zero => intro v; rfl
  | succ n ih => intro v; simp [leBytes, ih]

theorem getD_leBytes (n : Nat) : ∀ v j, j < n → (leBytes n v).getD j 0 = BitVec.ofNat 8 (v / 256 ^ j) := by
  induction n with
  | zero => intro v j h; omega
  | succ n ih =>
    intro v j h
    cases j with
    | zero => simp [leBytes]
    | succ j => rw [leBytes, List.getD_cons_succ, ih _ _ (by omega), Nat.div_div_eq_div_mul, Nat.pow_succ']

/-- The bytes of a little-endian value. -/
theorem leVal_div (l : List Byte) : ∀ j, BitVec.ofNat 8 (leVal l / 256 ^ j) = l.getD j 0 := by
  induction l with
  | nil => intro j; simp [leVal]
  | cons b t ih =>
    intro j
    have hb : b.toNat < 256 := b.isLt
    cases j with
    | zero =>
      apply BitVec.eq_of_toNat_eq
      simp only [leVal, BitVec.toNat_ofNat, pow_zero, Nat.div_one, List.getD_cons_zero]
      omega
    | succ j =>
      have hd : (b.toNat + 256 * leVal t) / 256 = leVal t := by omega
      rw [leVal, Nat.pow_succ', ← Nat.div_div_eq_div_mul, hd, ih, List.getD_cons_succ]

namespace Machine

/-- The 64-bit word `d` with its low (`p` = 0) or high half replaced. -/
def putHalf (d p v : Nat) : Nat := if p = 0 then d / 2 ^ 32 * 2 ^ 32 + v else v * 2 ^ 32 + d % 2 ^ 32

/-- A half replaced takes the bytes of its value, and the other half keeps its own. -/
theorem byte_putHalf {p j v : Nat} (d : Nat) (hp : p < 2) (hj : j < 8) (hv : v < 2 ^ 32) :
    BitVec.ofNat 8 (putHalf d p v / 256 ^ j) =
      if j / 4 = p then BitVec.ofNat 8 (v / 256 ^ (j % 4)) else BitVec.ofNat 8 (d / 256 ^ j) := by
  have hmod : putHalf d p v / 256 ^ j % 256 = (if j / 4 = p then v / 256 ^ (j % 4) else d / 256 ^ j) % 256 := by
    unfold putHalf
    interval_cases p <;> interval_cases j <;> simp <;> omega
  apply BitVec.eq_of_toNat_eq
  split at hmod <;> simp_all

namespace State

variable {s : State}

theorem byte_store64 (a d b : Nat) (syn : Byte) :
    (s.store64 a d syn).byte b =
      if a / 8 * 8 ≤ b ∧ b < a / 8 * 8 + 8 then BitVec.ofNat 8 (d / 256 ^ (b - a / 8 * 8)) else s.byte b := by
  change (s.putBytes (a / 8 * 8) (leBytes 8 d)).byte b = _
  rw [byte_putBytes, length_leBytes]
  by_cases h : a / 8 * 8 ≤ b ∧ b < a / 8 * 8 + 8
  · rw [if_pos h, if_pos h, getD_leBytes _ _ _ (by omega)]
  · rw [if_neg h, if_neg h]

theorem putBytes_regs (l : List Byte) : ∀ (s : State) (a : Nat), (s.putBytes a l).regs = s.regs := by
  induction l with
  | nil => intro s a; rfl
  | cons b t ih => intro s a; exact ih _ _

@[simp] theorem store64_regs (a d : Nat) (syn : Byte) : (s.store64 a d syn).regs = s.regs := putBytes_regs _ _ _

@[simp] theorem synd_store64 (a d : Nat) (syn : Byte) : (s.store64 a d syn).synd a = syn := by
  simp [store64, synd]

@[simp] theorem isInvalid_store64 (a d : Nat) (syn : Byte) : (s.store64 a d syn).isInvalid a = false := by
  simp [store64, isInvalid]

/-- The bytes of the 64-bit word that holds `a`. -/
theorem byte_raw64 {a j : Nat} (hj : j < 8) : BitVec.ofNat 8 (s.raw64 a / 256 ^ j) = s.byte (a + j) := by
  rw [raw64, leVal_div, bytes]
  simp [hj]

/-- Both halves of a word of shared RAM are valid or neither is. -/
theorem isInvalid_wordBase {a : Nat} (hlo : 0x300000 ≤ a) (hhi : a < 0x400000) : s.isInvalid (a / 8 * 8) = s.isInvalid a := by
  have hbase : 0x300000 ≤ a / 8 * 8 ∧ a / 8 * 8 < 0x400000 := by omega
  simp [isInvalid, arrayOf, hlo, hhi, hbase]

/-- The read of a clean, valid word changes nothing (R419). -/
theorem read64_clean {a : Nat} (hi : s.isInvalid (a / 8 * 8) = false) (hs : s.synd a = 0) :
    s.read64 a = (s, s.raw64 (a / 8 * 8), false) := by
  have hs' : s.synd (a / 8 * 8) = 0 := by simpa [synd] using hs
  simp [read64, hi, hs']

theorem write32_clean {a : Nat} (v : Word) (hi : s.isInvalid (a / 8 * 8) = false) (hs : s.synd a = 0) :
    s.write32 a v false = s.store64 a (putHalf (s.raw64 (a / 8 * 8)) (a / 4 % 2) v.toNat) 0 := by
  simp [write32, read64_clean hi hs, write64, putHalf]

/-- Over a clean, valid word a 32-bit write stores its four bytes and no other. -/
theorem byte_write32 {a : Nat} (v : Word) (ha : a % 4 = 0) (hi : s.isInvalid (a / 8 * 8) = false) (hs : s.synd a = 0) (b : Nat) :
    (s.write32 a v false).byte b = if a ≤ b ∧ b < a + 4 then BitVec.ofNat 8 (v.toNat / 256 ^ (b - a)) else s.byte b := by
  rw [write32_clean v hi hs, byte_store64]
  by_cases hw : a / 8 * 8 ≤ b ∧ b < a / 8 * 8 + 8
  · have hkeep := byte_raw64 (s := s) (a := a / 8 * 8) (j := b - a / 8 * 8) (by omega)
    rw [Nat.add_sub_cancel' hw.1] at hkeep
    rw [if_pos hw, byte_putHalf _ (by omega) (by omega) v.isLt, hkeep]
    by_cases hb : a ≤ b ∧ b < a + 4
    · have hoff : (b - a / 8 * 8) % 4 = b - a := by omega
      rw [if_pos hb, if_pos (by omega), hoff]
    · rw [if_neg hb, if_neg (by omega)]
  · rw [if_neg hw, if_neg (by omega)]

end State
end Machine
end Sys2Proof
end

section
/-! SUPPORT. What a written word does at its target (R127, R138, R139): the statement `WrittenWordTargets`. -/

namespace Sys2Proof.Machine
namespace State

variable {s : State}

/-! The interrupt registers of a page header (R139). -/

theorem headWrite_ien (q : Nat) (v : Word) :
    s.headWrite (0x1000 * q + 0x14) v = (s.setReg (0x1000 * q + 0x14) (v &&& BitVec.ofNat 32 (RegMap.irawBits q)), .ok) := by
  have hdiv : (0x1000 * q + 0x14) / 0x1000 = q := by omega
  simp [headWrite, hdiv]

theorem headWrite_iflg (q : Nat) (v : Word) :
    s.headWrite (0x1000 * q + 0x18) v =
      (s.setReg (0x1000 * q + 0x18) (s.reg (0x1000 * q + 0x18) &&& ~~~(s.clears (0x1000 * q + 0x18) v)), .ok) := by
  simp [headWrite]

@[simp] theorem settle_synd (a : Nat) : s.settle.synd a = s.synd a := (rfl)
@[simp] theorem settle_isInvalid (a : Nat) : s.settle.isInvalid a = s.isInvalid a := (rfl)

/-- A word to a header register that its page merely stores: the register takes the value, and nothing else moves. -/
theorem registerWrite_head_of_setReg {q o : Nat} {v w : Word} (hup : s.hostUp = true) (hb : s.hif.buf = []) (hs : s.subsSeen = s.subWord)
    (hq : q < 91) (ho : o < 0x40) (hu : RegMap.unitOf q ≠ 0) (hp : s.has (0x1000 * q) = true)
    (hw : s.headWrite (0x1000 * q + o) v = (s.setReg (0x1000 * q + o) w, .ok)) :
    s.registerWrite (0x1000 * q + o) v = (s.setReg (0x1000 * q + o) w).settle := by
  rw [registerWrite_of_buf_nil hup hb, wordWrite_present v hq (by omega) hu hp]
  simp [ho, hw, subSync_setReg w (by omega : 0x1000 * q + o ≠ 0x5C) hs]

/-- A word to open shared RAM is written to memory. -/
theorem wordWrite_sharedRam {a : Nat} (v : Word) (hlo : 0x300000 ≤ a) (hhi : a < 0x3FC000) (hg : s.lengGuard a = false) :
    s.wordWrite a v = (s.write32 a v false, .ok) := by
  have hw : inWin a = true := by
    simp [inWin]; omega
  have hopen : winOpen a = true := by
    simp [winOpen]; omega
  simp [wordWrite, hw, memWrite, hopen, hg]

end State

open State

/-- REGISTER_WRITE is the word's completion. -/
theorem exec_registerWrite (g : Fin 4096) (w : Fin 1024) (v : Word) (s : State) :
    exec (.registerWrite g w v) s = .next (s.registerWrite (wordAddr g w) v) := (rfl)

/-- Settles O28: with nothing buffered a word acts at once, and each target answers by its own rule. -/
theorem writtenWordTargets : Obligations.WrittenWordTargets := by
  refine ⟨?refused, ?recorded, ?sharedRam, ?interrupts⟩
  case refused =>
    intro g w v s hphase hrung hb
    have hwrite := registerWrite_of_buf_nil (hostUp_of hphase hrung) hb (wordAddr g w) v
    rw [exec_registerWrite, hwrite]
    refine ⟨fun h => ?_, fun h => ?_, fun hm hw hp => ?_⟩
    · rw [wordWrite_mram v h]
    · rw [wordWrite_outOfMap v h]
    · rw [wordWrite_absent v hm hw hp]
  case recorded =>
    intro a s c hc ha
    exact ⟨noteWrite_of_valid a c, fun h => ⟨rd_wevalid_noteWrite a hc h, rd_wecode_noteWrite a hc h, rd_weaddr_noteWrite hc ha h,
      onlyRegs_noteWrite a hc h⟩⟩
  case sharedRam =>
    intro g w v s hphase hrung hb hlo hhi hg hi hs
    have halign : wordAddr g w % 4 = 0 := by unfold wordAddr; omega
    have hi' := (isInvalid_wordBase hlo (by omega)).trans hi
    have hbyte := byte_write32 v halign hi' hs
    have hwrite : s.registerWrite (wordAddr g w) v = (s.write32 (wordAddr g w) v false).settle := by
      rw [registerWrite_of_buf_nil (hostUp_of hphase hrung) hb, wordWrite_sharedRam v hlo hhi hg, noteWrite_ok]
    rw [exec_registerWrite, hwrite]
    refine ⟨_, rfl, fun i hi => ?_, fun a ha => ?_, ?_, ?_, ?_⟩
    · rw [settle_byte, hbyte, if_pos (by omega), Nat.add_sub_cancel_left, Nat.pow_mul]
    · rw [settle_byte, hbyte, if_neg ha]
    all_goals rw [write32_clean v hi' hs]
    · rw [settle_regs, store64_regs]
    · rw [settle_synd, synd_store64]
    · rw [settle_isInvalid, isInvalid_store64]
  case interrupts =>
    intro q g w v s hphase hrung hb hs hu hp
    have hstore {o : Nat} {x : Word} := registerWrite_head_of_setReg (o := o) (w := x) (v := v) (hostUp_of hphase hrung) hb hs q.isLt
    constructor <;> intro ha <;> rw [exec_registerWrite, ha]
    · rw [hstore (by omega) hu hp (headWrite_ien q v)]
      exact ⟨_, rfl, by rw [settle_reg, reg_setReg_self], restKept_setReg_settle s _ _⟩
    · rw [hstore (by omega) hu hp (headWrite_iflg q v)]
      exact ⟨_, rfl, by rw [settle_reg, reg_setReg_self, clears], restKept_setReg_settle s _ _⟩

end Sys2Proof.Machine
end

section
/-! SUPPORT. What a written word does to the second interrupt mask of SYS (R12, R139): the statement `PageHeadersAndCounters`. -/

namespace Sys2Proof.Machine
namespace State

variable {s : State}

/-- A register whose host-written bits are all RW takes those of the word and keeps the others, locked or not (R12). -/
theorem genWrite_of_rw {a : Nat} {r : RegDef} (v : Word) (hr : RegMap.find a = some r) (hrwl : r.rwl = 0) (hw1c : r.w1c = 0)
    (hw1s : r.w1s = 0) :
    s.genWrite a v = (s.setReg a ((s.reg a &&& ~~~(BitVec.ofNat 32 r.rw)) ||| (v &&& BitVec.ofNat 32 r.rw)), .ok) := by
  have hall : ∀ x : Word, x &&& 4294967295#32 = x := fun _ => BitVec.and_allOnes
  simp [genWrite, hr, hrwl, hw1c, hw1s, hall]

/-- IMASK1 holds a mask bit for each of its 31 pages; its bit 31 is reserved. -/
theorem find_imask1 : RegMap.find 0x18C = some ⟨0x18C, 0, 1, 0, 1, 0x7FFFFFFF, 0x7FFFFFFF, 0, 0, 0, 0, 0⟩ := by
  decide

theorem unitWrite_imask1 (v : Word) : s.unitWrite 0x18C v = s.genWrite 0x18C v := (rfl)

/-- A word to IMASK1 sets its 31 mask bits and keeps what bit 31 holds. -/
theorem reg_registerWrite_imask1 (v : Word) (hup : s.hostUp = true) (hb : s.hif.buf = []) (hs : s.subsSeen = s.subWord)
    (hp : s.has 0 = true) :
    (s.registerWrite 0x18C v).reg 0x18C = (s.reg 0x18C &&& ~~~0x7FFFFFFF#32) ||| (v &&& 0x7FFFFFFF#32) := by
  have hword := wordWrite_present (q := 0) (o := 0x18C) v (by decide) (by decide) (by decide) hp
  have hgen := genWrite_of_rw (s := s) v find_imask1 rfl rfl rfl
  rw [registerWrite_of_buf_nil hup hb, settle_reg]
  simp [hword, unitWrite_imask1, hgen, subSync_setReg _ (by decide : (0x18C : Nat) ≠ 0x5C) hs]

end State

open State

/-- Refutes O29: its last clause gives IMASK1 the value `v &&& 0x7FFFFFFF` whatever the state, but a word written there leaves the reserved
bit 31 as it stands (R12). In a state where that bit is set, the word 0 leaves 0x80000000 and not 0. Its reset
value is 0, and with the bit clear the clause's value is the one that `reg_registerWrite_imask1` gives. -/
theorem not_pageHeadersAndCounters : ¬ Obligations.PageHeadersAndCounters := by
  intro h
  obtain ⟨-, -, -, -, -, -, -, -, -, -, -, -, -, himask⟩ := h
  obtain ⟨t, ht, hreg, -⟩ := himask 1 0 { State.reset with phase := .up, regs := [(0x18C, 0xFFFFFFFF#32)] } rfl (by decide) rfl (by decide)
  cases ht
  refine absurd ((reg_registerWrite_imask1 0 rfl rfl ?_ rfl).symm.trans hreg) ?_ <;> decide

end Sys2Proof.Machine
end

section
/-! SUPPORT. What the trigger of a loop leaves waiting (R197, R198): the statement `AlmanacEntries`. -/

namespace Sys2Proof.Machine
namespace State

variable {s : State}

/-- What the operations named in `kept` leave alone, the loop engine among it. -/
theorem leng_of_kept {s t : State} (h : kept t = kept s) : t.leng = s.leng := congrArg (fun x => x.leng) h

@[simp] theorem leng_lengLevels : s.lengLevels.leng = s.leng := leng_of_kept (by unfold lengLevels; simp)

/-- With no lane free and a HARD or FIRM execution waiting, every waiting SOFT execution goes (R197). -/
theorem wait_lengShed : s.lengShed.leng.wait =
    if 4 ≤ s.leng.lanes.length ∧ ∃ e ∈ s.leng.wait, e.1 < 2 then s.leng.wait.filter (·.1 != 2) else s.leng.wait := by
  have hcond : (decide (s.leng.lanes.length < 4) || !s.leng.wait.any fun e => decide (e.1 < 2)) = true ↔
      ¬ (4 ≤ s.leng.lanes.length ∧ ∃ e ∈ s.leng.wait, e.1 < 2) := by
    rw [← Nat.not_lt, ← not_iff_not]
    simp only [Bool.or_eq_true, Bool.not_eq_true', decide_eq_true_eq, not_or, Bool.not_eq_false, List.any_eq_true, not_not]
  unfold lengShed
  by_cases hshed : 4 ≤ s.leng.lanes.length ∧ ∃ e ∈ s.leng.wait, e.1 < 2
  · rw [if_pos hshed, if_neg (fun hkeep => hcond.mp hkeep hshed)]
    exact congrArg LengM.wait (leng_of_kept (kept_foldl _ _ _ fun _ _ => kept_sat _ _))
  · rw [if_neg hshed, if_pos (hcond.mpr hshed)]

/-- The trigger of a loop that has no execution waiting adds one, after which R197 discards the SOFT ones where its condition holds (R197,
R198). -/
theorem wait_loopTrigger_of_fresh {d : Nat} (hen : s.enabled Pg.LENG = true) (hr : s.rung = 0) (ha : s.loopActive d = true)
    (hfresh : ∀ e ∈ s.leng.wait, e.2.2 ≠ d) :
    (s.loopTrigger d).leng.wait =
      if 4 ≤ s.leng.lanes.length ∧ ∃ e ∈ s.leng.wait ++ [(s.loopTier d, s.tick, d)], e.1 < 2 then
        (s.leng.wait ++ [(s.loopTier d, s.tick, d)]).filter (·.1 != 2)
      else s.leng.wait ++ [(s.loopTier d, s.tick, d)] := by
  have hmine : (s.leng.wait.filter fun e => e.2.2 == d) = [] := by simpa using hfresh
  simp [loopTrigger, hen, hr, ha, hmine, wait_lengShed]

/-- The engine with its four lanes taken, a SOFT execution of loop 0 waiting, and a firing left over that names the HARD loop 4. -/
def softWaiting : State :=
  { (State.reset.wr (F.EN Pg.LENG) 1).wr F.LENG_ACTLO 0x11 with
    phase := .up
    alm := { left := [(9, 2, 4)] }
    leng := { info := [(0, 2)], wait := [(2, 0, 0)], lanes := List.replicate 4 { d := 0, ch := 0 } } }

/-- The tick delivers that firing, and of the loop engine nothing else moves. -/
theorem leng_almTick_softWaiting : softWaiting.almTick.leng = (softWaiting.loopTrigger 4).leng := by decide +kernel

/-- Its HARD trigger takes the place of the SOFT execution that waited. -/
theorem wait_almTick_softWaiting : softWaiting.almTick.leng.wait = [(0, 0, 4)] := by
  rw [leng_almTick_softWaiting, wait_loopTrigger_of_fresh] <;> decide +kernel

end State

open State

/-- Refutes O53: its clause on target 0x02 leaves every execution that waited in place, but a HARD or FIRM trigger that finds no lane free
discards the waiting SOFT executions (R197). In `softWaiting` the delivery names the HARD loop 4 while a SOFT execution of loop 0 waits:
afterwards only loop 4 waits. What a trigger leaves waiting, lanes free or not, is `wait_loopTrigger_of_fresh`. -/
theorem not_almanacEntries : ¬ Obligations.AlmanacEntries := by
  intro h
  obtain ⟨-, -, -, -, -, -, -, -, -, -, htarget⟩ := h
  obtain ⟨t, ht, -, hsingle, -⟩ := htarget 9 2 4 softWaiting softWaiting rfl (by decide +kernel) (by decide +kernel) rfl rfl
    (by decide +kernel) rfl (by decide +kernel)
  have hwait : t.leng.wait = softWaiting.leng.wait ++ [(softWaiting.loopTier 4, softWaiting.tick, 4)] :=
    hsingle rfl (by decide +kernel) (by decide +kernel) (by decide +kernel)
  cases ht
  rw [wait_almTick_softWaiting] at hwait
  exact absurd hwait (by decide +kernel)

end Sys2Proof.Machine
end

section
/-! SUPPORT. What a fault raise and a write to the MRAM leave alone of the state that a return-seal looks at. -/

namespace Sys2Proof.Machine

/-- The part of the state that the statement on the return-seal speaks of: SYS.SEALSTAT, the mode, the seal word's state, the lock-out of the
auxiliary drivers, the security unit with its fuses, and the metrology. -/
structure SealView where
  stat : Word
  mode : Nat
  word : Nat
  low : Nat → Bool
  sec : SecM
  mtr : MtrM

namespace State

/-- That part of the state `s`. -/
def sealView (s : State) : SealView :=
  ⟨s.reg 0x1C4, s.modeNow, s.boot.sealSt, fun k => (s.gdo k).low, s.sec, s.mtr⟩

variable (s : State)

/-- An update of other parts keeps it. -/
@[simp] theorem sealView_upd (hwSet : SMap Word) (mem : List Host.Cell) (chk : SMap Byte) (valid : SMap Bool) (keep : KeepM)
    (flt : SMap FltRec) (jrnl : JrnlM) (mode : ModeM) (safe : SafeM) (legs : SMap LegM) (cmps : SMap CmpM) (ramps : SMap RampM)
    (trips : SMap TripM) (free : Nat) :
    sealView (State.mk s.variant s.phase s.tmode s.regs hwSet mem chk valid s.clk s.time s.boot keep s.sec s.age s.hif s.alm s.leng
      s.mtr s.net flt jrnl s.ecc mode safe legs s.ids s.grids s.chs s.forms s.dcs s.isl s.ride s.subsSeen s.syncAt s.syncOutAt s.mach
      s.mods s.blks s.padc cmps ramps s.stRun s.stWait trips s.gdos free s.tick s.pending) = sealView s := (rfl)

@[simp] theorem sealView_foldl {α : Type} (l : List α) (f : State → α → State) (h : ∀ s i, sealView (f s i) = sealView s) :
    sealView (l.foldl f s) = sealView s := by
  induction l generalizing s with
  | nil => rfl
  | cons i t ih => rw [List.foldl_cons, ih, h]

@[simp] theorem sealView_each (n : Nat) (f : State → Nat → State) (h : ∀ s i, sealView (f s i) = sealView s) :
    sealView (s.each n f) = sealView s := sealView_foldl s _ f h

/-- Of the registers it holds SYS.MODE and SYS.SEALSTAT alone. -/
theorem sealView_setReg_ne {a : Nat} (w : Word) (hmode : 0x40 ≠ a) (hstat : 0x1C4 ≠ a) : sealView (s.setReg a w) = sealView s := by
  have hm : (s.setReg a w).modeNow = s.modeNow := congrArg (wordGet · 2 0) (reg_setReg_ne s w hmode)
  have hs := reg_setReg_ne s w hstat
  unfold sealView
  rw [hm, hs]
  rfl

@[simp] theorem sealView_setReg {a : Nat} (w : Word) (h : 0x1000 ≤ a) : sealView (s.setReg a w) = sealView s :=
  sealView_setReg_ne s w (by omega) (by omega)

@[simp] theorem sealView_wr {f : Fld} (v : Nat) (h : 0x1000 ≤ f.addr) : sealView (s.wr f v) = sealView s := sealView_setReg s _ h
@[simp] theorem sealView_setBit {f : Fld} (b : Bool) (h : 0x1000 ≤ f.addr) : sealView (s.setBit f b) = sealView s := sealView_setReg s _ h
@[simp] theorem sealView_sat {f : Fld} (h : 0x1000 ≤ f.addr) : sealView (s.sat f) = sealView s := sealView_setReg s _ h
@[simp] theorem sealView_satBy {f : Fld} (k : Nat) (h : 0x1000 ≤ f.addr) : sealView (s.satBy f k) = sealView s := sealView_setReg s _ h
@[simp] theorem sealView_wrap {f : Fld} (h : 0x1000 ≤ f.addr) : sealView (s.wrap f) = sealView s := sealView_setReg s _ h
@[simp] theorem sealView_latch {f : Fld} (h : 0x1000 ≤ f.addr) : sealView (s.latch f) = sealView s := sealView_setReg s _ h

@[simp] theorem sealView_wr_subF (c v : Nat) : sealView (s.wr (subF c) v) = sealView s :=
  sealView_setReg_ne s _ (by simp [subF, Pg.SYS]) (by simp [subF, Pg.SYS])

@[simp] theorem sealView_setBit_moving (b : Bool) : sealView (s.setBit F.SYS_MOVING b) = sealView s := by
  have hm : (s.setBit F.SYS_MOVING b).modeNow = s.modeNow :=
    rd_wr_beside s F.SYS_MOVING F.SYS_MODE _ (by decide) (by decide) (by decide) rfl (by decide)
  have hs : (s.setBit F.SYS_MOVING b).reg 0x1C4 = s.reg 0x1C4 := reg_wr_ne s F.SYS_MOVING _ (by decide)
  unfold sealView
  rw [hm, hs]
  rfl

@[simp] theorem sealView_setLeg (n : Nat) (v : LegM) : sealView (s.setLeg n v) = sealView s := (rfl)
@[simp] theorem sealView_setRamp (n : Nat) (v : RampM) : sealView (s.setRamp n v) = sealView s := (rfl)
@[simp] theorem sealView_setCmp (n : Nat) (v : CmpM) : sealView (s.setCmp n v) = sealView s := (rfl)
@[simp] theorem sealView_setTrip (n : Nat) (v : TripM) : sealView (s.setTrip n v) = sealView s := (rfl)
@[simp] theorem sealView_setFltRec (n : Nat) (v : FltRec) : sealView (s.setFltRec n v) = sealView s := (rfl)

/-- A driver's update that leaves its supply's lock-out. -/
@[simp] theorem sealView_setGdo {k : Nat} {g : GdoM} (h : g.low = (s.gdo k).low) : sealView (s.setGdo k g) = sealView s := by
  have hlow : (fun j => ((s.setGdo k g).gdo j).low) = fun j => (s.gdo j).low := by
    funext j
    by_cases hj : j = k
    · subst hj
      simpa [gdo, setGdo] using h
    · simp [gdo, setGdo, SMap.get_set_ne _ _ _ hj]
  unfold sealView
  rw [hlow]
  rfl

/-! The parts of a raise, in the order of their definitions. -/

@[simp] theorem sealView_iraw {pg : Nat} (b : Nat) (v : Bool) (h : 0x1000 ≤ pg) : sealView (s.iraw pg b v) = sealView s := by
  have hraw : 0x1000 ≤ ((F.IRAW pg).at b).addr := Nat.le_add_right_of_le h
  have hflg : 0x1000 ≤ ((F.IFLG pg).at b).addr := Nat.le_add_right_of_le h
  simp [iraw, apply_ite sealView, hraw, hflg]

@[simp] theorem sealView_ipulse {pg : Nat} (b : Nat) (h : 0x1000 ≤ pg) : sealView (s.ipulse pg b) = sealView s := by
  simp [ipulse, h]

@[simp] theorem sealView_jrnlPush (r : JRec) : sealView (s.jrnlPush r) = sealView s := by
  simp [jrnlPush, apply_ite sealView, F.JRNL_NEXTSEQ, F.JRNL_QDEPTH, F.JRNL_DROPCNT, Pg.JRNL]

@[simp] theorem sealView_jrnlAdd (kind src cls flags dclass scope aux data : Nat) :
    sealView (s.jrnlAdd kind src cls flags dclass scope aux data) = sealView s := sealView_jrnlPush s _

@[simp] theorem sealView_ascend (b : Nat) : sealView (s.ascend b) = sealView s := by
  have hsrc (t : State) : sealView (t.latch (wakeSrc.at b)) = sealView t :=
    sealView_setReg_ne (a := 0x10C) t _ (by decide) (by decide)
  unfold ascend
  split
  · simp [apply_ite sealView, hsrc]
  · exact (sealView_setReg_ne _ _ (by decide) (by decide)).trans ((hsrc _).trans (sealView_setReg_ne _ _ (by decide) (by decide)))

@[simp] theorem sealView_wake (b : Nat) : sealView (s.wake b) = sealView s := by
  simp [wake, apply_ite sealView]

@[simp] theorem sealView_rampRestart (n t : Nat) : sealView (s.rampRestart n t) = sealView s := by
  simp [rampRestart, apply_ite sealView]

@[simp] theorem sealView_blankOpen (n : Nat) : sealView (s.blankOpen n) = sealView s := by
  have hcnt (i : Nat) : 0x1000 ≤ (F.TRIP_BLANKCNT i).addr := Nat.le_add_right_of_le (by decide)
  simp [blankOpen, apply_ite sealView, hcnt]

@[simp] theorem sealView_pinEdge (n : Nat) (e : PinEdge) : sealView (s.pinEdge n e) = sealView s := by
  simp [pinEdge, apply_ite sealView]

@[simp] theorem sealView_edgesDue (n t : Nat) : sealView (s.edgesDue n t) = sealView s := by
  simp [edgesDue]

@[simp] theorem sealView_cellDrive (n : Nat) (v : Lvl) (safe hush : Bool) (t : Nat) :
    sealView (s.cellDrive n v safe hush t) = sealView s := by
  unfold cellDrive
  dsimp only
  split <;> simp

@[simp] theorem sealView_cellCut (n t : Nat) : sealView (s.cellCut n t) = sealView s := by
  simp [cellCut]

@[simp] theorem sealView_cellAt (n t : Nat) : sealView (s.cellAt n t) = sealView s := by
  simp [cellAt, apply_ite sealView, F.LEG_RUN, F.LEG_SRCMOD, F.LEG_SRCCMP, F.LEG_SRCTRIP, F.LEG_OVR, F.LEG_FLT, F.LEG_STO, F.LEG_LVL,
    Pg.LEG, Nat.le_add_right_of_le]

@[simp] theorem sealView_cellsAll : sealView s.cellsAll = sealView s := by
  simp [cellsAll, cellUpdate]

@[simp] theorem sealView_gdoUpdate (k : Nat) : sealView (s.gdoUpdate k) = sealView s := by
  simp [gdoUpdate, apply_ite sealView, F.LEGX_GDFORCED, F.LEGX_GDONCNT, F.LEGX_GDOUT, Nat.le_add_right_of_le]

@[simp] theorem sealView_gdosAll : sealView s.gdosAll = sealView s := by
  simp [gdosAll]

@[simp] theorem sealView_stoSync : sealView s.stoSync = sealView s := by
  unfold stoSync
  dsimp only
  split
  · simp [F.SAFE_STOA, F.SAFE_STOB]
  · split
    · rfl
    · split
      · simp [F.SAFE_STOA, F.SAFE_STOB]
      · rw [sealView_gdosAll, sealView_cellsAll]
        exact (sealView_upd ..).trans (by simp [F.SAFE_STOA, F.SAFE_STOB])

@[simp] theorem sealView_ceaseGrid : sealView s.ceaseGrid = sealView s := by
  simp [ceaseGrid, apply_ite sealView]

@[simp] theorem sealView_safeStopBegin (shutdown : Bool) : sealView (s.safeStopBegin shutdown) = sealView s := by
  unfold safeStopBegin
  split
  · rfl
  · dsimp only
    rw [apply_ite sealView, sealView_ceaseGrid, ite_self, sealView_stoSync, sealView_ipulse _ _ (by decide)]
    exact (sealView_upd ..).trans (by simp [F.SAFE_PHASE, F.SAFE_DEMCNT])

@[simp] theorem sealView_fltLevels : sealView s.fltLevels = sealView s := by
  simp [fltLevels, Pg.FLT]

@[simp] theorem sealView_modeDue (cause : Nat) : sealView (s.modeDue cause) = sealView s := by
  simp [modeDue, apply_ite sealView]

@[simp] theorem sealView_tripReact (scope : Nat) : sealView (s.tripReact scope) = sealView s := by
  simp [tripReact, apply_ite sealView]

@[simp] theorem sealView_fltReact (c scope : Nat) : sealView (s.fltReact c scope) = sealView s := by
  simp [fltReact, apply_ite sealView]

@[simp] theorem sealView_fltLast (n c : Nat) : sealView (s.fltLast n c) = sealView s := by
  simp [fltLast, F.FLT_LASTV, F.FLT_LASTSRC, F.FLT_LASTCLS]

@[simp] theorem sealView_fltHoldSync : sealView s.fltHoldSync = sealView s := by
  simp [fltHoldSync, F.BOOT_FLTHOLD]

@[simp] theorem sealView_raiseOne (n ch : Nat) (forced : Bool) : sealView (s.raiseOne n ch forced) = sealView s := by
  have hrec : 0x1000 ≤ 0x6400 + 4 * n := by omega
  have hopen : 0x1000 ≤ 0x6080 + n / 32 * 4 := by omega
  unfold raiseOne
  dsimp only
  split
  · simp [apply_ite sealView, F.FLT_RPT, hrec]
  · split
    · simp [F.FLT_RPT, F.FLT_RAISECNT, hrec]
    · split
      · split <;> simp [F.FLT_RAISECNT, F.JRNL_NSUPP]
      · generalize (s.wrap F.FLT_RAISECNT).fltSecond n 4 (s.rd (F.FLT_CLASS n)) = r
        obtain ⟨c, second⟩ := r
        cases second <;> simp [apply_ite sealView, F.FLT_RPT, F.FLT_RAISECNT, F.FLT_SECCNT, F.FLT_OPEN, F.FLT_RESTORED, F.FLT_FORCED,
          F.FLT_CUR, Pg.FLT, hrec, hopen]

@[simp] theorem sealView_fltExpire (n : Nat) : sealView (s.fltExpire n) = sealView s := by
  simp [fltExpire, apply_ite sealView, F.FLT_CUR, F.FLT_ESCCNT, Pg.FLT, Nat.le_add_right_of_le]

@[simp] theorem sealView_graceRun (n : Nat) : sealView (s.graceRun n) = sealView s := by
  simp [graceRun, apply_ite sealView]

@[simp] theorem sealView_raiseFlt (n ch : Nat) (forced : Bool) : sealView (s.raiseFlt n ch forced) = sealView s := by
  simp [raiseFlt, apply_ite sealView]

@[simp] theorem sealView_detect (n : Nat) : sealView (s.detect n) = sealView s := sealView_raiseFlt s n 0 false

/-! A write to the MRAM, and the journal record that it ends (R411, R428). -/

@[simp] theorem sealView_putBytes (l : List Byte) : ∀ (s : State) (a : Nat), sealView (s.putBytes a l) = sealView s := by
  induction l with
  | nil => intro s a; rfl
  | cons b t ih => intro s a; exact (ih _ _).trans (sealView_upd ..)

@[simp] theorem sealView_write64 (a v : Nat) (p : Bool) : sealView (s.write64 a v p) = sealView s := by
  simp [write64, store64]

@[simp] theorem sealView_wear (a : Nat) : sealView (s.wear a) = sealView s := by
  unfold wear
  split <;> simp [F.ECC_MWEAR, Nat.le_add_right_of_le]

@[simp] theorem sealView_mramPut (a v : Nat) : sealView (s.mramPut a v) = sealView s := by
  simp [mramPut, apply_ite sealView]

@[simp] theorem sealView_mramWrite (a : Nat) (l : List Byte) : sealView (s.mramWrite a l) = sealView s := by
  simp [mramWrite]

@[simp] theorem sealView_jrnlWritten (good : Bool) : sealView (s.jrnlWritten good) = sealView s := by
  unfold jrnlWritten
  split <;> simp [apply_ite sealView, F.JRNL_QDEPTH, Pg.JRNL]

@[simp] theorem sealView_ckptEnd : sealView s.ckptEnd = sealView s := by
  unfold ckptEnd
  split
  · rfl
  · exact (sealView_upd ..).trans (by simp [F.KEEP_CKBUSY, F.KEEP_CKREQ])

@[simp] theorem sealView_recordsEnd : sealView s.recordsEnd = sealView s := by
  unfold recordsEnd
  dsimp only
  rw [sealView_ckptEnd]
  split <;> simp

@[simp] theorem sealView_sealRecord (good : Bool) : sealView (s.sealRecord good) = sealView s := by
  simp [sealRecord]

end State
end Sys2Proof.Machine
end

section
/-! SUPPORT. What a reset leaves (R84 to R86). -/

namespace Sys2Proof

theorem SMap.get_filter_keep {α : Type} (d : Nat → α) (p : Nat → Bool) (m : SMap α) {k : Nat} (h : p k = false) :
    SMap.get d (m.filter fun e => p e.1) k = d k := by
  induction m with
  | nil => rfl
  | cons e t ih =>
    obtain ⟨j, v⟩ := e
    by_cases hj : p j = true
    · have hne : j ≠ k := fun e => by simp [← e, hj] at h
      simpa [List.filter, hj, SMap.get, hne] using ih
    · simpa [List.filter, hj] using ih

namespace Machine
namespace State

variable (s : State)

/-- A fold over 0 to n ends with the change of n. -/
theorem each_succ (n : Nat) (f : State → Nat → State) : s.each (n + 1) f = f (s.each n f) n := by
  simp [each, List.range_succ]

theorem reg_each_of_ne (n : Nat) (f : State → Nat → State) (a : Nat) (h : ∀ t k, k < n → (f t k).reg a = t.reg a) :
    (s.each n f).reg a = s.reg a := by
  induction n with
  | zero => rfl
  | succ n ih => rw [each_succ, h _ _ (Nat.lt_succ_self n), ih fun t k hk => h t k (Nat.lt_succ_of_lt hk)]

theorem reg_clear_of_notMem {l : List Fld} {a : Nat} (h : ∀ f ∈ l, a ≠ f.addr) : (s.clear l).reg a = s.reg a := by
  induction l generalizing s with
  | nil => rfl
  | cons f t ih => rw [clear, ih _ fun g hg => h g (List.mem_cons_of_mem _ hg), reg_wr_ne s f 0 (h f (by simp))]

theorem addr_gduvlo_inj {j k : Nat} (h : (F.LEGX_GDUVLO j).addr = (F.LEGX_GDUVLO k).addr) : j = k := by
  simp only [F.LEGX_GDUVLO] at h
  omega

/-- A fold that sets the lock-out bits of the drivers below `n` leaves each of them as set. -/
theorem rd_each_setBit_gduvlo (v : Nat → Bool) {n k : Nat} (hk : k < n) :
    (s.each n fun t k => t.setBit (F.LEGX_GDUVLO k) (v k)).rd (F.LEGX_GDUVLO k) = if v k = true then 1 else 0 := by
  induction n with
  | zero => omega
  | succ n ih =>
    rw [each_succ, setBit]
    by_cases hkn : k = n
    · subst hkn
      rw [rd_wr_self _ _ _ (by simp [F.LEGX_GDUVLO]) (by simp [F.LEGX_GDUVLO])]
      cases v k <;> rfl
    · rw [rd_wr_ne _ _ _ _ (fun h => hkn (addr_gduvlo_inj h))]
      exact ih (by omega)

/-! A fuse operation cut short (R433). -/

/-- Where a counter takes a value not below its own, no blown bit is lost. -/
theorem holds_setArb {k v : Nat} (h : s.arb k ≤ v) : FuseM.Holds s.sec.fuse (s.setArb k v).sec.fuse := by
  unfold arb at h
  unfold setArb FuseM.Holds
  dsimp only
  split_ifs at h ⊢ <;> simp [h]

/-- The bits already blown stay blown. -/
theorem holds_fuseCut : FuseM.Holds s.sec.fuse s.fuseCut.sec.fuse := by
  unfold fuseCut
  split
  · simp [FuseM.Holds]
  · dsimp only
    split
    · split <;> simp [FuseM.Holds]
    · exact holds_setArb (s := { s with free := _, sec := { s.sec with fop := none } }) (Nat.le_add_right _ _)

@[simp] theorem fuseCut_gdos : s.fuseCut.gdos = s.gdos := by
  unfold fuseCut
  split
  · rfl
  · dsimp only
    split <;> rfl

@[simp] theorem fuseCut_sealSt : s.fuseCut.boot.sealSt = s.boot.sealSt := by
  unfold fuseCut
  split
  · rfl
  · dsimp only
    split <;> rfl

/-! The reset itself (R85). -/

/-- The registers that a reset leaves are those it keeps, and over them the words of the drivers' supplies, of the checkpoint and of the
seal. -/
theorem resetTo_eq_writes (ph : Phase) (b : Nat) : ∃ u : State, u.regs = s.fuseCut.regs.filter (fun e => regKept e.1) ∧
    s.resetTo ph b = (((u.each 4 fun t k => t.setBit (F.LEGX_GDUVLO k) (s.fuseCut.gdo k).low).clear
      [F.KEEP_CKPER, F.KEEP_CKREQ, F.KEEP_CKBUSY]).wr F.SYS_SEALREF s.fuseCut.boot.sealRef.toNat).setBit F.SYS_SEALED
        (s.fuseCut.boot.sealSt == 2) := ⟨_, rfl, rfl⟩

theorem reg_resetTo (ph : Phase) (b : Nat) {a : Nat} (hkept : regKept a = false) (hstat : a ≠ 0x1C4) (href : a ≠ 0x1C8)
    (hlow : ∀ k, k < 4 → a ≠ (F.LEGX_GDUVLO k).addr) : (s.resetTo ph b).reg a = RegMap.resetOf a := by
  obtain ⟨u, hregs, heq⟩ := s.resetTo_eq_writes ph b
  have hkeep : ∀ f ∈ [F.KEEP_CKPER, F.KEEP_CKREQ, F.KEEP_CKBUSY], a ≠ f.addr := by
    intro f hf e
    simp only [List.mem_cons, List.not_mem_nil, or_false] at hf
    rcases hf with rfl | rfl | rfl <;> subst e <;> exact absurd hkept (by decide)
  rw [heq, setBit, reg_wr_ne _ F.SYS_SEALED _ hstat, reg_wr_ne _ F.SYS_SEALREF _ href, reg_clear_of_notMem _ hkeep,
    reg_each_of_ne u 4 _ a (fun t k hk => by rw [setBit, reg_wr_ne t _ _ (hlow k hk)]), reg, hregs]
  exact SMap.get_filter_keep _ _ _ hkept

theorem rd_resetTo_gduvlo (ph : Phase) (b : Nat) {k : Nat} (hk : k < 4) :
    (s.resetTo ph b).rd (F.LEGX_GDUVLO k) = if (s.gdo k).low = true then 1 else 0 := by
  obtain ⟨u, -, heq⟩ := s.resetTo_eq_writes ph b
  have hne (f : Fld) (hf : f.addr < 0x38A00) : (F.LEGX_GDUVLO k).addr ≠ f.addr := by
    have : 0x38A00 ≤ (F.LEGX_GDUVLO k).addr := Nat.le_add_right_of_le (by decide)
    omega
  have hgdo : s.fuseCut.gdo k = s.gdo k := by rw [gdo, fuseCut_gdos, gdo]
  rw [heq, setBit, rd_wr_ne _ _ _ _ (hne _ (by decide)), rd_wr_ne _ _ _ _ (hne _ (by decide)), clear, clear, clear, clear,
    rd_wr_ne _ _ _ _ (hne _ (by decide)), rd_wr_ne _ _ _ _ (hne _ (by decide)), rd_wr_ne _ _ _ _ (hne _ (by decide)),
    rd_each_setBit_gduvlo u (fun k => (s.fuseCut.gdo k).low) hk, hgdo]

theorem byte_resetTo (ph : Phase) (b : Nat) {a : Nat} (h : inMram a = false) : (s.resetTo ph b).byte a = memDefault a :=
  SMap.get_filter_keep memDefault inMram s.fuseCut.mem h

@[simp] theorem resetTo_sealSt (ph : Phase) (b : Nat) : (s.resetTo ph b).boot.sealSt = s.boot.sealSt := fuseCut_sealSt s

@[simp] theorem resetTo_mtr (ph : Phase) (b : Nat) : (s.resetTo ph b).mtr = {} := (rfl)

/-- A reset has the outcome of R85. -/
theorem resetOutcome_resetTo (ph : Phase) (b : Nat) : ResetOutcome s (s.resetTo ph b) := by
  have hreg {a : Nat} (hk : regKept a = false) (ha : a < 0x1C4) : (s.resetTo ph b).reg a = RegMap.resetOf a :=
    reg_resetTo s ph b hk (by omega) (by omega) fun k _ => by simp only [F.LEGX_GDUVLO]; omega
  refine ⟨?mode, ?rung, rfl, rfl, fun a hk hs hr hl => reg_resetTo s ph b hk hs hr hl, fun k hk => rd_resetTo_gduvlo s ph b hk,
    fun a ha => byte_resetTo s ph b ha, holds_fuseCut s⟩
  case mode =>
    rw [modeNow, rd, hreg (by decide) (by decide)]
    decide +kernel
  case rung =>
    rw [rung, rd, hreg (by decide) (by decide)]
    decide +kernel

end State

/-- Of the state before, the outcome of a reset names the drivers' lock-outs and the fuses alone. -/
theorem ResetOutcome.of_eq {s u t : State} (h : ResetOutcome u t) (hlow : ∀ k, (u.gdo k).low = (s.gdo k).low)
    (hfuse : u.sec.fuse = s.sec.fuse) : ResetOutcome s t := by
  unfold ResetOutcome at h ⊢
  simpa only [hlow, hfuse] using h

end Machine
end Sys2Proof
end

section
/-! SUPPORT. The return-seal (R458 to R460) and the TAP (R40): the statement `SealAndTap`. -/

namespace Sys2Proof.Machine
namespace State

variable (s : State)

/-- Eight bytes are one word of the MRAM. -/
theorem mramWrite_eight (a : Nat) {l : List Byte} (h : l.length = 8) : s.mramWrite a l = s.mramPut a (leVal l) := by
  have htake : l.take 8 = l := List.take_of_length_le h.le
  simp [mramWrite, each, h, htake]

/-- A word written to the MRAM changes its own eight bytes alone, whether or not its cells take it (R428). -/
theorem byte_mramPut_of_ne (a v : Nat) {b : Nat} (hb : b < a / 8 * 8 ∨ a / 8 * 8 + 8 ≤ b) : (s.mramPut a v).byte b = s.byte b := by
  have hstore (t : State) (d : Nat) (syn : Byte) : (t.store64 a d syn).byte b = t.byte b := by
    rw [byte_store64, if_neg (by omega)]
  unfold mramPut
  dsimp only
  split
  · rw [byte, detect_mem, wear_mem]
    exact hstore _ _ _
  · rw [byte, wear_mem]
    exact hstore s _ _

/-! The seal word (R459). -/

theorem length_sealBytes (v w : Word) : (leBytes 4 v.toNat ++ leBytes 4 w.toNat).length = 8 := by
  rw [List.length_append, length_leBytes, length_leBytes]

theorem byte_sealWord_of_ne (st : Nat) (ref : Word) {b : Nat} (hb : b < 0x825800 ∨ 0x825808 ≤ b) :
    (s.sealWord st ref).byte b = s.byte b := by
  change (mramWrite _ 0x825800 _).byte b = _
  rw [mramWrite_eight _ _ (length_sealBytes ..)]
  exact byte_mramPut_of_ne _ _ _ (by omega)

/-- Of what a seal looks at, a write of the seal word changes that word alone. -/
theorem sealView_sealWord (st : Nat) (ref : Word) : sealView (s.sealWord st ref) = { sealView s with word := st } := by
  have h := (sealView_mramWrite { s with free := s.free + 2 } 0x825800
    (leBytes 4 (Config.freeWord s.free).toNat ++ leBytes 4 (Config.freeWord (s.free + 1)).toNat)).trans (sealView_upd ..)
  exact congrArg (fun v : SealView => { v with word := st }) h

theorem rd_sealWord (st : Nat) (ref : Word) {f : Fld} (hf : f.addr = 0x1C4) : (s.sealWord st ref).rd f = s.rd f := by
  have h : (s.sealWord st ref).reg 0x1C4 = s.reg 0x1C4 := congrArg SealView.stat (sealView_sealWord s st ref)
  rw [rd, hf, h, rd, hf]

theorem sealView_sealClear : sealView s.sealClear = { sealView s with word := 0 } :=
  congrArg (fun v : SealView => { v with word := 0 }) (sealView_mramWrite s 0x825800 (leBytes 8 0))

/-! A request (R458). -/

theorem key_put_go (v : Word) : F.SYS_SEAL_KEY.of (F.SYS_SEAL_GO.put v 1) = F.SYS_SEAL_KEY.of v :=
  wordGet_wordPut_above v 1 (by decide) (by decide) (by decide)

theorem on_put_go (v : Word) : F.SYS_SEAL_GO.on (F.SYS_SEAL_GO.put v 1) = true := by
  have h : F.SYS_SEAL_GO.of (F.SYS_SEAL_GO.put v 1) = 1 := wordGet_wordPut v 1 (by decide) (by decide)
  simp [Fld.on, h]

theorem exec_sealRequest {v : Word} {s u : State} (h : s.turn 0x1C0 (F.SYS_SEAL_GO.put v 1) = some u) :
    exec (.sealRequest v) s = .next (noteWrite 0x1C0 (u.sealWrite (F.SYS_SEAL_GO.put v 1))).settle :=
  congrArg Host.Outcome.next (hostWord_of_turn s h)

theorem sealWrite_of_key_ne {v : Word} (h : F.SYS_SEAL_KEY.of v ≠ 0xC3A5) : s.sealWrite (F.SYS_SEAL_GO.put v 1) = (s, .range) := by
  simp [sealWrite, key_put_go, h]

/-- Why a request with the right key is refused, as SEALSTAT.RES tells it; 0 where it is accepted (R458). -/
def sealRefusal : Nat :=
  if s.modeNow ≠ 0 then 1
  else if s.secBusy = true ∨ s.bit F.AGE_BUSY = true ∨ s.bit F.KEEP_CKBUSY = true ∨ s.bit F.SYS_SEALING = true then 2
  else if s.boot.sealSt = 2 then 3
  else 0

theorem sealWrite_of_key {v : Word} (h : F.SYS_SEAL_KEY.of v = 0xC3A5) :
    s.sealWrite (F.SYS_SEAL_GO.put v 1) = (if s.sealRefusal ≠ 0 then s.wr F.SYS_SEALRES s.sealRefusal
      else ((s.wr F.SYS_SEALRES 0).wr F.SYS_SEALING 1).sealWord 1 (BitVec.ofNat 32 (s.rd F.SYS_SEALREF)), .ok) := by
  unfold sealWrite sealRefusal
  simp only [key_put_go, h, on_put_go]
  by_cases hmode : s.modeNow = 0
  · by_cases hbusy : s.secBusy = true ∨ s.bit F.AGE_BUSY = true ∨ s.bit F.KEEP_CKBUSY = true ∨ s.bit F.SYS_SEALING = true
    · simp [hmode, hbusy, or_assoc]
    · by_cases hsealed : s.boot.sealSt = 2 <;> simp [hmode, hbusy, hsealed, or_assoc]
  · simp [hmode]

theorem onlyRegs_settle (l : List Nat) : OnlyRegs l s s.settle := ⟨fun _ _ => rfl, rfl⟩

/-- A request refused for reason `x` shows it in SEALSTAT, and nothing else changes. -/
theorem sealRefused_settle {x : Nat} (hx : x < 16) :
    (s.wr F.SYS_SEALRES x).settle.rd F.SYS_SEALRES = x ∧ OnlyRegs [F.SYS_SEALRES.addr] s (s.wr F.SYS_SEALRES x).settle := by
  refine ⟨?_, (onlyRegs_wr s F.SYS_SEALRES x).trans (onlyRegs_settle _ _)⟩
  rw [settle_rd, rd_wr_self _ _ _ (by decide) (by decide)]
  exact Nat.mod_eq_of_lt hx

/-- An accepted request sets SEALING with no answer, and the seal word goes to in-progress with the reference. -/
theorem sealAccepted_settle (ref : Word) :
    let t := (((s.wr F.SYS_SEALRES 0).wr F.SYS_SEALING 1).sealWord 1 ref).settle
    t.rd F.SYS_SEALRES = 0 ∧ t.rd F.SYS_SEALING = 1 ∧ t.boot.sealSt = 1 ∧ t.boot.sealRef = ref ∧
      ∀ a, a < 0x825800 ∨ 0x825808 ≤ a → t.byte a = s.byte a := by
  refine ⟨?_, ?_, rfl, rfl, fun a ha => ?_⟩
  · rw [settle_rd, rd_sealWord _ _ _ rfl,
      rd_wr_beside _ F.SYS_SEALING F.SYS_SEALRES _ (by decide) (by decide) (by decide) rfl (by decide),
      rd_wr_self _ _ _ (by decide) (by decide), Nat.zero_mod]
  · rw [settle_rd, rd_sealWord _ _ _ rfl, rd_wr_self _ _ _ (by decide) (by decide)]
    decide
  · rw [settle_byte, byte_sealWord_of_ne _ _ _ ha, byte, wr_mem, wr_mem, byte]

/-! The end of a seal (R459). -/

theorem sealDone_of_idle (good : Bool) (h : s.rd F.SYS_SEALING = 0) : s.sealDone good = s := by
  simp [sealDone, bit, h]

theorem sealDone_false (h : s.rd F.SYS_SEALING = 1) :
    s.sealDone false = ((s.sealRecord false).sealClear.wr F.SYS_SEALING 0).wr F.SYS_SEALRES 4 := by
  simp [sealDone, bit, h]

theorem sealDone_true (h : s.rd F.SYS_SEALING = 1) :
    s.sealDone true = ((s.sealRecord true).sealZero.sealWord 2 (s.sealRecord true).boot.sealRef).resetSoft 3 := by
  simp [sealDone, bit, h]

/-- A failed seal: SEALING clears, the answer is 4, no seal word stands, and the mode and the energies stay. -/
theorem sealFailed_outcome :
    let t := ((s.sealRecord false).sealClear.wr F.SYS_SEALING 0).wr F.SYS_SEALRES 4
    t.rd F.SYS_SEALING = 0 ∧ t.rd F.SYS_SEALRES = 4 ∧ t.boot.sealSt = 0 ∧ t.modeNow = s.modeNow ∧ t.mtr.energy = s.mtr.energy := by
  have hview : sealView (s.sealRecord false).sealClear = { sealView s with word := 0 } := by
    rw [sealView_sealClear, sealView_sealRecord]
  generalize (s.sealRecord false).sealClear = c at hview ⊢
  have hmode : c.modeNow = s.modeNow := congrArg SealView.mode hview
  have hmtr : c.mtr = s.mtr := congrArg SealView.mtr hview
  refine ⟨?_, ?_, congrArg SealView.word hview, ?_, congrArg MtrM.energy hmtr⟩
  · rw [rd_wr_beside _ F.SYS_SEALRES F.SYS_SEALING _ (by decide) (by decide) (by decide) rfl (by decide),
      rd_wr_self _ _ _ (by decide) (by decide)]
    decide
  · rw [rd_wr_self _ _ _ (by decide) (by decide)]
    decide
  · rw [modeNow, rd_wr_ne _ _ _ _ (by decide), rd_wr_ne _ _ _ _ (by decide)]
    exact hmode

@[simp] theorem sealView_ctxZero : sealView s.ctxZero = sealView s := by
  have hwear (b : Nat) : 0x1000 ≤ (F.ECC_MWEAR b).addr := Nat.le_add_right_of_le (by decide)
  unfold ctxZero
  dsimp only
  rw [sealView_satBy _ _ (hwear _), sealView_foldl _ _ _ fun t b => sealView_satBy t 128 (hwear _),
    sealView_foldl _ _ _ fun t b => sealView_satBy t 128 (hwear _)]
  exact sealView_upd ..

theorem setEnergy_gdos (p q v : Nat) : (s.setEnergy p q v).gdos = s.gdos := by
  simp [setEnergy]

theorem low_setEnergy (p q v k : Nat) : ((s.setEnergy p q v).gdo k).low = (s.gdo k).low := by
  rw [gdo, setEnergy_gdos, gdo]

theorem sec_setEnergy (p q v : Nat) : (s.setEnergy p q v).sec = s.sec := by
  simp [setEnergy]

theorem each_setEnergy_kept (n k : Nat) :
    ((s.each n fun s i => s.setEnergy (i / 8) (i % 8) 0).gdo k).low = (s.gdo k).low ∧
      (s.each n fun s i => s.setEnergy (i / 8) (i % 8) 0).sec = s.sec := by
  induction n with
  | zero => exact ⟨rfl, rfl⟩
  | succ n ih => rwa [each_succ, low_setEnergy, sec_setEnergy]

/-- What the erasure of R459 does before the energies. -/
def sealErase : State :=
  ((((((s.mramWrite 0x820000 (List.replicate 4096 0#8)).ctxZero.invalidate 0x300000 0x100000).invalidate pktBase 0x200000).fillArray
    2).fillArray 3).fillArray 4)

theorem sealZero_eq : s.sealZero = s.sealErase.each 16 fun s i => s.setEnergy (i / 8) (i % 8) 0 := (rfl)

@[simp] theorem sealView_invalidate (a n : Nat) : sealView (s.invalidate a n) = sealView s := (rfl)
@[simp] theorem sealView_fillArray (k : Nat) : sealView (s.fillArray k) = sealView s := (rfl)

theorem sealView_sealErase : sealView s.sealErase = sealView s := by
  rw [sealErase, sealView_fillArray, sealView_fillArray, sealView_fillArray, sealView_invalidate, sealView_invalidate,
    sealView_ctxZero, sealView_mramWrite]

theorem low_of_sealView {s t : State} (h : sealView t = sealView s) (k : Nat) : (t.gdo k).low = (s.gdo k).low :=
  congrArg (fun v => v.low k) h

theorem sec_of_sealView {s t : State} (h : sealView t = sealView s) : t.sec = s.sec := congrArg SealView.sec h

/-- The erasure of R459 reaches neither the drivers' lock-outs nor the fuses. -/
theorem sealZero_kept (k : Nat) : (s.sealZero.gdo k).low = (s.gdo k).low ∧ s.sealZero.sec = s.sec := by
  obtain ⟨hlow, hsec⟩ := each_setEnergy_kept s.sealErase 16 k
  rw [sealZero_eq, hlow, hsec]
  exact ⟨low_of_sealView s.sealView_sealErase k, sec_of_sealView s.sealView_sealErase⟩

/-- The device as a good seal leaves it for the reset. -/
theorem resetSoft_sealWord_sealZero (b : Nat) (ref : Word) :
    ((s.sealZero.sealWord 2 ref).resetSoft b).boot.sealSt = 2 ∧ ResetOutcome s ((s.sealZero.sealWord 2 ref).resetSoft b) := by
  have h := (sealView_recordsEnd (s.sealZero.sealWord 2 ref)).trans (sealView_sealWord s.sealZero 2 ref)
  obtain ⟨hlow, hsec⟩ := forall_and.mp s.sealZero_kept
  unfold resetSoft
  generalize (s.sealZero.sealWord 2 ref).recordsEnd = u at h ⊢
  generalize s.sealZero = z at *
  refine ⟨(resetTo_sealSt _ _ _).trans (congrArg SealView.word h), (resetOutcome_resetTo _ _ _).of_eq (fun k => ?low) ?fuse⟩
  case low => exact (congrArg (fun v => v.low k) h).trans (hlow k)
  case fuse => exact congrArg SecM.fuse ((congrArg SealView.sec h).trans (hsec 0))

/-- After a reset every energy reads zero. -/
theorem energy_resetTo (ph : Phase) (b p q : Nat) : (s.resetTo ph b).energy p q = 0 := by
  simp [energy, energyRaw, SMap.get]

end State

open State

theorem exec_sealComplete (good : Bool) (s : State) : exec (.sealComplete good) s = .next (s.sealDone good) := (rfl)

theorem exec_jtagInstruction (i : Option (Fin 4)) (s : State) : exec (.jtagInstruction i) s = .next (s.tapLoad i) := (rfl)

/-- Settles O60: a request is accepted or refused by `sealWrite_of_key`, a seal ends as `sealFailed_outcome` and
`resetSoft_sealWord_sealZero` say, and the levels of the balls go by the cases of `ball` in their order (log 35, log 37). -/
theorem sealAndTap : Obligations.SealAndTap := by
  refine ⟨?request, ?idle, ?complete, ?tap, ?balls⟩
  case request =>
    intro v s u hturn
    rw [exec_sealRequest hturn]
    refine ⟨fun hkey => by rw [sealWrite_of_key_ne u hkey], fun hkey => ?_⟩
    rw [sealWrite_of_key u hkey, noteWrite_ok]
    refine ⟨fun x hx => ?refused, fun hmode hsec hage hkeep hseal hst => ?accepted⟩
    case refused =>
      have href : u.sealRefusal = x := by
        unfold sealRefusal
        rcases hx with ⟨rfl, hmode⟩ | ⟨rfl, hmode, hbusy⟩ | ⟨rfl, hmode, hsec, hage, hkeep, hseal, hst⟩
        · rw [if_pos hmode]
        · rcases hbusy with h | h | h | h <;> simp [hmode, h, bit]
        · simp [hmode, hsec, hst, bit, hage, hkeep, hseal]
      have hx3 : 1 ≤ x ∧ x ≤ 3 := by omega
      rw [href, if_pos (by omega)]
      exact ⟨_, rfl, sealRefused_settle u (by omega)⟩
    case accepted =>
      have href : u.sealRefusal = 0 := by
        simp [sealRefusal, hmode, hsec, hst, bit, hage, hkeep, hseal]
      rw [href, if_neg (by simp)]
      exact ⟨_, rfl, sealAccepted_settle u _⟩
  case idle =>
    intro good s hs
    rw [exec_sealComplete, sealDone_of_idle s good hs]
  case complete =>
    intro s hs
    rw [exec_sealComplete, exec_sealComplete, sealDone_false s hs, sealDone_true s hs]
    obtain ⟨hword, hreset⟩ := resetSoft_sealWord_sealZero (s.sealRecord true) 3 (s.sealRecord true).boot.sealRef
    have hview := sealView_sealRecord s true
    have houtcome := hreset.of_eq (low_of_sealView hview) (congrArg SecM.fuse (sec_of_sealView hview))
    exact ⟨⟨_, rfl, sealFailed_outcome s⟩, _, rfl, hword, houtcome, fun p q _ _ => energy_resetTo _ _ _ p q⟩
  case tap =>
    intro s
    refine ⟨by rw [exec_jtagInstruction, tapLoad], fun i => ?_⟩
    rw [exec_jtagInstruction, tapLoad]
    have hi : (i : Nat) = 3 ↔ i = 3 := by omega
    simp [hi]
  case balls =>
    intro s b
    refine ⟨fun hdark => by simp [ball, hdark], fun hdark h => ?_⟩
    rcases h with hdown | ⟨hjtag, htmode⟩
    · simp [ball, hdark, hdown]
    · simp [ball, hdark, hjtag, htmode]

end Sys2Proof.Machine
end

section
/-! SUPPORT. Fields that lie apart, updates that change registers alone, and folds that leave a part of the state as it is: the layer below
the statements on clocks and time. -/

namespace Sys2Proof

/-- The fields lie in two registers, or apart in one. -/
abbrev Fld.Apart (g f : Fld) : Prop :=
  g.addr ≠ f.addr ∨ f.lo ≤ f.hi ∧ f.hi < 32 ∧ g.lo ≤ g.hi ∧ (g.hi < f.lo ∨ f.hi < g.lo)

/-- A word with a field replaced carries the new value there. -/
theorem Fld.of_put_self (f : Fld) (v : Word) (x : Nat) (h : f.lo ≤ f.hi) (hb : f.hi < 32) : f.of (f.put v x) = x % 2 ^ f.width :=
  Machine.wordGet_wordPut v x h hb

/-- It carries what it did for a field beside the one replaced. -/
theorem Fld.of_put_beside {f g : Fld} (v : Word) (x : Nat) (h : f.lo ≤ f.hi ∧ f.hi < 32 ∧ g.lo ≤ g.hi ∧ (g.hi < f.lo ∨ f.hi < g.lo)) :
    g.of (f.put v x) = g.of v := by
  obtain ⟨hf, hb, hg, hd | hd⟩ := h
  · exact Machine.wordGet_wordPut_below v x hf hb hg hd
  · exact Machine.wordGet_wordPut_above v x hf hb hd

theorem Fld.on_put_one (f : Fld) (v : Word) (h : f.lo ≤ f.hi) (hb : f.hi < 32) : f.on (f.put v 1) = true := by
  have hw : 1 < 2 ^ f.width := Nat.one_lt_two_pow (by unfold Fld.width; omega)
  simp [Fld.on, f.of_put_self v 1 h hb, Nat.mod_eq_of_lt hw]

theorem Fld.of_lt (f : Fld) (v : Word) : f.of v < 2 ^ f.width := Nat.mod_lt _ (by positivity)

namespace Machine
namespace State

variable {s t : State}

theorem rd_lt (s : State) (f : Fld) : s.rd f < 2 ^ f.width := Nat.mod_lt _ (by positivity)

theorem bit_of_rd_one {f : Fld} (h : s.rd f = 1) : s.bit f = true := by
  simp [bit, h]

theorem bit_of_rd_zero {f : Fld} (h : s.rd f = 0) : s.bit f = false := by
  simp [bit, h]

/-- A one-bit field read as a truth value. -/
theorem bit_iff_rd_one {f : Fld} (h : f.hi = f.lo) : s.bit f = true ↔ s.rd f = 1 := by
  have hlt := s.rd_lt f
  have hw : f.width = 1 := by unfold Fld.width; omega
  rw [hw] at hlt
  simp only [bit, bne_iff_ne]
  omega

theorem rd_wr_apart (s : State) {f g : Fld} (v : Nat) (h : g.Apart f) : (s.wr f v).rd g = s.rd g := by
  by_cases ha : g.addr = f.addr
  · obtain ⟨hf, hb, hg, hd⟩ := h.resolve_left (not_not_intro ha)
    exact rd_wr_beside s f g v hf hb hg ha hd
  · exact rd_wr_ne s f g v ha

/-- A field read over registers that agree. -/
theorem rd_congr {f : Fld} (h : t.reg f.addr = s.reg f.addr) : t.rd f = s.rd f := by
  rw [rd, h, rd]

theorem OnlyRegs.refl (l : List Nat) (s : State) : OnlyRegs l s s := ⟨fun _ _ => rfl, rfl⟩

theorem OnlyRegs.setReg {l : List Nat} (h : OnlyRegs l s t) {a : Nat} (w : Word) (ha : a ∈ l) : OnlyRegs l s (t.setReg a w) := by
  obtain ⟨hreg, hrest⟩ := h
  refine ⟨fun b hb => ?_, hrest⟩
  have hne : b ≠ a := fun e => hb (e ▸ ha)
  rw [reg_setReg_ne t w hne, hreg b hb]

theorem OnlyRegs.wr {l : List Nat} (h : OnlyRegs l s t) {f : Fld} (v : Nat) (hf : f.addr ∈ l) : OnlyRegs l s (t.wr f v) := h.setReg _ hf

theorem OnlyRegs.latch {l : List Nat} (h : OnlyRegs l s t) {f : Fld} (hf : f.addr ∈ l) : OnlyRegs l s (t.latch f) := by
  obtain ⟨hreg, hrest⟩ := h.wr (2 ^ f.width - 1) hf
  exact ⟨hreg, hrest⟩

theorem OnlyRegs.settle {l : List Nat} (h : OnlyRegs l s t) : OnlyRegs l s t.settle := by
  obtain ⟨hreg, hrest⟩ := h
  exact ⟨hreg, hrest⟩

theorem OnlyRegs.putTime {l : List Nat} (h : OnlyRegs l s t) {a : Nat} (x : Nat) (ha : ∀ b ∈ [a, a + 4, a + 8, a + 12], b ∈ l) :
    OnlyRegs l s (t.putTime a x) :=
  (((h.setReg _ (ha _ (by simp))).setReg _ (ha _ (by simp))).setReg _ (ha _ (by simp))).setReg _ (ha _ (by simp))

theorem OnlyRegs.wr64 {l : List Nat} (h : OnlyRegs l s t) {f : Fld} (x : Nat) (hlo : f.addr ∈ l) (hhi : f.addr + 4 ∈ l) :
    OnlyRegs l s (t.wr64 f x) := (h.setReg _ hlo).setReg _ hhi

/-- A fold whose every change leaves the part `g` of the state leaves it. -/
theorem foldl_view {α β : Type} (g : State → β) (l : List α) (f : State → α → State) (h : ∀ t, ∀ x ∈ l, g (f t x) = g t) (s : State) :
    g (l.foldl f s) = g s := by
  induction l generalizing s with
  | nil => rfl
  | cons x l ih => rw [List.foldl_cons, ih fun t y hy => h t y (List.mem_cons_of_mem x hy), h s x List.mem_cons_self]

theorem each_view {β : Type} (g : State → β) (n : Nat) (f : State → Nat → State) (h : ∀ t k, k < n → g (f t k) = g t) (s : State) :
    g (s.each n f) = g s := foldl_view g _ f (fun t k hk => h t k (List.mem_range.mp hk)) s

end State
end Machine
end Sys2Proof
end

section
/-! SUPPORT. The signed difference (R67): the statement `SignedDifference`. -/

namespace Sys2Proof

theorem sgn_bounds {w : Nat} (h : 1 ≤ w) (v : Nat) : -((2 ^ (w - 1) : Nat) : Int) ≤ sgn w v ∧ sgn w v < ((2 ^ (w - 1) : Nat) : Int) := by
  have hpow : 2 ^ w = 2 * 2 ^ (w - 1) := by rw [← pow_succ']; congr 1; omega
  have hlt : v % 2 ^ w < 2 ^ w := Nat.mod_lt _ (by positivity)
  unfold sgn
  dsimp only
  split <;> omega

/-- The two's-complement reading keeps the class modulo 2^w. -/
theorem sgn_emod (w v : Nat) : (sgn w v - (v : Int)) % ((2 ^ w : Nat) : Int) = 0 := by
  apply Int.emod_eq_zero_of_dvd
  have hv : ((v % 2 ^ w : Nat) : Int) - v = ((2 ^ w : Nat) : Int) * -((v / 2 ^ w : Nat) : Int) := by
    have h := Nat.mod_add_div v (2 ^ w)
    have h' : ((v % 2 ^ w : Nat) : Int) + ((2 ^ w : Nat) : Int) * ((v / 2 ^ w : Nat) : Int) = v := by exact_mod_cast h
    linear_combination h'
  unfold sgn
  dsimp only
  split
  · exact ⟨_, hv⟩
  · exact ⟨-((v / 2 ^ w : Nat) : Int) - 1, by linear_combination hv⟩

/-- Settles O16: d(x, y) is the reading of x − y, taken modulo 2^W above zero, as a W-bit two's-complement number. -/
theorem signedDifference : Obligations.SignedDifference := by
  intro w x y hw hx hy
  obtain ⟨hlo, hhi⟩ := sgn_bounds hw (x % 2 ^ w + 2 ^ w - y % 2 ^ w)
  refine ⟨?_, hlo, hhi, by simp [reached]⟩
  have hclass := sgn_emod w (x % 2 ^ w + 2 ^ w - y % 2 ^ w)
  rw [Nat.mod_eq_of_lt hx, Nat.mod_eq_of_lt hy] at hclass
  rw [sdiff, Nat.mod_eq_of_lt hx, Nat.mod_eq_of_lt hy]
  have hcast : ((x + 2 ^ w - y : Nat) : Int) = x - y + ((2 ^ w : Nat) : Int) := by omega
  rw [hcast] at hclass
  generalize sgn w (x + 2 ^ w - y) = d at hclass ⊢
  rwa [← sub_sub, Int.sub_emod_right] at hclass

end Sys2Proof
end

section
/-! SUPPORT. Keeper time and the wake sources of the keeper (R75, R99, R114, R115): the statement `KeeperTimeAndWakes`. -/

namespace Sys2Proof.Machine
namespace State

variable (s : State)

/-- A bit of a field is the field of that bit. -/
theorem rdBit_eq_bit {f : Fld} {b : Nat} (h : f.lo + b ≤ f.hi) : s.rdBit f b = s.bit (f.at b) := by
  have hw : f.lo + b + 1 - (f.lo + b) = 1 := by omega
  have hlt : b < f.hi + 1 - f.lo := by omega
  have hmod (x : Nat) : x % 2 ^ (f.hi + 1 - f.lo) / 2 ^ b % 2 = x / 2 ^ b % 2 := by
    rw [← Nat.toNat_testBit, ← Nat.toNat_testBit, Nat.testBit_mod_two_pow, decide_eq_true hlt, Bool.true_and]
  rw [rdBit, bit, rd, rd, wordGet, wordGet, Fld.at, hw, hmod, Nat.div_div_eq_div_mul, ← pow_add, Bool.eq_iff_iff, beq_iff_eq, bne_iff_ne,
    pow_one]
  dsimp only
  omega

/-- A bit that hardware has set reads as set. -/
theorem rdBit_latch_self {f : Fld} {b : Nat} (h : f.lo + b ≤ f.hi) (hb : f.hi < 32) : (s.latch (f.at b)).rdBit f b = true := by
  have hw : (f.at b).width = 1 := by simp [Fld.width, Fld.at]
  rw [rdBit_eq_bit _ h, bit, rd_latch, rd_wr_self _ _ _ le_rfl (lt_of_le_of_lt h hb), hw]
  rfl

/-- A wake touches SYS.WAKESRC and SYS.RUNGSTAT alone. -/
theorem reg_wake_of_ne (b : Nat) {a : Nat} (hsrc : a ≠ 0x10C) (hstat : a ≠ 0x104) : (s.wake b).reg a = s.reg a := by
  unfold wake
  split
  · unfold ascend
    split
    · split
      · exact reg_wr_ne s (wakeSrc.at b) _ hsrc
      · rfl
    · rw [reg_wr_ne _ F.SYS_RUNGMOVING _ hstat, reg_latch, reg_wr_ne _ (wakeSrc.at b) _ hsrc, reg_wr_ne _ wakeSrc _ hsrc]
      rfl
  · rfl

@[simp] theorem wake_mem (b : Nat) : (s.wake b).mem = s.mem := mem_of_kept (kept_wake s b)

/-- A happening that the keeper notes in the register of `f` is then recorded in KWSRC with the rails down, and wakes otherwise (R99,
R115). -/
theorem keeperNote_outcome {f : Fld} {k b : Nat} (v : Nat) (hk : k ≤ 2) (hf : f = F.KEEP_ALMEN ∨ f = F.KEEP_DAWN) :
    let u := s.wr f v
    let t := if u.phase == .down then u.latch (F.KEEP_KWSRC.at k) else u.wake b
    t.rd f = v % 2 ∧ t.mem = s.mem ∧ (s.phase = .down → t.rdBit F.KEEP_KWSRC k = true ∧ OnlyRegs [f.addr, 0x4084] s t) := by
  have haddr : f.addr ≠ 0x4084 ∧ f.addr ≠ 0x10C ∧ f.addr ≠ 0x104 := by rcases hf with rfl | rfl <;> decide
  obtain ⟨hkwsrc, hwsrc, hstat⟩ := haddr
  have hself : (s.wr f v).rd f = v % 2 := by rcases hf with rfl | rfl <;> exact rd_wr_self s _ v (by decide) (by decide)
  dsimp only
  by_cases hdown : s.phase = .down
  · rw [wr_phase, hdown, if_pos (by decide)]
    refine ⟨?_, rfl, fun _ => ⟨rdBit_latch_self _ (by simpa [F.KEEP_KWSRC] using hk) (by decide), ?_⟩⟩
    · rw [rd_latch, rd_wr_ne _ _ _ _ (by exact hkwsrc), hself]
    · exact ((OnlyRegs.refl _ s).wr v (by simp)).latch (by simp [F.KEEP_KWSRC, Fld.at])
  · rw [wr_phase, if_neg (by simpa using hdown)]
    refine ⟨?_, by rw [wake_mem, wr_mem], fun h => absurd h hdown⟩
    rw [rd_congr (reg_wake_of_ne _ b hwsrc hstat), hself]

/-- Crystal counts added to keeper time wrap at its span of 2^48 seconds. -/
theorem counts_keepAdd (n : Int) :
    (((s.keepAdd n).keep.sec * 32768 + (s.keepAdd n).keep.sub : Nat) : Int) =
      (((s.keep.sec * 32768 + s.keep.sub : Nat) : Int) + n) % ((2 ^ 48 * 32768 : Nat) : Int) := by
  have hnonneg := Int.emod_nonneg (((s.keep.sec * 32768 + s.keep.sub : Nat) : Int) + n) (b := ((2 ^ 48 * 32768 : Nat) : Int)) (by decide)
  simp only [keepAdd, Nat.div_add_mod']
  exact Int.toNat_of_nonneg hnonneg

/-- The seconds of a KEEP.KT capture, low and high word. -/
theorem captured_seconds (x : Nat) : x % 2 ^ 32 + 2 ^ 32 * (x / 2 ^ 32 % 2 ^ 16) = x % 2 ^ 48 := by
  omega

end State

open State

theorem exec_keeperTrimAdjust (s : State) :
    exec .keeperTrimAdjust s = .next (if s.keepRuns then s.keepAdd (sgn 8 (s.rd F.KEEP_TRIM)) else s) := (rfl)

theorem exec_keeperTimeSet {s : State} (hset : s.rd F.KEEP_KTSET = 1) (hhalt : s.keep.halted = false) (hlow : s.keep.low2 = false) :
    exec .keeperTimeSet s = .next (({ s with keep := { s.keep with
      sec := s.devTime / secUnits, sub := s.devTime % secUnits / 2 ^ 30 * 32768 / 1000000000, phase := 0 } }.wr F.KEEP_KTVALID 1).wr
        F.KEEP_KTSET 0) := by
  change execKeeperTimeSet s = _
  simp only [execKeeperTimeSet, bit_of_rd_one hset, hhalt, hlow]
  rfl

theorem exec_keeperTimeSnap {s : State} (h : s.rd F.KEEP_KTSNAP = 1) :
    exec .keeperTimeSnap s = .next ((((s.wr F.KEEP_KTSECLO s.keep.sec).wr F.KEEP_KTSECHI (s.keep.sec / 2 ^ 32)).wr F.KEEP_KTSUB
      s.keep.sub).wr F.KEEP_KTSNAP 0) := by
  change execKeeperTimeSnap s = _
  rw [execKeeperTimeSnap, if_pos (bit_of_rd_one h)]

theorem exec_keeperAlarm {s : State} (hen : s.rd F.KEEP_ALMEN = 1) (hrun : s.keepRuns = true)
    (hat : reached 48 s.keep.sec (s.rd F.KEEP_KALMLO + 2 ^ 32 * s.rd F.KEEP_KALMHI) = true) :
    exec .keeperAlarm s = .next (if (s.wr F.KEEP_ALMEN 0).phase == .down then (s.wr F.KEEP_ALMEN 0).latch (F.KEEP_KWSRC.at 2)
      else (s.wr F.KEEP_ALMEN 0).wake 5) := by
  change execKeeperAlarm s = _
  rw [execKeeperAlarm, bit_of_rd_one hen, hrun, hat]
  rfl

theorem exec_dawnDetect {s : State} (hen : s.rd F.KEEP_DAWNEN = 1) (hhalt : s.keep.halted = false) (hlow : s.keep.dawnLow = false) :
    exec .dawnDetect s = .next (if (s.wr F.KEEP_DAWN 1).phase == .down then (s.wr F.KEEP_DAWN 1).latch (F.KEEP_KWSRC.at 1)
      else (s.wr F.KEEP_DAWN 1).wake 2) := by
  change execDawnDetect s = _
  rw [execDawnDetect, bit_of_rd_one hen, hhalt, hlow]
  rfl

theorem exec_wakeNLow_down {s : State} (hdown : s.phase = .down) (hhalt : s.keep.halted = false) :
    exec .wakeNLow s = .next (s.latch (F.KEEP_KWSRC.at 0)) := by
  change execWakeNLow s = _
  simp [execWakeNLow, hdown, hhalt]

/-- Settles O21: the trim is `counts_keepAdd`; alarm and dawn end as `keeperNote_outcome` says, and WAKE_N is latched. -/
theorem keeperTimeAndWakes : Obligations.KeeperTimeAndWakes := by
  refine ⟨?trim, ?stopped, ?timeSet, ?snap, ?alarm, ?dawn, ?wakeN⟩
  case trim =>
    intro s hrun
    rw [exec_keeperTrimAdjust, if_pos hrun]
    exact ⟨_, rfl, counts_keepAdd s _, OnlyRegs.refl _ _⟩
  case stopped =>
    intro s hrun
    rw [exec_keeperTrimAdjust, hrun, if_neg Bool.false_ne_true]
  case timeSet =>
    intro s hset hhalt hlow
    rw [exec_keeperTimeSet hset hhalt hlow]
    refine ⟨_, rfl, rfl, rfl, ?_, ?_, ((OnlyRegs.refl _ _).wr _ (by decide)).wr _ (by decide)⟩
    · rw [rd_wr_apart _ _ (by decide), rd_wr_self _ _ _ (by decide) (by decide)]
      rfl
    · rw [rd_wr_self _ _ _ (by decide) (by decide), Nat.zero_mod]
  case snap =>
    intro s hsnap
    rw [exec_keeperTimeSnap hsnap]
    refine ⟨_, rfl, ?_, ?_, ?_, ?_⟩
    · simp (disch := decide) only [rd_wr_apart, rd_wr_self]
      exact captured_seconds s.keep.sec
    · simp (disch := decide) only [rd_wr_apart, rd_wr_self]
      rfl
    · rw [rd_wr_self _ _ _ (by decide) (by decide), Nat.zero_mod]
    · exact ((((OnlyRegs.refl _ s).wr _ (by decide)).wr _ (by decide)).wr _ (by decide)).wr _ (by decide)
  case alarm =>
    intro s hen hrun hat
    rw [exec_keeperAlarm hen hrun hat]
    exact ⟨_, rfl, keeperNote_outcome s 0 (by decide) (.inl rfl)⟩
  case dawn =>
    intro s hen hhalt hlow
    rw [exec_dawnDetect hen hhalt hlow]
    exact ⟨_, rfl, keeperNote_outcome s 1 (by decide) (.inr rfl)⟩
  case wakeN =>
    intro s hdown hhalt
    rw [exec_wakeNLow_down hdown hhalt]
    exact ⟨_, rfl, rdBit_latch_self s (by decide) (by decide), (OnlyRegs.refl _ s).latch (by decide)⟩

end Sys2Proof.Machine
end

section
/-! SUPPORT. The modulator clocks as the PLL and the trigger slots stop, start and align them (R61, R83, R140): what they leave alone. -/

namespace Sys2Proof.Machine
namespace State

variable (s : State)

/-- The parts of the state that a start or stop of a modulator clock leaves alone; the others are blank. -/
def besideMod : State := { s with regs := [], mods := [], blks := [] }

@[simp] theorem besideMod_wr (f : Fld) (v : Nat) : besideMod (s.wr f v) = besideMod s := (rfl)
@[simp] theorem besideMod_setBit (f : Fld) (b : Bool) : besideMod (s.setBit f b) = besideMod s := (rfl)
@[simp] theorem besideMod_setBlk (m : Nat) (b : ModBlk) : besideMod (s.setBlk m b) = besideMod s := (rfl)

@[simp] theorem besideMod_modStat (m : Nat) : besideMod (s.modStat m) = besideMod s := by
  simp [modStat]

@[simp] theorem besideMod_modRestarts (l : List Nat) : besideMod (l.foldl modRestart s) = besideMod s :=
  foldl_view besideMod l modRestart (fun _ _ _ => rfl) s

@[simp] theorem besideMod_mclkStop (m : Nat) : besideMod (s.mclkStop m) = besideMod s := by
  simp [mclkStop]

@[simp] theorem besideMod_mclkPhase (m : Nat) : besideMod (s.mclkPhase m) = besideMod s := by
  simp [mclkPhase]

@[simp] theorem besideMod_mclkStart (m : Nat) : besideMod (s.mclkStart m) = besideMod s := by
  simp [mclkStart, apply_ite besideMod]

@[simp] theorem besideMod_mclkSync : besideMod s.mclkSync = besideMod s :=
  each_view besideMod 4 _ (fun t m _ => by simp [apply_ite besideMod]) s

@[simp] theorem besideMod_mclkResume : besideMod s.mclkResume = besideMod s :=
  each_view besideMod 4 _ (fun t m _ => besideMod_mclkStart t m) s

/-! Their registers: the status word of the block alone. -/

theorem reg_setBlk (m : Nat) (b : ModBlk) (a : Nat) : (s.setBlk m b).reg a = s.reg a := (rfl)

theorem reg_modRestarts (l : List Nat) (a : Nat) : (l.foldl modRestart s).reg a = s.reg a :=
  foldl_view (fun t => t.reg a) l modRestart (fun _ _ _ => rfl) s

theorem reg_modStat_of_ne {m a : Nat} (h : a ≠ 0x40048 + 0x10 * m) : (s.modStat m).reg a = s.reg a := by
  rw [modStat, setBit, reg_wr_ne _ (F.MOD_MSET m) _ h, setBit, reg_wr_ne _ (F.MOD_OCSET m) _ h, setBit, reg_wr_ne _ (F.MOD_CSET m) _ h]

theorem reg_mclkStop_of_ne {m a : Nat} (h : a ≠ 0x40048 + 0x10 * m) : (s.mclkStop m).reg a = s.reg a := by
  rw [mclkStop, reg_modStat_of_ne _ h, reg_wr_ne _ (F.MOD_RUN m) _ h, reg_modRestarts]

theorem reg_mclkPhase_of_ne {m a : Nat} (h : a ≠ 0x40048 + 0x10 * m) : (s.mclkPhase m).reg a = s.reg a := by
  rw [mclkPhase, reg_modStat_of_ne _ h, reg_wr_ne _ (F.MOD_RUN m) _ h, reg_setBlk, reg_modRestarts]

theorem reg_mclkSync_of_ne {a : Nat} (h : ∀ m, m < 4 → a ≠ 0x40048 + 0x10 * m) : s.mclkSync.reg a = s.reg a := by
  refine each_view (fun t => t.reg a) 4 _ (fun t m hm => ?_) s
  split
  · rfl
  · exact reg_mclkStop_of_ne t (h m hm)

theorem reg_mclkResume_of_ne {a : Nat} (h : ∀ m, m < 4 → a ≠ 0x40048 + 0x10 * m) : s.mclkResume.reg a = s.reg a := by
  refine each_view (fun t => t.reg a) 4 _ (fun t m hm => ?_) s
  unfold mclkStart
  split
  · rfl
  · exact reg_mclkPhase_of_ne t (h m hm)

theorem reg_mclkAlign_of_ne {a : Nat} (h : ∀ m, m < 4 → a ≠ 0x40048 + 0x10 * m) : s.mclkAlign.reg a = s.reg a := by
  refine each_view (fun t => t.reg a) 4 _ (fun t m hm => ?_) s
  split
  · exact reg_mclkPhase_of_ne t (h m hm)
  · rfl

theorem rd_run_mclkStop (m : Nat) : (s.mclkStop m).rd (F.MOD_RUN m) = 0 := by
  unfold mclkStop modStat
  dsimp only [setBit]
  have hm : (F.MOD_RUN m).Apart (F.MOD_MSET m) := .inr (by simp [F.MOD_RUN, F.MOD_MSET])
  have ho : (F.MOD_RUN m).Apart (F.MOD_OCSET m) := .inr (by simp [F.MOD_RUN, F.MOD_OCSET])
  have hc : (F.MOD_RUN m).Apart (F.MOD_CSET m) := .inr (by simp [F.MOD_RUN, F.MOD_CSET])
  rw [rd_wr_apart _ _ hm, rd_wr_apart _ _ ho, rd_wr_apart _ _ hc, rd_wr_self _ _ _ le_rfl (by simp [F.MOD_RUN]), Nat.zero_mod]

/-- With the clock outputs stopped, no modulator clock is left running (R61). -/
theorem rd_run_mclkSync_of_stopped (h : s.clk.stopped = true) {m : Nat} (hm : m < 4) : s.mclkSync.rd (F.MOD_RUN m) = 0 := by
  unfold mclkSync
  generalize 4 = n at hm
  induction n with
  | zero => omega
  | succ n ih =>
    have hclk := congrArg State.clk (each_view besideMod n (fun s m => if s.mclkMay m then s else s.mclkStop m)
      (fun t m _ => by simp [apply_ite besideMod]) s)
    rw [each_succ]
    generalize s.each n (fun s m => if s.mclkMay m then s else s.mclkStop m) = u at ih hclk ⊢
    replace hclk : u.clk = s.clk := hclk
    have hmay : u.mclkMay n = false := by simp [mclkMay, hclk, h]
    rw [hmay, if_neg Bool.false_ne_true]
    by_cases hmn : m = n
    · rw [hmn, rd_run_mclkStop]
    · rw [rd_congr (reg_mclkStop_of_ne u (by simp only [F.MOD_RUN]; omega)), ih (by omega)]

end State
end Sys2Proof.Machine
end

section
/-! SUPPORT. The PLL's update and its clock tests (R59 to R64): the statement `ClockUpdateAndTests`. -/

namespace Sys2Proof.Machine
namespace State

variable {s : State} {v : Word}

/-- The staged values meet R59. -/
def stagedOk (s : State) : Bool := pllOk (s.rd F.CLK_SRC) (s.rd F.CLK_REFDIV) (s.rd F.CLK_N) (s.rd F.CLK_FRAC)

/-- The staged SRC or REFDIV is a new one (R61). -/
def stagedMoves (s : State) : Prop := s.rd F.CLK_SRC ≠ s.clk.src ∨ s.rd F.CLK_REFDIV ≠ s.clk.refdiv

/-- The divider with the staged values. -/
def stagedClk (s : State) : ClkM :=
  { s.clk with src := s.rd F.CLK_SRC, refdiv := s.rd F.CLK_REFDIV, n := s.rd F.CLK_N, frac := s.rd F.CLK_FRAC }

section
variable (hgo : F.CLK_UPDGO.of v = 1) (hidle : s.rd F.CLK_UPDGO = 0)
include hgo hidle

theorem clkUpdWrite_refused (h : s.stagedOk = false ∨ s.stagedMoves ∧ s.modeNow ≠ 0) : s.clkUpdWrite v = (s, .range) := by
  unfold stagedOk stagedMoves at h
  rcases h with h | ⟨hmoves, hmode⟩
  · simp [clkUpdWrite, Fld.on, hgo, bit_of_rd_zero hidle, h]
  · simp [clkUpdWrite, Fld.on, hgo, bit_of_rd_zero hidle, hmoves, hmode]

theorem clkUpdWrite_steady (hok : s.stagedOk = true) (h : ¬ s.stagedMoves) : s.clkUpdWrite v = ({ s with clk := s.stagedClk }, .ok) := by
  unfold stagedOk at hok
  unfold stagedMoves at h
  obtain ⟨hsrc, hdiv⟩ := not_or.mp h
  rw [not_not.mp hsrc, not_not.mp hdiv] at hok
  simp [clkUpdWrite, Fld.on, hgo, bit_of_rd_zero hidle, not_not.mp hsrc, not_not.mp hdiv, hok, stagedClk]

theorem clkUpdWrite_moved (hok : s.stagedOk = true) (h : s.stagedMoves) (hmode : s.modeNow = 0) :
    s.clkUpdWrite v = ((({ s with clk := { s.stagedClk with relocking := true, stopped := true } }.wr F.CLK_UPDGO 1).wr
      F.CLK_LOCK 0).mclkSync, .ok) := by
  unfold stagedOk at hok
  unfold stagedMoves at h
  simp [clkUpdWrite, Fld.on, hgo, bit_of_rd_zero hidle, hok, hmode, h, stagedClk]

end

/-- An update to a new SRC or REFDIV: a relock runs, with every clock output stopped (R61). -/
theorem relockBegins_outcome (c : ClkM) (hstop : c.stopped = true) (u : State) :
    let t := ((({ u with clk := c }.wr F.CLK_UPDGO 1).wr F.CLK_LOCK 0).mclkSync).settle
    t.rd F.CLK_UPDGO = 1 ∧ t.rd F.CLK_LOCK = 0 ∧ t.rd F.CLK_REFOK = u.rd F.CLK_REFOK ∧ t.clk = c ∧
      (∀ m, m < 4 → t.rd (F.MOD_RUN m) = 0) ∧ RestKept [0x104C, 0x1050, 0x40048, 0x40058, 0x40068, 0x40078] u t := by
  have hbeside := besideMod_mclkSync (({ u with clk := c }.wr F.CLK_UPDGO 1).wr F.CLK_LOCK 0)
  have hreg {a : Nat} := reg_mclkSync_of_ne (a := a) (({ u with clk := c }.wr F.CLK_UPDGO 1).wr F.CLK_LOCK 0)
  have hrun {m : Nat} := rd_run_mclkSync_of_stopped (m := m) (({ u with clk := c }.wr F.CLK_UPDGO 1).wr F.CLK_LOCK 0) hstop
  have hpage : ∀ m, m < 4 → (0x104C : Nat) ≠ 0x40048 + 0x10 * m ∧ (0x1050 : Nat) ≠ 0x40048 + 0x10 * m := by omega
  have hstat := hreg (a := 0x1050) fun m hm => (hpage m hm).2
  have hmem := congrArg State.mem hbeside
  refine ⟨?_, ?_, ?_, congrArg State.clk hbeside, fun m hm => hrun hm, fun a ha => ?_, hmem⟩
  · rw [settle_rd, rd_congr (hreg fun m hm => (hpage m hm).1), rd_wr_apart _ _ (by decide), rd_wr_self _ _ _ (by decide) (by decide)]
    decide
  · rw [settle_rd, rd_congr hstat, rd_wr_self _ _ _ (by decide) (by decide), Nat.zero_mod]
  · rw [settle_rd, rd_congr hstat, rd_wr_apart _ _ (by decide), rd_wr_apart _ _ (by decide)]
    rfl
  · simp only [List.mem_cons, List.not_mem_nil, or_false, not_or] at ha
    obtain ⟨hupd, hclk, hrest⟩ := ha
    rw [settle_reg, hreg (fun m hm => by omega), reg_wr_ne _ F.CLK_LOCK _ hclk, reg_wr_ne _ F.CLK_UPDGO _ hupd]
    rfl

/-- The end of a relock: LOCK and RELOCKED set, GO clear, and the outputs run (R61). -/
theorem clkRelocked_outcome (h : s.clk.relocking = true) :
    s.clkRelocked.rd F.CLK_LOCK = 1 ∧ s.clkRelocked.rd F.CLK_RELOCKED = 1 ∧ s.clkRelocked.rd F.CLK_UPDGO = 0 ∧
      s.clkRelocked.rd F.CLK_REFOK = s.rd F.CLK_REFOK ∧ s.clkRelocked.clk = { s.clk with relocking := false, stopped := false } ∧
      s.clkRelocked.mem = s.mem := by
  have heq : s.clkRelocked = ((({ s with clk := { s.clk with relocking := false, stopped := false } }.wr F.CLK_LOCK 1).latch
      F.CLK_RELOCKED).wr F.CLK_UPDGO 0).mclkResume := by simp [clkRelocked, h]
  rw [heq]
  generalize hu : { s with clk := { s.clk with relocking := false, stopped := false } } = u
  have hbeside := besideMod_mclkResume (((u.wr F.CLK_LOCK 1).latch F.CLK_RELOCKED).wr F.CLK_UPDGO 0)
  have hrd {f : Fld} (hf : f.addr < 0x40048) :=
    rd_congr (f := f) (reg_mclkResume_of_ne (a := f.addr) (((u.wr F.CLK_LOCK 1).latch F.CLK_RELOCKED).wr F.CLK_UPDGO 0) (by omega))
  refine ⟨?_, ?_, ?_, ?_, (congrArg State.clk hbeside).trans (by rw [← hu]; rfl), (congrArg State.mem hbeside).trans (by rw [← hu]; rfl)⟩
  · rw [hrd (by decide)]
    simp (disch := decide) only [rd_wr_apart, rd_latch, rd_wr_self]
    decide
  · rw [hrd (by decide)]
    simp (disch := decide) only [rd_wr_apart, rd_latch, rd_wr_self]
    decide
  · rw [hrd (by decide), rd_wr_self _ _ _ (by decide) (by decide), Nat.zero_mod]
  · rw [hrd (by decide)]
    simp (disch := decide) only [rd_wr_apart, rd_latch]
    rw [← hu]
    rfl

theorem rung_wr_lock (x : Nat) : (s.wr F.CLK_LOCK x).rung = s.rung := rd_wr_apart s x (by decide)

end State

open State

theorem exec_clkUpdate {v : Word} {s u : State} (h : s.turn 0x104C v = some u) :
    exec (.clkUpdate v) s = .next (noteWrite 0x104C (u.clkUpdWrite v)).settle :=
  congrArg Host.Outcome.next (hostWord_of_turn s h)

theorem exec_clkRelockDone (s : State) : exec .clkRelockDone s = .next s.clkRelocked := (rfl)

theorem exec_clkRelockTimeout (s : State) :
    exec .clkRelockTimeout s = .next (if s.clk.relocking && !s.bit F.CLK_LOCK then s.detect 0x03 else s) := (rfl)

theorem exec_clkRefloss (s : State) : exec .clkRefloss s =
    .next (if s.bit F.CLK_REFOK && s.refRuns then ((s.wr F.CLK_REFOK 0).wr F.CLK_HOLD 1).detect 0x02 else s) := (rfl)

theorem exec_clkUnlock (s : State) :
    exec .clkUnlock s = .next (if s.bit F.CLK_LOCK && s.rung < 3 then (s.wr F.CLK_LOCK 0).clkUnlockRaise else s) := (rfl)

theorem exec_clkFreqFault (s : State) : exec .clkFreqFault s = .next s.clkUnlockRaise := (rfl)

theorem exec_referenceReturn (s : State) : exec .referenceReturn s = .next ((s.wr F.CLK_REFOK 1).wr F.CLK_HOLD 0) := (rfl)

/-- Settles O15: a word of CLK.UPDATE goes by the three cases of `clkUpdWrite`, a relock begins and ends as `relockBegins_outcome` and
`clkRelocked_outcome` say, and each clock test by its own condition. -/
theorem clockUpdateAndTests : Obligations.ClockUpdateAndTests := by
  refine ⟨?update, ?relocked, ?timeout, ?refloss, ?unlock, ?freqFault, ?refReturn⟩
  case update =>
    intro v s u hturn hgo hidle
    rw [exec_clkUpdate hturn]
    refine ⟨fun h => ?_, fun hok hsrc hdiv => ?_, fun hok hmoves hmode => ?_⟩
    · rw [clkUpdWrite_refused hgo hidle h]
    · rw [clkUpdWrite_steady hgo hidle hok (not_or.mpr ⟨not_not.mpr hsrc, not_not.mpr hdiv⟩), noteWrite_ok, stagedClk, hsrc, hdiv]
      rfl
    · rw [clkUpdWrite_moved hgo hidle hok hmoves hmode, noteWrite_ok]
      exact ⟨_, rfl, relockBegins_outcome _ rfl u⟩
  case relocked =>
    intro s h
    exact ⟨_, exec_clkRelockDone s, clkRelocked_outcome h⟩
  case timeout =>
    intro s hrelock hlock
    rw [exec_clkRelockTimeout, hrelock, bit_of_rd_zero hlock]
    rfl
  case refloss =>
    intro s
    rw [exec_clkRefloss, refRuns]
    refine ⟨fun hok hrung => ?_, ?_⟩
    · simp [bit_of_rd_one hok, hrung]
    · rintro (hok | hrung)
      · simp [bit_of_rd_zero hok]
      · simp [hrung]
  case unlock =>
    intro s
    rw [exec_clkUnlock]
    refine ⟨fun hlock hrung => ?_, ?_⟩
    · have hrung' : ¬ 3 ≤ s.rung := by omega
      simp [bit_of_rd_one hlock, hrung, clkUnlockRaise, rung_wr_lock, hrung']
    · rintro (hlock | hrung)
      · simp [bit_of_rd_zero hlock]
      · have hrung' : ¬ s.rung < 3 := by omega
        simp [hrung']
  case freqFault =>
    intro s
    simp [exec_clkFreqFault, clkUnlockRaise]
  case refReturn =>
    intro s
    rw [exec_referenceReturn]
    refine ⟨_, rfl, ?_, ?_, ?_, ((OnlyRegs.refl _ s).wr _ (by decide)).wr _ (by decide)⟩
    · rw [rd_wr_apart _ _ (by decide), rd_wr_self _ _ _ (by decide) (by decide)]
      decide
    · rw [rd_wr_self _ _ _ (by decide) (by decide), Nat.zero_mod]
    · rw [rd_wr_apart _ _ (by decide), rd_wr_apart _ _ (by decide)]

end Sys2Proof.Machine
end

section
/-! SUPPORT. Increments and leaps (R66, R70, R71): the statement `LeapsAndIncrements`. -/

namespace Sys2Proof.Machine
namespace State

variable {s : State}

/-! Increments. -/

theorem incWrite_of_inside {v : Word} (k : Nat) (h : 0x7FDF3B64 ≤ v.toNat ∧ v.toNat ≤ 0x8020C49C) :
    s.incWrite k v = (if k = 0 then s.setReg (incFld k).addr v else (s.setReg (incFld k).addr v).servoSeen (k - 1), .ok) := if_pos h

theorem incWrite_of_outside {v : Word} (k : Nat) (h : v.toNat < 0x7FDF3B64 ∨ 0x8020C49C < v.toNat) : s.incWrite k v = (s, .range) :=
  if_neg (by omega)

/-- An increment stored: for A and B the activity of the servo is noted, and nothing else moves (R66, R74). -/
theorem incStored_outcome (k : Fin 3) (v : Word) (u : State) :
    let t := (if (k : Nat) = 0 then u.setReg (incFld k).addr v else (u.setReg (incFld k).addr v).servoSeen (k - 1)).settle
    t.reg (incFld k).addr = v ∧ (∀ d, d < 2 → (k : Nat) = d + 1 → (if d = 0 then t.time.srvA else t.time.srvB) = u.tick) ∧
      OnlyRegs [(incFld k).addr] { u with time := { u.time with srvA := t.time.srvA, srvB := t.time.srvB } } t := by
  match k with
  | 0 => exact ⟨reg_setReg_self u _ v, fun d _ hd => absurd hd (by simp), ((OnlyRegs.refl _ u).setReg v (by simp)).settle⟩
  | 1 =>
    refine ⟨reg_setReg_self u _ v, fun d _ hd => ?_, ?_⟩
    · obtain rfl : d = 0 := by simpa using hd.symm
      rfl
    · exact ((OnlyRegs.refl _ { u with time := { u.time with srvA := u.tick } }).setReg v (by simp)).settle
  | 2 =>
    refine ⟨reg_setReg_self u _ v, fun d _ hd => ?_, ?_⟩
    · obtain rfl : d = 1 := by simpa using hd.symm
      rfl
    · exact ((OnlyRegs.refl _ { u with time := { u.time with srvB := u.tick } }).setReg v (by simp)).settle

/-! A word of LEAPCTL (R70, R71). -/

theorem leapCtlWrite_of_idle {v : Word} (h : s.rd F.TIME_LEAPARM = 0) :
    s.leapCtlWrite (F.TIME_LEAPARM.put v 1) =
      if F.TIME_LEAPTGT.of v = 3 ∨ 999999999 < (sgn 32 (s.rd F.TIME_LEAPNS)).natAbs then (s, .range)
      else (((s.wr F.TIME_LEAPTGT (F.TIME_LEAPTGT.of v)).wr F.TIME_LEAPARM 1).wr F.TIME_LEAPPEND 1, .ok) := by
  have htgt : F.TIME_LEAPTGT.of (F.TIME_LEAPARM.put v 1) = F.TIME_LEAPTGT.of v := Fld.of_put_beside v 1 (by decide)
  have harm := F.TIME_LEAPARM.on_put_one v (by decide) (by decide)
  simp [leapCtlWrite, bit_of_rd_zero h, htgt, harm]

theorem leapCtlWrite_of_pending {v : Word} (h : s.rd F.TIME_LEAPARM = 1) :
    s.leapCtlWrite v =
      if F.TIME_LEAPCANCEL.on v = true then ((s.wr F.TIME_LEAPARM 0).wr F.TIME_LEAPPEND 0, .ok)
      else if F.TIME_LEAPTGT.of v ≠ s.rd F.TIME_LEAPTGT then (s, .busy) else (s, .ok) := by
  simp [leapCtlWrite, bit_of_rd_one h]

/-! The leap itself (R70). -/

/-- The signed offset that LEAPSEC, LEAPNS and LEAPFRAC give. -/
def leapOffset (s : State) : Int :=
  sgn 32 (s.rd F.TIME_LEAPSEC) * (secUnits : Int) + sgn 32 (s.rd F.TIME_LEAPNS) * 2 ^ 30 + (s.rd F.TIME_LEAPFRAC * 2 ^ 14 : Nat)

/-- A leap of device time leaves every part of the state that neither the gates' entries in force nor the frames being filled belong to. -/
theorem netLeap_view {β : Type} (g : State → β) (hwr : ∀ t p v, g (t.wr (F.NETQ_OPIDX p) v) = g t)
    (hstrm : ∀ t k v, g (t.setStrm k v) = g t) (s : State) : g s.netLeap = g s := by
  unfold netLeap
  dsimp only
  rw [each_view g 8 _ (fun t k _ => ?strm), each_view g 2 _ (fun t p _ => ?gate)]
  case strm => split <;> simp only [hstrm]
  case gate => split <;> simp only [hwr]

@[simp] theorem netLeap_time (s : State) : s.netLeap.time = s.time := netLeap_view State.time (fun _ _ _ => rfl) (fun _ _ _ => rfl) s
@[simp] theorem netLeap_mem (s : State) : s.netLeap.mem = s.mem := netLeap_view State.mem (fun _ _ _ => rfl) (fun _ _ _ => rfl) s

theorem reg_netLeap_of_lt (s : State) {a : Nat} (h : a < 0x59000) : s.netLeap.reg a = s.reg a :=
  netLeap_view (fun t => t.reg a) (fun t p v => reg_wr_ne t _ v (by simp only [F.NETQ_OPIDX]; omega)) (fun _ _ _ => rfl) s

/-- A leap of device time spoils the windows of the probe that it falls in. -/
def leapSpoiled (s : State) : State :=
  if s.rd F.TIME_LEAPTGT = s.rd F.TIME_ACTIVE then
    { s with isl := { s.isl with z0 := { s.isl.z0 with bad := true }, z1 := { s.isl.z1 with bad := true } } }
  else s

/-- The journal takes the record of a due leap, with the counter's time before it. -/
def leapNoted (s : State) : State :=
  s.leapSpoiled.jrnlAdd 5 (s.rd F.TIME_LEAPTGT) 0 0 0 0 (s.rd F.TIME_LEAPFRAC)
    (s.leapSpoiled.rd F.TIME_LEAPSEC * 2 ^ 32 + s.leapSpoiled.rd F.TIME_LEAPNS)

@[simp] theorem leapNoted_time (s : State) : s.leapNoted.time = s.time := by
  refine (congrArg State.time (kept_jrnlAdd ..)).trans ?_
  unfold leapSpoiled
  split <;> rfl

@[simp] theorem leapNoted_mem (s : State) : s.leapNoted.mem = s.mem := by
  refine (mem_of_kept (kept_jrnlAdd ..)).trans ?_
  unfold leapSpoiled
  split <;> rfl

/-- The counter of the leap with its offset added, and ARM and PEND clear. -/
def leapMoved (s : State) : State :=
  ((s.leapNoted.setCounter (s.rd F.TIME_LEAPTGT) (timeAdd (s.leapNoted.counter (s.rd F.TIME_LEAPTGT)) s.leapOffset)).wr F.TIME_LEAPARM 0).wr
    F.TIME_LEAPPEND 0

/-- A due leap is journalled and moves its counter; one of device time then reaches the network (R70, R365). -/
theorem leapApply_of_due (harm : s.rd F.TIME_LEAPARM = 1) (hat : reached 64 s.now64 (s.rd64 F.TIME_LEAPATLO) = true) :
    s.leapApply = if s.rd F.TIME_LEAPTGT = s.leapMoved.rd F.TIME_ACTIVE then s.leapMoved.netLeap else s.leapMoved := by
  rw [leapApply, bit_of_rd_one harm, hat, Bool.and_self, if_pos rfl]
  rfl

theorem leapApply_of_not_due (h : s.rd F.TIME_LEAPARM = 0 ∨ reached 64 s.now64 (s.rd64 F.TIME_LEAPATLO) = false) : s.leapApply = s := by
  rcases h with h | h
  · simp [leapApply, bit_of_rd_zero h]
  · simp [leapApply, h]

/-- A counter set: code 3 of a two-bit target names B as code 2 does. -/
theorem counter_setCounter (x : Nat) {j k : Nat} (hj : j < 3) (hk : k < 4) :
    (s.setCounter k x).counter j = if j = k ∨ j = 2 ∧ k = 3 then x else s.counter j := by
  interval_cases j <;> interval_cases k <;> rfl

theorem counter_congr {t : State} (h : t.time = s.time) (k : Nat) : t.counter k = s.counter k := by
  rw [counter, h, counter]

theorem setCounter_mem (k x : Nat) : (s.setCounter k x).mem = s.mem := by
  unfold setCounter
  split_ifs <;> rfl

/-- What a due leap leaves is what its counter's move leaves, the network apart. -/
theorem leapApply_view {β : Type} (g : State → β) (hnet : ∀ t : State, g t.netLeap = g t) (harm : s.rd F.TIME_LEAPARM = 1)
    (hat : reached 64 s.now64 (s.rd64 F.TIME_LEAPATLO) = true) : g s.leapApply = g s.leapMoved := by
  rw [leapApply_of_due harm hat]
  split
  · exact hnet _
  · rfl

theorem counter_leapMoved (s : State) {j : Nat} (hj : j < 3) :
    s.leapMoved.counter j = if j = s.rd F.TIME_LEAPTGT ∨ (j = 2 ∧ s.rd F.TIME_LEAPTGT = 3) then
      timeAdd (s.counter j) s.leapOffset else s.counter j := by
  unfold leapMoved
  have hk : s.rd F.TIME_LEAPTGT < 4 := s.rd_lt F.TIME_LEAPTGT
  generalize s.rd F.TIME_LEAPTGT = k at hk ⊢
  rw [counter_congr (wr_time _ _ _), counter_congr (wr_time _ _ _), counter_setCounter _ hj hk, counter_congr s.leapNoted_time,
    counter_congr s.leapNoted_time]
  by_cases hjk : j = k ∨ j = 2 ∧ k = 3
  · have hsame : s.counter k = s.counter j := by
      rcases hjk with rfl | ⟨rfl, rfl⟩ <;> rfl
    rw [if_pos hjk, if_pos hjk, hsame]
  · rw [if_neg hjk, if_neg hjk]

theorem leapApply_outcome (harm : s.rd F.TIME_LEAPARM = 1) (hat : reached 64 s.now64 (s.rd64 F.TIME_LEAPATLO) = true) :
    s.leapApply.rd F.TIME_LEAPARM = 0 ∧ s.leapApply.rd F.TIME_LEAPPEND = 0 ∧
      (∀ k, k < 3 → s.leapApply.counter k = if k = s.rd F.TIME_LEAPTGT ∨ (k = 2 ∧ s.rd F.TIME_LEAPTGT = 3) then
        timeAdd (s.counter k) s.leapOffset else s.counter k) ∧ s.leapApply.mem = s.mem := by
  refine ⟨?_, ?_, fun k hk => ?_, ?_⟩
  · rw [leapApply_view (fun t => t.rd F.TIME_LEAPARM) (fun t => rd_congr (t.reg_netLeap_of_lt (by decide))) harm hat, leapMoved,
      rd_wr_apart _ _ (by decide), rd_wr_self _ _ _ (by decide) (by decide), Nat.zero_mod]
  · rw [leapApply_view (fun t => t.rd F.TIME_LEAPPEND) (fun t => rd_congr (t.reg_netLeap_of_lt (by decide))) harm hat, leapMoved,
      rd_wr_self _ _ _ (by decide) (by decide), Nat.zero_mod]
  · rw [counter_congr (leapApply_view State.time netLeap_time harm hat), counter_leapMoved s hk]
  · rw [leapApply_view State.mem netLeap_mem harm hat, leapMoved, wr_mem, wr_mem, setCounter_mem, leapNoted_mem]

theorem setCounter_switchTo (k x : Nat) : (s.setCounter k x).time.switchTo = s.time.switchTo := by
  unfold setCounter
  split_ifs <;> rfl

/-- A leap leaves a switch of ACTIVE that is due in the tick. -/
@[simp] theorem leapApply_switchTo (s : State) : s.leapApply.time.switchTo = s.time.switchTo := by
  by_cases harm : s.rd F.TIME_LEAPARM = 0
  · rw [leapApply_of_not_due (.inl harm)]
  · have hone : s.rd F.TIME_LEAPARM = 1 := by
      have hlt : s.rd F.TIME_LEAPARM < 2 := s.rd_lt F.TIME_LEAPARM
      omega
    cases hat : reached 64 s.now64 (s.rd64 F.TIME_LEAPATLO)
    · rw [leapApply_of_not_due (.inr hat)]
    · rw [leapApply_view State.time netLeap_time hone hat, leapMoved, wr_time, wr_time, setCounter_switchTo, leapNoted_time]

end State

open State

theorem exec_timeIncrementWrite {k : Fin 3} {v : Word} {s u : State} (h : s.turn (incFld k).addr v = some u) :
    exec (.timeIncrementWrite k v) s = .next (noteWrite (incFld k).addr (u.incWrite k v)).settle :=
  congrArg Host.Outcome.next (hostWord_of_turn s h)

theorem exec_leapArm {v : Word} {s u : State} (h : s.turn 0x20B0 (F.TIME_LEAPARM.put v 1) = some u) :
    exec (.leapArm v) s = .next (noteWrite 0x20B0 (u.leapCtlWrite (F.TIME_LEAPARM.put v 1))).settle :=
  congrArg Host.Outcome.next (hostWord_of_turn s h)

theorem exec_leapCancel {v : Word} {s u : State} (h : s.turn 0x20B0 (F.TIME_LEAPCANCEL.put v 1) = some u) :
    exec (.leapCancel v) s = .next (noteWrite 0x20B0 (u.leapCtlWrite (F.TIME_LEAPCANCEL.put v 1))).settle :=
  congrArg Host.Outcome.next (hostWord_of_turn s h)

theorem exec_leapApply (s : State) : exec .leapApply s = .next s.leapApply := (rfl)

/-- Settles O17: an increment is stored or dropped, a word of LEAPCTL goes by whether a leap is pending, and a due leap ends as
`leapApply_outcome` says. That CANCEL leaves TGT is the model's choice (log 33). -/
theorem leapsAndIncrements : Obligations.LeapsAndIncrements := by
  refine ⟨?increment, ?arm, ?busy, ?cancel, ?due, ?notDue⟩
  case increment =>
    intro k v s u hturn
    rw [exec_timeIncrementWrite hturn]
    refine ⟨fun h => ?_, fun h => ?_⟩
    · rw [incWrite_of_inside _ h, noteWrite_ok]
      exact ⟨_, rfl, incStored_outcome k v u⟩
    · rw [incWrite_of_outside _ h]
  case arm =>
    intro v s u hturn hidle
    rw [exec_leapArm hturn, leapCtlWrite_of_idle hidle]
    refine ⟨fun h => by rw [if_pos h], fun htgt hns => ?_⟩
    rw [if_neg (not_or.mpr ⟨htgt, not_lt.mpr hns⟩), noteWrite_ok]
    refine ⟨_, rfl, ?_, ?_, ?_, ?_, ((((OnlyRegs.refl _ u).wr _ (by decide)).wr _ (by decide)).wr _ (by decide)).settle⟩ <;>
      rw [settle_rd]
    · rw [rd_wr_apart _ _ (by decide), rd_wr_self _ _ _ (by decide) (by decide)]
      decide
    · rw [rd_wr_self _ _ _ (by decide) (by decide)]
      decide
    · rw [rd_wr_apart _ _ (by decide), rd_wr_apart _ _ (by decide), rd_wr_self _ _ _ (by decide) (by decide)]
      exact Nat.mod_eq_of_lt (Fld.of_lt _ v)
    · rw [rd_wr_apart _ _ (by decide), rd_wr_apart _ _ (by decide), rd_wr_apart _ _ (by decide)]
  case busy =>
    intro v s u hturn harm hcancel htgt
    have hkeep : F.TIME_LEAPCANCEL.of (F.TIME_LEAPARM.put v 1) = 0 := (Fld.of_put_beside v 1 (by decide)).trans hcancel
    have hsame : F.TIME_LEAPTGT.of (F.TIME_LEAPARM.put v 1) = F.TIME_LEAPTGT.of v := Fld.of_put_beside v 1 (by decide)
    rw [exec_leapArm hturn, leapCtlWrite_of_pending harm, if_neg (by simp [Fld.on, hkeep]), hsame, if_pos htgt]
  case cancel =>
    intro v s u hturn harm
    rw [exec_leapCancel hturn, leapCtlWrite_of_pending harm, if_pos (Fld.on_put_one _ v (by decide) (by decide)), noteWrite_ok]
    refine ⟨_, rfl, ?_, ?_, ?_, (((OnlyRegs.refl _ u).wr _ (by decide)).wr _ (by decide)).settle⟩ <;> rw [settle_rd]
    · rw [rd_wr_apart _ _ (by decide), rd_wr_self _ _ _ (by decide) (by decide), Nat.zero_mod]
    · rw [rd_wr_self _ _ _ (by decide) (by decide), Nat.zero_mod]
    · rw [rd_wr_apart _ _ (by decide), rd_wr_apart _ _ (by decide)]
  case due =>
    intro s harm hat
    exact ⟨_, exec_leapApply s, leapApply_outcome harm hat⟩
  case notDue =>
    intro s h
    rw [exec_leapApply, leapApply_of_not_due h]

end Sys2Proof.Machine
end

section
/-! SUPPORT. The switch of ACTIVE with its slew, and the snapshot of the times (R65, R72, R73): the statement `DomainSwitchAndSnapshot`. -/

namespace Sys2Proof.Machine
namespace State

variable {s : State}

/-! The counters' arithmetic (R65). -/

theorem timeAdd_lt (x : Nat) (d : Int) : timeAdd x d < timeSpan := by
  have hpos : (0 : Int) < (timeSpan : Int) := by decide
  have hlt := Int.emod_lt_of_pos ((x : Int) + d) hpos
  have hnonneg := Int.emod_nonneg ((x : Int) + d) hpos.ne'
  unfold timeAdd
  omega

/-- A time less its difference from another, whichever way round, is the other. -/
theorem timeAdd_neg_timeDiff (x : Nat) {y : Nat} (hy : y < timeSpan) : timeAdd x (-timeDiff x y) = y := by
  have hback : ((x : Int) + -timeDiff x y) % (timeSpan : Int) = y := by
    have hrem := Int.emod_add_mul_ediv ((x : Int) - y) (timeSpan : Int)
    unfold timeDiff
    dsimp only
    split
    · rw [show (x : Int) + -(((x : Int) - y) % (timeSpan : Int)) = y + (timeSpan : Int) * (((x : Int) - y) / (timeSpan : Int)) by
        linear_combination -hrem, Int.add_mul_emod_self_left]
      exact Int.emod_eq_of_lt (by omega) (by omega)
    · rw [show (x : Int) + -(((x : Int) - y) % (timeSpan : Int) - (timeSpan : Int)) =
          y + (timeSpan : Int) * (((x : Int) - y) / (timeSpan : Int) + 1) by linear_combination -hrem, Int.add_mul_emod_self_left]
      exact Int.emod_eq_of_lt (by omega) (by omega)
  rw [timeAdd, hback, Int.toNat_natCast]

/-- Device time is what the counters, the slew and ACTIVE make it. -/
theorem devTime_congr {t : State} (htime : t.time = s.time) (hactive : t.rd F.TIME_ACTIVE = s.rd F.TIME_ACTIVE) : t.devTime = s.devTime := by
  rw [devTime, counter, slewNow, htime, hactive]
  rfl

/-! The switch (R72, R73). -/

/-- The offset of counter `k` from device time, which a switch slews away. -/
def switchOffset (s : State) (k : Nat) : Int := timeDiff (s.counter k) s.devTime

/-- The switch to counter `k` made: the slew of its offset begins. -/
def switched (s : State) (k : Nat) : State :=
  ({ s with time := { s.time with slew := s.switchOffset k, slewLen := s.rd F.TIME_SLEWWIN * 500000, slewAt := 0 } }.wr
    F.TIME_ACTIVE k).setBit F.TIME_SLEWING (s.switchOffset k != 0)

theorem timeSwitch_of_eq {k : Nat} (h : k = s.rd F.TIME_ACTIVE) : s.timeSwitch k = s := if_pos h

theorem timeSwitch_of_ne {k : Nat} (h : k ≠ s.rd F.TIME_ACTIVE) :
    s.timeSwitch k =
      if k = 3 then s.wr F.TIME_SWREF 3
      else if (k = 1 ∧ s.rd F.TIME_AEN = 0) ∨ (k = 2 ∧ s.rd F.TIME_BEN = 0) then s.wr F.TIME_SWREF 2
      else if s.rd F.TIME_SLEWWIN * 500 * 2 ^ 30 < (s.switchOffset k).natAbs then s.wr F.TIME_SWREF 1
      else s.switched k := by
  have hoff : (k = 1 && !s.bit F.TIME_AEN || k = 2 && !s.bit F.TIME_BEN) = true ↔
      (k = 1 ∧ s.rd F.TIME_AEN = 0) ∨ (k = 2 ∧ s.rd F.TIME_BEN = 0) := by simp [bit]
  rw [timeSwitch, if_neg h]
  exact if_congr .rfl rfl (if_congr hoff rfl rfl)

/-- A switch refused for reason `x` shows in SWREF, and nothing else moves. -/
theorem switchRefused_outcome (s : State) {x : Nat} (hx : x < 8) :
    (s.wr F.TIME_SWREF x).rd F.TIME_SWREF = x ∧ OnlyRegs [0x2044] s (s.wr F.TIME_SWREF x) := by
  refine ⟨?_, (OnlyRegs.refl _ s).wr x (by decide)⟩
  rw [rd_wr_self _ _ _ (by decide) (by decide)]
  exact Nat.mod_eq_of_lt hx

theorem devTime_wr_swref (s : State) (x : Nat) : (s.wr F.TIME_SWREF x).devTime = s.devTime :=
  devTime_congr rfl (rd_wr_apart s x (by decide))

/-- The slew begins at the whole offset; an offset within a window of 0 ms is 0. -/
theorem slewNow_switched {k : Nat} (h : (s.switchOffset k).natAbs ≤ s.rd F.TIME_SLEWWIN * 500 * 2 ^ 30) :
    (s.switched k).slewNow = s.switchOffset k := by
  change (if s.rd F.TIME_SLEWWIN * 500000 ≤ 0 then 0
    else s.switchOffset k * ((s.rd F.TIME_SLEWWIN * 500000 - 0 : Nat) : Int) / ((s.rd F.TIME_SLEWWIN * 500000 : Nat) : Int)) = _
  split
  next hzero => omega
  next hpos => rw [Nat.sub_zero, Int.mul_ediv_cancel _ (by omega)]

theorem rd_active_switched {k : Nat} (hk : k < 4) : (s.switched k).rd F.TIME_ACTIVE = k := by
  rw [switched, setBit, rd_wr_apart _ _ (by decide), rd_wr_self _ _ _ (by decide) (by decide)]
  exact Nat.mod_eq_of_lt hk

/-- Device time goes on across the switch. -/
theorem devTime_switched {k : Nat} (hk : k < 4) (h : (s.switchOffset k).natAbs ≤ s.rd F.TIME_SLEWWIN * 500 * 2 ^ 30) :
    (s.switched k).devTime = s.devTime := by
  have hcounter : (s.switched k).counter k = s.counter k := (rfl)
  rw [devTime, rd_active_switched hk, slewNow_switched h, hcounter]
  exact timeAdd_neg_timeDiff (s.counter k) (timeAdd_lt _ _)

theorem switched_outcome {k : Nat} (hk : k < 4) (h : (s.switchOffset k).natAbs ≤ s.rd F.TIME_SLEWWIN * 500 * 2 ^ 30) :
    (s.switched k).rd F.TIME_ACTIVE = k ∧ (s.switched k).slewNow = s.switchOffset k ∧
      (s.switched k).rd F.TIME_SLEWING = (if (s.switched k).slewNow = 0 then 0 else 1) ∧
      OnlyRegs [0x2040, 0x2044] { s with time := (s.switched k).time } (s.switched k) := by
  refine ⟨rd_active_switched hk, slewNow_switched h, ?_, ((OnlyRegs.refl _ _).wr _ (by decide)).wr _ (by decide)⟩
  rw [slewNow_switched h, switched, setBit, rd_wr_self _ _ _ (by decide) (by decide)]
  by_cases hzero : s.switchOffset k = 0 <;> simp [hzero, F.TIME_SLEWING, Fld.width]

theorem devTime_timeSwitch {k : Nat} (hk : k < 4) : (s.timeSwitch k).devTime = s.devTime := by
  by_cases hsame : k = s.rd F.TIME_ACTIVE
  · rw [timeSwitch_of_eq hsame]
  · rw [timeSwitch_of_ne hsame]
    split_ifs with hnone hoff hfar
    · exact devTime_wr_swref s 3
    · exact devTime_wr_swref s 2
    · exact devTime_wr_swref s 1
    · exact devTime_switched hk (by omega)

/-- In its tick a due switch is made, and its slew begins with it (R69, R72). -/
theorem timeSlew_of_due {k : Nat} (h : s.time.switchTo = some k) :
    s.timeSlew = { s with time :=
      { s.time with switchTo := none, slewAt := min s.time.slewLen (s.time.slewAt + s.tickLen) } }.timeSwitch k := by
  simp only [timeSlew, h]

/-! A word of TIME.CTL (R65, R72). -/

theorem timeCtlWrite_plain {v : Word} (h : F.TIME_SNAPGO.of v = 0) : s.timeCtlWrite v = (s.activeWrite (F.TIME_ACTIVE.of v), .ok) := by
  simp [timeCtlWrite, Fld.on, h]

theorem timeCtlWrite_snap (v : Word) :
    s.timeCtlWrite (F.TIME_SNAPGO.put v 1) = (s.timeSnap.activeWrite (F.TIME_ACTIVE.of v), .ok) := by
  have hactive : F.TIME_ACTIVE.of (F.TIME_SNAPGO.put v 1) = F.TIME_ACTIVE.of v := Fld.of_put_beside v 1 (by decide)
  rw [timeCtlWrite, F.TIME_SNAPGO.on_put_one v (by decide) (by decide), hactive]
  rfl

theorem reg_activeWrite (s : State) (k a : Nat) : (s.activeWrite k).reg a = s.reg a := (rfl)

theorem rd64_wr64_self (s : State) (f : Fld) (x : Nat) : (s.wr64 f x).rd64 f = x % 2 ^ 64 := by
  rw [rd64, wr64, reg_setReg_self, reg_setReg_ne _ _ (by omega), reg_setReg_self, BitVec.toNat_ofNat, BitVec.toNat_ofNat]
  omega

/-- The registers of the snapshot. -/
def snapRegs : List Nat :=
  [0x2060, 0x2064, 0x2068, 0x206C, 0x2070, 0x2074, 0x2078, 0x207C, 0x2080, 0x2084, 0x2088, 0x208C, 0x2090, 0x2094, 0x2098, 0x209C,
    0x20A0, 0x20A4]

theorem onlyRegs_timeSnap (s : State) : OnlyRegs snapRegs s s.timeSnap :=
  (((((OnlyRegs.refl _ s).putTime _ (by decide)).putTime _ (by decide)).putTime _ (by decide)).putTime _ (by decide)).wr64 _ (by decide)
    (by decide)

theorem rd64_timeSnap (s : State) : s.timeSnap.rd64 F.TIME_DT64LO = s.now64 := by
  rw [timeSnap, rd64_wr64_self]
  exact Nat.mod_mod _ _

theorem OnlyRegs.time_eq {l : List Nat} {t : State} (h : OnlyRegs l s t) : t.time = s.time := by
  obtain ⟨-, hrest⟩ := h
  have htime := congrArg State.time hrest
  exact htime

/-- States that differ in registers alone still do when the same times are put into both. -/
theorem OnlyRegs.setTime {l : List Nat} {t : State} (h : OnlyRegs l s t) (x : TimeM) :
    OnlyRegs l { s with time := x } { t with time := x } := by
  obtain ⟨hreg, hrest⟩ := h
  exact ⟨hreg, congrArg (fun y : State => { y with time := x }) hrest⟩

/-- A snapshot with ACTIVE as it is: the registers of the snapshot change, and a switch that was pending goes (log 32). -/
theorem snapped_outcome {x : Nat} (hx : x = s.rd F.TIME_ACTIVE) :
    let t := (s.timeSnap.activeWrite x).settle
    t.rd64 F.TIME_DT64LO = s.now64 ∧ t.time = { s.time with switchTo := none } ∧ t.rd F.TIME_ACTIVE = s.rd F.TIME_ACTIVE ∧
      OnlyRegs snapRegs { s with time := t.time } t := by
  have honly := onlyRegs_timeSnap s
  obtain ⟨hreg, -⟩ := id honly
  have hactive : s.timeSnap.rd F.TIME_ACTIVE = s.rd F.TIME_ACTIVE := rd_congr (hreg _ (by decide))
  refine ⟨?_, ?_, ?_, (honly.setTime (s.timeSnap.activeWrite x).time).settle⟩
  · rw [rd64, settle_reg, settle_reg, reg_activeWrite, reg_activeWrite]
    exact rd64_timeSnap s
  · rw [settle_time, activeWrite, hactive, if_pos hx, honly.time_eq]
  · rw [settle_rd, rd_congr (reg_activeWrite _ _ _), hactive]

end State

open State

theorem exec_domainSwitch {v : Word} {s u : State} (h : s.turn 0x2040 v = some u) :
    exec (.domainSwitch v) s = .next (noteWrite 0x2040 (u.timeCtlWrite v)).settle :=
  congrArg Host.Outcome.next (hostWord_of_turn s h)

theorem exec_timeSnap {v : Word} {s u : State} (h : s.turn 0x2040 (F.TIME_SNAPGO.put v 1) = some u) :
    exec (.timeSnap v) s = .next (noteWrite 0x2040 (u.timeCtlWrite (F.TIME_SNAPGO.put v 1))).settle :=
  congrArg Host.Outcome.next (hostWord_of_turn s h)

theorem exec_slewEnd (s : State) : exec .slewEnd s = .next (if s.slewNow = 0 then s.wr F.TIME_SLEWING 0 else s) := (rfl)

/-- Settles O18: the switch goes by `timeSwitch_of_ne`, device time by `devTime_timeSwitch`, the snapshot by `snapped_outcome`. That a later
word replaces or withdraws a pending switch is the model's choice (log 32). -/
theorem domainSwitchAndSnapshot : Obligations.DomainSwitchAndSnapshot := by
  refine ⟨?word, ?switch, ?tick, ?slewEnd, ?slewing, ?snap⟩
  case word =>
    intro v s u hturn hsnap
    rw [exec_domainSwitch hturn, timeCtlWrite_plain hsnap, noteWrite_ok]
    rfl
  case switch =>
    intro k u hk
    refine ⟨timeSwitch_of_eq, fun hne => ?_, devTime_timeSwitch hk⟩
    rw [timeSwitch_of_ne hne, show timeDiff (u.counter k) u.devTime = u.switchOffset k from rfl]
    by_cases hnone : k = 3
    · simp only [if_pos hnone]
      exact switchRefused_outcome u (by decide)
    by_cases hoff : (k = 1 ∧ u.rd F.TIME_AEN = 0) ∨ (k = 2 ∧ u.rd F.TIME_BEN = 0)
    · simp only [if_neg hnone, if_pos hoff]
      exact switchRefused_outcome u (by decide)
    by_cases hfar : u.rd F.TIME_SLEWWIN * 500 * 2 ^ 30 < (u.switchOffset k).natAbs
    · simp only [if_neg hnone, if_neg hoff, if_pos hfar]
      exact switchRefused_outcome u (by decide)
    · simp only [if_neg hnone, if_neg hoff, if_neg hfar]
      exact switched_outcome hk (not_lt.mp hfar)
  case tick =>
    intro u k hrun hswitch
    have hdue : u.timeCount.leapApply.time.switchTo = some k := (leapApply_switchTo u.timeCount).trans hswitch
    rw [timeTick, if_pos hrun, timeSlew_of_due hdue]
  case slewEnd =>
    intro s hzero
    rw [exec_slewEnd, if_pos hzero]
    refine ⟨_, rfl, ?_, (OnlyRegs.refl _ s).wr _ (by decide)⟩
    rw [rd_wr_self _ _ _ (by decide) (by decide), Nat.zero_mod]
  case slewing =>
    intro s hne
    rw [exec_slewEnd, if_neg hne]
  case snap =>
    intro v s u hturn hactive
    rw [exec_timeSnap hturn, timeCtlWrite_snap, noteWrite_ok]
    exact ⟨_, rfl, snapped_outcome hactive⟩

end Sys2Proof.Machine
end

section
/-! SUPPORT. What the restart of a carrier (R83 target 1) leaves alone: the registers of the pages below 0x10000. -/

namespace Sys2Proof.Machine
namespace State

variable (s : State)

/-- The registers of the pages below 0x10000. -/
def lowRegs : Fin 0x10000 → Word := fun a => s.reg a

theorem reg_of_lowRegs {s t : State} (h : lowRegs t = lowRegs s) {a : Nat} (ha : a < 0x10000) : t.reg a = s.reg a := congrFun h ⟨a, ha⟩

@[simp] theorem lowRegs_setReg {a : Nat} (w : Word) (h : 0x10000 ≤ a) : lowRegs (s.setReg a w) = lowRegs s :=
  funext fun b => reg_setReg_ne s w (by omega)

@[simp] theorem lowRegs_wr {f : Fld} (v : Nat) (h : 0x10000 ≤ f.addr) : lowRegs (s.wr f v) = lowRegs s := lowRegs_setReg s _ h
@[simp] theorem lowRegs_wrF {f : Fld} (v : F32) (h : 0x10000 ≤ f.addr) : lowRegs (s.wrF f v) = lowRegs s := lowRegs_setReg s _ h
@[simp] theorem lowRegs_setBit {f : Fld} (b : Bool) (h : 0x10000 ≤ f.addr) : lowRegs (s.setBit f b) = lowRegs s := lowRegs_setReg s _ h
@[simp] theorem lowRegs_sat {f : Fld} (h : 0x10000 ≤ f.addr) : lowRegs (s.sat f) = lowRegs s := lowRegs_setReg s _ h
@[simp] theorem lowRegs_wrap {f : Fld} (h : 0x10000 ≤ f.addr) : lowRegs (s.wrap f) = lowRegs s := lowRegs_setReg s _ h
@[simp] theorem lowRegs_latch {f : Fld} (h : 0x10000 ≤ f.addr) : lowRegs (s.latch f) = lowRegs s := lowRegs_setReg s _ h

@[simp] theorem lowRegs_setLeg (n : Nat) (v : LegM) : lowRegs (s.setLeg n v) = lowRegs s := (rfl)
@[simp] theorem lowRegs_setRamp (n : Nat) (v : RampM) : lowRegs (s.setRamp n v) = lowRegs s := (rfl)
@[simp] theorem lowRegs_setCmp (n : Nat) (v : CmpM) : lowRegs (s.setCmp n v) = lowRegs s := (rfl)
@[simp] theorem lowRegs_setTrip (n : Nat) (v : TripM) : lowRegs (s.setTrip n v) = lowRegs s := (rfl)
@[simp] theorem lowRegs_setId (n : Nat) (v : IdM) : lowRegs (s.setId n v) = lowRegs s := (rfl)
@[simp] theorem lowRegs_setBlk (n : Nat) (v : ModBlk) : lowRegs (s.setBlk n v) = lowRegs s := (rfl)
@[simp] theorem lowRegs_setCh (n : Nat) (v : ChM) : lowRegs (s.setCh n v) = lowRegs s := (rfl)
@[simp] theorem lowRegs_fresh : lowRegs s.fresh = lowRegs s := (rfl)

@[simp] theorem lowRegs_each (n : Nat) (f : State → Nat → State) (h : ∀ t k, lowRegs (f t k) = lowRegs t) :
    lowRegs (s.each n f) = lowRegs s := each_view lowRegs n f (fun t k _ => h t k) s

@[simp] theorem lowRegs_foldl {α : Type} (l : List α) (f : State → α → State) (h : ∀ t x, lowRegs (f t x) = lowRegs t) :
    lowRegs (l.foldl f s) = lowRegs s := foldl_view lowRegs l f (fun t x _ => h t x) s

theorem lowRegs_ite {c : Prop} [Decidable c] {s t u : State} (ht : lowRegs t = lowRegs s) (hu : lowRegs u = lowRegs s) :
    lowRegs (if c then t else u) = lowRegs s := by
  split
  · exact ht
  · exact hu

@[simp] theorem lowRegs_iraw {pg : Nat} (b : Nat) (v : Bool) (h : 0x10000 ≤ pg) : lowRegs (s.iraw pg b v) = lowRegs s := by
  have hraw : 0x10000 ≤ ((F.IRAW pg).at b).addr := Nat.le_add_right_of_le h
  have hflg : 0x10000 ≤ ((F.IFLG pg).at b).addr := Nat.le_add_right_of_le h
  simp [iraw, apply_ite lowRegs, hraw, hflg]

/-! The cell of a leg (R202, R232). -/

@[simp] theorem lowRegs_rampRestart (n t : Nat) : lowRegs (s.rampRestart n t) = lowRegs s := by
  simp [rampRestart, apply_ite lowRegs]

@[simp] theorem lowRegs_blankOpen (n : Nat) : lowRegs (s.blankOpen n) = lowRegs s := by
  have hcnt (i : Nat) : 0x10000 ≤ (F.TRIP_BLANKCNT i).addr := Nat.le_add_right_of_le (by decide)
  simp [blankOpen, apply_ite lowRegs, hcnt]

@[simp] theorem lowRegs_pinEdge (n : Nat) (e : PinEdge) : lowRegs (s.pinEdge n e) = lowRegs s := by
  simp [pinEdge, apply_ite lowRegs]

@[simp] theorem lowRegs_edgesDue (n t : Nat) : lowRegs (s.edgesDue n t) = lowRegs s := by
  simp [edgesDue]

@[simp] theorem lowRegs_cellDrive (n : Nat) (v : Lvl) (safe hush : Bool) (t : Nat) :
    lowRegs (s.cellDrive n v safe hush t) = lowRegs s := by
  unfold cellDrive
  dsimp only
  split <;> simp

@[simp] theorem lowRegs_cellCut (n t : Nat) : lowRegs (s.cellCut n t) = lowRegs s := by
  simp [cellCut]

@[simp] theorem lowRegs_cellAt (n t : Nat) : lowRegs (s.cellAt n t) = lowRegs s := by
  simp [cellAt, apply_ite lowRegs, F.LEG_RUN, F.LEG_SRCMOD, F.LEG_SRCCMP, F.LEG_SRCTRIP, F.LEG_OVR, F.LEG_FLT, F.LEG_STO, F.LEG_LVL,
    Pg.LEG, Nat.le_add_right_of_le]

@[simp] theorem lowRegs_legCut (k : Nat) : lowRegs (s.legCut k).1 = lowRegs s := by
  unfold legCut
  dsimp only
  split
  · simp [cellUpdate]
  · rfl

@[simp] theorem lowRegs_cmpCut (n m : Nat) : lowRegs (s.cmpCut n m) = lowRegs s := by
  have hlegs (l : List Nat) (p : State × Bool) : lowRegs (l.foldl (fun (p : State × Bool) k =>
      if m / 2 ^ k % 2 = 1 then let q := p.1.legCut k; (q.1, p.2 || q.2) else p) p).1 = lowRegs p.1 := by
    induction l generalizing p with
    | nil => rfl
    | cons k l ih =>
      rw [List.foldl_cons, ih]
      split
      · exact lowRegs_legCut p.1 k
      · rfl
  unfold cmpCut
  dsimp only
  split
  · simp [F.CMP_EVTCNT, Nat.le_add_right_of_le, hlegs]
  · exact hlegs _ _

@[simp] theorem lowRegs_cutAtStart (k : Nat) : lowRegs (s.cutAtStart k) = lowRegs s := by
  simp [cutAtStart, apply_ite lowRegs]

@[simp] theorem lowRegs_setCmd (n : Nat) (v : Lvl) (t : Nat) : lowRegs (s.setCmd n v t) = lowRegs s := by
  simp [setCmd]

/-! A reload (R224 to R226). -/

@[simp] theorem lowRegs_legLate (n : Nat) : lowRegs (s.legLate n) = lowRegs s := by
  simp [legLate, F.LEG_LATE, F.LEG_LATECNT, Pg.LEG, Nat.le_add_right_of_le]

@[simp] theorem lowRegs_shadowTo (n : Nat) (h : Shadow) : lowRegs (s.shadowTo n h) = lowRegs s := by
  simp [shadowTo, Pg.LEG, Nat.le_add_right_of_le]

@[simp] theorem lowRegs_chDone (n : Nat) : lowRegs (s.chDone n) = lowRegs s := by
  have hpend (c : Nat) : 0x10000 ≤ (F.PEND (Pg.CH c)).addr := by simp only [F.PEND, Pg.CH]; omega
  simp [chDone, apply_ite lowRegs, hpend]

@[simp] theorem lowRegs_reload (n : Nat) : lowRegs (s.reload n) = lowRegs s := by
  unfold reload
  dsimp only
  rw [apply_ite lowRegs, lowRegs_legLate, lowRegs_chDone, ite_self]
  simp only [lowRegs_setBit, lowRegs_wrF, lowRegs_wr, F.LEG_DTAGE, F.LEG_LOSTVS, F.PEND, Pg.LEG, Nat.le_add_right_of_le, Nat.reduceLeDiff]
  split <;> simp

/-! The evaluations of a TCM leg (R204 to R219). -/

@[simp] theorem lowRegs_legBad (n sub : Nat) : lowRegs (s.legBad n sub) = lowRegs s := by
  simp [legBad, F.LEG_BADIN, Pg.LEG, Nat.le_add_right_of_le]

@[simp] theorem lowRegs_legGood (n : Nat) : lowRegs (s.legGood n) = lowRegs s := by
  simp [legGood, F.LEG_BADIN, Pg.LEG, Nat.le_add_right_of_le]

@[simp] theorem lowRegs_shed (g : Nat) : lowRegs (s.shed g) = lowRegs s := by
  unfold shed setAct
  split
  · rfl
  · dsimp only
    rw [lowRegs_foldl _ _ _ fun t n => by split <;> rfl]
    simp [F.LEGX_NACT, F.LEGX_SHEDCNT, Nat.le_add_right_of_le]

@[simp] theorem lowRegs_shedHold (n sub : Nat) : lowRegs (s.shedHold n sub) = lowRegs s := by
  simp [shedHold, F.LEG_FB, F.LEG_SHED, Nat.le_add_right_of_le]

@[simp] theorem lowRegs_idSkip (n : Nat) (due : Bool) : lowRegs (s.idSkip n due) = lowRegs s := by
  simp [idSkip, apply_ite lowRegs, F.LEGX_IDSKIP, Nat.le_add_right_of_le]

@[simp] theorem lowRegs_idSync (g : Nat) : lowRegs (s.idSync g) = lowRegs s := by
  simp [idSync, apply_ite lowRegs, F.LEGX_IDSKIP, Nat.le_add_right_of_le]

@[simp] theorem lowRegs_idTake (n : Nat) : lowRegs (s.idTake n).2 = lowRegs s := by
  simp [idTake, apply_ite Prod.snd, apply_ite lowRegs]

@[simp] theorem lowRegs_carrierEvent (n t per : Nat) (peak : Bool) : lowRegs (s.carrierEvent n t per peak) = lowRegs s := by
  simp [carrierEvent, apply_ite lowRegs]

@[simp] theorem lowRegs_tcmIn (n sub : Nat) : lowRegs (s.tcmIn n sub).2 = lowRegs s := by
  have hv : lowRegs (s.tcmV n sub).2 = lowRegs s := by
    unfold tcmV
    dsimp only
    split
    · rfl
    · dsimp only
      split <;> rfl
  unfold tcmIn
  dsimp only
  split <;> exact hv

@[simp] theorem lowRegs_fbC (n sub : Nat) : lowRegs (s.fbC n sub).2 = lowRegs s := by
  have hin := s.lowRegs_tcmIn n sub
  unfold fbC
  generalize s.tcmIn n sub = r at hin
  obtain ⟨_ | t, u⟩ := r
  · exact hin
  · dsimp only
    split <;> exact hin

@[simp] theorem lowRegs_tcmFallback (n sub : Nat) (was : Bool) : lowRegs (s.tcmFallback n sub was) = lowRegs s := by
  unfold tcmFallback
  dsimp only
  generalize hu : setLeg _ _ _ = u
  have hlow : lowRegs u = lowRegs s := by
    simp [← hu, F.LEG_TCEIL, F.LEG_FB, F.LEG_CEILCNT, Pg.LEG, Nat.le_add_right_of_le]
  have hfb := u.lowRegs_fbC n sub
  generalize u.fbC n sub = r at hfb ⊢
  obtain ⟨_ | ⟨t, c⟩, w⟩ := r <;> simp_all

@[simp] theorem lowRegs_slotBegin (n t1 : Nat) (neg : Bool) (c1 l : F32) : lowRegs (s.slotBegin n t1 neg c1 l).2 = lowRegs s := by
  have hmean (t : State) (i k : Nat) : lowRegs (t.meanOf i k).2 = lowRegs t := by
    unfold meanOf
    dsimp only
    split <;> rfl
  simp [slotBegin, hmean]

@[simp] theorem lowRegs_tcmEval (n sub : Nat) (t : TcmIn) (neg seg zero cont due : Bool) :
    lowRegs (s.tcmEval n sub t neg seg zero cont due) = lowRegs s := by
  have hpol : lowRegs (s.setBit (F.LEG_POL n) neg) = lowRegs s := lowRegs_setBit _ _ (Nat.le_add_right_of_le (by decide))
  have hfloor (u : State) : lowRegs (((u.latch (F.LEG_TFLOOR n)).sat (F.LEG_FLOORCNT n)).iraw (Pg.LEG n) 2 true) = lowRegs u := by
    simp [F.LEG_TFLOOR, F.LEG_FLOORCNT, Pg.LEG, Nat.le_add_right_of_le]
  have hlast1 : 0x10000 ≤ (F.LEG_LASTT1 n).addr := Nat.le_add_right_of_le (by decide)
  have hlast2 : 0x10000 ≤ (F.LEG_LASTT2 n).addr := Nat.le_add_right_of_le (by decide)
  have hidle : 0x10000 ≤ (F.LEG_LASTIDLE n).addr := Nat.le_add_right_of_le (by decide)
  unfold tcmEval
  dsimp only
  refine lowRegs_ite ?fallback (lowRegs_ite ?zero ?run)
  case fallback => rw [lowRegs_idSkip, lowRegs_tcmFallback, hpol]
  case zero =>
    rw [lowRegs_idSkip, lowRegs_setCmd, lowRegs_setLeg, lowRegs_wr _ _ hidle, lowRegs_wr _ _ hlast2, lowRegs_wr _ _ hlast1, lowRegs_setLeg]
    exact lowRegs_ite ((hfloor _).trans hpol) hpol
  case run =>
    rw [lowRegs_setCmd, lowRegs_wr _ _ hlast1, lowRegs_setLeg, lowRegs_idSkip, apply_ite Prod.snd]
    refine lowRegs_ite ((lowRegs_slotBegin ..).trans ?_) ?_ <;>
    · rw [lowRegs_setLeg]
      exact lowRegs_ite ((hfloor _).trans hpol) hpol

@[simp] theorem lowRegs_tcmStart (n sub : Nat) (zero : Bool) : lowRegs (s.tcmStart n sub zero) = lowRegs s := by
  have hcnt : 0x10000 ≤ (F.LEG_PERCNT n).addr := Nat.le_add_right_of_le (by decide)
  have hshed : 0x10000 ≤ (F.LEG_SHED n).addr := Nat.le_add_right_of_le (by decide)
  unfold tcmStart
  dsimp only
  refine lowRegs_ite ?_ ?_
  · simp only [lowRegs_shedHold, lowRegs_idSkip, lowRegs_idTake, apply_ite lowRegs, lowRegs_shed, lowRegs_setLeg, lowRegs_setCmd,
      lowRegs_wrap _ hcnt, ite_self]
  · generalize hv : setBit _ (F.LEG_SHED n) false = v
    have hlowv : lowRegs v = lowRegs s := by
      rw [← hv, lowRegs_setBit _ _ hshed]
      simp only [lowRegs_carrierEvent, lowRegs_idTake, apply_ite lowRegs, lowRegs_shed, lowRegs_setLeg, lowRegs_setCmd,
        lowRegs_wrap _ hcnt, ite_self]
    have hin := v.lowRegs_tcmIn n sub
    generalize v.tcmIn n sub = q at hin ⊢
    obtain ⟨_ | x, w⟩ := q
    · rw [lowRegs_idSkip, lowRegs_legBad, hin, hlowv]
    · rw [lowRegs_tcmEval, lowRegs_legGood, hin, hlowv]

/-- The restart of a carrier writes to pages from 0x10000 on alone. -/
@[simp] theorem lowRegs_carrierRestart (c : Nat) : lowRegs (s.carrierRestart c) = lowRegs s := by
  have hfb (n : Nat) : 0x10000 ≤ (F.LEG_FB n).addr := Nat.le_add_right_of_le (by decide)
  have hleave (t : State) (n : Nat) : lowRegs (t.fbLeave n 0) = lowRegs t := by
    simp [fbLeave, hfb]
  unfold carrierRestart
  refine lowRegs_foldl _ _ _ fun t n => ?_
  simp [apply_ite lowRegs, hfb, hleave]

end State
end Sys2Proof.Machine
end

section
/-! SUPPORT. The servo's lock, the egress FIFO and the pulses per second (R74, R80 to R82). -/

namespace Sys2Proof.Machine
namespace State

variable {s t : State}

theorem OnlyRegs.mem_eq {l : List Nat} (h : OnlyRegs l s t) : t.mem = s.mem := by
  obtain ⟨-, hrest⟩ := h
  have hmem := congrArg State.mem hrest
  exact hmem

/-! The servo (R74). -/

theorem find_dlock : RegMap.find 0x205C = some ⟨0x5C, 0, 1, 0, 1, 0, 3, 0, 0, 0, 0, 0⟩ := by
  decide

/-- The word DLOCK holds after a write: its two lock bits are those of the word. -/
theorem wordGet_dlock (x v : Word) : wordGet ((x &&& ~~~3#32) ||| (v &&& 3#32)) 1 0 = wordGet v 1 0 := by
  have hmask : (~~~3#32).toNat % 2 ^ 2 = 0 := by decide
  have hlow : v.toNat % 2 ^ 2 &&& 3 = v.toNat % 2 ^ 2 := by
    rw [show (3 : Nat) = 2 ^ 2 - 1 from rfl, Nat.and_two_pow_sub_one_eq_mod, Nat.mod_mod]
  unfold wordGet
  rw [BitVec.toNat_or, BitVec.toNat_and, BitVec.toNat_and, pow_zero, Nat.div_one, Nat.div_one, Nat.or_mod_two_pow, Nat.and_mod_two_pow,
    Nat.and_mod_two_pow, hmask, Nat.and_zero, Nat.zero_or]
  exact hlow

/-- The domains whose bit the word sets have shown activity. -/
theorem each_servoSeen (s : State) (v : Word) :
    s.each 2 (fun s d => if v.getLsbD d then s.servoSeen d else s) =
      { s with time := { s.time with srvA := if v.getLsbD 0 then s.tick else s.time.srvA,
                                     srvB := if v.getLsbD 1 then s.tick else s.time.srvB } } := by
  change (if v.getLsbD 1 then (if v.getLsbD 0 then s.servoSeen 0 else s).servoSeen 1 else (if v.getLsbD 0 then s.servoSeen 0 else s)) = _
  cases v.getLsbD 0 <;> cases v.getLsbD 1 <;> rfl

/-- HOLD follows the lock: it reads 1 exactly while both bits are clear (R308). -/
theorem holdSync_outcome (s : State) :
    s.holdSync.rd F.ISL_HOLD = (if s.rd F.TIME_DLOCK = 0 then 1 else 0) ∧
      OnlyRegs [F.ISL_HOLD.addr] { s with isl := s.holdSync.isl } s.holdSync := by
  by_cases hlost : s.rd F.TIME_DLOCK = 0
  · by_cases hhold : s.bit F.ISL_HOLD = true
    · have heq : s.holdSync = s := by simp [holdSync, hlost, hhold]
      rw [heq, if_pos hlost, (bit_iff_rd_one rfl).mp hhold]
      exact ⟨rfl, OnlyRegs.refl _ s⟩
    · have heq : s.holdSync = ({ s with isl := { s.isl with holdAt := some s.tick, told := false } }).wr F.ISL_HOLD 1 := by
        simp [holdSync, hlost, hhold]
      rw [heq, if_pos hlost, rd_wr_self _ _ _ (by decide) (by decide)]
      exact ⟨by decide, (OnlyRegs.refl _ _).wr _ (by decide)⟩
  · have heq : s.holdSync = ({ s with isl := { s.isl with holdAt := none, told := false, fbEnd := s.isl.fbEnd || s.bit F.ISL_FBACT || s.isl.told } }).wr F.ISL_HOLD 0 := by
      simp [holdSync, hlost]
    rw [heq, if_neg hlost, rd_wr_self _ _ _ (by decide) (by decide)]
    exact ⟨by decide, (OnlyRegs.refl _ _).wr _ (by decide)⟩

/-- States that differ in registers alone still do when the same islanding unit is put into both. -/
theorem OnlyRegs.setIsl {l : List Nat} (h : OnlyRegs l s t) (x : IslM) : OnlyRegs l { s with isl := x } { t with isl := x } := by
  obtain ⟨hreg, hrest⟩ := h
  exact ⟨hreg, congrArg (fun y : State => { y with isl := x }) hrest⟩

/-- The state in which a word of DLOCK leaves the lock bits and the notes of activity. -/
def servoTaken (s : State) (v : Word) : State :=
  { s with time := { s.time with srvA := if v.getLsbD 0 then s.tick else s.time.srvA,
                                 srvB := if v.getLsbD 1 then s.tick else s.time.srvB } }.setReg 0x205C
    ((s.reg 0x205C &&& ~~~3#32) ||| (v &&& 3#32))

theorem servoWrite_eq (s : State) (v : Word) : s.servoWrite v = ((s.servoTaken v).holdSync, .ok) := by
  rw [servoWrite, genWrite_of_rw v find_dlock rfl rfl rfl, each_servoSeen]
  rfl

theorem servoWrite_outcome (s : State) (v : Word) :
    let t := (s.servoTaken v).holdSync.settle
    t.rd F.TIME_DLOCK = F.TIME_DLOCK.of v ∧ t.rd F.ISL_HOLD = (if F.TIME_DLOCK.of v = 0 then 1 else 0) ∧
      OnlyRegs [0x205C, F.ISL_HOLD.addr]
        { s with isl := t.isl, time := { s.time with srvA := if v.getLsbD 0 then s.tick else s.time.srvA,
                                                     srvB := if v.getLsbD 1 then s.tick else s.time.srvB } } t := by
  have hlock : (s.servoTaken v).rd F.TIME_DLOCK = F.TIME_DLOCK.of v := by
    rw [servoTaken, rd, show F.TIME_DLOCK.addr = 0x205C from rfl, reg_setReg_self]
    exact wordGet_dlock _ v
  obtain ⟨hhold, hreg, hrest⟩ := holdSync_outcome (s.servoTaken v)
  rw [hlock] at hhold
  refine ⟨?_, hhold, ?_⟩
  · rw [settle_rd, rd_congr (hreg _ (by decide)), ← hlock]
    rfl
  · have hsync : OnlyRegs [0x205C, F.ISL_HOLD.addr] { s.servoTaken v with isl := (s.servoTaken v).holdSync.isl }
        (s.servoTaken v).holdSync := ⟨fun a ha => hreg a (fun hmem => ha (List.mem_cons_of_mem _ hmem)), hrest⟩
    exact ((((OnlyRegs.refl _ _).setReg _ (by decide)).setIsl _).trans hsync).settle

theorem servoSilent_iff (s : State) (d : Nat) :
    s.servoSilent d = true ↔ s.rd F.TIME_SRVWDT ≠ 0 ∧
      s.rd F.TIME_SRVWDT * 500000 ≤ s.tick - (if d = 0 then s.time.srvA else s.time.srvB) := by
  simp [servoSilent]

/-! The egress FIFO (R80). -/

/-- The oldest stamp loaded into the transmit timestamp registers. -/
def txLoad (s : State) (x : TxStamp) : State :=
  ((((((((s.wr F.TIME_TXVALID 1).wr F.TIME_TXSRC x.src).wr F.TIME_TXMSGTYPE x.msgType).wr F.TIME_TXDOMAIN x.domain).wr
    F.TIME_TXSEQID x.seqId).wr F.TIME_TXSECLO (x.time / secUnits)).wr F.TIME_TXNS (x.time % secUnits / 2 ^ 30)).wr F.TIME_TXFRAC
      (x.time % secUnits % 2 ^ 30 / 2 ^ 14)).wr F.TIME_TXSECHI (x.time / secUnits / 2 ^ 32)

theorem txLoad_outcome (s : State) (x : TxStamp) :
    (s.txLoad x).rd F.TIME_TXVALID = 1 ∧ (s.txLoad x).rd F.TIME_TXSEQID = x.seqId % 2 ^ 16 ∧
      (s.txLoad x).rd F.TIME_TXNS = x.time % secUnits / 2 ^ 30 ∧ (s.txLoad x).time = s.time ∧ (s.txLoad x).mem = s.mem := by
  have hns : x.time % secUnits / 2 ^ 30 < 2 ^ F.TIME_TXNS.width := by
    have hsub : x.time % secUnits < 1000000000 * 2 ^ 30 := Nat.mod_lt _ (by decide)
    have hw : 2 ^ F.TIME_TXNS.width = 2 ^ 32 := rfl
    omega
  unfold txLoad
  refine ⟨?_, ?_, ?_, by simp only [wr_time], by simp only [wr_mem]⟩
  · simp (disch := decide) only [rd_wr_apart, rd_wr_self]
    decide
  · simp (disch := decide) only [rd_wr_apart, rd_wr_self]
    rfl
  · simp (disch := decide) only [rd_wr_apart, rd_wr_self]
    exact Nat.mod_eq_of_lt hns

theorem txFifo_wr (s : State) (f : Fld) (x p : Nat) : (s.wr f x).txFifo p = s.txFifo p := (rfl)

theorem txPopWrite_of_empty {v : Word} (h : s.txFifo (F.TIME_TXPORT.of v) = []) :
    s.txPopWrite (F.TIME_POP.put v 1) = ((s.wr F.TIME_TXPORT (F.TIME_TXPORT.of v)).wr F.TIME_TXVALID 0, .ok) := by
  have hport : F.TIME_TXPORT.of (F.TIME_POP.put v 1) = F.TIME_TXPORT.of v := Fld.of_put_beside v 1 (by decide)
  have hpop := F.TIME_POP.on_put_one v (by decide) (by decide)
  simp [txPopWrite, hport, hpop, txFifo_wr, h]

theorem txPopWrite_of_cons {v : Word} {x : TxStamp} {l : List TxStamp} (h : s.txFifo (F.TIME_TXPORT.of v) = x :: l) :
    s.txPopWrite (F.TIME_POP.put v 1) =
      (((s.wr F.TIME_TXPORT (F.TIME_TXPORT.of v)).setTxFifo (F.TIME_TXPORT.of v) l).txLoad x, .ok) := by
  have hport : F.TIME_TXPORT.of (F.TIME_POP.put v 1) = F.TIME_TXPORT.of v := Fld.of_put_beside v 1 (by decide)
  have hpop := F.TIME_POP.on_put_one v (by decide) (by decide)
  simp [txPopWrite, hport, hpop, txFifo_wr, h, txLoad]

/-! PPS_IN and PPS_OUT (R81, R82). -/

/-- The edge noted as the last one captured, with the time of the counter of the free-running domain. -/
def ppsNoted (s : State) (sub : Nat) : State :=
  { s with time := { s.time with lastPps := some s.tick, ppsF := timeAdd s.time.f (s.subTick 0 sub) } }

/-- The times that an edge of PPS_IN captures. -/
def ppsCaptured (s : State) (sub : Nat) : State :=
  let s := s.ppsNoted sub
  let s := s.putTime 0x2120 (timeAdd s.devTime (s.subTick (s.rd F.TIME_ACTIVE) sub))
  let s := s.putTime 0x2130 (timeAdd s.time.a (s.subTick 1 sub))
  s.putTime 0x2140 (timeAdd s.time.b (s.subTick 2 sub))

/-- Less than 100 ms have passed since the last captured edge. -/
def ppsNear (s : State) : Bool :=
  match s.time.lastPps with
  | none => false
  | some x => decide (s.tick - x < 50000000)

theorem ppsNear_iff (s : State) : s.ppsNear = true ↔ ∃ x, s.time.lastPps = some x ∧ s.tick - x < 50000000 := by
  cases hlast : s.time.lastPps <;> simp [ppsNear, hlast]

theorem ppsIn_eq (s : State) (f : Bool) (sub : Nat) : s.ppsIn f sub =
    if !s.bit F.TIME_INEN || s.bit F.TIME_INEDGE != f || s.ppsNear then s
    else ((s.ppsCaptured sub).wrap F.TIME_PPSCNT).latch F.TIME_PPSNEW := (rfl)

/-- The registers of the capture. -/
def captureRegs : List Nat :=
  [0x2120, 0x2124, 0x2128, 0x212C, 0x2130, 0x2134, 0x2138, 0x213C, 0x2140, 0x2144, 0x2148, 0x214C]

theorem onlyRegs_ppsCaptured (s : State) (sub : Nat) : OnlyRegs captureRegs (s.ppsNoted sub) (s.ppsCaptured sub) :=
  (((OnlyRegs.refl _ _).putTime _ (by decide)).putTime _ (by decide)).putTime _ (by decide)

theorem bit_inedge_iff {f : Bool} : s.bit F.TIME_INEDGE = f ↔ s.rd F.TIME_INEDGE = (if f then 1 else 0) := by
  have hlt : s.rd F.TIME_INEDGE < 2 := s.rd_lt F.TIME_INEDGE
  cases f
  · simp [bit]
  · simp [bit]
    omega

/-- An enabled edge that does not come within 100 ms of the last captured one is captured and counts. -/
theorem ppsIn_of_enabled {f : Bool} (sub : Nat) (hen : s.rd F.TIME_INEN = 1) (hedge : s.rd F.TIME_INEDGE = (if f then 1 else 0))
    (hfar : ∀ x, s.time.lastPps = some x → 50000000 ≤ s.tick - x) :
    s.ppsIn f sub = ((s.ppsCaptured sub).wrap F.TIME_PPSCNT).latch F.TIME_PPSNEW := by
  have hnear : s.ppsNear = false := by
    rw [Bool.eq_false_iff, ne_eq, ppsNear_iff]
    rintro ⟨x, hlast, hx⟩
    exact absurd hx (not_lt.mpr (hfar x hlast))
  rw [ppsIn_eq, if_neg]
  rw [bit_of_rd_one hen, bit_inedge_iff.mpr hedge, hnear, bne_self_eq_false]
  decide

/-- A disabled edge, the wrong one, and one within 100 ms are ignored; the last does not start the 100 ms anew (log 35). -/
theorem ppsIn_ignored {f : Bool} (sub : Nat) (h : s.rd F.TIME_INEN = 0 ∨ s.rd F.TIME_INEDGE ≠ (if f then 1 else 0) ∨
    (∃ x, s.time.lastPps = some x ∧ s.tick - x < 50000000)) : s.ppsIn f sub = s := by
  rw [ppsIn_eq, if_pos]
  rcases h with hen | hedge | hnear
  · rw [bit_of_rd_zero hen]
    rfl
  · rw [bne_iff_ne.mpr (mt bit_inedge_iff.mp hedge), Bool.or_true, Bool.true_or]
  · rw [(ppsNear_iff s).mpr hnear, Bool.or_true]

theorem ppsCounted_outcome (s : State) (sub : Nat) :
    let t := ((s.ppsCaptured sub).wrap F.TIME_PPSCNT).latch F.TIME_PPSNEW
    t.rd F.TIME_PPSNEW = 1 ∧ t.rd F.TIME_PPSCNT = (s.rd F.TIME_PPSCNT + 1) % 2 ^ 32 ∧ t.time.lastPps = some s.tick ∧
      t.counter 0 = s.counter 0 ∧ t.mem = s.mem := by
  have honly := s.onlyRegs_ppsCaptured sub
  obtain ⟨hreg, -⟩ := id honly
  have hcnt : (s.ppsCaptured sub).rd F.TIME_PPSCNT = s.rd F.TIME_PPSCNT := rd_congr (hreg _ (by decide))
  have htime : (((s.ppsCaptured sub).wrap F.TIME_PPSCNT).latch F.TIME_PPSNEW).time = (s.ppsNoted sub).time := by
    rw [latch_time, wrap_time, honly.time_eq]
  refine ⟨?_, ?_, by rw [htime]; rfl, (counter_congr htime 0).trans rfl, ?_⟩
  · rw [rd_latch, rd_wr_self _ _ _ (by decide) (by decide)]
    decide
  · rw [rd_latch, rd_wr_apart _ _ (by decide), wrap, rd_wr_self _ _ _ (by decide) (by decide), hcnt]
    rfl
  · rw [latch_mem, wrap_mem, honly.mem_eq]
    rfl

theorem ppsPulse_of_due (hen : s.rd F.TIME_OUTEN = 1) (hup : s.phase = .up) (hdue : s.time.ppsDue = true) :
    s.ppsPulse = { s with time := { s.time with ppsOut := true, ppsDue := false, ppsEnd := s.tick + 500 * s.rd F.TIME_PPSWIDTH } } := by
  simp [ppsPulse, bit_of_rd_one hen, hup, hdue]

theorem ppsPulse_of_not_due (h : s.rd F.TIME_OUTEN = 0 ∨ s.time.ppsDue = false) : s.ppsPulse = s := by
  rcases h with hen | hdue
  · simp [ppsPulse, bit_of_rd_zero hen]
  · simp [ppsPulse, hdue]

end State
end Sys2Proof.Machine
end

section
/-! SUPPORT. The trigger slots (R69, R83), and the statement `ServoTriggersAndPulses`. -/

namespace Sys2Proof.Machine
namespace State

variable {s : State}

/-! Arming. -/

/-- The value of slot `n`. -/
def trgAt (s : State) (n : Nat) : Nat := s.rd64 ⟨0x2160 + 0x10 * n, 31, 0⟩

theorem trgDue_iff (s : State) (n : Nat) :
    s.trgDue n = true ↔ s.rd (F.TIME_TRGARM n) = 1 ∧ reached 64 s.now64 (s.trgAt n) = true ∧
      SMap.get (fun _ => 0) s.time.trgAt n ≠ s.tick + 1 := by
  rw [trgDue, Bool.and_eq_true, Bool.and_eq_true, bit_iff_rd_one rfl, bne_iff_ne, and_assoc, trgAt]

/-- The fields of a slot's control word lie apart, and from those of the word the ARM bit takes nothing. -/
theorem tgt_apart_arm (n : Nat) : (F.TIME_TRGTGT n).Apart (F.TIME_TRGARM n) := .inr (by simp [F.TIME_TRGTGT, F.TIME_TRGARM])

theorem tgt_apart_arg (n : Nat) : (F.TIME_TRGTGT n).Apart (F.TIME_TRGARG n) := .inr (by simp [F.TIME_TRGTGT, F.TIME_TRGARG])

theorem tgt_of_put_arm (n : Nat) (v : Word) : (F.TIME_TRGTGT n).of ((F.TIME_TRGARM n).put v 1) = (F.TIME_TRGTGT n).of v :=
  Fld.of_put_beside v 1 (by simp [F.TIME_TRGTGT, F.TIME_TRGARM])

theorem arm_on_put_one (n : Nat) (v : Word) : (F.TIME_TRGARM n).on ((F.TIME_TRGARM n).put v 1) = true :=
  Fld.on_put_one _ v le_rfl (by simp [F.TIME_TRGARM])

/-- The control word of slot `n` set to `v`, armed. -/
def trgSet (s : State) (n : Nat) (v : Word) : State :=
  ((s.wr (F.TIME_TRGTGT n) ((F.TIME_TRGTGT n).of v)).wr (F.TIME_TRGARG n) ((F.TIME_TRGARG n).of v)).wr (F.TIME_TRGARM n) 1

/-- The tick in which slot `n` may not fire, plus 1; 0 when there is none. -/
def noteArmed (s : State) (n x : Nat) : State := { s with time := { s.time with trgAt := SMap.set (fun _ => 0) s.time.trgAt n x } }

/-- Slot `n` armed by the word `v`; one whose value has already passed does not fire in this tick (R83). -/
def trgArmed (s : State) (n : Nat) (v : Word) : State :=
  (s.trgSet n v).noteArmed n (if reached 64 s.now64 (s.trgAt n) then (s.trgSet n v).tick + 1 else 0)

theorem trgWrite_of_armed {n : Nat} (v : Word) (h : s.rd (F.TIME_TRGARM n) = 1) : s.trgWrite n v = (s, .busy) := by
  rw [trgWrite, if_pos (bit_of_rd_one h)]

theorem trgWrite_of_badTarget {n : Nat} {v : Word} (h : s.rd (F.TIME_TRGARM n) = 0)
    (ht : (F.TIME_TRGTGT n).of v = 0 ∨ 3 < (F.TIME_TRGTGT n).of v) : s.trgWrite n ((F.TIME_TRGARM n).put v 1) = (s, .range) := by
  simp [trgWrite, bit_of_rd_zero h, tgt_of_put_arm, arm_on_put_one]
  omega

theorem trgWrite_of_goodTarget {n : Nat} {v : Word} (h : s.rd (F.TIME_TRGARM n) = 0) (hlo : 1 ≤ (F.TIME_TRGTGT n).of v)
    (hhi : (F.TIME_TRGTGT n).of v ≤ 3) :
    s.trgWrite n ((F.TIME_TRGARM n).put v 1) = (s.trgArmed n v, .ok) := by
  have harg : (F.TIME_TRGARG n).of ((F.TIME_TRGARM n).put v 1) = (F.TIME_TRGARG n).of v :=
    Fld.of_put_beside v 1 (by simp [F.TIME_TRGARG, F.TIME_TRGARM])
  have ht : (decide ((F.TIME_TRGTGT n).of v < 1) || decide (3 < (F.TIME_TRGTGT n).of v)) = false := by
    rw [decide_eq_false (by omega), decide_eq_false (by omega), Bool.or_false]
  rw [trgWrite, bit_of_rd_zero h, if_neg (by decide), tgt_of_put_arm, arm_on_put_one, harg]
  simp only [ht, Bool.and_false, Bool.true_and]
  rw [trgArmed, trgAt]
  generalize reached 64 s.now64 _ = late
  rfl

theorem onlyRegs_trgSet (s : State) (n : Nat) (v : Word) : OnlyRegs [0x2168 + 0x10 * n] s (s.trgSet n v) := by
  have hmem : 0x2168 + 0x10 * n ∈ [0x2168 + 0x10 * n] := List.mem_cons_self
  exact (((OnlyRegs.refl _ s).wr (f := F.TIME_TRGTGT n) _ hmem).wr (f := F.TIME_TRGARG n) _ hmem).wr (f := F.TIME_TRGARM n) 1 hmem

/-- The note of a slot's arming is a matter of the time unit alone. -/
theorem OnlyRegs.noteArmed {l : List Nat} {t : State} (h : OnlyRegs l s t) (n x : Nat) :
    OnlyRegs l { s with time := { s.time with trgAt := (t.noteArmed n x).time.trgAt } } (t.noteArmed n x) := by
  have htime : (t.noteArmed n x).time = { s.time with trgAt := (t.noteArmed n x).time.trgAt } := by
    rw [← h.time_eq]
    rfl
  rw [← htime]
  exact h.setTime _

theorem noteArmed_trgAt (s : State) (n x k : Nat) : (s.noteArmed n x).trgAt k = s.trgAt k := (rfl)

theorem noteArmed_note (s : State) (n x : Nat) : SMap.get (fun _ => 0) (s.noteArmed n x).time.trgAt n = x := SMap.get_set_self _ _ _ _

theorem noteArmed_tick (s : State) (n x : Nat) : (s.noteArmed n x).tick = s.tick := (rfl)

theorem noteArmed_rd (s : State) (n x : Nat) (f : Fld) : (s.noteArmed n x).rd f = s.rd f := (rfl)

theorem now64_noteArmed (s : State) (n x : Nat) : (s.noteArmed n x).now64 = s.now64 := (rfl)

/-- The slots' control words and the notes of their arming leave device time as it is. -/
theorem now64_trgArmed (s : State) {n : Nat} (hn : n < 4) (v : Word) : (s.trgArmed n v).now64 = s.now64 := by
  have honly := s.onlyRegs_trgSet n v
  obtain ⟨hreg, -⟩ := id honly
  have hactive : (s.trgSet n v).rd F.TIME_ACTIVE = s.rd F.TIME_ACTIVE :=
    rd_congr (hreg _ (by simp only [F.TIME_ACTIVE, List.mem_singleton]; omega))
  rw [trgArmed, now64_noteArmed, now64, devTime_congr honly.time_eq hactive, now64]

/-- An armed slot reads back its target, and does not fire in the tick of its arming. -/
theorem rd_arm_trgSet (s : State) (n : Nat) (v : Word) : (s.trgSet n v).rd (F.TIME_TRGARM n) = 1 := by
  rw [trgSet, rd_wr_self _ _ _ le_rfl (by simp [F.TIME_TRGARM])]
  simp [Fld.width, F.TIME_TRGARM]

theorem rd_tgt_trgSet (s : State) (n : Nat) (v : Word) : (s.trgSet n v).rd (F.TIME_TRGTGT n) = (F.TIME_TRGTGT n).of v := by
  rw [trgSet, rd_wr_apart _ _ (tgt_apart_arm n), rd_wr_apart _ _ (tgt_apart_arg n),
    rd_wr_self _ _ _ (by simp [F.TIME_TRGTGT]) (by simp [F.TIME_TRGTGT]), Nat.mod_eq_of_lt (Fld.of_lt _ v)]

theorem trgAt_trgSet (s : State) (n : Nat) (v : Word) : (s.trgSet n v).trgAt n = s.trgAt n := by
  obtain ⟨hreg, -⟩ := s.onlyRegs_trgSet n v
  rw [trgAt, trgAt, rd64, rd64, hreg _ (by simp only [List.mem_singleton]; omega), hreg _ (by simp only [List.mem_singleton]; omega)]

theorem trgDue_trgArmed (s : State) {n : Nat} (hn : n < 4) (v : Word) : (s.trgArmed n v).trgDue n = false := by
  rw [Bool.eq_false_iff, ne_eq, trgDue_iff, now64_trgArmed s hn, trgArmed, noteArmed_trgAt, noteArmed_note, noteArmed_tick,
    trgAt_trgSet]
  rintro ⟨-, hreached, hlate⟩
  rw [if_pos hreached] at hlate
  exact hlate rfl

theorem settle_trgDue (n : Nat) : s.settle.trgDue n = s.trgDue n := (rfl)

theorem trgArmed_outcome (s : State) {n : Nat} (hn : n < 4) (v : Word) :
    let t := (s.trgArmed n v).settle
    t.rd (F.TIME_TRGARM n) = 1 ∧ t.rd (F.TIME_TRGTGT n) = (F.TIME_TRGTGT n).of v ∧ t.trgDue n = false ∧
      OnlyRegs [0x2168 + 0x10 * n] { s with time := { s.time with trgAt := t.time.trgAt } } t := by
  have hdue := s.trgDue_trgArmed hn v
  rw [trgArmed] at hdue ⊢
  generalize (if reached 64 s.now64 (s.trgAt n) then (s.trgSet n v).tick + 1 else 0) = x at hdue ⊢
  refine ⟨?_, ?_, ?_, ?_⟩
  · rw [settle_rd, noteArmed_rd, rd_arm_trgSet]
  · rw [settle_rd, noteArmed_rd, rd_tgt_trgSet]
  · rw [settle_trgDue, hdue]
  · rw [settle_time]
    exact ((s.onlyRegs_trgSet n v).noteArmed n x).settle

/-! Firing. -/

theorem trgOne_of_not_due {n : Nat} (h : s.trgDue n = false) : s.trgOne n = s := by
  simp [trgOne, h]

theorem trgDue_of_unarmed {n : Nat} (h : s.rd (F.TIME_TRGARM n) = 0) : s.trgDue n = false := by
  simp [trgDue, bit_of_rd_zero h]

/-- With no leap and no slot before it armed, nothing comes before a slot in its tick (R69). -/
theorem timeOrder_of_unarmed {n : Nat} (hleap : s.rd F.TIME_LEAPARM = 0) (h : ∀ k, k < n → s.rd (F.TIME_TRGARM k) = 0) :
    s.timeOrder n = s := by
  rw [timeOrder, leapApply_of_not_due (.inl hleap)]
  induction n with
  | zero => rfl
  | succ n ih => rw [each_succ, ih fun k hk => h k (by omega), trgOne_of_not_due (trgDue_of_unarmed (h n (by omega)))]

/-- A due slot is disarmed, and its target takes its argument (R83). -/
theorem trgOne_of_due {n : Nat} (h : s.trgDue n = true) :
    s.trgOne n =
      if s.rd (F.TIME_TRGTGT n) = 1 then (s.wr (F.TIME_TRGARM n) 0).carrierRestart (s.rd (F.TIME_TRGARG n))
      else if s.rd (F.TIME_TRGTGT n) = 2 then (s.wr (F.TIME_TRGARM n) 0).mclkAlign
      else if s.rd (F.TIME_TRGTGT n) = 3 then (s.wr (F.TIME_TRGARM n) 0).activeWrite (s.rd (F.TIME_TRGARG n) % 4)
      else s.wr (F.TIME_TRGARM n) 0 := by
  have htgt : (s.wr (F.TIME_TRGARM n) 0).rd (F.TIME_TRGTGT n) = s.rd (F.TIME_TRGTGT n) := rd_wr_apart s 0 (tgt_apart_arm n)
  have harg : (s.wr (F.TIME_TRGARM n) 0).rd (F.TIME_TRGARG n) = s.rd (F.TIME_TRGARG n) :=
    rd_wr_apart s 0 (.inr (by simp [F.TIME_TRGARG, F.TIME_TRGARM]))
  simp only [trgOne, h, htgt, harg]
  rfl

theorem rd_arm_trgOne {n : Nat} (hn : n < 4) (h : s.trgDue n = true) : (s.trgOne n).rd (F.TIME_TRGARM n) = 0 := by
  have hzero : (s.wr (F.TIME_TRGARM n) 0).rd (F.TIME_TRGARM n) = 0 := by
    rw [rd_wr_self _ _ _ le_rfl (by simp [F.TIME_TRGARM]), Nat.zero_mod]
  have haddr : (F.TIME_TRGARM n).addr < 0x10000 := by simp only [F.TIME_TRGARM]; omega
  rw [trgOne_of_due h]
  split_ifs with hcarrier hclock hactive
  · rw [rd_congr (reg_of_lowRegs (lowRegs_carrierRestart _ _) haddr), hzero]
  · rw [rd_congr (reg_mclkAlign_of_ne _ fun m _ => by omega), hzero]
  · rw [rd_congr (reg_activeWrite _ _ _), hzero]
  · exact hzero

/-- Target 3 asks for a switch of ACTIVE to the low two bits of ARG (log 35). -/
theorem trgOne_active_outcome {n : Nat} (hn : n < 4) (h : s.trgDue n = true) (ht : s.rd (F.TIME_TRGTGT n) = 3) :
    OnlyRegs [0x2168 + 0x10 * n] { s with time := (s.trgOne n).time } (s.trgOne n) ∧
      (s.trgOne n).time.switchTo =
        if s.rd (F.TIME_TRGARG n) % 4 = s.rd F.TIME_ACTIVE then none else some (s.rd (F.TIME_TRGARG n) % 4) := by
  have hactive : (s.wr (F.TIME_TRGARM n) 0).rd F.TIME_ACTIVE = s.rd F.TIME_ACTIVE :=
    rd_wr_ne s _ _ 0 (by simp only [F.TIME_ACTIVE, F.TIME_TRGARM]; omega)
  have heq : s.trgOne n = (s.wr (F.TIME_TRGARM n) 0).activeWrite (s.rd (F.TIME_TRGARG n) % 4) := by
    rw [trgOne_of_due h, ht]
    rfl
  rw [heq]
  refine ⟨?_, by rw [activeWrite, hactive]⟩
  have hwr : OnlyRegs [0x2168 + 0x10 * n] s (s.wr (F.TIME_TRGARM n) 0) := (OnlyRegs.refl _ s).wr (f := F.TIME_TRGARM n) 0 List.mem_cons_self
  exact hwr.setTime _

end State

open State

theorem exec_servoLockWrite {v : Word} {s u : State} (h : s.turn 0x205C v = some u) :
    exec (.servoLockWrite v) s = .next (noteWrite 0x205C (u.servoWrite v)).settle :=
  congrArg Host.Outcome.next (hostWord_of_turn s h)

theorem exec_servoWatchdogExpiry (d : Fin 2) (s : State) : exec (.servoWatchdogExpiry d) s =
    .next (if !s.servoSilent d || !s.rdBit F.TIME_DLOCK d then s else ((s.wr (F.TIME_DLOCK.at d) 0).detect 0x04).holdSync) := (rfl)

theorem exec_txtsFifoPop {v : Word} {s u : State} (h : s.turn 0x20F0 (F.TIME_POP.put v 1) = some u) :
    exec (.txtsFifoPop v) s = .next (noteWrite 0x20F0 (u.txPopWrite (F.TIME_POP.put v 1))).settle :=
  congrArg Host.Outcome.next (hostWord_of_turn s h)

theorem exec_ppsInEdge (f : Bool) (k : Fin 16) (s : State) : exec (.ppsInEdge f k) s = .next (s.ppsIn f k) := (rfl)

theorem exec_ppsOutPulse (s : State) : exec .ppsOutPulse s = .next s.ppsPulse := (rfl)

theorem exec_ppsOutPulseEnd (s : State) : exec .ppsOutPulseEnd s =
    .next (if s.time.ppsEnd ≤ s.tick then { s with time := { s.time with ppsOut := false } } else s) := (rfl)

theorem exec_triggerSlotArm {n : Fin 4} {v : Word} {s u : State} (h : s.turn (0x2168 + 0x10 * n) ((F.TIME_TRGARM n).put v 1) = some u) :
    exec (.triggerSlotArm n v) s = .next (noteWrite (0x2168 + 0x10 * n) (u.trgWrite n ((F.TIME_TRGARM n).put v 1))).settle :=
  congrArg Host.Outcome.next (hostWord_of_turn s h)

theorem exec_triggerSlotFire (n : Fin 4) (s : State) : exec (.triggerSlotFire n) s = .next ((s.timeOrder n).trgOne n) := (rfl)

/-- Settles O19: the servo's word by `servoWrite_outcome`, a POP by `txLoad_outcome`, an edge of PPS_IN by `ppsCounted_outcome`, and a slot
by `trgArmed_outcome` and `rd_arm_trgOne`. That an ignored edge starts no 100 ms and that target 3 takes ARG modulo 4 are the model's
choices (log 35). -/
theorem servoTriggersAndPulses : Obligations.ServoTriggersAndPulses := by
  refine ⟨?lock, ?lapse, ?noLapse, ?pop, ?popEmpty, ?edge, ?ignored, ?pulse, ?pulseEnd, ?arm, ?due, ?fire⟩
  case lock =>
    intro v s u hturn
    rw [exec_servoLockWrite hturn, servoWrite_eq, noteWrite_ok]
    exact ⟨_, rfl, servoWrite_outcome u v⟩
  case lapse =>
    intro d s hwdt hsilent hlock
    rw [exec_servoWatchdogExpiry, (servoSilent_iff s d).mpr ⟨hwdt, hsilent⟩, hlock]
    rfl
  case noLapse =>
    intro d s h
    have hstay : ¬ (s.servoSilent d = true ∧ s.rdBit F.TIME_DLOCK d = true) := by
      rw [servoSilent_iff]
      rintro ⟨⟨hwdt, hsilent⟩, hlock⟩
      rcases h with h | h | h
      · exact hwdt h
      · exact absurd hlock (by simp [h])
      · omega
    rw [exec_servoWatchdogExpiry, if_pos (by simpa [Bool.and_eq_true, imp_iff_not_or] using hstay)]
  case pop =>
    intro v s u x l hturn hport hfifo
    have hcons : u.txFifo (F.TIME_TXPORT.of v) = x :: l := by rw [hport]; exact hfifo
    obtain ⟨hvalid, hseq, hns, htime, hmem⟩ := txLoad_outcome ((u.wr F.TIME_TXPORT 0).setTxFifo 0 l) x
    rw [exec_txtsFifoPop hturn, txPopWrite_of_cons hcons, noteWrite_ok, hport]
    refine ⟨_, rfl, ?_, ?_, ?_, ?_, ?_⟩
    · rw [settle_time, htime]
      rfl
    · rw [settle_rd, hvalid]
    · rw [settle_rd, hseq]
    · rw [settle_rd, hns]
    · rw [settle_mem, hmem]
      rfl
  case popEmpty =>
    intro v s u hturn hport hfifo
    have hempty : u.txFifo (F.TIME_TXPORT.of v) = [] := by rw [hport]; exact hfifo
    rw [exec_txtsFifoPop hturn, txPopWrite_of_empty hempty, noteWrite_ok]
    refine ⟨_, rfl, ?_, (((OnlyRegs.refl _ u).wr _ (by decide)).wr _ (by decide)).settle⟩
    rw [settle_rd, rd_wr_self _ _ _ (by decide) (by decide), Nat.zero_mod]
  case edge =>
    intro f k s hen hedge hfar
    rw [exec_ppsInEdge, ppsIn_of_enabled k hen hedge hfar]
    exact ⟨_, rfl, ppsCounted_outcome s k⟩
  case ignored =>
    intro f k s h
    rw [exec_ppsInEdge, ppsIn_ignored k h]
  case pulse =>
    intro s
    rw [exec_ppsOutPulse]
    exact ⟨fun hen hup hdue => by rw [ppsPulse_of_due hen hup hdue], fun h => by rw [ppsPulse_of_not_due h]⟩
  case pulseEnd =>
    intro s
    rw [exec_ppsOutPulseEnd]
    exact ⟨fun h => by rw [if_pos h], fun h => by rw [if_neg (not_le.mpr h)]⟩
  case arm =>
    intro n v s u hturn
    rw [exec_triggerSlotArm hturn]
    refine ⟨fun h => ?_, fun h ht => ?_, fun h hlo hhi => ?_⟩
    · rw [trgWrite_of_armed _ h]
    · rw [trgWrite_of_badTarget h ht]
    · rw [trgWrite_of_goodTarget h hlo hhi, noteWrite_ok]
      exact ⟨_, rfl, trgArmed_outcome u n.isLt v⟩
  case due =>
    intro n s
    exact trgDue_iff s n
  case fire =>
    intro n s hleap hbefore
    rw [exec_triggerSlotFire, timeOrder_of_unarmed hleap hbefore]
    refine ⟨fun h => by rw [trgOne_of_not_due h], fun h => ⟨_, rfl, rd_arm_trgOne n.isLt h, trgOne_active_outcome n.isLt h⟩⟩

end Sys2Proof.Machine
end

section
/-! SUPPORT. The state right after reset (R84, R85, R455), and the selection of the boot header (R88): the statements `ResetMeetsInvariants`
and `HeaderSelection`. -/

namespace Sys2Proof

/-- The signed difference of a quantity and itself is zero (R67). -/
theorem sdiff_self (w x : Nat) : sdiff w x x = 0 := by
  have hpow : 0 < 2 ^ (w - 1) := by positivity
  have hspan : x % 2 ^ w + 2 ^ w - x % 2 ^ w = 2 ^ w := by omega
  simp [sdiff, sgn, hspan, hpow]

namespace Machine

open State

/-- Right after reset every register reads its reset value. -/
theorem reg_reset (a : Nat) : State.reset.reg a = RegMap.resetOf a := (rfl)

/-- Settles O7: nothing waits and no register is listed in the state right after reset. -/
theorem resetMeetsInvariants : Obligations.ResetMeetsInvariants := by
  refine ⟨Nat.zero_le _, Nat.zero_le _, reset_wf, ?fuses, rfl, rfl, rfl, rfl, ?mode, ?rung, rfl, reg_reset⟩
  case fuses => exact fun k v h => absurd h (by simp [State.reset])
  case mode =>
    rw [modeNow, rd, reg_reset]
    decide +kernel
  case rung =>
    rw [rung, rd, reg_reset]
    decide +kernel

/-- A header is valid when its constants and its check sum are right (R88, R89). -/
theorem hdrOk_iff (a : List Byte) : hdrOk a = true ↔ (120 ≤ a.length ∧ hdrAt a 0 4 = 0x424B4E56 ∧ hdrAt a 4 2 = 1 ∧ hdrAt a 6 2 = 0x78 ∧
    hdrAt a 0x74 4 = crc32 (a.take 0x74)) := by
  simp [hdrOk, and_assoc]

/-- Of two valid headers the first one tried. -/
theorem head_hdrOrder {a b : List Byte} (ha : hdrOk a = true) (hb : hdrOk b = true) :
    (hdrOrder a b).head? = some (if 0 < sdiff 32 (hdrSeq b) (hdrSeq a) then (true, b) else (false, a)) := by
  by_cases hseq : hdrSeq a = hdrSeq b
  · simp [hdrOrder, ha, hb, hseq, sdiff_self]
  · by_cases hgt : 0 < sdiff 32 (hdrSeq b) (hdrSeq a) <;> simp [hdrOrder, ha, hb, hseq, hgt]

/-- Without a valid copy there is no header to try. -/
theorem hdrOrder_of_none {a b : List Byte} (ha : hdrOk a = false) (hb : hdrOk b = false) : hdrOrder a b = [] := by
  simp [hdrOrder, ha, hb]

/-- Settles O11: two valid headers go by `head_hdrOrder`, and one that is not valid is never tried. -/
theorem headerSelection : Obligations.HeaderSelection := by
  refine ⟨fun a b ha hb => head_hdrOrder ha hb, ?onlyA, ?onlyB, fun a b ha hb => hdrOrder_of_none ha hb, hdrOk_iff⟩
  case onlyA =>
    intro a b ha hb
    simp [hdrOrder, ha, hb]
  case onlyB =>
    intro a b ha hb
    simp [hdrOrder, ha, hb]

end Machine
end Sys2Proof
end

section
/-! SUPPORT. A write of SYS.RUNG (R96, R99, R101, R433): the statement `RungRequestOutcomes`. -/

namespace Sys2Proof.Machine
namespace State

variable {s t : State}

/-! An ascent that begins (R99, R100). -/

/-- A wake word cleared and set at one bit holds that bit alone. -/
theorem rd_wakeSrc_recorded (s : State) {b : Nat} (hb : b < 8) : ((s.wr wakeSrc 0).latch (wakeSrc.at b)).rd wakeSrc = 2 ^ b := by
  have hcleared := wordPut_toNat (s.reg 0x10C) (hi := 7) (lo := 0) 0 (by decide) (by decide)
  have hset := wordPut_toNat (wordPut (s.reg 0x10C) 7 0 0) (hi := b) (lo := b) 1 le_rfl (by omega)
  rw [hcleared] at hset
  have hword : ((s.wr wakeSrc 0).latch (wakeSrc.at b)).reg 0x10C = wordPut (wordPut (s.reg 0x10C) 7 0 0) b b 1 := by
    simp [wr, wakeSrc, Fld.at, Fld.width]
  change wordGet (((s.wr wakeSrc 0).latch (wakeSrc.at b)).reg 0x10C) 7 0 = _
  rw [hword, wordGet, hset]
  interval_cases b <;> omega

/-- With no ascent under way, source `b` begins one. -/
theorem ascend_of_none {b : Nat} (h : s.boot.ascend = none) :
    s.ascend b = (({ s with boot := { s.boot with ascend := some s.tick } }.wr wakeSrc 0).latch (wakeSrc.at b)).wr F.SYS_RUNGMOVING 1 := by
  simp [ascend, h]

/-- The ascent recorded in WAKESRC and begun in this tick; the rung stands until it ends. -/
theorem ascend_outcome {b : Nat} (hb : b < 8) (h : s.boot.ascend = none) :
    (s.ascend b).rd wakeSrc = 2 ^ b ∧ (s.ascend b).rd F.SYS_RUNGMOVING = 1 ∧ (s.ascend b).boot.ascend = some s.tick ∧
      (s.ascend b).rung = s.rung ∧ OnlyRegs [0x104, 0x10C] { s with boot := (s.ascend b).boot } (s.ascend b) := by
  rw [ascend_of_none h]
  refine ⟨?_, ?_, rfl, ?_, (((OnlyRegs.refl _ _).wr _ (by decide)).latch (by simp [wakeSrc, Fld.at])).wr _ (by decide)⟩
  · rw [rd_wr_apart _ _ (by decide)]
    exact rd_wakeSrc_recorded _ hb
  · rw [rd_wr_self _ _ _ (by decide) (by decide)]
    decide
  · rw [rung, rd_wr_apart _ _ (by decide), rd_latch,
      rd_wr_ne _ (wakeSrc.at b) _ _ (by exact (by decide : (0x104 : Nat) ≠ 0x10C)), rd_wr_ne _ _ _ _ (by decide)]
    rfl

/-! A word of SYS.RUNG (R96). -/

theorem OnlyRegs.mono {l l' : List Nat} (h : OnlyRegs l s t) (hl : ∀ a ∈ l, a ∈ l') : OnlyRegs l' s t := by
  obtain ⟨hreg, hrest⟩ := h
  exact ⟨fun a ha => hreg a fun hmem => ha (hl a hmem), hrest⟩

/-- A word completes in RUN, EVE or VIGIL alone (R125). -/
theorem rung_of_turn {a : Nat} {v : Word} {u : State} (h : s.turn a v = some u) : u.rung < 3 := by
  have hup : s.rung < 3 := by
    by_contra hlow
    simp [turn, hostUp, hlow] at h
  have hrung : u.rung = s.rung := by
    unfold turn at h
    split at h
    · simp at h
    · split at h
      · rw [← Option.some.inj h]
        rfl
      · split at h
        · simp at h
        · rw [Option.some.inj h]
  rwa [hrung]

/-- The order of the reasons of R96, as the fields show them. -/
theorem rungReason_eq (s : State) (r : Nat) : s.rungReason r =
    if s.modeNow ≠ 0 ∧ s.modeNow ≠ 2 ∧ s.modeNow ≠ 7 then 1
    else if s.rd F.BOOT_DONE = 0 ∨ s.rd F.BOOT_DLGO = 1 then 2
    else if ((List.range 8).any fun b => wakeUsable r b && s.bit (wakeEn.at b)) = false then 3
    else if s.rd F.TIME_LEAPPEND = 1 ∨ s.rd F.CLK_UPDGO = 1 ∨ s.jrnl.queue ≠ [] ∨ s.rd F.KEEP_CKBUSY = 1 ∨ s.rd F.SYS_RUNGMOVING = 1 ∨
      s.boot.descWait.isSome then 4
    else 0 := by
  have hdone : s.bit F.BOOT_DONE = false ↔ s.rd F.BOOT_DONE = 0 := by simp [bit]
  have hqueue : s.jrnlDepth ≠ 0 ↔ s.jrnl.queue ≠ [] := by simp [jrnlDepth]
  simp only [rungReason, Bool.and_eq_true, Bool.or_eq_true, bne_iff_ne, Bool.not_eq_true', hdone, hqueue, and_assoc, or_assoc,
    bit_iff_rd_one (s := s) (f := F.BOOT_DLGO) rfl, bit_iff_rd_one (s := s) (f := F.TIME_LEAPPEND) rfl,
    bit_iff_rd_one (s := s) (f := F.CLK_UPDGO) rfl, bit_iff_rd_one (s := s) (f := F.KEEP_CKBUSY) rfl,
    bit_iff_rd_one (s := s) (f := F.SYS_RUNGMOVING) rfl]

section
variable {v : Word}

theorem rungWrite_of_high (h : 4 < F.SYS_RUNGREQ.of v) : s.rungWrite v = (s, .range) := if_pos h

theorem rungWrite_of_same (h : F.SYS_RUNGREQ.of v = s.rung) (hr : s.rung < 3) : s.rungWrite v = (s, .ok) := by
  have hlow : ¬ 4 < s.rung := by omega
  simp [rungWrite, h, hlow]

theorem rungWrite_of_shallower (h : F.SYS_RUNGREQ.of v < s.rung) (hr : s.rung < 3) :
    s.rungWrite v = ((s.ascend 3).wr F.SYS_RUNGREQ 0, .ok) := by
  have hlow : ¬ 4 < F.SYS_RUNGREQ.of v := by omega
  have hrun : s.rung ≤ 2 := by omega
  simp [rungWrite, h, h.ne, hlow, hrun]

/-- A deeper rung is refused with the reason there is. -/
theorem rungWrite_of_refused {x : Nat} (h : s.rung < F.SYS_RUNGREQ.of v) (hr : F.SYS_RUNGREQ.of v ≤ 4)
    (hreason : s.rungReason (F.SYS_RUNGREQ.of v) = x) (hx : x ≠ 0) : s.rungWrite v = (s.wr F.SYS_RUNGREF x, .ok) := by
  have hhigh : ¬ 4 < F.SYS_RUNGREQ.of v := by omega
  have hup : ¬ F.SYS_RUNGREQ.of v < s.rung := by omega
  simp [rungWrite, hhigh, hup, h.ne', hreason, hx]

/-- A deeper rung without a reason to refuse it waits for a fuse operation, or its descent begins (R433). -/
theorem rungWrite_of_granted (h : s.rung < F.SYS_RUNGREQ.of v) (hr : F.SYS_RUNGREQ.of v ≤ 4) (hreason : s.rungReason (F.SYS_RUNGREQ.of v) = 0) :
    s.rungWrite v = (if s.rd F.SEC_FBUSY = 1 then
        { s.wr F.SYS_RUNGREQ (F.SYS_RUNGREQ.of v) with boot := { s.boot with descWait := some (F.SYS_RUNGREQ.of v) } }
      else (s.wr F.SYS_RUNGREQ (F.SYS_RUNGREQ.of v)).descBegin (F.SYS_RUNGREQ.of v), .ok) := by
  have hbusy : (s.wr F.SYS_RUNGREQ (F.SYS_RUNGREQ.of v)).bit F.SEC_FBUSY = true ↔ s.rd F.SEC_FBUSY = 1 := by
    rw [bit_iff_rd_one rfl, rd_wr_ne _ _ _ _ (by decide)]
  have hhigh : ¬ 4 < F.SYS_RUNGREQ.of v := by omega
  have hup : ¬ F.SYS_RUNGREQ.of v < s.rung := by omega
  simp [rungWrite, hhigh, hup, h.ne', hreason, hbusy]

end

/-- An ascent that the host asks for: REQ reads 0 again. -/
theorem hostAscent_outcome (h : s.boot.ascend = none) :
    let t := ((s.ascend 3).wr F.SYS_RUNGREQ 0).settle
    t.rd wakeSrc = 8 ∧ t.rd F.SYS_RUNGMOVING = 1 ∧ t.rd F.SYS_RUNGREQ = 0 ∧ t.boot.ascend = some s.tick ∧ t.rung = s.rung ∧
      OnlyRegs [0x100, 0x104, 0x10C] { s with boot := t.boot } t := by
  obtain ⟨hsrc, hmoving, hascend, hrung, honly⟩ := ascend_outcome (b := 3) (by decide) h
  refine ⟨?_, ?_, ?_, hascend, ?_, ((honly.mono (by decide)).wr _ (by decide)).settle⟩
  · rwa [settle_rd, rd_wr_ne _ _ _ _ (by decide)]
  · rwa [settle_rd, rd_wr_ne _ _ _ _ (by decide)]
  · rw [settle_rd, rd_wr_self _ _ _ (by decide) (by decide), Nat.zero_mod]
  · rw [rung, settle_rd, rd_wr_ne _ _ _ _ (by decide)]
    exact hrung

/-- A refused descent shows its reason, and nothing else changes. -/
theorem descentRefused_outcome (s : State) {x : Nat} (hx : x < 16) :
    (s.wr F.SYS_RUNGREF x).settle.rd F.SYS_RUNGREF = x ∧ OnlyRegs [0x104] s (s.wr F.SYS_RUNGREF x).settle := by
  refine ⟨?_, ((OnlyRegs.refl _ s).wr _ (by decide)).settle⟩
  rw [settle_rd, rd_wr_self _ _ _ (by decide) (by decide)]
  exact Nat.mod_eq_of_lt hx

/-! The converters' sequences stop (R162). -/

/-- Converter `c` holds its place in the entry that its sequence has reached. -/
def padcHold (s : State) (c : Nat) : State :=
  s.setConv c { s.conv c with
    resume := s.bit (F.PADC_CONT c)
    acc := SMap.set (fun _ => {}) (s.conv c).acc (s.rd (F.PADC_CUR c)) (s.conv c).start }

/-- The stop of a converter `c` that is not calibrating. -/
def padcEnd (s : State) (c : Nat) : State :=
  if s.bit (F.PADC_RUN c) then ((s.padcHold c).wr (F.PADC_RUN c) 0).sat (F.PADC_ABANCNT c) else s

theorem padcAbandon_eq (s : State) :
    s.padcAbandon = (((s.wr (F.PADC_CALBUSY 0) 0).padcEnd 0).wr (F.PADC_CALBUSY 1) 0).padcEnd 1 := (rfl)

theorem reg_padcHold (s : State) (c a : Nat) : (s.padcHold c).reg a = s.reg a := (rfl)

theorem reg_padcEnd_of_ne (s : State) {c a : Nat} (h : a ≠ (F.PADC_RUN c).addr) : (s.padcEnd c).reg a = s.reg a := by
  have hcount : a ≠ (F.PADC_ABANCNT c).addr := by simpa only [F.PADC_ABANCNT, F.PADC_RUN] using h
  by_cases hrun : s.bit (F.PADC_RUN c) = true
  · rw [padcEnd, if_pos hrun, sat, reg_wr_ne _ _ _ hcount, reg_wr_ne _ _ _ h, reg_padcHold]
  · rw [padcEnd, if_neg hrun]

theorem rd_run_padcEnd (s : State) (c : Nat) : (s.padcEnd c).rd (F.PADC_RUN c) = 0 := by
  by_cases hrun : s.bit (F.PADC_RUN c) = true
  · have hcount : (F.PADC_RUN c).Apart (F.PADC_ABANCNT c) := .inr (by simp [F.PADC_RUN, F.PADC_ABANCNT])
    rw [padcEnd, if_pos hrun, sat, rd_wr_apart _ _ hcount, rd_wr_self _ _ _ le_rfl (by simp [F.PADC_RUN]), Nat.zero_mod]
  · rw [padcEnd, if_neg hrun]
    simpa [bit] using hrun

/-- The parts of the state that the converters' stop leaves alone; the others are blank. -/
def besidePadc (s : State) : State := { s with regs := [], padc := [] }

theorem besidePadc_wr (s : State) (f : Fld) (v : Nat) : besidePadc (s.wr f v) = besidePadc s := (rfl)

theorem besidePadc_padcHold (s : State) (c : Nat) : besidePadc (s.padcHold c) = besidePadc s := (rfl)

theorem besidePadc_padcEnd (s : State) (c : Nat) : besidePadc (s.padcEnd c) = besidePadc s := by
  by_cases hrun : s.bit (F.PADC_RUN c) = true
  · rw [padcEnd, if_pos hrun, sat, besidePadc_wr, besidePadc_wr, besidePadc_padcHold]
  · rw [padcEnd, if_neg hrun]

theorem besidePadc_padcAbandon (s : State) : besidePadc s.padcAbandon = besidePadc s := by
  rw [padcAbandon_eq, besidePadc_padcEnd, besidePadc_wr, besidePadc_padcEnd, besidePadc_wr]

theorem reg_padcAbandon_of_ne (s : State) {a : Nat} (h0 : a ≠ 0x41104) (h1 : a ≠ 0x41504) : s.padcAbandon.reg a = s.reg a := by
  rw [padcAbandon_eq, reg_padcEnd_of_ne _ h1, reg_wr_ne _ _ _ h1, reg_padcEnd_of_ne _ h0, reg_wr_ne _ _ _ h0]

theorem rd_run_padcAbandon (s : State) {c : Nat} (hc : c < 2) : s.padcAbandon.rd (F.PADC_RUN c) = 0 := by
  rw [padcAbandon_eq]
  interval_cases c
  · rw [rd_congr (reg_padcEnd_of_ne _ (by decide)), rd_wr_ne _ _ _ _ (by decide), rd_run_padcEnd]
  · rw [rd_run_padcEnd]

/-! A descent that begins (R96, R97). -/

/-- The state in which a descent to rung `r` has begun, before the converters stop. -/
def descMoving (s : State) (r : Nat) : State :=
  ({ s with boot := { s.boot with descend := some r, descWait := none } }.wr F.SYS_RUNGREQ r).wr F.SYS_RUNGMOVING 1

theorem descBegin_eq (s : State) (r : Nat) :
    (s.wr F.SYS_RUNGREQ r).descBegin r = if 2 ≤ r then (s.descMoving r).padcAbandon else s.descMoving r := (rfl)

/-- A rung fits the field. -/
theorem rung_mod_width {r : Nat} (hr : r ≤ 4) : r % 2 ^ F.SYS_RUNGREQ.width = r :=
  Nat.mod_eq_of_lt (by simp [Fld.width, F.SYS_RUNGREQ]; omega)

/-- The registers of a descent that has begun. -/
theorem descMoving_outcome (s : State) {r : Nat} (hr : r ≤ 4) :
    (s.descMoving r).rd F.SYS_RUNGREQ = r ∧ (s.descMoving r).rd F.SYS_RUNGMOVING = 1 ∧ (s.descMoving r).boot.descend = some r ∧
      OnlyRegs [0x100, 0x104] { s with boot := (s.descMoving r).boot } (s.descMoving r) := by
  refine ⟨?_, ?_, rfl, ((OnlyRegs.refl _ _).wr _ (by decide)).wr _ (by decide)⟩
  · rw [descMoving, rd_wr_ne _ _ _ _ (by decide), rd_wr_self _ _ _ (by decide) (by decide), rung_mod_width hr]
  · rw [descMoving, rd_wr_self _ _ _ (by decide) (by decide)]
    decide

/-- A descent to EVE stops no converter. -/
theorem descBegun_shallow (s : State) :
    let t := ((s.wr F.SYS_RUNGREQ 1).descBegin 1).settle
    t.rd F.SYS_RUNGREQ = 1 ∧ t.rd F.SYS_RUNGMOVING = 1 ∧ t.boot.descend = some 1 ∧ OnlyRegs [0x100, 0x104] { s with boot := t.boot } t := by
  obtain ⟨hreq, hmoving, hdescend, honly⟩ := s.descMoving_outcome (r := 1) (by decide)
  rw [descBegin_eq, if_neg (by decide)]
  exact ⟨hreq, hmoving, hdescend, honly.settle⟩

/-- A descent to VIGIL or deeper stops the converters. -/
theorem descBegun_deep (s : State) {r : Nat} (hdeep : 2 ≤ r) (hr : r ≤ 4) :
    let t := ((s.wr F.SYS_RUNGREQ r).descBegin r).settle
    t.rd F.SYS_RUNGREQ = r ∧ t.rd F.SYS_RUNGMOVING = 1 ∧ t.boot.descend = some r ∧ (∀ c, c < 2 → t.rd (F.PADC_RUN c) = 0) ∧
      RestKept [0x100, 0x104, 0x41104, 0x41504, (F.PADC_ABANCNT 0).addr, (F.PADC_ABANCNT 1).addr] s t := by
  obtain ⟨hreq, hmoving, hdescend, honly⟩ := s.descMoving_outcome hr
  have hbeside := besidePadc_padcAbandon (s.descMoving r)
  have hreg {a : Nat} := (s.descMoving r).reg_padcAbandon_of_ne (a := a)
  have hboot : (s.descMoving r).padcAbandon.boot = (s.descMoving r).boot := (congrArg State.boot hbeside :)
  have hmem : (s.descMoving r).padcAbandon.mem = s.mem := (congrArg State.mem hbeside :)
  rw [descBegin_eq, if_pos hdeep]
  refine ⟨?_, ?_, (congrArg BootM.descend hboot).trans hdescend, fun c hc => rd_run_padcAbandon _ hc, fun a ha => ?_, hmem⟩
  · rwa [settle_rd, rd_congr (hreg (by decide) (by decide))]
  · rwa [settle_rd, rd_congr (hreg (by decide) (by decide))]
  · simp only [List.mem_cons, not_or] at ha
    obtain ⟨ha100, ha104, hadc0, hadc1, -⟩ := ha
    rw [settle_reg, hreg hadc0 hadc1]
    exact honly.1 a (by simp [ha100, ha104])

theorem descBegun_outcome (s : State) {r : Nat} (hpos : 0 < r) (hr : r ≤ 4) :
    let t := ((s.wr F.SYS_RUNGREQ r).descBegin r).settle
    t.rd F.SYS_RUNGREQ = r ∧ t.rd F.SYS_RUNGMOVING = 1 ∧ t.boot.descend = some r ∧
      (r = 1 → OnlyRegs [0x100, 0x104] { s with boot := t.boot } t) ∧
      (2 ≤ r → (∀ c, c < 2 → t.rd (F.PADC_RUN c) = 0) ∧
        RestKept [0x100, 0x104, 0x41104, 0x41504, (F.PADC_ABANCNT 0).addr, (F.PADC_ABANCNT 1).addr] s t) := by
  rcases Nat.lt_or_ge r 2 with hone | hdeep
  · obtain rfl : r = 1 := by omega
    obtain ⟨hreq, hmoving, hdescend, honly⟩ := s.descBegun_shallow
    exact ⟨hreq, hmoving, hdescend, fun _ => honly, fun h => absurd h (by decide)⟩
  · obtain ⟨hreq, hmoving, hdescend, hstopped⟩ := s.descBegun_deep hdeep hr
    exact ⟨hreq, hmoving, hdescend, fun h => by omega, fun _ => hstopped⟩

/-- The state in which a descent to rung `r` waits for the end of a fuse operation. -/
def descWaiting (s : State) (r : Nat) : State := { s with boot := { s.boot with descWait := some r } }.wr F.SYS_RUNGREQ r

theorem descWaiting_eq (s : State) (r : Nat) :
    { s.wr F.SYS_RUNGREQ r with boot := { s.boot with descWait := some r } } = s.descWaiting r := (rfl)

/-- A descent that waits for a fuse operation stands in REQ. -/
theorem descentWaits_outcome (s : State) {r : Nat} (hr : r ≤ 4) :
    let t := ({ s.wr F.SYS_RUNGREQ r with boot := { s.boot with descWait := some r } }).settle
    t.rd F.SYS_RUNGREQ = r ∧ t.boot.descWait = some r ∧ OnlyRegs [0x100] { s with boot := t.boot } t := by
  rw [descWaiting_eq]
  refine ⟨?_, rfl, ((OnlyRegs.refl _ _).wr _ (by decide)).settle⟩
  rw [settle_rd, descWaiting, rd_wr_self _ _ _ (by decide) (by decide), rung_mod_width hr]

end State

open State

theorem exec_rungRequest {v : Word} {s u : State} (h : s.turn 0x100 v = some u) :
    exec (.rungRequest v) s = .next (noteWrite 0x100 (u.rungWrite v)).settle :=
  congrArg Host.Outcome.next (hostWord_of_turn s h)

theorem exec_rungRequest_refused {v : Word} {s u : State} {x : Nat} (hturn : s.turn 0x100 v = some u) (h : u.rung < F.SYS_RUNGREQ.of v)
    (hle : F.SYS_RUNGREQ.of v ≤ 4) (hreason : u.rungReason (F.SYS_RUNGREQ.of v) = x) (hpos : x ≠ 0) (hx : x < 16) :
    ∃ t, exec (.rungRequest v) s = .next t ∧ t.rd F.SYS_RUNGREF = x ∧ OnlyRegs [0x104] u t := by
  rw [exec_rungRequest hturn, rungWrite_of_refused h hle hreason hpos, noteWrite_ok]
  exact ⟨_, rfl, descentRefused_outcome u hx⟩

/-- Settles O13: the word goes by how deep the rung it asks for lies; a deeper one by the reasons in the order of `rungReason_eq`. -/
theorem rungRequestOutcomes : Obligations.RungRequestOutcomes := by
  intro v s u hturn
  have hrung := rung_of_turn hturn
  refine ⟨fun h => ?high, fun h => ?same, fun h hidle => ?shallower, fun h hle => ?deeper⟩
  case high => rw [exec_rungRequest hturn, rungWrite_of_high h]
  case same => rw [exec_rungRequest hturn, rungWrite_of_same h hrung, noteWrite_ok]
  case shallower =>
    rw [exec_rungRequest hturn, rungWrite_of_shallower h hrung, noteWrite_ok]
    exact ⟨_, rfl, hostAscent_outcome hidle⟩
  case deeper =>
    have hreason := rungReason_eq u (F.SYS_RUNGREQ.of v)
    split_ifs at hreason ⊢ with hmode hboot hwake hmoving hfuse
    · exact exec_rungRequest_refused hturn h hle hreason (by decide) (by decide)
    · exact exec_rungRequest_refused hturn h hle hreason (by decide) (by decide)
    · exact exec_rungRequest_refused hturn h hle hreason (by decide) (by decide)
    · exact exec_rungRequest_refused hturn h hle hreason (by decide) (by decide)
    · rw [exec_rungRequest hturn, rungWrite_of_granted h hle hreason, if_pos hfuse, noteWrite_ok]
      exact ⟨_, rfl, descentWaits_outcome u hle⟩
    · rw [exec_rungRequest hturn, rungWrite_of_granted h hle hreason, if_neg hfuse, noteWrite_ok]
      exact ⟨_, rfl, descBegun_outcome u (by omega) hle⟩

end Sys2Proof.Machine
end

section
/-! SUPPORT. What the raise of a fault and the operations on memory leave alone of the registers below the keeper's page and of the boot
unit: the layer below the statements on resets, boot and the rungs. -/

namespace Sys2Proof.Machine

/-- A register below the keeper's page that neither a fault nor a wake source writes: all but SYS.MODE, SYS.SUB, SYS.RUNGSTAT, SYS.WAKESRC,
SYS.SEALSTAT and BOOT.STAT. -/
def ladderReg (a : Nat) : Bool := a < 0x4000 && !([0x40, 0x5C, 0x104, 0x10C, 0x1C4, 0x3040].contains a)

/-- The part of the state that the statements on resets, boot and the rungs speak of. In `boot` the ascent counts in RUN with no descent alone,
where no wake source begins one, and the seal word is left out. -/
structure LadderView where
  phase : Phase
  regs : Nat → Word
  mode : Nat
  rung : Nat
  stat : Nat × Nat × Nat
  weak : List Nat
  boot : BootM

namespace State

/-- The boot unit without the seal word and without an ascent that a wake source can begin. -/
def quietBoot (s : State) : BootM :=
  { s.boot with ascend := if s.rung = 0 ∧ s.boot.descend = none then s.boot.ascend else none, sealSt := 0, sealRef := 0 }

/-- DONE, CODE and FAILIDX of BOOT.STAT. -/
def bootStat (s : State) : Nat × Nat × Nat := (s.rd F.BOOT_DONE, s.rd F.BOOT_CODE, s.rd F.BOOT_FAILIDX)

/-- That part of the state `s`. -/
def ladderView (s : State) : LadderView :=
  ⟨s.phase, fun a => if ladderReg a = true then s.reg a else 0, s.modeNow, s.rung, s.bootStat, s.ecc.weak, s.quietBoot⟩

variable (s : State)

/-- An update of other parts keeps it. -/
@[simp] theorem ladderView_upd (variant : Variant) (hwSet : SMap Word) (mem : List Host.Cell) (chk : SMap Byte) (valid : SMap Bool)
    (clk : ClkM) (time : TimeM) (keep : KeepM) (sec : SecM) (age : AgeM) (hif : HifM) (alm : AlmM) (leng : LengM) (mtr : MtrM)
    (net : NetM) (flt : SMap FltRec) (jrnl : JrnlM) (mode : ModeM) (safe : SafeM) (legs : SMap LegM) (ids : SMap IdM) (grids : SMap GridM)
    (chs : SMap ChM) (forms : SMap FormM) (dcs : SMap DcM) (isl : IslM) (ride : RideM) (subsSeen : Nat) (syncAt : Option Nat)
    (syncOutAt : Option Nat) (mach : MachM) (mods : SMap ModIn) (blks : SMap ModBlk) (padc : SMap PadcM) (cmps : SMap CmpM)
    (ramps : SMap RampM) (stRun : Option SelfTest) (stWait : List (Nat × Bool)) (trips : SMap TripM) (gdos : SMap GdoM) (free : Nat)
    (tick : Nat) (pending : List Instr) :
    ladderView (State.mk variant s.phase s.tmode s.regs hwSet mem chk valid clk time s.boot keep sec age hif alm leng mtr net flt jrnl
      s.ecc mode safe legs ids grids chs forms dcs isl ride subsSeen syncAt syncOutAt mach mods blks padc cmps ramps stRun stWait trips
      gdos free tick pending) =
      ladderView s := (rfl)

@[simp] theorem ladderView_foldl {α : Type} (l : List α) (f : State → α → State) (h : ∀ s i, ladderView (f s i) = ladderView s) :
    ladderView (l.foldl f s) = ladderView s := foldl_view ladderView l f (fun t x _ => h t x) s

@[simp] theorem ladderView_each (n : Nat) (f : State → Nat → State) (h : ∀ s i, ladderView (f s i) = ladderView s) :
    ladderView (s.each n f) = ladderView s := ladderView_foldl s _ f h

theorem bootStat_congr {s t : State} (h : t.reg 0x3040 = s.reg 0x3040) : t.bootStat = s.bootStat := by
  have hrd {f : Fld} (hf : f.addr = 0x3040) : t.rd f = s.rd f := rd_congr (by rw [hf, h])
  simp only [bootStat, hrd (f := F.BOOT_DONE) rfl, hrd (f := F.BOOT_CODE) rfl, hrd (f := F.BOOT_FAILIDX) rfl]

/-- Two states with the same parts but for a register it leaves out have one view where the fields it holds of them agree. -/
theorem ladderView_setReg_of {a : Nat} (w : Word) (h : ladderReg a = false) (hmode : (s.setReg a w).modeNow = s.modeNow)
    (hrung : (s.setReg a w).rung = s.rung) (hstat : (s.setReg a w).bootStat = s.bootStat) :
    ladderView (s.setReg a w) = ladderView s := by
  have hregs : (fun b => if ladderReg b = true then (s.setReg a w).reg b else 0) = fun b => if ladderReg b = true then s.reg b else 0 := by
    funext b
    by_cases hb : b = a
    · simp [hb, h]
    · rw [reg_setReg_ne s w hb]
  unfold ladderView quietBoot
  rw [hregs, hmode, hrung, hstat]
  rfl

@[simp] theorem ladderView_setReg {a : Nat} (w : Word) (h : 0x4000 ≤ a) : ladderView (s.setReg a w) = ladderView s := by
  have hreg {b : Nat} (hb : b < 0x4000) : (s.setReg a w).reg b = s.reg b := reg_setReg_ne s w (by omega)
  refine ladderView_setReg_of s w ?_ (rd_congr (hreg (by decide))) (rd_congr (hreg (by decide))) (bootStat_congr (hreg (by decide)))
  simp [ladderReg, h]

@[simp] theorem ladderView_wr {f : Fld} (v : Nat) (h : 0x4000 ≤ f.addr) : ladderView (s.wr f v) = ladderView s := ladderView_setReg s _ h
@[simp] theorem ladderView_setBit {f : Fld} (b : Bool) (h : 0x4000 ≤ f.addr) : ladderView (s.setBit f b) = ladderView s := ladderView_wr s _ h
@[simp] theorem ladderView_sat {f : Fld} (h : 0x4000 ≤ f.addr) : ladderView (s.sat f) = ladderView s := ladderView_wr s _ h
@[simp] theorem ladderView_satBy {f : Fld} (k : Nat) (h : 0x4000 ≤ f.addr) : ladderView (s.satBy f k) = ladderView s := ladderView_wr s _ h
@[simp] theorem ladderView_wrap {f : Fld} (h : 0x4000 ≤ f.addr) : ladderView (s.wrap f) = ladderView s := ladderView_wr s _ h
@[simp] theorem ladderView_latch {f : Fld} (h : 0x4000 ≤ f.addr) : ladderView (s.latch f) = ladderView s := ladderView_wr s _ h

/-- A field of a register it leaves out, apart from those that it holds of them. -/
theorem ladderView_wr_apart {f : Fld} (v : Nat) (h : ladderReg f.addr = false) (hmode : F.SYS_MODE.Apart f) (hrung : F.SYS_RUNG.Apart f)
    (hstat : f.addr ≠ 0x3040) : ladderView (s.wr f v) = ladderView s :=
  ladderView_setReg_of s _ h (rd_wr_apart s v hmode) (rd_wr_apart s v hrung) (bootStat_congr (reg_wr_ne s f v hstat.symm))

@[simp] theorem ladderView_wr_subF (c v : Nat) : ladderView (s.wr (subF c) v) = ladderView s :=
  ladderView_wr_apart s v rfl (.inl (by simp [F.SYS_MODE, subF, Pg.SYS])) (.inl (by simp [F.SYS_RUNG, subF, Pg.SYS])) (by simp [subF, Pg.SYS])

@[simp] theorem ladderView_setBit_moving (b : Bool) : ladderView (s.setBit F.SYS_MOVING b) = ladderView s :=
  ladderView_wr_apart s _ rfl (by decide) (by decide) (by decide)

@[simp] theorem ladderView_setBit_flthold (b : Bool) : ladderView (s.setBit F.BOOT_FLTHOLD b) = ladderView s := by
  refine ladderView_setReg_of s _ rfl (rd_wr_apart s _ (f := F.BOOT_FLTHOLD) (by decide)) (rd_wr_apart s _ (f := F.BOOT_FLTHOLD) (by decide)) ?_
  have hrd {f : Fld} (hf : f.Apart F.BOOT_FLTHOLD) : (s.setBit F.BOOT_FLTHOLD b).rd f = s.rd f := rd_wr_apart s _ hf
  exact congrArg₂ Prod.mk (hrd (by decide)) (congrArg₂ Prod.mk (hrd (by decide)) (hrd (by decide)))

@[simp] theorem ladderView_setLeg (n : Nat) (v : LegM) : ladderView (s.setLeg n v) = ladderView s := (rfl)
@[simp] theorem ladderView_setRamp (n : Nat) (v : RampM) : ladderView (s.setRamp n v) = ladderView s := (rfl)
@[simp] theorem ladderView_setCmp (n : Nat) (v : CmpM) : ladderView (s.setCmp n v) = ladderView s := (rfl)
@[simp] theorem ladderView_setTrip (n : Nat) (v : TripM) : ladderView (s.setTrip n v) = ladderView s := (rfl)
@[simp] theorem ladderView_setGdo (k : Nat) (g : GdoM) : ladderView (s.setGdo k g) = ladderView s := (rfl)
@[simp] theorem ladderView_setFltRec (n : Nat) (v : FltRec) : ladderView (s.setFltRec n v) = ladderView s := (rfl)

/-! A wake source (R99). -/

/-- Latching a bit of SYS.WAKESRC changes nothing of it. -/
theorem ladderView_latch_wakeSrc (b : Nat) : ladderView (s.latch (wakeSrc.at b)) = ladderView s :=
  ladderView_wr_apart s _ rfl (.inl (by simp [F.SYS_MODE, wakeSrc, Fld.at])) (.inl (by simp [F.SYS_RUNG, wakeSrc, Fld.at]))
    (by simp [wakeSrc, Fld.at])

/-- Outside RUN, or while a descent runs, an ascent that begins changes nothing of it. -/
theorem ladderView_ascend (b : Nat) (h : ¬(s.rung = 0 ∧ s.boot.descend = none)) : ladderView (s.ascend b) = ladderView s := by
  rcases hascend : s.boot.ascend with _ | t
  · rw [ascend_of_none hascend]
    have hmoving := ladderView_wr_apart (((({ s with boot := { s.boot with ascend := some s.tick } } : State).wr wakeSrc 0).latch (wakeSrc.at b)))
      (f := F.SYS_RUNGMOVING) 1 rfl (by decide) (by decide) (by decide)
    have hcleared := ladderView_wr_apart { s with boot := { s.boot with ascend := some s.tick } } (f := wakeSrc) 0 rfl
      (.inl (by decide)) (.inl (by decide)) (by decide)
    rw [hmoving, ladderView_latch_wakeSrc, hcleared]
    have hquiet : quietBoot { s with boot := { s.boot with ascend := some s.tick } } = quietBoot s := by
      unfold quietBoot
      rw [if_neg h]
      exact congrArg (fun x => ({ s.boot with ascend := x, sealSt := 0, sealRef := 0 } : BootM)) (if_neg h)
    unfold ladderView
    rw [hquiet]
    rfl
  · simp only [ascend, hascend]
    split
    · exact ladderView_latch_wakeSrc s b
    · rfl

/-- In RUN no source serves (R99). -/
theorem wakeUsable_run (b : Nat) : wakeUsable 0 b = false := by
  unfold wakeUsable
  split_ifs <;> simp

@[simp] theorem ladderView_wake (b : Nat) : ladderView (s.wake b) = ladderView s := by
  unfold wake
  split
  case isTrue h =>
    refine ladderView_ascend s b fun ⟨hrung, hdescend⟩ => ?_
    simp [hdescend, hrung, wakeUsable_run] at h
  case isFalse => rfl

/-! The parts of a raise, in the order of their definitions. -/

@[simp] theorem ladderView_iraw {pg : Nat} (b : Nat) (v : Bool) (h : 0x4000 ≤ pg) : ladderView (s.iraw pg b v) = ladderView s := by
  have hraw : 0x4000 ≤ ((F.IRAW pg).at b).addr := Nat.le_add_right_of_le h
  have hflg : 0x4000 ≤ ((F.IFLG pg).at b).addr := Nat.le_add_right_of_le h
  simp [iraw, apply_ite ladderView, hraw, hflg]

@[simp] theorem ladderView_ipulse {pg : Nat} (b : Nat) (h : 0x4000 ≤ pg) : ladderView (s.ipulse pg b) = ladderView s := by
  simp [ipulse, h]

@[simp] theorem ladderView_jrnlPush (r : JRec) : ladderView (s.jrnlPush r) = ladderView s := by
  simp [jrnlPush, apply_ite ladderView, F.JRNL_NEXTSEQ, F.JRNL_QDEPTH, F.JRNL_DROPCNT, Pg.JRNL]

@[simp] theorem ladderView_jrnlAdd (kind src cls flags dclass scope aux data : Nat) :
    ladderView (s.jrnlAdd kind src cls flags dclass scope aux data) = ladderView s := ladderView_jrnlPush s _

@[simp] theorem ladderView_rampRestart (n t : Nat) : ladderView (s.rampRestart n t) = ladderView s := by
  simp [rampRestart, apply_ite ladderView]

@[simp] theorem ladderView_blankOpen (n : Nat) : ladderView (s.blankOpen n) = ladderView s := by
  have hcnt (i : Nat) : 0x4000 ≤ (F.TRIP_BLANKCNT i).addr := Nat.le_add_right_of_le (by decide)
  simp [blankOpen, apply_ite ladderView, hcnt]

@[simp] theorem ladderView_pinEdge (n : Nat) (e : PinEdge) : ladderView (s.pinEdge n e) = ladderView s := by
  simp [pinEdge, apply_ite ladderView]

@[simp] theorem ladderView_edgesDue (n t : Nat) : ladderView (s.edgesDue n t) = ladderView s := by
  simp [edgesDue]

@[simp] theorem ladderView_cellDrive (n : Nat) (v : Lvl) (safe hush : Bool) (t : Nat) :
    ladderView (s.cellDrive n v safe hush t) = ladderView s := by
  unfold cellDrive
  dsimp only
  split <;> simp

@[simp] theorem ladderView_cellCut (n t : Nat) : ladderView (s.cellCut n t) = ladderView s := by
  simp [cellCut]

@[simp] theorem ladderView_cellAt (n t : Nat) : ladderView (s.cellAt n t) = ladderView s := by
  simp [cellAt, apply_ite ladderView, F.LEG_RUN, F.LEG_SRCMOD, F.LEG_SRCCMP, F.LEG_SRCTRIP, F.LEG_OVR, F.LEG_FLT, F.LEG_STO, F.LEG_LVL,
    Pg.LEG, Nat.le_add_right_of_le]

@[simp] theorem ladderView_cellsAll : ladderView s.cellsAll = ladderView s := by
  simp [cellsAll, cellUpdate]

@[simp] theorem ladderView_gdoUpdate (k : Nat) : ladderView (s.gdoUpdate k) = ladderView s := by
  simp [gdoUpdate, apply_ite ladderView, F.LEGX_GDFORCED, F.LEGX_GDONCNT, F.LEGX_GDOUT, Nat.le_add_right_of_le]

@[simp] theorem ladderView_gdosAll : ladderView s.gdosAll = ladderView s := by
  simp [gdosAll]

@[simp] theorem ladderView_stoSync : ladderView s.stoSync = ladderView s := by
  unfold stoSync
  dsimp only
  split
  · simp [F.SAFE_STOA, F.SAFE_STOB]
  · split
    · rfl
    · split
      · simp [F.SAFE_STOA, F.SAFE_STOB]
      · rw [ladderView_gdosAll, ladderView_cellsAll]
        exact (ladderView_upd ..).trans (by simp [F.SAFE_STOA, F.SAFE_STOB])

@[simp] theorem ladderView_ceaseGrid : ladderView s.ceaseGrid = ladderView s := by
  simp [ceaseGrid, apply_ite ladderView]

@[simp] theorem ladderView_safeStopBegin (shutdown : Bool) : ladderView (s.safeStopBegin shutdown) = ladderView s := by
  unfold safeStopBegin
  split
  · rfl
  · dsimp only
    rw [apply_ite ladderView, ladderView_ceaseGrid, ite_self, ladderView_stoSync, ladderView_ipulse _ _ (by decide)]
    exact (ladderView_upd ..).trans (by simp [F.SAFE_PHASE, F.SAFE_DEMCNT])

@[simp] theorem ladderView_fltLevels : ladderView s.fltLevels = ladderView s := by
  simp [fltLevels, Pg.FLT]

@[simp] theorem ladderView_modeDue (cause : Nat) : ladderView (s.modeDue cause) = ladderView s := by
  simp [modeDue, apply_ite ladderView]

@[simp] theorem ladderView_tripReact (scope : Nat) : ladderView (s.tripReact scope) = ladderView s := by
  simp [tripReact, apply_ite ladderView]

@[simp] theorem ladderView_fltReact (c scope : Nat) : ladderView (s.fltReact c scope) = ladderView s := by
  simp [fltReact, apply_ite ladderView]

@[simp] theorem ladderView_fltLast (n c : Nat) : ladderView (s.fltLast n c) = ladderView s := by
  simp [fltLast, F.FLT_LASTV, F.FLT_LASTSRC, F.FLT_LASTCLS]

@[simp] theorem ladderView_fltHoldSync : ladderView s.fltHoldSync = ladderView s := ladderView_setBit_flthold s _

@[simp] theorem ladderView_raiseOne (n ch : Nat) (forced : Bool) : ladderView (s.raiseOne n ch forced) = ladderView s := by
  have hrec : 0x4000 ≤ 0x6400 + 4 * n := by omega
  have hopen : 0x4000 ≤ 0x6080 + n / 32 * 4 := by omega
  unfold raiseOne
  dsimp only
  split
  · simp [apply_ite ladderView, F.FLT_RPT, hrec]
  · split
    · simp [F.FLT_RPT, F.FLT_RAISECNT, hrec]
    · split
      · split <;> simp [F.FLT_RAISECNT, F.JRNL_NSUPP]
      · generalize (s.wrap F.FLT_RAISECNT).fltSecond n 4 (s.rd (F.FLT_CLASS n)) = r
        obtain ⟨c, second⟩ := r
        cases second <;> simp [apply_ite ladderView, F.FLT_RPT, F.FLT_RAISECNT, F.FLT_SECCNT, F.FLT_OPEN, F.FLT_RESTORED, F.FLT_FORCED,
          F.FLT_CUR, Pg.FLT, hrec, hopen]

@[simp] theorem ladderView_fltExpire (n : Nat) : ladderView (s.fltExpire n) = ladderView s := by
  simp [fltExpire, apply_ite ladderView, F.FLT_CUR, F.FLT_ESCCNT, Pg.FLT, Nat.le_add_right_of_le]

@[simp] theorem ladderView_graceRun (n : Nat) : ladderView (s.graceRun n) = ladderView s := by
  simp [graceRun, apply_ite ladderView]

@[simp] theorem ladderView_raiseFlt (n ch : Nat) (forced : Bool) : ladderView (s.raiseFlt n ch forced) = ladderView s := by
  simp [raiseFlt, apply_ite ladderView]

@[simp] theorem ladderView_detect (n : Nat) : ladderView (s.detect n) = ladderView s := ladderView_raiseFlt s n 0 false

/-! A write to the MRAM, and the journal record that it ends (R411, R428). -/

@[simp] theorem ladderView_putBytes (l : List Byte) : ∀ (s : State) (a : Nat), ladderView (s.putBytes a l) = ladderView s := by
  induction l with
  | nil => intro s a; rfl
  | cons b t ih => intro s a; exact (ih _ _).trans (ladderView_upd ..)

@[simp] theorem ladderView_write64 (a v : Nat) (p : Bool) : ladderView (s.write64 a v p) = ladderView s := by
  simp [write64, store64]

@[simp] theorem ladderView_wear (a : Nat) : ladderView (s.wear a) = ladderView s := by
  unfold wear
  split <;> simp [F.ECC_MWEAR, Nat.le_add_right_of_le]

@[simp] theorem ladderView_mramPut (a v : Nat) : ladderView (s.mramPut a v) = ladderView s := by
  simp [mramPut, apply_ite ladderView]

@[simp] theorem ladderView_mramWrite (a : Nat) (l : List Byte) : ladderView (s.mramWrite a l) = ladderView s := by
  simp [mramWrite]

@[simp] theorem ladderView_jrnlWritten (good : Bool) : ladderView (s.jrnlWritten good) = ladderView s := by
  unfold jrnlWritten
  split <;> simp [apply_ite ladderView, F.JRNL_QDEPTH, Pg.JRNL]

@[simp] theorem ladderView_ckptEnd : ladderView s.ckptEnd = ladderView s := by
  unfold ckptEnd
  split
  · rfl
  · exact (ladderView_upd ..).trans (by simp [F.KEEP_CKBUSY, F.KEEP_CKREQ])

@[simp] theorem ladderView_recordsEnd : ladderView s.recordsEnd = ladderView s := by
  unfold recordsEnd
  dsimp only
  rw [ladderView_ckptEnd]
  split <;> simp

/-! What two states with one view agree in. -/

section
variable {s} {t : State} (h : ladderView t = ladderView s)
include h

theorem phase_of_ladderView : t.phase = s.phase := congrArg LadderView.phase h

theorem modeNow_of_ladderView : t.modeNow = s.modeNow := congrArg LadderView.mode h

theorem rung_of_ladderView : t.rung = s.rung := congrArg LadderView.rung h

theorem bootStat_of_ladderView : t.bootStat = s.bootStat := congrArg LadderView.stat h

theorem weak_of_ladderView : t.ecc.weak = s.ecc.weak := congrArg LadderView.weak h

theorem cause_of_ladderView : t.boot.cause = s.boot.cause := congrArg (fun v : LadderView => v.boot.cause) h

theorem lost_of_ladderView : t.boot.lost = s.boot.lost := congrArg (fun v : LadderView => v.boot.lost) h

theorem descend_of_ladderView : t.boot.descend = s.boot.descend := congrArg (fun v : LadderView => v.boot.descend) h

theorem copy_of_ladderView : t.boot.copy = s.boot.copy := congrArg (fun v : LadderView => v.boot.copy) h

/-- A register that a raise leaves alone reads the same. -/
theorem reg_of_ladderView {a : Nat} (ha : ladderReg a = true) : t.reg a = s.reg a := by
  have hreg : (if ladderReg a = true then t.reg a else 0) = if ladderReg a = true then s.reg a else 0 := congrArg (fun v : LadderView => v.regs a) h
  rwa [if_pos ha, if_pos ha] at hreg

theorem rd_of_ladderView {f : Fld} (hf : ladderReg f.addr = true) : t.rd f = s.rd f := rd_congr (reg_of_ladderView h hf)

end

end State
end Sys2Proof.Machine
end

section
/-! SUPPORT. What the sources of a reset do (R44, R45, R84 to R86): the statement `ResetsClearEverythingButWhatTheyKeep`. -/

namespace Sys2Proof

/-- A filtered map answers as the map does where its keys pass. -/
theorem SMap.get_filter_of_pass {α : Type} (d : Nat → α) (p : Nat → Bool) (m : SMap α) {k : Nat} (h : p k = true) :
    SMap.get d (m.filter fun e => p e.1) k = SMap.get d m k := by
  induction m with
  | nil => rfl
  | cons e t ih =>
    obtain ⟨j, v⟩ := e
    by_cases hj : j = k
    · subst hj
      simp [h, SMap.get]
    · by_cases hp : p j = true
      · simpa [hp, SMap.get, hj] using ih
      · simpa [hp, SMap.get, hj] using ih

namespace Machine
namespace State

variable (s : State)

/-! What a reset keeps. -/

/-- A fuse operation cut short changes the security unit alone. -/
theorem fuseCut_eq_upd : ∃ (sec : SecM) (free : Nat), s.fuseCut = { s with sec := sec, free := free } := by
  unfold fuseCut
  split
  · exact ⟨s.sec, s.free, rfl⟩
  · dsimp only
    split
    · exact ⟨_, _, rfl⟩
    · exact ⟨_, _, rfl⟩

theorem fuseCut_boot : s.fuseCut.boot = s.boot := by
  obtain ⟨sec, free, h⟩ := s.fuseCut_eq_upd
  rw [h]

theorem fuseCut_regs : s.fuseCut.regs = s.regs := by
  obtain ⟨sec, free, h⟩ := s.fuseCut_eq_upd
  rw [h]

theorem fuseCut_mem : s.fuseCut.mem = s.mem := by
  obtain ⟨sec, free, h⟩ := s.fuseCut_eq_upd
  rw [h]

/-- Of the boot unit a reset keeps the rails, the latched digest event, the seal and the TAP, and adds its cause. -/
theorem boot_resetTo (ph : Phase) (b : Nat) : (s.resetTo ph b).boot =
    { cause := s.boot.cause ||| 2 ^ b, lost := s.boot.lost, dark := s.boot.dark, digestEvent := s.boot.digestEvent, sealSt := s.boot.sealSt,
      sealRef := s.boot.sealRef, jtag := s.boot.jtag } := by
  rw [← s.fuseCut_boot]
  rfl

theorem cause_resetTo (ph : Phase) (b : Nat) : (s.resetTo ph b).boot.cause = s.boot.cause ||| 2 ^ b := by
  rw [boot_resetTo]

theorem lost_resetTo (ph : Phase) (b : Nat) : (s.resetTo ph b).boot.lost = s.boot.lost := by
  rw [boot_resetTo]

theorem phase_resetTo (ph : Phase) (b : Nat) : (s.resetTo ph b).phase = ph := (rfl)

/-- The bytes of the MRAM stand. -/
theorem byte_resetTo_mram (ph : Phase) (b : Nat) {a : Nat} (h : inMram a = true) : (s.resetTo ph b).byte a = s.byte a :=
  (SMap.get_filter_of_pass memDefault inMram s.fuseCut.mem h).trans (by rw [fuseCut_mem, byte])

/-- A kept register stands, the checkpoint's words apart. -/
theorem reg_resetTo_kept (ph : Phase) (b : Nat) {a : Nat} (hkept : regKept a = true) (hstat : a ≠ 0x1C4) (href : a ≠ 0x1C8)
    (hlow : ∀ k, k < 4 → a ≠ (F.LEGX_GDUVLO k).addr) (hkeep : ∀ f ∈ [F.KEEP_CKPER, F.KEEP_CKREQ, F.KEEP_CKBUSY], a ≠ f.addr) :
    (s.resetTo ph b).reg a = s.reg a := by
  obtain ⟨u, hregs, heq⟩ := s.resetTo_eq_writes ph b
  have hfilter : u.reg a = s.reg a := by
    rw [reg, hregs, fuseCut_regs]
    exact SMap.get_filter_of_pass _ _ _ hkept
  rw [heq, setBit, reg_wr_ne _ F.SYS_SEALED _ hstat, reg_wr_ne _ F.SYS_SEALREF _ href, reg_clear_of_notMem _ hkeep,
    reg_each_of_ne u 4 _ a (fun t k hk => by rw [setBit, reg_wr_ne t _ _ (hlow k hk)]), hfilter]

/-- BOOT.CAUSE stands. -/
theorem reg_resetTo_cause (ph : Phase) (b : Nat) : (s.resetTo ph b).reg 0x3044 = s.reg 0x3044 :=
  s.reg_resetTo_kept ph b rfl (by decide) (by decide) (fun k _ => by simp only [F.LEGX_GDUVLO]; omega) (by decide)

/-- Where what comes before it leaves the drivers' lock-outs and the fuses, a reset has the outcome of R85. -/
theorem resetOutcome_of_sealView {u : State} (h : sealView u = sealView s) (ph : Phase) (b : Nat) : ResetOutcome s (u.resetTo ph b) :=
  (resetOutcome_resetTo u ph b).of_eq (low_of_sealView h) (congrArg SecM.fuse (sec_of_sealView h))

/-! A soft reset (R86). -/

/-- The records being written are completed; then the reset comes. -/
theorem resetSoft_outcome (b : Nat) : ResetOutcome s (s.resetSoft b) ∧ (s.resetSoft b).phase = .booting ∧
    (s.resetSoft b).boot.cause = s.boot.cause ||| 2 ^ b := by
  refine ⟨s.resetOutcome_of_sealView s.sealView_recordsEnd _ _, rfl, ?_⟩
  rw [resetSoft, cause_resetTo, cause_of_ladderView s.ladderView_recordsEnd]

/-- The state with the ball TMODE at the level `m`. -/
def sampleTmode (t : State) (m : Bool) : State := { t with tmode := m }

theorem sampleTmode_outcome {s t : State} {c : Nat} (h : ResetOutcome s t ∧ t.phase = .booting ∧ t.boot.cause = c) (m : Bool) :
    ResetOutcome s (t.sampleTmode m) ∧ (t.sampleTmode m).phase = .booting ∧ (t.sampleTmode m).tmode = m ∧ (t.sampleTmode m).boot.cause = c :=
  ⟨h.1, h.2.1, rfl, h.2.2⟩

theorem settle_outcome {s t : State} {c : Nat} (h : ResetOutcome s t ∧ t.phase = .booting ∧ t.boot.cause = c) :
    ResetOutcome s t.settle ∧ t.settle.phase = .booting ∧ t.settle.boot.cause = c := h

/-! The keeper's work as the rails fall (R45, R110). -/

@[simp] theorem sealView_keepCharge : sealView s.keepCharge = sealView s := by
  simp [keepCharge, F.KEEP_HARV, F.KEEP_MAINCHG]

@[simp] theorem sealView_keepMeasure (vscap hvin : Nat) (vdd above : Bool) : sealView (s.keepMeasure vscap hvin vdd above) = sealView s := by
  unfold keepMeasure
  split
  · rfl
  · simp only [apply_ite sealView, sealView_wr _ (f := F.KEEP_DAWN) _ (by decide), sealView_keepCharge,
      sealView_wr _ (f := F.KEEP_KTVALID) _ (by decide), sealView_setBit _ (f := F.KEEP_VKEEPON) _ (by decide), ite_self]
    exact (sealView_upd ..).trans (by simp [F.KEEP_VSCAP, F.KEEP_HVIN, F.KEEP_COLD, F.KEEP_LOWRESV])

@[simp] theorem ladderView_keepCharge : ladderView s.keepCharge = ladderView s := by
  simp [keepCharge, F.KEEP_HARV, F.KEEP_MAINCHG]

@[simp] theorem ladderView_keepMeasure (vscap hvin : Nat) (vdd above : Bool) : ladderView (s.keepMeasure vscap hvin vdd above) = ladderView s := by
  unfold keepMeasure
  split
  · rfl
  · simp only [apply_ite ladderView, ladderView_wr _ (f := F.KEEP_DAWN) _ (by decide), ladderView_keepCharge,
      ladderView_wr _ (f := F.KEEP_KTVALID) _ (by decide), ladderView_setBit _ (f := F.KEEP_VKEEPON) _ (by decide), ite_self]
    exact (ladderView_upd ..).trans (by simp [F.KEEP_VSCAP, F.KEEP_HVIN, F.KEEP_COLD, F.KEEP_LOWRESV])

@[simp] theorem sealView_ckptBegin (kind rail time : Nat) : sealView (s.ckptBegin kind rail time) = sealView s :=
  (sealView_upd ..).trans (by simp [F.KEEP_CKBUSY, F.KEEP_CKSEQ, F.KEEP_NEXTSLOT])

@[simp] theorem ladderView_ckptBegin (kind rail time : Nat) : ladderView (s.ckptBegin kind rail time) = ladderView s :=
  (ladderView_upd ..).trans (by simp [F.KEEP_CKBUSY, F.KEEP_CKSEQ, F.KEEP_NEXTSLOT])

@[simp] theorem sealView_recordsTorn : sealView s.recordsTorn = sealView s := by
  unfold recordsTorn
  split
  · rfl
  · exact (sealView_mramWrite _ _ _).trans (sealView_upd ..)

@[simp] theorem ladderView_recordsTorn : ladderView s.recordsTorn = ladderView s := by
  unfold recordsTorn
  split
  · rfl
  · exact (ladderView_mramWrite _ _ _).trans (ladderView_upd ..)

@[simp] theorem sealView_burst (rails vscap : Nat) : sealView (s.burst rails vscap) = sealView s := by
  unfold burst
  split
  · simp
  · exact (sealView_upd ..).trans (by simp [F.KEEP_CKREF, F.KEEP_REFCNT])

@[simp] theorem ladderView_burst (rails vscap : Nat) : ladderView (s.burst rails vscap) = ladderView s := by
  unfold burst
  split
  · simp
  · exact (ladderView_upd ..).trans (by simp [F.KEEP_CKREF, F.KEEP_REFCNT])

/-- Rails that fall while the device is up or boots. -/
theorem brownOut_of_standing (h : s.phase ≠ .down) (rails vscap hvin : Nat) (vdd above dark : Bool) :
    s.brownOut rails vscap hvin vdd above dark =
      (((s.keepMeasure vscap hvin vdd above).burst rails vscap).resetTo .down 1).railsFell rails dark := by
  simp [brownOut, h]

/-- What falls is told to the boot unit alone. -/
theorem railsFell_outcome {s t : State} (h : ResetOutcome s t) (rails : Nat) (dark : Bool) : ResetOutcome s (t.railsFell rails dark) := h

theorem railsFell_told (t : State) (rails : Nat) (dark : Bool) : (t.railsFell rails dark).phase = t.phase ∧
    (t.railsFell rails dark).boot.cause = t.boot.cause ∧ (t.railsFell rails dark).boot.lost = t.boot.lost ||| rails ∧
      (t.railsFell rails dark).boot.dark = dark := ⟨rfl, rfl, rfl, rfl⟩

theorem brownOut_outcome (h : s.phase ≠ .down) (rails vscap hvin : Nat) (vdd above dark : Bool) :
    ∃ t, s.brownOut rails vscap hvin vdd above dark = t ∧
      ResetOutcome s t ∧ t.phase = .down ∧ t.boot.cause = s.boot.cause ||| 2 ∧ t.boot.lost = s.boot.lost ||| rails ∧ t.boot.dark = dark := by
  have hseal : sealView ((s.keepMeasure vscap hvin vdd above).burst rails vscap) = sealView s := by simp
  have hladder : ladderView ((s.keepMeasure vscap hvin vdd above).burst rails vscap) = ladderView s := by simp
  refine ⟨_, brownOut_of_standing s h .., railsFell_outcome (s.resetOutcome_of_sealView hseal .down 1) rails dark, ?_⟩
  obtain ⟨hphase, hcause, hlost, hdark⟩ := railsFell_told (((s.keepMeasure vscap hvin vdd above).burst rails vscap).resetTo .down 1) rails dark
  rw [hphase, hcause, hlost, cause_resetTo, lost_resetTo, cause_of_ladderView hladder, lost_of_ladderView hladder]
  exact ⟨phase_resetTo _ _ _, rfl, rfl, hdark⟩

/-! The power-on (R44). -/

/-- The state `t` after a power-on's reset, with what the rails and the ball have told of it. -/
def poweredOn (t : State) (m : Bool) : State := { t with tmode := m, boot := { t.boot with cause := 1, lost := 0, dark := false } }

theorem powerOn_of_reset (h : s.phase ≠ .down ∨ s.boot.lost = 31) (m : Bool) :
    s.powerOn m = ((s.setReg 0x3044 0).resetTo .booting 0).poweredOn m := by
  have hdip : (s.phase == .down && s.boot.lost != 31) = false := by
    rcases h with h | h <;> simp [h]
  rw [powerOn, hdip]
  rfl

/-- The outcome of a reset names neither the ball nor the boot unit. -/
theorem poweredOn_outcome {s t : State} (h : ResetOutcome s t) (m : Bool) : ResetOutcome s (t.poweredOn m) := h

theorem poweredOn_told (t : State) (m : Bool) : (t.poweredOn m).phase = t.phase ∧ (t.poweredOn m).tmode = m ∧
    (t.poweredOn m).boot.cause = 1 ∧ (t.poweredOn m).boot.lost = 0 ∧ (t.poweredOn m).boot.dark = false ∧
      (∀ a, (t.poweredOn m).reg a = t.reg a) ∧ ∀ a, (t.poweredOn m).byte a = t.byte a :=
  ⟨rfl, rfl, rfl, rfl, rfl, fun _ => rfl, fun _ => rfl⟩

theorem powerOn_outcome (h : s.phase ≠ .down ∨ s.boot.lost = 31) (m : Bool) :
    ∃ t, s.powerOn m = t ∧ ResetOutcome s t ∧ t.phase = .booting ∧ t.tmode = m ∧ t.boot.cause = 1 ∧ t.boot.lost = 0 ∧
      t.boot.dark = false ∧ t.reg 0x3044 = 0#32 ∧ ∀ a, inMram a = true → t.byte a = s.byte a := by
  have hreset := s.resetOutcome_of_sealView (s.sealView_setReg (a := 0x3044) 0 (by decide)) .booting 0
  obtain ⟨hphase, htmode, hcause, hlost, hdark, hreg, hbyte⟩ := poweredOn_told ((s.setReg 0x3044 0).resetTo .booting 0) m
  refine ⟨_, powerOn_of_reset s h m, poweredOn_outcome hreset m, ?_, htmode, hcause, hlost, hdark, ?_, fun a ha => ?_⟩
  · rw [hphase, phase_resetTo]
  · rw [hreg, reg_resetTo_cause, reg_setReg_self]
    rfl
  · rw [hbyte, byte_resetTo_mram _ _ _ ha, byte, setReg_mem, byte]

/-! A software reset. -/

theorem rstWrite_of_key {v : Word} (h : F.SYS_RSTKEY.of v = 0xA5C3) : s.rstWrite (F.SYS_RSTGO.put v 1) = (s.resetSoft 3, .ok) := by
  have hkey : F.SYS_RSTKEY.of (F.SYS_RSTGO.put v 1) = 0xA5C3 := (Fld.of_put_beside (f := F.SYS_RSTGO) (g := F.SYS_RSTKEY) v 1 (by decide)).trans h
  have hgo : F.SYS_RSTGO.on (F.SYS_RSTGO.put v 1) = true := Fld.on_put_one _ v (by decide) (by decide)
  simp [rstWrite, hkey, hgo]

theorem rstWrite_of_key_ne {v : Word} (h : F.SYS_RSTKEY.of v ≠ 0xA5C3) : s.rstWrite (F.SYS_RSTGO.put v 1) = (s, .range) := by
  have hkey : F.SYS_RSTKEY.of (F.SYS_RSTGO.put v 1) ≠ 0xA5C3 := by
    rwa [Fld.of_put_beside (f := F.SYS_RSTGO) (g := F.SYS_RSTKEY) v 1 (by decide)]
  simp [rstWrite, hkey]

end State

open State

theorem exec_powerOnReset (m : Bool) (s : State) : exec (.powerOnReset m) s = .next (s.powerOn m) := (rfl)

theorem exec_brownOut (r : Fin 32) (x : KeepIn) (s : State) :
    exec (.brownOut r x) s = .next (s.brownOut r x.vscap x.hvin x.vdd x.above x.dark) := (rfl)

theorem exec_pinReset {s : State} (h : s.phase ≠ .down) (m : Bool) : exec (.pinReset m) s = .next ((s.resetSoft 2).sampleTmode m) := by
  have hexec : exec (.pinReset m) s = .next (if s.phase == .down then s else (s.resetSoft 2).sampleTmode m) := rfl
  simp [hexec, h]

theorem exec_softwareReset {v : Word} {s u : State} (h : s.turn 0x110 (F.SYS_RSTGO.put v 1) = some u) :
    exec (.softwareReset v) s = .next (noteWrite 0x110 (u.rstWrite (F.SYS_RSTGO.put v 1))).settle :=
  congrArg Host.Outcome.next (hostWord_of_turn s h)

/-- Settles O8: each source ends in `resetTo`, and what it does before leaves the drivers' lock-outs and the fuses; the lock-out words are the
model's reading (log 29), as are the reset word of SAFE.STAT (log 12) and the fill of memory at the reset itself. -/
theorem resetsClearEverythingButWhatTheyKeep : Obligations.ResetsClearEverythingButWhatTheyKeep := by
  refine ⟨fun m s h => ?powerOn, fun m s hdown hlost => ?dip, fun m s h => ?pin, fun r x s => ⟨fun h => ?brownOut, fun hdown => ?further⟩,
    fun v s u hturn hkey => ?software, fun v s u hturn hkey => ?wrongKey⟩
  case powerOn =>
    obtain ⟨t, ht, houtcome⟩ := s.powerOn_outcome h m
    exact ⟨t, (exec_powerOnReset m s).trans (congrArg _ ht), houtcome⟩
  case dip => simp [exec_powerOnReset, powerOn, hdown, hlost]
  case pin => exact ⟨_, exec_pinReset h m, sampleTmode_outcome (s.resetSoft_outcome 2) m⟩
  case brownOut =>
    obtain ⟨t, ht, houtcome⟩ := s.brownOut_outcome h r x.vscap x.hvin x.vdd x.above x.dark
    exact ⟨t, (exec_brownOut r x s).trans (congrArg _ ht), houtcome⟩
  case further => simp [exec_brownOut, brownOut, hdown, railsFell]
  case software =>
    rw [exec_softwareReset hturn, rstWrite_of_key u hkey, noteWrite_ok]
    exact ⟨_, rfl, settle_outcome (u.resetSoft_outcome 3)⟩
  case wrongKey => rw [exec_softwareReset hturn, rstWrite_of_key_ne u hkey]

end Machine
end Sys2Proof
end

section
/-! SUPPORT. Blocks of words written to MRAM cells that take them, and read back (R428): the layer below the statements on the journal record
and the checkpoint of a pin reset, and on the retention image. -/

namespace Sys2Proof

/-- A value that fits reads back from its bytes. -/
theorem leVal_leBytes (n : Nat) : ∀ v, v < 256 ^ n → leVal (leBytes n v) = v := by
  induction n with
  | zero => intro v h; simp at h; simp [leBytes, leVal, h]
  | succ n ih =>
    intro v h
    have hdiv : v / 256 < 256 ^ n := by rw [Nat.pow_succ] at h; omega
    simp only [leBytes, leVal, ih _ hdiv, BitVec.toNat_ofNat]
    omega

/-- The bytes of a value read from as many bytes are those bytes. -/
theorem leBytes_leVal (l : List Byte) : leBytes l.length (leVal l) = l := by
  refine List.ext_getElem (length_leBytes _ _) fun i hi hi' => ?_
  have h := getD_leBytes l.length (leVal l) i hi'
  rw [leVal_div] at h
  simpa [List.getD_eq_getElem?_getD, hi, hi'] using h

/-- The value of bytes in a row. -/
theorem leVal_append (x y : List Byte) : leVal (x ++ y) = leVal x + 256 ^ x.length * leVal y := by
  induction x with
  | nil => simp [leVal]
  | cons b t ih => rw [List.cons_append, leVal, ih, leVal, List.length_cons, Nat.pow_succ]; ring

namespace Machine
namespace State

variable (s : State)

/-- The bytes `l` stand from `a` on, in clean words. -/
def Stands (s : State) (a : Nat) (l : List Byte) : Prop := ∀ i, i < l.length → s.byte (a + i) = l.getD i 0 ∧ s.synd (a + i) = 0

/-! What the store of a word leaves. -/

theorem putBytes_kept (l : List Byte) : ∀ (s : State) (a : Nat), (s.putBytes a l).jrnl = s.jrnl ∧
    (s.putBytes a l).keep = s.keep ∧ (s.putBytes a l).chk = s.chk := by
  induction l with
  | nil => exact fun _ _ => ⟨rfl, rfl, rfl⟩
  | cons x l ih => exact fun s a => ih _ _

/-- The state in which the word `w` has the syndrome `syn` and is valid. -/
def marked (s : State) (w : Nat) (syn : Byte) : State :=
  { s with chk := SMap.set (fun _ => 0) s.chk w syn, valid := SMap.set (fun _ => false) s.valid w true }

theorem store64_eq_marked (a d : Nat) (syn : Byte) : s.store64 a d syn = (s.putBytes (a / 8 * 8) (leBytes 8 d)).marked (a / 8) syn := (rfl)

theorem marked_jrnl (w : Nat) (syn : Byte) : (s.marked w syn).jrnl = s.jrnl := (rfl)

theorem marked_keep (w : Nat) (syn : Byte) : (s.marked w syn).keep = s.keep := (rfl)

theorem marked_chk (w : Nat) (syn : Byte) : (s.marked w syn).chk = SMap.set (fun _ => 0) s.chk w syn := (rfl)

theorem store64_jrnl (a d : Nat) (syn : Byte) : (s.store64 a d syn).jrnl = s.jrnl := by
  rw [store64_eq_marked, marked_jrnl, (putBytes_kept _ s _).1]

theorem store64_keep (a d : Nat) (syn : Byte) : (s.store64 a d syn).keep = s.keep := by
  rw [store64_eq_marked, marked_keep, (putBytes_kept _ s _).2.1]

/-- A store sets the syndrome of its own word alone. -/
theorem synd_store64_eq (a d b : Nat) (syn : Byte) : (s.store64 a d syn).synd b = if b / 8 = a / 8 then syn else s.synd b := by
  rw [synd, store64_eq_marked, marked_chk, (putBytes_kept _ s _).2.2]
  by_cases h : b / 8 = a / 8
  · rw [h, SMap.get_set_self, if_pos rfl]
  · rw [SMap.get_set_ne _ _ _ h, if_neg h, synd]

theorem wear_jrnl (a : Nat) : (s.wear a).jrnl = s.jrnl := by
  unfold wear
  split <;> simp

theorem wear_keep (a : Nat) : (s.wear a).keep = s.keep := by
  unfold wear
  split <;> simp

theorem wear_chk (a : Nat) : (s.wear a).chk = s.chk := by
  unfold wear
  split <;> simp

theorem synd_wear (a b : Nat) : (s.wear a).synd b = s.synd b := by
  rw [synd, wear_chk, synd]

theorem byte_wear (a b : Nat) : (s.wear a).byte b = s.byte b := by
  rw [byte, wear_mem, byte]

/-! A row of words, each stored over the state before it. -/

section
variable {u : Nat → State} {a : Nat} {l : List Byte} (ha : a % 8 = 0)
include ha

theorem byte_of_stores (h : ∀ k b, (u (k + 1)).byte b = ((u k).store64 (a + 8 * k) (leVal ((l.drop (8 * k)).take 8)) 0).byte b) (k b : Nat) :
    (u k).byte b = if a ≤ b ∧ b < a + 8 * k then l.getD (b - a) 0 else (u 0).byte b := by
  induction k with
  | zero => rw [if_neg (by omega)]
  | succ k ih =>
    have hword : (a + 8 * k) / 8 * 8 = a + 8 * k := by omega
    rw [h, byte_store64, hword, leVal_div, ih]
    by_cases hnew : a + 8 * k ≤ b ∧ b < a + 8 * k + 8
    · obtain ⟨j, rfl⟩ := Nat.exists_eq_add_of_le hnew.1
      have hj : j < 8 := by omega
      have hofs : a + 8 * k + j - a = 8 * k + j := by omega
      rw [if_pos hnew, if_pos (by omega), Nat.add_sub_cancel_left, hofs]
      simp [List.getD_eq_getElem?_getD, hj]
    · rw [if_neg hnew]
      by_cases hold : a ≤ b ∧ b < a + 8 * k
      · rw [if_pos hold, if_pos (by omega)]
      · rw [if_neg hold, if_neg (by omega)]

theorem synd_of_stores (h : ∀ k b, (u (k + 1)).synd b = ((u k).store64 (a + 8 * k) (leVal ((l.drop (8 * k)).take 8)) 0).synd b) (k b : Nat) :
    (u k).synd b = if a ≤ b ∧ b < a + 8 * k then 0 else (u 0).synd b := by
  induction k with
  | zero => rw [if_neg (by omega)]
  | succ k ih =>
    rw [h, synd_store64_eq, ih]
    by_cases hnew : b / 8 = (a + 8 * k) / 8
    · rw [if_pos hnew, if_pos (by omega)]
    · rw [if_neg hnew]
      by_cases hold : a ≤ b ∧ b < a + 8 * k
      · rw [if_pos hold, if_pos (by omega)]
      · rw [if_neg hold, if_neg (by omega)]

end

/-! The words of a block, one by one. -/

/-- The state after the first `k` words of the block `l` at `a`. -/
def mramWords (s : State) (a : Nat) (l : List Byte) (k : Nat) : State :=
  s.each k fun s i => s.mramPut (a + 8 * i) (leVal ((l.drop (8 * i)).take 8))

theorem mramWrite_eq (a : Nat) (l : List Byte) : s.mramWrite a l = s.mramWords a l ((l.length + 7) / 8) := (rfl)

theorem ladderView_mramWords (a : Nat) (l : List Byte) (k : Nat) : ladderView (s.mramWords a l k) = ladderView s := by
  simp [mramWords]

section
variable {s} {a : Nat} {l : List Byte} (hweak : s.ecc.weak = [])
include hweak

/-- Cells that take what is written get the word, and their wear counts. -/
theorem mramWords_succ (k : Nat) :
    s.mramWords a l (k + 1) = ((s.mramWords a l k).store64 (a + 8 * k) (leVal ((l.drop (8 * k)).take 8)) 0).wear (a + 8 * k) := by
  have h : (s.mramWords a l k).ecc.weak = [] := (weak_of_ladderView (s.ladderView_mramWords a l k)).trans hweak
  rw [mramWords, each_succ, ← mramWords, mramPut, h]
  rfl

theorem jrnl_mramWords (k : Nat) : (s.mramWords a l k).jrnl = s.jrnl := by
  induction k with
  | zero => rfl
  | succ k ih => rw [mramWords_succ hweak, wear_jrnl, store64_jrnl, ih]

theorem keep_mramWords (k : Nat) : (s.mramWords a l k).keep = s.keep := by
  induction k with
  | zero => rfl
  | succ k ih => rw [mramWords_succ hweak, wear_keep, store64_keep, ih]

theorem byte_mramWords (ha : a % 8 = 0) (k b : Nat) :
    (s.mramWords a l k).byte b = if a ≤ b ∧ b < a + 8 * k then l.getD (b - a) 0 else s.byte b :=
  byte_of_stores (u := s.mramWords a l) ha (fun k b => by rw [mramWords_succ hweak, byte_wear]) k b

theorem synd_mramWords (ha : a % 8 = 0) (k b : Nat) :
    (s.mramWords a l k).synd b = if a ≤ b ∧ b < a + 8 * k then 0 else s.synd b :=
  synd_of_stores (u := s.mramWords a l) ha (fun k b => by rw [mramWords_succ hweak, synd_wear]) k b

/-! A block of whole words. -/

theorem jrnl_mramWrite : (s.mramWrite a l).jrnl = s.jrnl := by
  rw [mramWrite_eq, jrnl_mramWords hweak]

theorem keep_mramWrite : (s.mramWrite a l).keep = s.keep := by
  rw [mramWrite_eq, keep_mramWords hweak]

variable (ha : a % 8 = 0) (hl : l.length % 8 = 0)
include ha hl

theorem byte_mramWrite (b : Nat) :
    (s.mramWrite a l).byte b = if a ≤ b ∧ b < a + l.length then l.getD (b - a) 0 else s.byte b := by
  have hk : 8 * ((l.length + 7) / 8) = l.length := by omega
  rw [mramWrite_eq, byte_mramWords hweak ha, hk]

theorem synd_mramWrite (b : Nat) : (s.mramWrite a l).synd b = if a ≤ b ∧ b < a + l.length then 0 else s.synd b := by
  have hk : 8 * ((l.length + 7) / 8) = l.length := by omega
  rw [mramWrite_eq, synd_mramWords hweak ha, hk]

/-- The block stands where it was written. -/
theorem stands_mramWrite : (s.mramWrite a l).Stands a l := by
  intro i hi
  have hin : a ≤ a + i ∧ a + i < a + l.length := by omega
  rw [byte_mramWrite hweak ha hl, synd_mramWrite hweak ha hl, if_pos hin, if_pos hin, Nat.add_sub_cancel_left]
  exact ⟨rfl, rfl⟩

/-- What stands elsewhere stands after it. -/
theorem Stands.mramWrite {c : Nat} {m : List Byte} (h : s.Stands c m) (hc : c + m.length ≤ a ∨ a + l.length ≤ c) :
    (s.mramWrite a l).Stands c m := by
  intro i hi
  rw [byte_mramWrite hweak ha hl, synd_mramWrite hweak ha hl, if_neg (by omega), if_neg (by omega)]
  exact h i hi

end

/-! Reading it back. -/

theorem Stands.of_eq {s t : State} {a : Nat} {l : List Byte} (h : s.Stands a l)
    (heq : ∀ i, i < l.length → t.byte (a + i) = s.byte (a + i) ∧ t.synd (a + i) = s.synd (a + i)) : t.Stands a l := by
  intro i hi
  rw [(heq i hi).1, (heq i hi).2]
  exact h i hi

theorem bytes_append (a m n : Nat) : s.bytes a (m + n) = s.bytes a m ++ s.bytes (a + m) n := by
  simp [bytes, List.range_add, Nat.add_assoc, Function.comp_def]

theorem length_bytes (a n : Nat) : (s.bytes a n).length = n := by
  simp [bytes]

theorem bytes_of_stands {s : State} {a : Nat} {l : List Byte} (h : s.Stands a l) : s.bytes a l.length = l := by
  refine List.ext_getElem (s.length_bytes a _) fun i hi hi' => ?_
  simp [bytes, (h i hi').1, hi']

/-- A clean word reads as its bytes. -/
theorem mramWord_of_clean {a : Nat} (h : s.synd a = 0) : s.mramWord a = (s.raw64 a, true) := by
  simp [mramWord, h]

theorem leBytes_raw64 (a : Nat) : leBytes 8 (s.raw64 a) = s.bytes a 8 := by
  have h := leBytes_leVal (s.bytes a 8)
  rwa [length_bytes] at h

/-- Clean words in a row read as their bytes. -/
theorem flatMap_mramWord {a : Nat} {k : Nat} (h : ∀ i, i < k → s.synd (a + 8 * i) = 0) :
    ((List.range k).flatMap fun i => leBytes 8 (s.mramWord (a + 8 * i)).1) = s.bytes a (8 * k) := by
  induction k with
  | zero => rfl
  | succ k ih =>
    rw [List.range_succ, List.flatMap_append, ih fun i hi => h i (by omega), List.flatMap_singleton, s.mramWord_of_clean (h k (by omega)),
      leBytes_raw64, Nat.mul_succ, bytes_append]

section
variable {s} {a : Nat} {l : List Byte} (h : s.Stands a l)
include h

theorem mramAny_of_stands (hl : l.length % 8 = 0) : s.mramAny a l.length = l := by
  have hk : 8 * ((l.length + 7) / 8) = l.length := by omega
  rw [mramAny, flatMap_mramWord s fun i hi => (h (8 * i) (by omega)).2, hk, bytes_of_stands h, List.take_length]

theorem mramBytes_of_stands (hl : l.length % 8 = 0) : s.mramBytes a l.length = some l := by
  have hclean : ((List.range ((l.length + 7) / 8)).all fun i => (s.mramWord (a + 8 * i)).2) = true := by
    simp only [List.all_eq_true, List.mem_range]
    intro i hi
    rw [s.mramWord_of_clean (h (8 * i) (by omega)).2]
  rw [mramBytes, if_pos hclean, mramAny_of_stands h hl]

theorem mramWord_of_stands (hl : l.length = 8) : s.mramWord a = (leVal l, true) := by
  have hbytes := bytes_of_stands h
  have hclean : s.synd a = 0 := (h 0 (by omega)).2
  rw [hl] at hbytes
  rw [s.mramWord_of_clean hclean, raw64, hbytes]

end

end State
end Machine
end Sys2Proof
end

section
/-! SUPPORT. A pin reset completes the journal record and the checkpoint being written (R86, R109 to R112, R411): the statement
`ResetCompletesTheRecordBeingWritten`. -/

namespace Sys2Proof.Machine

/-- A record has 32 bytes (R411). -/
theorem JRec.length_bytes (r : JRec) : r.bytes.length = 32 := by
  simp [JRec.bytes, length_leBytes]

theorem crc32Bit_lt {c : Nat} (h : c < 2 ^ 32) : crc32Bit c < 2 ^ 32 := by
  unfold crc32Bit
  split
  · exact Nat.xor_lt_two_pow (by omega) (by decide)
  · omega

/-- A check sum fits 32 bits. -/
theorem crc32_lt (l : List Byte) : crc32 l < 2 ^ 32 := by
  have hbits (n : Nat) : ∀ {c : Nat}, c < 2 ^ 32 → (List.range n).foldl (fun x _ => crc32Bit x) c < 2 ^ 32 := by
    induction n with
    | zero => exact fun h => h
    | succ n ih =>
      intro c h
      rw [List.range_succ, List.foldl_append]
      exact crc32Bit_lt (ih h)
  have hbytes : ∀ {c : Nat}, c < 2 ^ 32 → l.foldl (fun c b => (List.range 8).foldl (fun x _ => crc32Bit x) (c ^^^ b.toNat)) c < 2 ^ 32 := by
    induction l with
    | nil => exact fun h => h
    | cons b l ih =>
      intro c h
      have hb : b.toNat < 2 ^ 32 := lt_trans b.isLt (by decide)
      exact ih (hbits 8 (Nat.xor_lt_two_pow h hb))
  exact Nat.xor_lt_two_pow (hbytes (by decide)) (by decide)

namespace State

variable (s : State)

/-! The reset keeps what stands in the MRAM. -/

theorem synd_resetTo_mram (ph : Phase) (b : Nat) {a : Nat} (h : inMram a = true) : (s.resetTo ph b).synd a = s.synd a := by
  have hbase : inMram (8 * (a / 8)) = true := by
    simp only [inMram, Bool.and_eq_true, decide_eq_true_eq] at h ⊢
    omega
  have hchk : s.fuseCut.chk = s.chk := by
    obtain ⟨sec, free, heq⟩ := s.fuseCut_eq_upd
    rw [heq]
  have hfilter := SMap.get_filter_of_pass (fun _ => (0 : Byte)) (fun k => inMram (8 * k)) s.fuseCut.chk hbase
  rw [hchk] at hfilter
  have hreset : (s.resetTo ph b).synd a = SMap.get (fun _ => (0 : Byte)) (s.fuseCut.chk.filter fun e => inMram (8 * e.1)) (a / 8) := rfl
  rw [hreset, hchk, hfilter, synd]

theorem Stands.resetTo {s : State} {a : Nat} {l : List Byte} (h : s.Stands a l) (ha : 0x800000 ≤ a) (hl : a + l.length ≤ 0x840000)
    (ph : Phase) (b : Nat) : (s.resetTo ph b).Stands a l := by
  refine h.of_eq fun i hi => ?_
  have hin : inMram (a + i) = true := by
    simp only [inMram, Bool.and_eq_true, decide_eq_true_eq]
    omega
  exact ⟨s.byte_resetTo_mram ph b hin, s.synd_resetTo_mram ph b hin⟩

theorem byte_sampleTmode (m : Bool) (a : Nat) : (s.sampleTmode m).byte a = s.byte a := (rfl)

theorem Stands.sampleTmode {s : State} {a : Nat} {l : List Byte} (h : s.Stands a l) (m : Bool) : (s.sampleTmode m).Stands a l := h

/-- A pin reset leaves no journal queue. -/
theorem queue_pinReset (m : Bool) : ((s.resetSoft 2).sampleTmode m).jrnl.queue = [] := (sampleTmode_outcome (s.resetSoft_outcome 2) m).1.2.2.2.1

/-! The records being written. -/

theorem recordsEnd_of_none (hckpt : s.keep.ckpt = none) (hqueue : s.jrnl.queue = []) : s.recordsEnd = s := by
  simp [recordsEnd, ckptEnd, hckpt, hqueue]

/-- Cells that take what is written get the front record whole. -/
theorem recordsEnd_of_record {r : JRec} {q : List JRec} (hweak : s.ecc.weak = []) (hckpt : s.keep.ckpt = none) (hqueue : s.jrnl.queue = r :: q) :
    s.recordsEnd = s.mramWrite (0x800000 + 32 * (r.seq % 4096)) r.bytes := by
  have hkeep : (s.mramWrite (0x800000 + 32 * (r.seq % 4096)) r.bytes).keep.ckpt = none := by rw [keep_mramWrite hweak, hckpt]
  simp only [recordsEnd, hqueue]
  simp [ckptEnd, hkeep]

theorem byte_recordsEnd_of_record {r : JRec} {q : List JRec} (hweak : s.ecc.weak = []) (hckpt : s.keep.ckpt = none)
    (hqueue : s.jrnl.queue = r :: q) (b : Nat) : s.recordsEnd.byte b =
      if 0x800000 + 32 * (r.seq % 4096) ≤ b ∧ b < 0x800000 + 32 * (r.seq % 4096) + 32 then
        r.bytes.getD (b - (0x800000 + 32 * (r.seq % 4096))) 0 else s.byte b := by
  have hl := r.length_bytes
  rw [recordsEnd_of_record s hweak hckpt hqueue, byte_mramWrite hweak (by omega) (by omega), hl]

theorem byte_pinReset (m : Bool) {a : Nat} (h : inMram a = true) : ((s.resetSoft 2).sampleTmode m).byte a = s.recordsEnd.byte a := by
  rw [byte_sampleTmode, resetSoft, byte_resetTo_mram _ _ _ h]

/-! A checkpoint's bytes (R112). -/

/-- The bytes of a checkpoint below its check sum: MAGIC, SEQ and the 488 bytes `rest`. -/
def ckptHead (seq : Nat) (rest : List Byte) : List Byte := [0x56#8, 0x4E#8, 0x4B#8, 0x43#8] ++ leBytes 4 seq ++ rest

/-- A checkpoint's bytes with their check sum. -/
def ckptFrame (seq : Nat) (rest : List Byte) : List Byte :=
  ckptHead seq rest ++ leBytes 4 (crc32 (ckptHead seq rest)) ++ List.replicate 4 0#8

/-- The bytes that commit it. -/
def ckptCommit (seq : Nat) (rest : List Byte) : List Byte := leBytes 4 (crc32 (ckptHead seq rest)) ++ leBytes 4 seq

/-- The bytes of a checkpoint after its SEQ. -/
def ckptRest (s : State) (kind rail time : Nat) : List Byte :=
  let recs := (s.openSorted.take 4).map fun n => s.openBytes n
  leBytes 8 time ++ leBytes 1 kind ++ leBytes 1 rail ++ leBytes 1 s.fltCount ++ List.replicate 13 0#8 ++
    ((List.range 16).flatMap fun i => leBytes 8 (s.energy (i / 8) (i % 8))) ++
    ((List.range 16).flatMap fun i => leBytes 1 (s.energyWrap (i / 8) (i % 8))) ++
    (recs.flatten ++ List.replicate (128 - 32 * recs.length) 0#8) ++ s.deltaBytes

theorem ckptBody_eq (kind rail time : Nat) : s.ckptBody kind rail time = ckptFrame (s.rd F.KEEP_CKSEQ) (s.ckptRest kind rail time) := by
  simp only [ckptBody, ckptFrame, ckptHead, ckptRest, List.append_assoc]

/-- Up to four open records of 32 bytes, and zeros. -/
theorem length_openRecords : (((s.openSorted.take 4).map fun n => s.openBytes n).flatten ++
    List.replicate (128 - 32 * ((s.openSorted.take 4).map fun n => s.openBytes n).length) 0#8).length = 128 := by
  have hrec (l : List Nat) : ((l.map fun n => s.openBytes n).flatten).length = 32 * l.length := by
    induction l with
    | nil => rfl
    | cons n l ih =>
      rw [List.map_cons, List.flatten_cons, List.length_append, ih, openBytes, JRec.length_bytes, List.length_cons]
      omega
  have hfour : (s.openSorted.take 4).length ≤ 4 := List.length_take_le _ _
  rw [List.length_append, hrec, List.length_replicate, List.length_map]
  omega

theorem length_flatMap_leBytes (n k : Nat) (f : Nat → Nat) : ((List.range n).flatMap fun i => leBytes k (f i)).length = k * n := by
  simp [List.length_flatMap, length_leBytes, Nat.mul_comm]

theorem length_deltaBytes : s.deltaBytes.length = 192 := by
  simp [deltaBytes, length_leBytes]

theorem length_ckptRest (kind rail time : Nat) : (s.ckptRest kind rail time).length = 488 := by
  have hrecs := s.length_openRecords
  rw [List.length_append] at hrecs
  simp only [ckptRest, List.length_append, length_leBytes, length_flatMap_leBytes, length_deltaBytes, hrecs]
  simp

section
variable {s} {seq : Nat} {rest : List Byte} (hrest : rest.length = 488)
include hrest

theorem length_ckptHead : (ckptHead seq rest).length = 496 := by
  simp [ckptHead, length_leBytes, hrest]

theorem length_ckptFrame : (ckptFrame seq rest).length = 504 := by
  simp [ckptFrame, length_ckptHead hrest, length_leBytes]

/-- The fields of a checkpoint's bytes. -/
theorem ckptFrame_fields : (ckptFrame seq rest).take 4 = [0x56#8, 0x4E#8, 0x4B#8, 0x43#8] ∧
    ((ckptFrame seq rest).drop 4).take 4 = leBytes 4 seq ∧ (ckptFrame seq rest).take 0x1F0 = ckptHead seq rest ∧
      ((ckptFrame seq rest).drop 0x1F0).take 4 = leBytes 4 (crc32 (ckptHead seq rest)) := by
  have hhead := length_ckptHead (seq := seq) hrest
  have hseq := length_leBytes 4 seq
  have hcrc := length_leBytes 4 (crc32 (ckptHead seq rest))
  refine ⟨rfl, ?_, ?_, ?_⟩
  · simp [ckptFrame, ckptHead, hseq]
  · simp [ckptFrame, hhead]
  · simp [ckptFrame, hhead, hcrc]

/-- A slot whose body and commit word stand in clean words is complete (R111). -/
theorem ckptSlot_of_stands {slot : Nat} (hseq : seq < 2 ^ 32) (hbody : s.Stands (ckptAddr slot) (ckptFrame seq rest))
    (hcommit : s.Stands (ckptAddr slot + 0x1F8) (ckptCommit seq rest)) : s.ckptSlot slot = some (seq, ckptFrame seq rest) := by
  have hlen := length_ckptFrame (seq := seq) hrest
  have hany := mramAny_of_stands hbody (by omega)
  have hword := mramWord_of_stands hcommit (by simp [ckptCommit, length_leBytes])
  obtain ⟨hmagic, hseqBytes, hhead, hcrcBytes⟩ := ckptFrame_fields (seq := seq) hrest
  have hseqVal : leVal (leBytes 4 seq) = seq := leVal_leBytes 4 seq hseq
  have hcrcVal : leVal (leBytes 4 (crc32 (ckptHead seq rest))) = crc32 (ckptHead seq rest) := leVal_leBytes 4 _ (crc32_lt _)
  have hcommitVal : leVal (ckptCommit seq rest) = seq * 2 ^ 32 + crc32 (ckptHead seq rest) := by
    rw [ckptCommit, leVal_append, hseqVal, hcrcVal, length_leBytes]
    ring
  rw [hlen] at hany
  simp only [ckptSlot, hany, hword, hmagic, hseqBytes, hhead, hcrcBytes, hseqVal, hcrcVal, hcommitVal]
  simp [leVal]

end

/-! The checkpoint that ends (R109, R110). -/

/-- The state in which KEEP.STAT shows no checkpoint. -/
def ckptIdle (s : State) : State := { (s.wr F.KEEP_CKBUSY 0).wr F.KEEP_CKREQ 0 with keep := { s.keep with ckpt := none } }

theorem Stands.ckptIdle {s : State} {a : Nat} {l : List Byte} (h : s.Stands a l) : s.ckptIdle.Stands a l := h

theorem ckptEnd_of_some {slot seq : Nat} {rest : List Byte} (hrest : rest.length = 488) (h : s.keep.ckpt = some (slot, ckptFrame seq rest)) :
    s.ckptEnd = ((s.mramWrite (ckptAddr slot) (ckptFrame seq rest)).mramWrite (ckptAddr slot + 0x1F8) (ckptCommit seq rest)).ckptIdle := by
  obtain ⟨-, hseqBytes, -, hcrcBytes⟩ := ckptFrame_fields (seq := seq) hrest
  simp only [ckptEnd, h, hseqBytes, hcrcBytes]
  rfl

/-- Its body and then its commit word stand in the slot. -/
theorem stands_ckptEnd {slot seq : Nat} {rest : List Byte} (hrest : rest.length = 488) (hweak : s.ecc.weak = [])
    (h : s.keep.ckpt = some (slot, ckptFrame seq rest)) : s.ckptEnd.Stands (ckptAddr slot) (ckptFrame seq rest) ∧
      s.ckptEnd.Stands (ckptAddr slot + 0x1F8) (ckptCommit seq rest) := by
  have hlen := length_ckptFrame (seq := seq) hrest
  have hcommit : (ckptCommit seq rest).length = 8 := by simp [ckptCommit, length_leBytes]
  have haddr : ckptAddr slot % 8 = 0 := by unfold ckptAddr; omega
  have hweak' : (s.mramWrite (ckptAddr slot) (ckptFrame seq rest)).ecc.weak = [] := (weak_of_ladderView (s.ladderView_mramWrite _ _)).trans hweak
  have hbody : (s.mramWrite (ckptAddr slot) (ckptFrame seq rest)).Stands (ckptAddr slot) (ckptFrame seq rest) :=
    stands_mramWrite hweak haddr (by omega)
  rw [ckptEnd_of_some s hrest h]
  exact ⟨(Stands.mramWrite hweak' (by omega) (by omega) hbody (.inl (by omega))).ckptIdle,
    (stands_mramWrite hweak' (by omega) (by omega)).ckptIdle⟩

/-! The checkpoint that begins (R110). -/

/-- The state in which the checkpoint of slot `slot` and body `body` is in progress. -/
def ckptBusy (s : State) (slot : Nat) (body : List Byte) : State :=
  { ((s.wrap F.KEEP_CKSEQ).wrap F.KEEP_NEXTSLOT).wr F.KEEP_CKBUSY 1 with
    keep := { ((s.wrap F.KEEP_CKSEQ).wrap F.KEEP_NEXTSLOT).keep with ckpt := some (slot, body) } }

theorem ckptBegin_eq (kind rail time : Nat) : s.ckptBegin kind rail time =
    (s.mramWrite (ckptAddr (s.rd F.KEEP_NEXTSLOT) + 0x1F8) (leBytes 8 0)).ckptBusy (s.rd F.KEEP_NEXTSLOT) (s.ckptBody kind rail time) := (rfl)

theorem ckptBusy_kept (slot : Nat) (body : List Byte) : (s.ckptBusy slot body).jrnl = s.jrnl ∧
    (s.ckptBusy slot body).keep.ckpt = some (slot, body) := by
  simp [ckptBusy]

/-- With no journal record waiting a pin reset completes the checkpoint begun. -/
theorem ckptSlot_pinReset (hweak : s.ecc.weak = []) (hqueue : s.jrnl.queue = []) (m : Bool) (kind rail time : Nat) :
    (((s.ckptBegin kind rail time).resetSoft 2).sampleTmode m).ckptSlot (s.rd F.KEEP_NEXTSLOT) =
      some (s.rd F.KEEP_CKSEQ, s.ckptBody kind rail time) := by
  have hrest := s.length_ckptRest kind rail time
  have hlen := length_ckptFrame (seq := s.rd F.KEEP_CKSEQ) hrest
  have hseq : s.rd F.KEEP_CKSEQ < 2 ^ 32 := s.rd_lt _
  have hslot : s.rd F.KEEP_NEXTSLOT < 2 ^ 3 := s.rd_lt _
  have haddr : ckptAddr (s.rd F.KEEP_NEXTSLOT) ≤ 0x820E00 := by unfold ckptAddr; omega
  have hbase : 0x820000 ≤ ckptAddr (s.rd F.KEEP_NEXTSLOT) := Nat.le_add_right _ _
  have hweak' : (s.ckptBegin kind rail time).ecc.weak = [] := (weak_of_ladderView (s.ladderView_ckptBegin _ _ _)).trans hweak
  obtain ⟨hjrnl, hckpt⟩ := ckptBusy_kept (s.mramWrite (ckptAddr (s.rd F.KEEP_NEXTSLOT) + 0x1F8) (leBytes 8 0)) (s.rd F.KEEP_NEXTSLOT)
    (s.ckptBody kind rail time)
  rw [← ckptBegin_eq, jrnl_mramWrite hweak] at hjrnl
  rw [← ckptBegin_eq, ckptBody_eq] at hckpt
  generalize s.ckptBegin kind rail time = b at hweak' hjrnl hckpt ⊢
  obtain ⟨hbody, hcommit⟩ := b.stands_ckptEnd hrest hweak' hckpt
  have hend : b.recordsEnd = b.ckptEnd := by simp [recordsEnd, hjrnl, hqueue]
  have hcommitLen : (ckptCommit (s.rd F.KEEP_CKSEQ) (s.ckptRest kind rail time)).length = 8 := by simp [ckptCommit, length_leBytes]
  rw [resetSoft, hend, ckptBody_eq]
  exact ckptSlot_of_stands hrest hseq ((hbody.resetTo (by omega) (by omega) _ _).sampleTmode m)
    ((hcommit.resetTo (by omega) (by omega) _ _).sampleTmode m)

end State

open State

/-- A periodic checkpoint begins in RUN while none is in progress. -/
theorem exec_periodicCheckpoint {s : State} (hper : s.rd F.KEEP_CKPER ≠ 0) (hrung : s.rung = 0) (hphase : s.phase = .up)
    (hbusy : s.rd F.KEEP_CKBUSY = 0) :
    exec .periodicCheckpoint s = .next (s.ckptBegin 2 0 (if s.timeRuns = true then s.now64 else 0)) := by
  have hexec : exec .periodicCheckpoint s = .next (if s.rd F.KEEP_CKPER != 0 && s.rung = 0 && s.phase == .up then s.ckptStart 2 else s) := rfl
  simp [hexec, hper, hrung, hphase, ckptStart, bit_of_rd_zero hbusy]

/-- Settles O9: the front record stands by `byte_recordsEnd_of_record` and the checkpoint by `ckptSlot_pinReset`, that a pin reset completes it
being the model's reading (log 29); the reset itself leaves every byte of the MRAM. -/
theorem resetCompletesTheRecordBeingWritten : Obligations.ResetCompletesTheRecordBeingWritten := by
  refine ⟨fun m s r q hphase hweak hckpt hqueue => ?record, fun m s hphase hckpt hqueue => ?idle,
    fun m s b hweak hper hrung hphase hbusy hqueue hexec => ?checkpoint⟩
  case record =>
    have hbyte := s.byte_recordsEnd_of_record hweak hckpt hqueue
    have hmram {a : Nat} := s.byte_pinReset m (a := a)
    refine ⟨_, exec_pinReset hphase m, s.queue_pinReset m, fun i hi => ?_, fun a ha hout => ?_⟩
    · have hin : inMram (0x800000 + 32 * (r.seq % 4096) + i) = true := by
        simp only [inMram, Bool.and_eq_true, decide_eq_true_eq]
        omega
      rw [hmram hin, hbyte, if_pos (by omega), Nat.add_sub_cancel_left]
    · rw [hmram ha, hbyte, if_neg hout]
  case idle =>
    refine ⟨_, exec_pinReset hphase m, s.queue_pinReset m, fun a ha => ?_⟩
    rw [s.byte_pinReset m ha, recordsEnd_of_none s hckpt hqueue]
  case checkpoint =>
    rw [exec_periodicCheckpoint hper hrung hphase hbusy] at hexec
    obtain rfl := Host.Outcome.next.inj hexec
    have hview := s.ladderView_ckptBegin 2 0 (if s.timeRuns = true then s.now64 else 0)
    have hup := (phase_of_ladderView hview).trans hphase
    exact ⟨_, exec_pinReset (fun h => absurd (hup.symm.trans h) (by decide)) m, s.ckptSlot_pinReset hweak hqueue m 2 0 _⟩

end Sys2Proof.Machine
end

section
/-! SUPPORT. What a read of memory returns and writes back (R419 to R424): the layer below the statement on the copy of a DATA block. -/

namespace Sys2Proof.Machine

/-- What a read finds in a word that is invalid or not, holds `d` and has the syndrome `syn`: the value and syndrome that it writes back, if it
does, with the value read and whether that is poisoned. -/
def cellRead (invalid : Bool) (d : Nat) (syn : Byte) : Option (Nat × Byte) × Nat × Bool :=
  if invalid = true then (none, 0, false)
  else if syn.toNat = 0 then (none, d, false)
  else if syn.toNat = 0xFF then (none, d, true)
  else
    match eccBit syn.toNat with
    | some i => (some (d ^^^ 2 ^ i, 0), d ^^^ 2 ^ i, false)
    | none => if popcount 8 syn.toNat = 1 then (some (d, 0), d, false) else (some (d, 0xFF), d, true)

namespace State

/-- The memory of a state: its bytes, syndromes and validity. -/
def cells (s : State) : List Host.Cell × SMap Byte × SMap Bool := (s.mem, s.chk, s.valid)

variable (s : State)

/-! What leaves the memory alone. -/

theorem cells_of_kept {s t : State} (h : kept t = kept s) : cells t = cells s := congrArg (fun x => (x.mem, x.chk, x.valid)) h

theorem cells_wr (f : Fld) (v : Nat) : cells (s.wr f v) = cells s := (rfl)

theorem cells_detect (n : Nat) : cells (s.detect n) = cells s := cells_of_kept (kept_detect s n)

theorem cells_ipulse (pg b : Nat) : cells (s.ipulse pg b) = cells s := cells_of_kept (kept_ipulse s pg b)

theorem cells_sat (f : Fld) : cells (s.sat f) = cells s := cells_wr s f _

theorem cells_satBy (f : Fld) (k : Nat) : cells (s.satBy f k) = cells s := cells_wr s f _

theorem cells_setBit (f : Fld) (b : Bool) : cells (s.setBit f b) = cells s := cells_wr s f _

theorem cells_latch (f : Fld) : cells (s.latch f) = cells s := (rfl)

theorem cells_wear (a : Nat) : cells (s.wear a) = cells s := by
  unfold wear
  split
  · exact cells_sat s _
  · rfl

theorem cells_eccLast (a : Nat) (ue : Bool) (syn : Nat) : cells (s.eccLast a ue syn) = cells s := by
  unfold eccLast
  split
  · rfl
  · rw [apply_ite cells, cells_wr, cells_setBit, cells_wr, cells_wr, cells_latch, ite_self, cells_satBy]

theorem byte_of_cells {s t : State} (h : cells t = cells s) (a : Nat) : t.byte a = s.byte a := by
  have hmem : t.mem = s.mem := congrArg Prod.fst h
  rw [byte, hmem, byte]

theorem synd_of_cells {s t : State} (h : cells t = cells s) (a : Nat) : t.synd a = s.synd a := by
  have hchk : t.chk = s.chk := congrArg (fun c => c.2.1) h
  rw [synd, hchk, synd]

theorem isInvalid_of_cells {s t : State} (h : cells t = cells s) (a : Nat) : t.isInvalid a = s.isInvalid a := by
  have hvalid : t.valid = s.valid := congrArg (fun c => c.2.2) h
  rw [isInvalid, hvalid, isInvalid]

/-- A store makes its own word valid and leaves the others as they are. -/
theorem isInvalid_store64_eq (a d b : Nat) (syn : Byte) :
    (s.store64 a d syn).isInvalid b = if b / 8 = a / 8 then false else s.isInvalid b := by
  have hput (l : List Byte) : ∀ (t : State) (c : Nat), (t.putBytes c l).valid = t.valid := by
    induction l with
    | nil => exact fun _ _ => rfl
    | cons x l ih => exact fun t c => ih _ _
  have hvalid : (s.store64 a d syn).valid = SMap.set (fun _ => false) s.valid (a / 8) true := by
    rw [store64_eq_marked, marked, hput]
  rw [isInvalid, hvalid, isInvalid]
  by_cases h : b / 8 = a / 8
  · rw [h, SMap.get_set_self, if_pos rfl]
    simp
  · rw [SMap.get_set_ne _ _ _ h, if_neg h]

/-! A read of one word. -/

/-- The state after the write-back `o` to the word at `a`. -/
def healed (s : State) (a : Nat) (o : Option (Nat × Byte)) : State :=
  match o with
  | none => s
  | some (v, syn) => s.store64 a v syn

theorem cells_writeBack_told (a v : Nat) (syn : Byte) (ue : Bool) (x pg b n : Nat) :
    cells (((((s.writeBack a v syn).eccLast a ue x).ipulse pg b).detect n)) = cells (s.store64 a v syn) := by
  rw [cells_detect, cells_ipulse, cells_eccLast, writeBack, cells_wear]

/-- A read's value goes by its word alone, and so does what it writes back there. -/
theorem read64_eq (a : Nat) :
    (s.read64 a).2 = (cellRead (s.isInvalid (a / 8 * 8)) (s.raw64 (a / 8 * 8)) (s.synd (a / 8 * 8))).2 ∧
      cells (s.read64 a).1 =
        cells (s.healed (a / 8 * 8) (cellRead (s.isInvalid (a / 8 * 8)) (s.raw64 (a / 8 * 8)) (s.synd (a / 8 * 8))).1) := by
  by_cases hinvalid : s.isInvalid (a / 8 * 8) = true
  · simp [read64, cellRead, hinvalid, healed]
  by_cases hclean : (s.synd (a / 8 * 8)).toNat = 0
  · simp [read64, cellRead, hinvalid, hclean, healed]
  by_cases hpoison : (s.synd (a / 8 * 8)).toNat = 0xFF
  · simp [read64, cellRead, hinvalid, hpoison, healed, cells_sat]
  rcases hbit : eccBit (s.synd (a / 8 * 8)).toNat with _ | i
  · by_cases hparity : popcount 8 (s.synd (a / 8 * 8)).toNat = 1
    · simp [read64, cellRead, hinvalid, hclean, hpoison, hbit, hparity, healed, cells_writeBack_told]
    · simp [read64, cellRead, hinvalid, hclean, hpoison, hbit, hparity, healed, cells_writeBack_told]
  · simp [read64, cellRead, hinvalid, hclean, hpoison, hbit, healed, cells_writeBack_told]

/-- A read changes no byte outside its word. -/
theorem byte_read64_of_ne (a : Nat) {b : Nat} (hb : b < a / 8 * 8 ∨ a / 8 * 8 + 8 ≤ b) : (s.read64 a).1.byte b = s.byte b := by
  rw [byte_of_cells (s.read64_eq a).2]
  generalize (cellRead _ _ _).1 = o
  rcases o with _ | ⟨v, syn⟩
  · rfl
  · rw [healed, byte_store64, if_neg (by omega)]

/-! Two memories that agree from an address on. -/

/-- From `c` on the memories of `s` and `t` agree. -/
def AgreeFrom (c : Nat) (s t : State) : Prop :=
  ∀ a, c ≤ a → t.byte a = s.byte a ∧ t.synd a = s.synd a ∧ t.isInvalid a = s.isInvalid a

section
variable {s} {t : State} {c : Nat}

theorem AgreeFrom.of_cells {s' t' : State} (h : AgreeFrom c s t) (hs : cells s' = cells s) (ht : cells t' = cells t) : AgreeFrom c s' t' := by
  intro a ha
  rw [byte_of_cells hs, byte_of_cells ht, synd_of_cells hs, synd_of_cells ht, isInvalid_of_cells hs, isInvalid_of_cells ht]
  exact h a ha

theorem AgreeFrom.raw64 (h : AgreeFrom c s t) {a : Nat} (ha : c ≤ a) : t.raw64 a = s.raw64 a := by
  have hbyte (i : Nat) : t.byte (a + i) = s.byte (a + i) := (h (a + i) (by omega)).1
  simp [State.raw64, bytes, hbyte]

theorem AgreeFrom.healed (h : AgreeFrom c s t) (a : Nat) (o : Option (Nat × Byte)) : AgreeFrom c (s.healed a o) (t.healed a o) := by
  rcases o with _ | ⟨v, syn⟩
  · exact h
  · intro b hb
    obtain ⟨hbyte, hsynd, hvalid⟩ := h b hb
    simp only [State.healed, byte_store64, synd_store64_eq, isInvalid_store64_eq, hbyte, hsynd, hvalid, and_self]

/-- Reads of a word in the part that agrees return the same, and leave that part agreeing. -/
theorem AgreeFrom.read64 (h : AgreeFrom c s t) {a : Nat} (ha : c ≤ a / 8 * 8) :
    (t.read64 a).2 = (s.read64 a).2 ∧ AgreeFrom c (s.read64 a).1 (t.read64 a).1 := by
  obtain ⟨hsval, hscells⟩ := s.read64_eq a
  obtain ⟨htval, htcells⟩ := t.read64_eq a
  obtain ⟨-, hsynd, hvalid⟩ := h _ ha
  rw [h.raw64 ha, hsynd, hvalid] at htval htcells
  exact ⟨htval.trans hsval.symm, (h.healed _ _).of_cells hscells htcells⟩

end

/-! A read of words in a row. -/

theorem readWords_pair {a : Nat} (ha : a % 8 = 0) (n : Nat) : s.readWords a (n + 2) =
    (((s.read64 a).1.readWords (a + 8) n).1, ((halves (s.read64 a).2.1).1, (s.read64 a).2.2) :: ((halves (s.read64 a).2.1).2, (s.read64 a).2.2) ::
      ((s.read64 a).1.readWords (a + 8) n).2) := by
  simp [readWords, ha]

/-- A read of whole words changes no byte outside them. -/
theorem byte_readWords_of_ne (k : Nat) : ∀ (s : State) {a b : Nat}, a % 8 = 0 → (b < a ∨ a + 8 * k ≤ b) →
    (s.readWords a (2 * k)).1.byte b = s.byte b := by
  induction k with
  | zero => exact fun _ _ _ _ _ => rfl
  | succ k ih =>
    intro s a b ha hb
    rw [Nat.mul_succ, readWords_pair s ha, ih _ (by omega) (by omega), byte_read64_of_ne _ _ (by omega)]

theorem AgreeFrom.readWords {c : Nat} (k : Nat) : ∀ {s t : State} {a : Nat}, AgreeFrom c s t → a % 8 = 0 → c ≤ a →
    (t.readWords a (2 * k)).2 = (s.readWords a (2 * k)).2 := by
  induction k with
  | zero => exact fun _ _ _ => rfl
  | succ k ih =>
    intro s t a h ha hc
    obtain ⟨hval, hagree⟩ := h.read64 (a := a) (by omega)
    rw [Nat.mul_succ, readWords_pair s ha, readWords_pair t ha, hval, ih hagree (by omega) (by omega)]

/-- The 32 bytes of a digest: four words. -/
theorem byte_readBytes_of_ne {a b : Nat} (ha : a % 8 = 0) (hb : b < a ∨ a + 32 ≤ b) : (s.readBytes a 32).1.byte b = s.byte b :=
  byte_readWords_of_ne 4 s ha (by omega)

theorem AgreeFrom.readBytes {s t : State} {a c : Nat} (h : AgreeFrom c s t) (ha : a % 8 = 0) (hc : c ≤ a) :
    (t.readBytes a 32).2 = (s.readBytes a 32).2 := by
  have hwords := AgreeFrom.readWords 4 h ha hc
  simp only [State.readBytes]
  rw [hwords]

/-! Of the part that the statements on boot and the rungs speak of a read changes nothing. -/

@[simp] theorem ladderView_store64 (a d : Nat) (syn : Byte) : ladderView (s.store64 a d syn) = ladderView s := by
  simp [store64]

@[simp] theorem ladderView_eccLast (a : Nat) (ue : Bool) (syn : Nat) : ladderView (s.eccLast a ue syn) = ladderView s := by
  have hce (k : Nat) : 0x4000 ≤ (F.ECC_CECNT k).addr := Nat.le_add_right_of_le (by decide)
  have hue (k : Nat) : 0x4000 ≤ (F.ECC_UECNT k).addr := Nat.le_add_right_of_le (by decide)
  unfold eccLast
  split
  · rfl
  · cases ue <;> simp [apply_ite ladderView, hce, hue, F.ECC_LASTVALID, F.ECC_LASTARR, F.ECC_LASTOFS, F.ECC_LASTUE, F.ECC_LASTSYN]

@[simp] theorem ladderView_read64 (a : Nat) : ladderView (s.read64 a).1 = ladderView s := by
  unfold read64
  dsimp only
  split
  · rfl
  · split
    · rfl
    · split
      · exact ladderView_sat s (by decide)
      · split
        · simp [writeBack, Pg.ECC]
        · split <;> simp [writeBack, Pg.ECC]

theorem ladderView_readWords (k : Nat) : ∀ (s : State) {a : Nat}, a % 8 = 0 → ladderView (s.readWords a (2 * k)).1 = ladderView s := by
  induction k with
  | zero => exact fun _ _ _ => rfl
  | succ k ih =>
    intro s a ha
    rw [Nat.mul_succ, readWords_pair s ha, ih _ (by omega), ladderView_read64]

theorem ladderView_readBytes {a : Nat} (ha : a % 8 = 0) : ladderView (s.readBytes a 32).1 = ladderView s := ladderView_readWords 4 s ha

/-! A block written outside the MRAM. -/

@[simp] theorem ladderView_writeBytes (a : Nat) (l : List Byte) (p : Bool) : ladderView (s.writeBytes a l p) = ladderView s := by
  simp [writeBytes]

section
variable {s} {a : Nat} (ha : a % 8 = 0)
include ha

theorem byte_writeBytes (l : List Byte) (b : Nat) : (s.writeBytes a l false).byte b =
    if a ≤ b ∧ b < a + 8 * ((l.length + 7) / 8) then l.getD (b - a) 0 else s.byte b :=
  byte_of_stores (u := fun k => s.each k fun s i => s.write64 (a + 8 * i) (leVal ((l.drop (8 * i)).take 8)) false) ha
    (fun k b => by rw [each_succ]; rfl) _ b

theorem synd_writeBytes (l : List Byte) (b : Nat) : (s.writeBytes a l false).synd b =
    if a ≤ b ∧ b < a + 8 * ((l.length + 7) / 8) then 0 else s.synd b :=
  synd_of_stores (u := fun k => s.each k fun s i => s.write64 (a + 8 * i) (leVal ((l.drop (8 * i)).take 8)) false) ha
    (fun k b => by rw [each_succ]; rfl) _ b

theorem isInvalid_writeBytes_of_le (l : List Byte) {b : Nat} (hb : a + 8 * ((l.length + 7) / 8) ≤ b) :
    (s.writeBytes a l false).isInvalid b = s.isInvalid b := by
  have hwords (k : Nat) (hk : a + 8 * k ≤ b) :
      (s.each k fun s i => s.write64 (a + 8 * i) (leVal ((l.drop (8 * i)).take 8)) false).isInvalid b = s.isInvalid b := by
    induction k with
    | zero => rfl
    | succ k ih => rw [each_succ, write64, isInvalid_store64_eq, if_neg (by omega), ih (by omega)]
  exact hwords _ hb

/-- Above the block nothing changes. -/
theorem agreeFrom_writeBytes (l : List Byte) {c : Nat} (hc : a + 8 * ((l.length + 7) / 8) ≤ c) : AgreeFrom c s (s.writeBytes a l false) := by
  intro b hb
  rw [byte_writeBytes ha, synd_writeBytes ha, isInvalid_writeBytes_of_le ha l (by omega), if_neg (by omega), if_neg (by omega)]
  exact ⟨rfl, rfl, rfl⟩

end

/-! A part of memory made invalid (R424). -/

/-- Every word of the part that lies in shared RAM is invalid afterwards. -/
theorem isInvalid_invalidate {a n b : Nat} (hlo : 0x300000 ≤ b) (hhi : b < 0x400000) (hb : a / 8 ≤ b / 8 ∧ b / 8 < (a + n) / 8) :
    (s.invalidate a n).isInvalid b = true := by
  have hpass : (!(decide (a / 8 ≤ b / 8) && decide (b / 8 < (a + n) / 8))) = false := by simp [hb]
  have hgone : SMap.get (fun _ => false) (s.invalidate a n).valid (b / 8) = false :=
    SMap.get_filter_keep (fun _ => false) (fun k => !(decide (a / 8 ≤ k) && decide (k < (a + n) / 8))) s.valid hpass
  simp [isInvalid, arrayOf, hlo, hhi, hgone]

end State
end Sys2Proof.Machine
end

section
/-! SUPPORT. The copy of a DATA block (R91, R93, R424): the statement `DataBlockCopy`. -/

namespace Sys2Proof.Machine
namespace State

variable {s t u : State}

/-! The word of BOOT.DLCTL. -/

/-- The state that holds the entry and block which the word `v` names. -/
def copyAsked (u : State) (v : Word) : State := (u.wr F.BOOT_DLENT (F.BOOT_DLENT.of v)).wr F.BOOT_DLBLK (F.BOOT_DLBLK.of v)

theorem copyAsked_fields (u : State) (v : Word) :
    (u.copyAsked v).rd F.BOOT_DLENT = F.BOOT_DLENT.of v ∧ (u.copyAsked v).rd F.BOOT_DLBLK = F.BOOT_DLBLK.of v ∧
      (u.copyAsked v).rd F.BOOT_DLGO = u.rd F.BOOT_DLGO ∧ (u.copyAsked v).rd F.BOOT_DLDST = u.rd F.BOOT_DLDST := by
  refine ⟨?_, ?_, ?_, ?_⟩
  · rw [copyAsked, rd_wr_apart _ _ (by decide), rd_wr_self _ _ _ (by decide) (by decide)]
    exact Nat.mod_eq_of_lt (Fld.of_lt _ v)
  · rw [copyAsked, rd_wr_self _ _ _ (by decide) (by decide)]
    exact Nat.mod_eq_of_lt (Fld.of_lt _ v)
  · rw [copyAsked, rd_wr_apart _ _ (by decide), rd_wr_apart _ _ (by decide)]
  · rw [copyAsked, rd_wr_apart _ _ (by decide), rd_wr_apart _ _ (by decide)]

theorem onlyRegs_copyAsked (u : State) (v : Word) : OnlyRegs [0x3080] u (u.copyAsked v) :=
  ((OnlyRegs.refl _ u).wr _ (by decide)).wr _ (by decide)

/-- While a copy runs its entry and block alone are stored. -/
theorem copyAsked_outcome (v : Word) (h : u.rd F.BOOT_DLGO = 1) :
    let t := (u.copyAsked v).settle
    t.rd F.BOOT_DLGO = 1 ∧ t.rd F.BOOT_DLENT = F.BOOT_DLENT.of v ∧ t.rd F.BOOT_DLBLK = F.BOOT_DLBLK.of v ∧ OnlyRegs [0x3080] u t := by
  obtain ⟨hent, hblk, hgo, -⟩ := u.copyAsked_fields v
  refine ⟨?_, ?_, ?_, (onlyRegs_copyAsked u v).settle⟩
  · rw [settle_rd, hgo, h]
  · rw [settle_rd, hent]
  · rw [settle_rd, hblk]

/-- The state in which the copy is `c`. -/
def withCopy (u : State) (c : Option (Nat × Nat × Nat)) : State := { u with boot := { u.boot with copy := c } }

theorem withCopy_wr (u : State) (f : Fld) (x : Nat) (c : Option (Nat × Nat × Nat)) : (u.wr f x).withCopy c = (u.withCopy c).wr f x := (rfl)

theorem wr_with_copy (u : State) (f : Fld) (x : Nat) (c : Option (Nat × Nat × Nat)) :
    { u.wr f x with boot := { u.boot with copy := c } } = (u.wr f x).withCopy c := (rfl)

theorem dataEnts_withCopy (u : State) (c : Option (Nat × Nat × Nat)) : (u.withCopy c).boot.dataEnts = u.boot.dataEnts := (rfl)

theorem cells_withCopy (u : State) (c : Option (Nat × Nat × Nat)) : cells (u.withCopy c) = cells u := (rfl)

theorem rd_withCopy (u : State) (c : Option (Nat × Nat × Nat)) (f : Fld) : (u.withCopy c).rd f = u.rd f := (rfl)

/-- The state in which the block of the copy `c` is being read. -/
def copyBegun (u : State) (v : Word) (c : Nat × Nat × Nat) : State := ((u.copyAsked v).wr F.BOOT_DLGO 1).withCopy (some c)

theorem copyBegun_eq (u : State) (v : Word) (c : Nat × Nat × Nat) : u.copyBegun v c = ((u.withCopy (some c)).copyAsked v).wr F.BOOT_DLGO 1 := by
  rw [copyBegun, withCopy_wr, copyAsked, withCopy_wr, withCopy_wr]
  rfl

/-- The fields of a word are those of the word with GO set. -/
theorem dlctl_put_go (v : Word) : F.BOOT_DLENT.of (F.BOOT_DLGO.put v 1) = F.BOOT_DLENT.of v ∧
    F.BOOT_DLBLK.of (F.BOOT_DLGO.put v 1) = F.BOOT_DLBLK.of v ∧ F.BOOT_DLGO.on (F.BOOT_DLGO.put v 1) = true :=
  ⟨Fld.of_put_beside (f := F.BOOT_DLGO) (g := F.BOOT_DLENT) v 1 (by decide),
    Fld.of_put_beside (f := F.BOOT_DLGO) (g := F.BOOT_DLBLK) v 1 (by decide), Fld.on_put_one _ v (by decide) (by decide)⟩

/-- The state after a word with GO set while no copy runs. -/
def copyAnswered (u : State) (v : Word) : State :=
  match u.boot.dataEnts.find? fun e => e.1 == F.BOOT_DLENT.of v with
  | none => (u.copyAsked v).wr F.BOOT_DLRES 1
  | some e =>
    if (e.2.1 + 65535) / 65536 ≤ F.BOOT_DLBLK.of v then (u.copyAsked v).wr F.BOOT_DLRES 1
    else u.copyBegun v (F.BOOT_DLENT.of v, F.BOOT_DLBLK.of v, u.rd F.BOOT_DLDST)

theorem dlctlWrite_put_go (u : State) (v : Word) :
    u.dlctlWrite (F.BOOT_DLGO.put v 1) = (if u.rd F.BOOT_DLGO = 0 then u.copyAnswered v else u.copyAsked v, .ok) := by
  obtain ⟨hent, hblk, hon⟩ := dlctl_put_go v
  obtain ⟨hentRd, hblkRd, hgo, hdst⟩ := u.copyAsked_fields v
  have hents : (u.copyAsked v).boot.dataEnts = u.boot.dataEnts := by rw [copyAsked, wr_boot, wr_boot]
  have hasked : (u.wr F.BOOT_DLENT (F.BOOT_DLENT.of v)).wr F.BOOT_DLBLK (F.BOOT_DLBLK.of v) = u.copyAsked v := rfl
  unfold dlctlWrite copyAnswered
  simp only [hent, hblk, hon, hasked, hentRd, hblkRd, hdst, bit, hgo, wr_with_copy]
  rw [← hents]
  by_cases hidle : u.rd F.BOOT_DLGO = 0
  · simp only [hidle, if_true]
    cases (u.copyAsked v).boot.dataEnts.find? fun e => e.1 == F.BOOT_DLENT.of v with
    | none => simp
    | some e => by_cases hheld : (e.2.1 + 65535) / 65536 ≤ F.BOOT_DLBLK.of v <;> simp [hheld, copyBegun]
  · simp [hidle]

theorem copyAnswered_of_held {v : Word} {e : Nat × Nat × Nat} (hfind : u.boot.dataEnts.find? (fun e => e.1 == F.BOOT_DLENT.of v) = some e)
    (h : F.BOOT_DLBLK.of v < (e.2.1 + 65535) / 65536) :
    u.copyAnswered v = u.copyBegun v (F.BOOT_DLENT.of v, F.BOOT_DLBLK.of v, u.rd F.BOOT_DLDST) := by
  simp [copyAnswered, hfind, Nat.not_le.mpr h]

theorem copyAnswered_of_none {v : Word} (h : ∀ e, u.boot.dataEnts.find? (fun e => e.1 == F.BOOT_DLENT.of v) = some e →
    (e.2.1 + 65535) / 65536 ≤ F.BOOT_DLBLK.of v) : u.copyAnswered v = (u.copyAsked v).wr F.BOOT_DLRES 1 := by
  rcases hfind : u.boot.dataEnts.find? (fun e => e.1 == F.BOOT_DLENT.of v) with _ | e
  · simp [copyAnswered, hfind]
  · simp [copyAnswered, hfind, h e hfind]

/-- The copy begins: GO reads 1 and the entry, block and destination are kept. -/
theorem copyBegun_outcome (u : State) (v : Word) (c : Nat × Nat × Nat) :
    let t := (u.copyBegun v c).settle
    t.rd F.BOOT_DLGO = 1 ∧ t.rd F.BOOT_DLENT = F.BOOT_DLENT.of v ∧ t.rd F.BOOT_DLBLK = F.BOOT_DLBLK.of v ∧ t.boot.copy = some c ∧
      OnlyRegs [0x3080] { u with boot := t.boot } t := by
  obtain ⟨hent, hblk, -, -⟩ := (u.withCopy (some c)).copyAsked_fields v
  rw [copyBegun_eq]
  refine ⟨?_, ?_, ?_, rfl, ((onlyRegs_copyAsked _ v).wr _ (by decide)).settle⟩
  · rw [settle_rd, rd_wr_self _ _ _ (by decide) (by decide)]
    decide
  · rw [settle_rd, rd_wr_apart _ _ (by decide), hent]
  · rw [settle_rd, rd_wr_apart _ _ (by decide), hblk]

/-- A block that no loaded entry holds: RANGE. -/
theorem copyRefused_outcome (v : Word) (h : u.rd F.BOOT_DLGO = 0) :
    let t := ((u.copyAsked v).wr F.BOOT_DLRES 1).settle
    t.rd F.BOOT_DLGO = 0 ∧ t.rd F.BOOT_DLRES = 1 ∧ OnlyRegs [0x3080, 0x3088] u t := by
  obtain ⟨-, -, hgo, -⟩ := u.copyAsked_fields v
  refine ⟨?_, ?_, ((((OnlyRegs.refl _ u).wr _ (by decide)).wr _ (by decide)).wr _ (by decide)).settle⟩
  · rw [settle_rd, rd_wr_apart _ _ (by decide), hgo, h]
  · rw [settle_rd, rd_wr_self _ _ _ (by decide) (by decide)]
    decide

/-! The end of a copy. -/

/-- The state in which no copy runs. -/
def copyIdle (s : State) : State := (s.wr F.BOOT_DLGO 0).withCopy none

theorem copyIdle_fields (s : State) : s.copyIdle.rd F.BOOT_DLGO = 0 ∧ s.copyIdle.boot.copy = none ∧ cells s.copyIdle = cells s := by
  refine ⟨?_, rfl, ?_⟩
  · rw [copyIdle, rd_withCopy, rd_wr_self _ _ _ (by decide) (by decide), Nat.zero_mod]
  · rw [copyIdle, cells_withCopy, cells_wr]

theorem dataEnts_copyIdle (s : State) : s.copyIdle.boot.dataEnts = s.boot.dataEnts := by
  rw [copyIdle, dataEnts_withCopy, wr_boot]

/-- The digest at `d` read after the block `l` is stored at `a`. -/
def copyRead (s : State) (a d : Nat) (l : List Byte) : State × Option (List Byte) := (s.copyIdle.writeBytes a l false).readBytes d 32

/-- The end of the copy `(ent, blk, dst)` in a state in which no copy runs. -/
def copyEnd (u : State) (ent blk dst : Nat) (l : Option (List Byte)) : State :=
  match l, u.boot.dataEnts.find? fun e => e.1 == ent with
  | some l, some e =>
    let n := min 65536 (e.2.1 - 65536 * blk)
    let l := l.take n
    let r := (u.writeBytes (0x300000 + 65536 * dst) l false).readBytes (0x3FC000 + 32 * (e.2.2 + blk)) 32
    if l.length = n ∧ some (hash32 l) = r.2 then r.1.wr F.BOOT_DLRES 0
    else ((r.1.invalidate (0x300000 + 65536 * dst) 65536).wr F.BOOT_DLRES 2).detect 0x05
  | _, _ => u.wr F.BOOT_DLRES 3

theorem copyDone_of_some {ent blk dst : Nat} (hcopy : s.boot.copy = some (ent, blk, dst)) (l : Option (List Byte)) :
    s.copyDone l = s.copyIdle.copyEnd ent blk dst l := by
  simp only [copyDone, hcopy, wr_with_copy, copyIdle]
  rfl

theorem copyEnd_none (u : State) (ent blk dst : Nat) : u.copyEnd ent blk dst none = u.wr F.BOOT_DLRES 3 := (rfl)

/-- A block that was read is stored whole and its digest compared. -/
theorem copyEnd_of_block {blk dst : Nat} {ent : Nat} {e : Nat × Nat × Nat} {l : List Byte}
    (hfind : u.boot.dataEnts.find? (fun e => e.1 == ent) = some e) (hl : l.length = min 65536 (e.2.1 - 65536 * blk)) :
    u.copyEnd ent blk dst (some l) =
      if l.length = l.length ∧
          some (hash32 l) = ((u.writeBytes (0x300000 + 65536 * dst) l false).readBytes (0x3FC000 + 32 * (e.2.2 + blk)) 32).2 then
        ((u.writeBytes (0x300000 + 65536 * dst) l false).readBytes (0x3FC000 + 32 * (e.2.2 + blk)) 32).1.wr F.BOOT_DLRES 0
      else ((((u.writeBytes (0x300000 + 65536 * dst) l false).readBytes (0x3FC000 + 32 * (e.2.2 + blk)) 32).1.invalidate
        (0x300000 + 65536 * dst) 65536).wr F.BOOT_DLRES 2).detect 0x05 := by
  simp only [copyEnd, hfind, ← hl, List.take_length]

section
variable {ent blk dst : Nat} {e : Nat × Nat × Nat} {l : List Byte} (hcopy : s.boot.copy = some (ent, blk, dst))
  (hfind : s.boot.dataEnts.find? (fun e => e.1 == ent) = some e) (hl : l.length = min 65536 (e.2.1 - 65536 * blk))
include hcopy hfind hl

theorem copyDone_of_block : s.copyDone (some l) =
    if l.length = l.length ∧ some (hash32 l) = (s.copyRead (0x300000 + 65536 * dst) (0x3FC000 + 32 * (e.2.2 + blk)) l).2 then
      (s.copyRead (0x300000 + 65536 * dst) (0x3FC000 + 32 * (e.2.2 + blk)) l).1.wr F.BOOT_DLRES 0
    else (((s.copyRead (0x300000 + 65536 * dst) (0x3FC000 + 32 * (e.2.2 + blk)) l).1.invalidate (0x300000 + 65536 * dst) 65536).wr
      F.BOOT_DLRES 2).detect 0x05 := by
  rw [← dataEnts_copyIdle] at hfind
  rw [copyDone_of_some hcopy, copyEnd_of_block hfind hl, copyRead]

theorem copyDone_of_match (h : (s.copyRead (0x300000 + 65536 * dst) (0x3FC000 + 32 * (e.2.2 + blk)) l).2 = some (hash32 l)) :
    s.copyDone (some l) = (s.copyRead (0x300000 + 65536 * dst) (0x3FC000 + 32 * (e.2.2 + blk)) l).1.wr F.BOOT_DLRES 0 := by
  rw [copyDone_of_block hcopy hfind hl, if_pos ⟨rfl, h.symm⟩]

theorem copyDone_of_mismatch (h : (s.copyRead (0x300000 + 65536 * dst) (0x3FC000 + 32 * (e.2.2 + blk)) l).2 ≠ some (hash32 l)) :
    s.copyDone (some l) = (((s.copyRead (0x300000 + 65536 * dst) (0x3FC000 + 32 * (e.2.2 + blk)) l).1.invalidate (0x300000 + 65536 * dst)
      65536).wr F.BOOT_DLRES 2).detect 0x05 := by
  rw [copyDone_of_block hcopy hfind hl, if_neg fun hmatch => h hmatch.2.symm]

end

/-- A copy whose flash read failed. -/
theorem copyDone_none {c : Nat × Nat × Nat} (hcopy : s.boot.copy = some c) : s.copyDone none = s.copyIdle.wr F.BOOT_DLRES 3 := by
  rw [copyDone_of_some (ent := c.1) (blk := c.2.1) (dst := c.2.2) hcopy, copyEnd_none]

theorem wr_wr_with_copy (u : State) (f g : Fld) (x y : Nat) (c : Option (Nat × Nat × Nat)) :
    { (u.wr f x).wr g y with boot := { u.boot with copy := c } } = ((u.wr f x).withCopy c).wr g y := (rfl)

section
variable {a d : Nat} (ha : a % 8 = 0) (hd : d % 8 = 0)
include ha hd

/-- Where the digest lies above the block, it reads as it did before. -/
theorem digest_copyRead {l : List Byte} (h : a + 8 * ((l.length + 7) / 8) ≤ d) : (s.copyRead a d l).2 = (s.readBytes d 32).2 := by
  obtain ⟨-, -, hcells⟩ := s.copyIdle_fields
  have hidle : AgreeFrom d s s.copyIdle := fun b _ => ⟨byte_of_cells hcells b, synd_of_cells hcells b, isInvalid_of_cells hcells b⟩
  have hstored : AgreeFrom d s (s.copyIdle.writeBytes a l false) := by
    intro b hb
    obtain ⟨hbyte, hsynd, hvalid⟩ := hidle b hb
    have hwritten := agreeFrom_writeBytes (s := s.copyIdle) ha l h b hb
    rwa [hbyte, hsynd, hvalid] at hwritten
  exact AgreeFrom.readBytes hstored hd le_rfl

/-- Outside the digest the bytes are the block's, and those before it elsewhere. -/
theorem byte_copyRead (l : List Byte) {b : Nat} (hb : b < d ∨ d + 32 ≤ b) :
    (s.copyRead a d l).1.byte b = if a ≤ b ∧ b < a + 8 * ((l.length + 7) / 8) then l.getD (b - a) 0 else s.byte b := by
  obtain ⟨-, -, hcells⟩ := s.copyIdle_fields
  rw [copyRead, byte_readBytes_of_ne _ hd hb, byte_writeBytes ha, byte_of_cells hcells]

omit ha in
theorem ladderView_copyRead (l : List Byte) : ladderView (s.copyRead a d l).1 = ladderView s.copyIdle := by
  rw [copyRead, ladderView_readBytes _ hd, ladderView_writeBytes]

end

/-- The end with the digest that was kept: the block stands. -/
theorem copyMatched_outcome {r : State} (h : ladderView r = ladderView s.copyIdle) :
    (r.wr F.BOOT_DLRES 0).boot.copy = none ∧ (r.wr F.BOOT_DLRES 0).rd F.BOOT_DLGO = 0 ∧ (r.wr F.BOOT_DLRES 0).rd F.BOOT_DLRES = 0 ∧
      ∀ a, (r.wr F.BOOT_DLRES 0).byte a = r.byte a := by
  obtain ⟨hgo, hcopy, -⟩ := s.copyIdle_fields
  refine ⟨(copy_of_ladderView h).trans hcopy, ?_, ?_, fun _ => rfl⟩
  · rw [rd_wr_apart _ _ (by decide), rd_of_ladderView h (by decide), hgo]
  · rw [rd_wr_self _ _ _ (by decide) (by decide), Nat.zero_mod]

/-- The end with another: every word of the block's place is invalid. -/
theorem copyMismatched_outcome {r : State} (h : ladderView r = ladderView s.copyIdle) {dst : Nat} (hdst : dst < 15) :
    let t := ((r.invalidate (0x300000 + 65536 * dst) 65536).wr F.BOOT_DLRES 2).detect 0x05
    t.boot.copy = none ∧ t.rd F.BOOT_DLGO = 0 ∧ t.rd F.BOOT_DLRES = 2 ∧ (∀ a, t.byte a = r.byte a) ∧
      ∀ i, i < 8192 → t.isInvalid (0x300000 + 65536 * dst + 8 * i) = true := by
  obtain ⟨hgo, hcopy, -⟩ := s.copyIdle_fields
  have hview := ladderView_detect ((r.invalidate (0x300000 + 65536 * dst) 65536).wr F.BOOT_DLRES 2) 0x05
  have hcells := cells_detect ((r.invalidate (0x300000 + 65536 * dst) 65536).wr F.BOOT_DLRES 2) 0x05
  have hinvalid : ladderView (r.invalidate (0x300000 + 65536 * dst) 65536) = ladderView r := rfl
  refine ⟨(copy_of_ladderView hview).trans ((copy_of_ladderView h).trans hcopy), ?_, ?_, fun a => byte_of_cells hcells a, fun i hi => ?_⟩
  · rw [rd_of_ladderView hview (by decide), rd_wr_apart _ _ (by decide), rd_of_ladderView (hinvalid.trans h) (by decide), hgo]
  · rw [rd_of_ladderView hview (by decide), rd_wr_self _ _ _ (by decide) (by decide)]
    decide
  · rw [isInvalid_of_cells hcells, isInvalid_of_cells (cells_wr _ _ _)]
    exact isInvalid_invalidate _ (by omega) (by omega) (by omega)

end State

open State

theorem exec_dataBlockCopy {v : Word} {s u : State} (h : s.turn 0x3080 (F.BOOT_DLGO.put v 1) = some u) :
    exec (.dataBlockCopy v) s = .next (noteWrite 0x3080 (u.dlctlWrite (F.BOOT_DLGO.put v 1))).settle :=
  congrArg Host.Outcome.next (hostWord_of_turn s h)

theorem exec_dataBlockCopyDone (l : Option (List Byte)) (s : State) : exec (.dataBlockCopyDone l) s = .next (s.copyDone l) := (rfl)

/-- Settles O12: a word goes by `dlctlWrite_put_go`, a block that was read by `copyDone_of_block`; the short last block is the model's reading
(log 29), as are the digest places beyond 512 (log 36). -/
theorem dataBlockCopy : Obligations.DataBlockCopy := by
  refine ⟨fun v s u e hturn hidle hfind hheld => ?begins, fun v s u hturn hidle hnone => ?range, fun v s u hturn hruns => ?runs,
    fun s c hcopy => ?failed, fun s l ent blk dst e hcopy hdst hfind hl => ?block, fun s l hcopy => ?noCopy⟩
  case begins =>
    rw [exec_dataBlockCopy hturn, dlctlWrite_put_go, if_pos hidle, copyAnswered_of_held hfind hheld, noteWrite_ok]
    exact ⟨_, rfl, copyBegun_outcome u v _⟩
  case range =>
    rw [exec_dataBlockCopy hturn, dlctlWrite_put_go, if_pos hidle, copyAnswered_of_none hnone, noteWrite_ok]
    exact ⟨_, rfl, copyRefused_outcome v hidle⟩
  case runs =>
    rw [exec_dataBlockCopy hturn, dlctlWrite_put_go, if_neg (by omega), noteWrite_ok]
    exact ⟨_, rfl, copyAsked_outcome v hruns⟩
  case failed => rw [exec_dataBlockCopyDone, copyDone_none hcopy, wr_wr_with_copy, copyIdle]
  case block =>
    have hlen : l.length ≤ 65536 := by omega
    have hbase : (0x300000 + 65536 * dst) % 8 = 0 := by omega
    have hplace : (0x3FC000 + 32 * (e.2.2 + blk)) % 8 = 0 := by omega
    have hdigest := digest_copyRead (s := s) (l := l) hbase hplace (by omega)
    have hview := ladderView_copyRead (s := s) (a := 0x300000 + 65536 * dst) hplace l
    have hbyte {b : Nat} := byte_copyRead (s := s) hbase hplace l (b := b)
    have hmatched := copyDone_of_match hcopy hfind hl
    have hmismatched := copyDone_of_mismatch hcopy hfind hl
    rw [exec_dataBlockCopyDone]
    generalize s.copyRead (0x300000 + 65536 * dst) (0x3FC000 + 32 * (e.2.2 + blk)) l = r at hdigest hview hbyte hmatched hmismatched
    rw [hdigest] at hmatched hmismatched
    by_cases hmatch : (s.readBytes (0x3FC000 + 32 * (e.2.2 + blk)) 32).2 = some (hash32 l)
    · obtain ⟨hcopied, hgo, hres, hkept⟩ := copyMatched_outcome hview
      rw [hmatched hmatch]
      refine ⟨_, rfl, hcopied, hgo, fun a hblock hout => ?_, ?_⟩
      · rw [hkept, hbyte (by omega), if_neg (by omega)]
      · rw [if_pos hmatch]
        refine ⟨hres, fun i hi => ?_⟩
        rw [hkept, hbyte (by omega), if_pos (by omega), Nat.add_sub_cancel_left]
    · obtain ⟨hcopied, hgo, hres, hkept, hinvalid⟩ := copyMismatched_outcome hview hdst
      rw [hmismatched hmatch]
      refine ⟨_, rfl, hcopied, hgo, fun a hblock hout => ?_, ?_⟩
      · rw [hkept, hbyte (by omega), if_neg (by omega)]
      · rw [if_neg hmatch]
        exact ⟨hres, hinvalid⟩
  case noCopy =>
    rw [exec_dataBlockCopyDone]
    simp only [copyDone, hcopy]

end Sys2Proof.Machine
end

section
/-! SUPPORT. The boot (R87, R88, R92): the statement `BootEndsWithDoneAndACode`. -/

namespace Sys2Proof.Machine
namespace State

variable (s : State)

/-! The end of a boot. -/

/-- The registers of a boot that ends with the code `c` and the entry `i` at the time `us`. -/
def bootTold (s : State) (c i : Nat) (us : Word) : State :=
  (((s.wr F.BOOT_CODE c).wr F.BOOT_FAILIDX i).wr F.BOOT_DONE 1).setReg F.BOOT_TIME.addr us

theorem bootTold_fields {c i : Nat} (hc : c < 256) (hi : i < 16) (us : Word) :
    (s.bootTold c i us).bootStat = (1, c, i) ∧ (s.bootTold c i us).reg 0x304C = us := by
  have hreg : (s.bootTold c i us).reg 0x3040 = (((s.wr F.BOOT_CODE c).wr F.BOOT_FAILIDX i).wr F.BOOT_DONE 1).reg 0x3040 :=
    reg_setReg_ne _ us (by decide)
  refine ⟨?_, reg_setReg_self _ _ _⟩
  rw [bootStat_congr hreg, bootStat, rd_wr_self _ _ _ (by decide) (by decide), rd_wr_apart _ _ (by decide), rd_wr_apart _ _ (by decide),
    rd_wr_self _ _ _ (by decide) (by decide), rd_wr_apart _ _ (by decide), rd_wr_self _ _ _ (by decide) (by decide)]
  exact congrArg₂ Prod.mk rfl (congrArg₂ Prod.mk (Nat.mod_eq_of_lt hc) (Nat.mod_eq_of_lt hi))

/-- The state in which the device is up. -/
def raised (s : State) : State := { s with phase := .up }

theorem bootEnd_eq (c i : Nat) (us : Word) : s.bootEnd c i us = ((s.bootTold c i us).raised.stoSync).cellsAll := (rfl)

/-- The safe stop and the cells leave what the boot has told. -/
theorem bootEnd_outcome {c i : Nat} (hc : c < 256) (hi : i < 16) (us : Word) :
    (s.bootEnd c i us).phase = .up ∧ (s.bootEnd c i us).bootStat = (1, c, i) ∧ (s.bootEnd c i us).reg 0x304C = us := by
  obtain ⟨hstat, htime⟩ := s.bootTold_fields hc hi us
  have hview : ladderView (s.bootEnd c i us) = ladderView (s.bootTold c i us).raised := by
    rw [bootEnd_eq, ladderView_cellsAll, ladderView_stoSync]
  generalize s.bootTold c i us = r at hstat htime hview
  have hraised : r.raised.bootStat = r.bootStat ∧ r.raised.reg 0x304C = r.reg 0x304C := ⟨rfl, rfl⟩
  refine ⟨phase_of_ladderView hview, (bootStat_of_ladderView hview).trans (hraised.1.trans hstat), ?_⟩
  rw [reg_of_ladderView hview (by decide), hraised.2, htime]

/-! The code of a boot that loads no header or fails at an entry. -/

theorem bootCode_le (res : Nat) : bootCode res ≤ 7 := by
  unfold bootCode
  split_ifs <;> omega

theorem hdrLoad_index_lt (b : List Byte) (imgs : List (Nat × List Byte)) (n : Nat) : ∀ (s : State) (i : Nat) {j r : Nat},
    (s.hdrLoad b imgs i n).2 = some (j, r) → j < i + n := by
  induction n with
  | zero => intro s i j r h; simp [hdrLoad] at h
  | succ n ih =>
    intro s i j r h
    unfold hdrLoad at h
    dsimp only at h
    split_ifs at h with hcause hfail
    · simp only [Option.some.injEq, Prod.mk.injEq] at h
      omega
    · have := ih _ _ h
      omega

/-- A header that does not boot gives a code of the table and an entry, or none. -/
theorem bootHdr_code {h : Bool × List Byte} {imgs : List (Nat × List Byte)} {c i : Nat} (hres : (s.bootHdr h imgs).2 = some (c, i)) :
    c ≤ 7 ∧ i < 16 := by
  unfold bootHdr at hres
  dsimp only at hres
  split at hres
  · simp only [Option.some.injEq, Prod.mk.injEq] at hres
    omega
  · rename_i hlayout
    have hents : hdrEnts h.2 ≤ 8 := by
      simp only [Bool.not_eq_true', Bool.not_eq_false, layoutOk, Bool.and_eq_true, decide_eq_true_eq] at hlayout
      omega
    split at hres
    · simp at hres
    · rename_i t j r hload
      simp only [Option.some.injEq, Prod.mk.injEq] at hres
      have hj := hdrLoad_index_lt h.2 imgs (hdrEnts h.2) _ 0 (congrArg Prod.snd hload)
      obtain ⟨rfl, rfl⟩ := hres
      exact ⟨bootCode_le r, by omega⟩

theorem bootLoad_code {hs : List (Bool × List Byte)} {imgs : List (Nat × List Byte)} {c i : Nat} (hres : (s.bootLoad hs imgs).2 = some (c, i)) :
    c ≤ 7 ∧ i < 16 := by
  unfold bootLoad at hres
  split at hres
  · simp only [Option.some.injEq, Prod.mk.injEq] at hres
    omega
  · rename_i h rest
    split at hres
    · simp at hres
    · rename_i t d hfirst
      have hcode : d = (c, i) := by
        split at hres
        · exact Option.some.inj hres
        · split at hres
          · exact Option.some.inj hres
          · split at hres
            · simp at hres
            · exact Option.some.inj hres
      subst hcode
      exact s.bootHdr_code (congrArg Prod.snd hfirst)

/-! Step 3 of the boot changes nothing that `ladderView` holds. -/

@[simp] theorem ladderView_invalidate (a n : Nat) : ladderView (s.invalidate a n) = ladderView s := (rfl)

@[simp] theorem ladderView_fillArray (k : Nat) : ladderView (s.fillArray k) = ladderView s := (rfl)

@[simp] theorem ladderView_jrnlScan : ladderView s.jrnlScan.1 = ladderView s := by
  simp [jrnlScan, F.JRNL_NEXTSEQ, F.JRNL_BADCNT]

/-- The ledger's change of the aging unit keeps it. -/
theorem ladderView_withAge (age : AgeM) : ladderView { s with age := age } = ladderView s := (rfl)

theorem ladderView_ledgerSelect : ladderView s.ledgerSelect = ladderView s := by
  have hseq (v : Nat) (t : State) : ladderView (t.wr F.AGE_LSEQ v) = ladderView t := ladderView_wr t v (by decide)
  have hnew (v : Nat) (t : State) : ladderView (t.wr F.AGE_LNEW v) = ladderView t := ladderView_wr t v (by decide)
  unfold ledgerSelect
  dsimp only
  split
  · split
    all_goals rw [ladderView_each _ _ _ fun t c => ladderView_withAge t _, ladderView_withAge, hnew, hseq]
  · rw [ladderView_each _ _ _ fun t c => ladderView_withAge t _, ladderView_withAge, hnew, hseq]
  · rw [ladderView_each _ _ _ fun t c => ladderView_withAge t _, ladderView_withAge, hnew, hseq]
  · rw [ladderView_withAge, hnew, hseq]

theorem ladderView_boundsLoad : ladderView s.boundsLoad = ladderView s := by
  have hbad (v : Nat) (t : State) : ladderView (t.wr F.AGE_BNDBAD v) = ladderView t := ladderView_wr t v (by decide)
  have hword (i : Nat) : 0x4000 ≤ Pg.AGE + 0x200 + 4 * i := Nat.le_add_right_of_le (by decide)
  unfold boundsLoad
  split
  · exact hbad 1 s
  · split
    · rw [hbad, boundsTake, ladderView_withAge, ladderView_each _ _ _ fun t i => ladderView_setReg t _ (hword i)]
    · exact hbad 1 s

theorem ladderView_sealRecord (good : Bool) : ladderView (s.sealRecord good) = ladderView s := by
  simp [sealRecord]

theorem ladderView_ctxZero : ladderView s.ctxZero = ladderView s := by
  have hwear (b : Nat) : 0x4000 ≤ (F.ECC_MWEAR b).addr := Nat.le_add_right_of_le (by decide)
  unfold ctxZero
  dsimp only
  rw [ladderView_satBy _ _ (hwear _), ladderView_foldl _ _ _ fun t b => ladderView_satBy t 128 (hwear _),
    ladderView_foldl _ _ _ fun t b => ladderView_satBy t 128 (hwear _)]
  exact ladderView_upd ..

theorem ladderView_setEnergy (p q v : Nat) : ladderView (s.setEnergy p q v) = ladderView s :=
  (ladderView_wr _ _ (Nat.le_add_right_of_le (Nat.le_add_right_of_le (by decide)))).trans (ladderView_upd ..)

theorem ladderView_sealZero : ladderView s.sealZero = ladderView s := by
  rw [sealZero_eq, ladderView_each _ _ _ fun t i => ladderView_setEnergy t _ _ _, sealErase, ladderView_fillArray, ladderView_fillArray,
    ladderView_fillArray, ladderView_invalidate, ladderView_invalidate, ladderView_ctxZero, ladderView_mramWrite]

/-- The seal word is left out of it. -/
theorem ladderView_sealWord (st : Nat) (ref : Word) : ladderView (s.sealWord st ref) = ladderView s :=
  (ladderView_mramWrite { s with free := s.free + 2 } 0x825800
    (leBytes 4 (Config.freeWord s.free).toNat ++ leBytes 4 (Config.freeWord (s.free + 1)).toNat)).trans (ladderView_upd ..)

theorem ladderView_sealResume (newest : Option (List Byte)) : ladderView (s.sealResume newest) = ladderView s := by
  have hsealed (t : State) : ladderView (t.wr F.SYS_SEALED 1) = ladderView t :=
    ladderView_wr_apart t 1 rfl (by decide) (by decide) (by decide)
  unfold sealResume
  split
  · rfl
  · dsimp only
    rw [hsealed, ladderView_sealWord, ladderView_sealZero, apply_ite ladderView, ladderView_sealRecord, ite_self]

theorem ladderView_bootFill : ladderView s.bootFill = ladderView s := by
  unfold bootFill
  dsimp only
  rw [ladderView_sealResume, ladderView_boundsLoad, ladderView_ledgerSelect, ladderView_setBit _ _ (by decide), ladderView_jrnlScan,
    ladderView_invalidate, ladderView_invalidate, ladderView_fillArray, ladderView_fillArray, ladderView_fillArray]

/-! The boot of a device whose flash holds no valid header. -/

theorem cause_bootCause : s.bootCause.boot.cause = 0 := (rfl)

theorem cause_loadCounters : s.loadCounters.boot.cause = s.boot.cause := (rfl)

/-- The causes noted are shown, and none waits. -/
theorem cause_bootBegin : s.bootBegin.boot.cause = 0 := by
  rw [bootBegin, cause_loadCounters, wr_boot, wr_boot, cause_bootCause]

/-- The state of the boot before the headers are looked at. -/
def bootPrepared (s : State) (sdref : Bool) : State := (s.bootBegin.each 2 fun s p => s.setBit (F.NET_PSTAT_REFOK p) sdref).bootFill

theorem cause_bootPrepared (sdref : Bool) : (s.bootPrepared sdref).boot.cause = 0 := by
  have hview : ladderView (s.bootPrepared sdref) = ladderView s.bootBegin := by
    rw [bootPrepared, ladderView_bootFill, ladderView_each _ _ _ fun t p => ladderView_setBit t _ (Nat.le_add_right_of_le (by decide))]
  rw [cause_of_ladderView hview, cause_bootBegin]

theorem bootLoad_nil (imgs : List (Nat × List Byte)) : s.bootLoad [] imgs = (s, some (2, 15)) := (rfl)

/-- How a boot ends after the load `r` of its headers. -/
def bootAnswered (r : State × Option (Nat × Nat)) (us : Word) : State :=
  if r.1.boot.cause != 0 then r.1
  else match r.2 with
    | none => (r.1.ckptRestore.bootReads.bootReport).bootEnd 0 15 us
    | some (c, i) => (r.1.bootReads.bootReport).bootEnd c i us

theorem bootRun_eq (us : Word) (a b : List Byte) (imgs : List (Nat × List Byte)) (sdref : Bool) :
    s.bootRun us a b imgs sdref = bootAnswered ((s.bootPrepared sdref).bootLoad (hdrOrder a b) imgs) us := (rfl)

theorem bootAnswered_of_booted {r : State} (h : r.boot.cause = 0) (us : Word) :
    bootAnswered (r, none) us = (r.ckptRestore.bootReads.bootReport).bootEnd 0 15 us := by
  simp [bootAnswered, h]

theorem bootAnswered_of_failed {r : State} (h : r.boot.cause = 0) (c i : Nat) (us : Word) :
    bootAnswered (r, some (c, i)) us = (r.bootReads.bootReport).bootEnd c i us := by
  simp [bootAnswered, h]

theorem bootAnswered_of_reset {r : State × Option (Nat × Nat)} (h : r.1.boot.cause ≠ 0) (us : Word) : bootAnswered r us = r.1 := by
  simp [bootAnswered, h]

/-- What the boot's end shows. -/
theorem bootEnd_fields {c i : Nat} (hc : c < 256) (hi : i < 16) (us : Word) :
    (s.bootEnd c i us).phase = .up ∧ (s.bootEnd c i us).rd F.BOOT_DONE = 1 ∧ (s.bootEnd c i us).rd F.BOOT_CODE = c ∧
      (s.bootEnd c i us).rd F.BOOT_FAILIDX = i ∧ (s.bootEnd c i us).reg 0x304C = us := by
  obtain ⟨hphase, hstat, htime⟩ := s.bootEnd_outcome hc hi us
  simp only [bootStat, Prod.mk.injEq] at hstat
  obtain ⟨hdone, hcode, hidx⟩ := hstat
  exact ⟨hphase, hdone, hcode, hidx, htime⟩

/-- A boot ends, or one of its CONFIG records has reset the device. -/
theorem bootRun_outcome (us : Word) (a b : List Byte) (imgs : List (Nat × List Byte)) (sdref : Bool) :
    (s.bootRun us a b imgs sdref).boot.cause ≠ 0 ∨ ∃ u : State, ∃ c i,
      c ≤ 7 ∧ i < 16 ∧ s.bootRun us a b imgs sdref = u.bootEnd c i us := by
  rw [bootRun_eq]
  rcases hload : (s.bootPrepared sdref).bootLoad (hdrOrder a b) imgs with ⟨r, res⟩
  by_cases hcause : r.boot.cause = 0
  · right
    rcases res with _ | ⟨c, i⟩
    · exact ⟨_, 0, 15, by decide, by decide, bootAnswered_of_booted hcause us⟩
    · obtain ⟨hc, hi⟩ := bootLoad_code _ (congrArg Prod.snd hload)
      exact ⟨_, c, i, hc, hi, bootAnswered_of_failed hcause c i us⟩
  · left
    rwa [bootAnswered_of_reset hcause]

/-- Without a valid header the boot ends with NOHDR (R88). -/
theorem bootRun_of_noHeader {a b : List Byte} (ha : hdrOk a = false) (hb : hdrOk b = false) (us : Word) (imgs : List (Nat × List Byte))
    (sdref : Bool) : s.bootRun us a b imgs sdref = ((s.bootPrepared sdref).bootReads.bootReport).bootEnd 2 15 us := by
  rw [bootRun_eq, hdrOrder_of_none ha hb, bootLoad_nil, bootAnswered_of_failed (s.cause_bootPrepared sdref)]

end State

open State

theorem exec_boot (us : Word) (a b : List Byte) (imgs : List (Nat × List Byte)) (sdref : Bool) (s : State) :
    exec (.boot us a b imgs sdref) s = .next (if s.phase == .booting && !s.tmode then s.bootRun us a b imgs sdref else s) := (rfl)

theorem exec_bootNorefTimeout (us : Word) (s : State) : exec (.bootNorefTimeout us) s =
    .next (if s.phase == .booting && !s.tmode && !s.bit F.CLK_REFOK then s.bootCause.bootReport.bootEnd 1 15 us else s) := (rfl)

/-- Settles O10: `bootRun_outcome` says how a boot ends, and whatever went before, `bootEnd_fields` what it then shows. -/
theorem bootEndsWithDoneAndACode : Obligations.BootEndsWithDoneAndACode := by
  refine ⟨fun us a b l r s hphase htmode => ?ends, fun us a b l r s hphase htmode ha hb => ?noHeader, fun us s href => ?reference,
    fun us s hphase htmode href => ?noReference, fun us a b l r s h => ?stopped⟩
  case ends =>
    have hexec : exec (.boot us a b l r) s = .next (s.bootRun us a b l r) := by simp [exec_boot, hphase, htmode]
    refine ⟨_, hexec, ?_⟩
    obtain hcause | ⟨u, c, i, hc, hi, heq⟩ := s.bootRun_outcome us a b l r
    · exact .inl hcause
    · obtain ⟨hup, hdone, hcode, -, htime⟩ := u.bootEnd_fields (c := c) (by omega) hi us
      rw [heq]
      exact .inr ⟨hup, hdone, hcode.trans_le hc, htime⟩
  case noHeader =>
    have hexec : exec (.boot us a b l r) s = .next (s.bootRun us a b l r) := by simp [exec_boot, hphase, htmode]
    rw [hexec, bootRun_of_noHeader s ha hb]
    obtain ⟨hup, hdone, hcode, hidx, -⟩ := bootEnd_fields (s.bootPrepared r).bootReads.bootReport (c := 2) (i := 15) (by decide) (by decide) us
    exact ⟨_, rfl, hup, hdone, hcode, hidx⟩
  case reference => simp [exec_bootNorefTimeout, bit_of_rd_one href]
  case noReference =>
    have hexec : exec (.bootNorefTimeout us) s = .next (s.bootCause.bootReport.bootEnd 1 15 us) := by
      simp [exec_bootNorefTimeout, hphase, htmode, bit_of_rd_zero href]
    obtain ⟨hup, hdone, hcode, -, htime⟩ := bootEnd_fields s.bootCause.bootReport (c := 1) (i := 15) (by decide) (by decide) us
    exact ⟨_, hexec, hup, hdone, hcode, htime⟩
  case stopped => rcases h with h | h <;> simp [exec_boot, exec_bootNorefTimeout, h]

end Sys2Proof.Machine
end

section
/-! SUPPORT. What the steps of a descent and an ascent leave alone (R97, R100): the layer below the statement `LadderMoves`. -/

namespace Sys2Proof.Machine
namespace State

variable (s : State)

@[simp] theorem ladderView_wrF {f : Fld} (v : F32) (h : 0x4000 ≤ f.addr) : ladderView (s.wrF f v) = ladderView s := ladderView_wr s _ h

@[simp] theorem ladderView_fresh : ladderView s.fresh = ladderView s := (rfl)
@[simp] theorem ladderView_setMin (n : Nat) (v : ModIn) : ladderView (s.setMin n v) = ladderView s := (rfl)
@[simp] theorem ladderView_setGrid (n : Nat) (v : GridM) : ladderView (s.setGrid n v) = ladderView s := (rfl)
@[simp] theorem ladderView_setConv (n : Nat) (v : PadcM) : ladderView (s.setConv n v) = ladderView s := (rfl)
@[simp] theorem ladderView_setDc (n : Nat) (v : DcM) : ladderView (s.setDc n v) = ladderView s := (rfl)
@[simp] theorem ladderView_setZport (n : Nat) (v : ZPort) : ladderView (s.setZport n v) = ladderView s := by
  unfold setZport
  split <;> rfl

/-! The units that a descent stops, in the order of `descentDone`. -/

@[simp] theorem ladderView_mclkSync : ladderView s.mclkSync = ladderView s := by
  have hrun (m : Nat) : 0x4000 ≤ (F.MOD_RUN m).addr := Nat.le_add_right_of_le (by decide)
  have hcset (m : Nat) : 0x4000 ≤ (F.MOD_CSET m).addr := Nat.le_add_right_of_le (by decide)
  have hoset (m : Nat) : 0x4000 ≤ (F.MOD_OCSET m).addr := Nat.le_add_right_of_le (by decide)
  have hmset (m : Nat) : 0x4000 ≤ (F.MOD_MSET m).addr := Nat.le_add_right_of_le (by decide)
  simp [mclkSync, mclkStop, modRestart, modStat, apply_ite ladderView, hrun, hcset, hoset, hmset]

@[simp] theorem ladderView_gridHold (p : Nat) : ladderView (s.gridHold p) = ladderView s :=
  ladderView_setBit _ _ (Nat.le_add_right_of_le (by decide))

@[simp] theorem ladderView_validClear (p : Nat) (descent : Bool) : ladderView (s.validClear p descent) = ladderView s := by
  have hvalid : 0x4000 ≤ (F.GRID_VALID p).addr := Nat.le_add_right_of_le (by decide)
  have hcount : 0x4000 ≤ (F.GRID_UNLCNT p).addr := Nat.le_add_right_of_le (by decide)
  have hpage : 0x4000 ≤ Pg.GRID p := Nat.le_add_right_of_le (by decide)
  simp [validClear, apply_ite ladderView, hvalid, hcount, hpage]

@[simp] theorem ladderView_posInvalid : ladderView s.posInvalid = ladderView s := by
  unfold posInvalid
  dsimp only
  split
  · rfl
  · rw [apply_ite ladderView, ladderView_detect, ite_self, ladderView_ipulse _ _ (by decide), ladderView_wr _ _ (by decide)]

@[simp] theorem ladderView_posDescent : ladderView s.posDescent = ladderView s := by
  simp [posDescent, apply_ite ladderView]

@[simp] theorem ladderView_lengGate : ladderView s.lengGate = ladderView s := (rfl)

@[simp] theorem ladderView_linkFall (p : Nat) : ladderView (s.linkFall p) = ladderView s := by
  have hlink (t : State) : ladderView (t.wr (F.NET_PSTAT_LINK p) 0) = ladderView t := ladderView_wr t 0 (Nat.le_add_right_of_le (by decide))
  have hdown (t : State) : ladderView (t.sat (F.NET_PSTAT_LINKDN p)) = ladderView t := ladderView_sat t (Nat.le_add_right_of_le (by decide))
  unfold linkFall
  dsimp only
  split
  · rfl
  · rw [apply_ite ladderView, ladderView_detect, hdown, ite_self, ladderView_ipulse _ _ (by decide), hlink]

@[simp] theorem ladderView_netDown : ladderView s.netDown = ladderView s := by
  have hsync (p : Nat) : 0x4000 ≤ (F.NET_PSTAT_SYNC p).addr := Nat.le_add_right_of_le (by decide)
  simp [netDown, hsync]

@[simp] theorem ladderView_padcEnd (c : Nat) : ladderView (s.padcEnd c) = ladderView s := by
  have hrun : 0x4000 ≤ (F.PADC_RUN c).addr := Nat.le_add_right_of_le (by decide)
  have hcount : 0x4000 ≤ (F.PADC_ABANCNT c).addr := Nat.le_add_right_of_le (by decide)
  simp [padcEnd, padcHold, apply_ite ladderView, hrun, hcount]

@[simp] theorem ladderView_padcAbandon : ladderView s.padcAbandon = ladderView s := by
  simp [padcAbandon_eq, F.PADC_CALBUSY]

@[simp] theorem ladderView_cmpOff (n : Nat) : ladderView (s.cmpOff n) = ladderView s := by
  simp [cmpOff, cmpSetOut, demandCmp, apply_ite ladderView, F.CMP_OUT, Fld.at]

@[simp] theorem ladderView_clear {l : List Fld} (h : ∀ f ∈ l, 0x4000 ≤ f.addr) : ladderView (s.clear l) = ladderView s := by
  induction l generalizing s with
  | nil => rfl
  | cons f t ih => rw [clear, ih _ fun g hg => h g (List.mem_cons_of_mem f hg), ladderView_wr _ _ (h f List.mem_cons_self)]

@[simp] theorem ladderView_lengEmpty : ladderView s.lengEmpty = ladderView s :=
  (ladderView_clear _ (by decide)).trans (ladderView_upd ..)

@[simp] theorem ladderView_graceMap (f : Nat → Nat) : ladderView (s.graceMap f) = ladderView s := by
  simp [graceMap]

@[simp] theorem ladderView_graceHalt : ladderView s.graceHalt = ladderView s := ladderView_graceMap s _

@[simp] theorem ladderView_graceResume : ladderView s.graceResume = ladderView s := ladderView_graceMap s _

@[simp] theorem ladderView_ctxSave : ladderView s.ctxSave = ladderView s := by
  simp only [ctxSave, ladderView_mramWrite, ladderView_fresh]

/-! The units that an ascent starts again, in the order of `ascentDone`. -/

@[simp] theorem ladderView_holdSync : ladderView s.holdSync = ladderView s := by
  have hhold (v : Nat) (t : State) : ladderView (t.wr F.ISL_HOLD v) = ladderView t := ladderView_wr t v (by decide)
  unfold holdSync
  dsimp only
  split
  · split
    · rfl
    · exact hhold 1 _
  · exact hhold 0 _

@[simp] theorem ladderView_loadCounters : ladderView s.loadCounters = ladderView s := (rfl)

@[simp] theorem ladderView_refill : ladderView s.refill = ladderView s :=
  (ladderView_upd ..).trans (by simp [F.SEC_SVNDESC, F.SEC_SVNDATA])

theorem ladderView_mramTouch (a n : Nat) : ladderView (s.mramTouch a n) = ladderView s := by
  simp [mramTouch, apply_ite ladderView]

theorem ladderView_gridRestart (p : Nat) (descent : Bool) : ladderView (s.gridRestart p descent) = ladderView s := by
  have hlow : 0x4000 ≤ (F.GRID_VLOW p).addr := Nat.le_add_right_of_le (by decide)
  have hpage : 0x4000 ≤ Pg.GRID p := Nat.le_add_right_of_le (by decide)
  simp [gridRestart, hlow, hpage]

theorem ladderView_padcStart (c : Nat) (byStart : Bool) : ladderView (s.padcStart c byStart) = ladderView s := by
  have hrun : 0x4000 ≤ (F.PADC_RUN c).addr := Nat.le_add_right_of_le (by decide)
  have hcount : 0x4000 ≤ (F.PADC_OVRCNT c).addr := Nat.le_add_right_of_le (by decide)
  have hcur : 0x4000 ≤ (F.PADC_CUR c).addr := Nat.le_add_right_of_le (by decide)
  simp [padcStart, padcEntry, apply_ite ladderView, hrun, hcount, hcur, Pg.PADC]

theorem ladderView_padcResume : ladderView s.padcResume = ladderView s := by
  simp [padcResume, apply_ite ladderView, ladderView_padcStart]

theorem ladderView_posSync : ladderView s.posSync = ladderView s := by
  simp [posSync, apply_ite ladderView, F.MACH_PVALID]

/-! A channel or the machine that starts or ends with its sub-state. -/

theorem ladderView_dcStart (c : Nat) : ladderView (s.dcStart c) = ladderView s := by
  simp [dcStart, dcLatch]

theorem ladderView_scanAbandon (c : Nat) : ladderView (s.scanAbandon c) = ladderView s := by
  have hscan : 0x4000 ≤ (F.CH_SCAN c).addr := Nat.le_add_right_of_le (by decide)
  have hcount : 0x4000 ≤ (F.CH_SCANABN c).addr := Nat.le_add_right_of_le (by decide)
  unfold scanAbandon
  dsimp only
  split
  · rfl
  · simp [hscan, hcount]

theorem ladderView_dcOut (c : Nat) : ladderView (s.dcOut c) = ladderView s := by
  have hcur : 0x4000 ≤ (F.CH_CURT c).addr := Nat.le_add_right_of_le (by decide)
  have hcv : 0x4000 ≤ (F.CH_CV c).addr := Nat.le_add_right_of_le (by decide)
  simp [dcOut, apply_ite ladderView, hcur, hcv, ladderView_scanAbandon]

theorem ladderView_uvReport (hi : Bool) : ladderView (s.uvReport hi) = ladderView s := by
  simp [uvReport, apply_ite ladderView, Pg.LEGX]

theorem ladderView_machPhase (ph : Nat) : ladderView (s.machPhase ph) = ladderView s := by
  simp [machPhase, machBrake, apply_ite ladderView, ladderView_uvReport, F.MACH_PHASE, F.MACH_BRAKE]

theorem ladderView_machRefuse (res : Nat) : ladderView (s.machRefuse res) = ladderView s := by
  simp [machRefuse, F.MACH_CMDRES, F.MACH_REFCNT, Pg.MACH]

theorem ladderView_machEval : ladderView s.machEval = ladderView s := by
  simp [machEval, apply_ite ladderView, ladderView_machPhase, ladderView_machRefuse, F.MACH_RUN, F.MACH_CMDRES]

theorem ladderView_machStart : ladderView s.machStart = ladderView s := by
  have hrefs : ladderView ((s.wrF F.MACH_CQ s.mach.iqlim).wrF F.MACH_IDFW 0) = ladderView s := by simp [F.MACH_CQ, F.MACH_IDFW]
  unfold machStart
  dsimp only
  rw [apply_ite ladderView, ladderView_machEval, ite_self]
  exact (ladderView_upd ..).trans hrefs

theorem ladderView_machEnd : ladderView s.machEnd = ladderView s := by
  have hcomm (c k : Nat) : 0x4000 ≤ (F.CH_COMM c k).addr := Nat.le_add_right_of_le (Nat.le_add_right_of_le (by decide))
  unfold machEnd
  rw [ladderView_machPhase, ladderView_wr _ _ (hcomm _ _), ladderView_wr _ _ (hcomm _ _)]
  exact ladderView_upd ..

theorem ladderView_injSync : ladderView s.injSync = ladderView s := by
  simp [injSync, apply_ite ladderView]

theorem ladderView_subSync : ladderView s.subSync = ladderView s := by
  unfold subSync
  dsimp only
  split
  · rfl
  · rw [ladderView_injSync]
    refine (ladderView_upd ..).trans (ladderView_each _ _ _ fun t c => ?_)
    simp only [apply_ite ladderView, ladderView_dcStart, ladderView_dcOut, ladderView_machStart, ladderView_machEnd, ite_self]

theorem ladderView_resumeUnits : ladderView s.resumeUnits = ladderView s := by
  unfold resumeUnits
  dsimp only
  rw [ladderView_subSync, ladderView_gdosAll, ladderView_stoSync, ladderView_posSync, ladderView_padcResume,
    ladderView_each _ _ _ fun t p => ladderView_gridRestart t p true]

end State
end Sys2Proof.Machine
end

section
/-! SUPPORT. The moves of the power ladder (R95, R97, R99, R100): the statement `LadderMoves`. -/

namespace Sys2Proof.Machine

/-! The digest of the retention image has 32 bytes. -/

theorem length_round (a : List Nat) (rc : Nat) : (Shake.round a rc).length = 25 := by
  unfold Shake.round
  dsimp only
  split
  · rename_i h
    simpa using congrArg List.length h
  · rename_i h
    simpa using (congrArg List.length h).symm

theorem length_permute {a : List Nat} (h : a.length = 25) : (Shake.permute a).length = 25 := by
  have hrounds (l : List Nat) : ∀ {a : List Nat}, a.length = 25 → (l.foldl Shake.round a).length = 25 := by
    induction l with
    | nil => exact fun h => h
    | cons rc l ih => exact fun _ => ih (length_round _ rc)
  exact hrounds _ h

theorem length_absorbAll (n : Nat) : ∀ {a : List Nat} {m : List Byte}, a.length = 25 → (Shake.absorbAll n a m).length = 25 := by
  induction n with
  | zero => exact fun h => h
  | succ n ih => exact fun _ => ih (length_permute (by simp))

theorem length_hash32 (m : List Byte) : (hash32 m).length = 32 := by
  have hlanes : (Shake.absorbAll ((Shake.pad m).length / 136) (List.replicate 25 0) (Shake.pad m)).length = 25 :=
    length_absorbAll _ List.length_replicate
  unfold hash32 shake256
  dsimp only
  generalize Shake.absorbAll _ _ _ = a at hlanes ⊢
  simp [Shake.squeeze, length_leBytes, hlanes]

namespace State

variable {s t : State}

/-! The retention image (R98). -/

/-- The trailer of the image `m` with the sequence number `n`. -/
def ctxTrailer (n : Nat) (m : List Byte) : List Byte := ctxMagic ++ leBytes 4 n ++ List.replicate 24 0#8 ++ hash32 m

theorem length_ctxTrailer (n : Nat) (m : List Byte) : (ctxTrailer n m).length = 64 := by
  simp [ctxTrailer, ctxMagic, length_leBytes, length_hash32]

theorem ctxTrailer_fields (n : Nat) (m : List Byte) : (ctxTrailer n m).take 4 = ctxMagic ∧ (ctxTrailer n m).drop 32 = hash32 m := by
  have hhead : (ctxMagic ++ leBytes 4 n ++ List.replicate 24 0#8).length = 32 := by
    rw [List.length_append, List.length_append, length_leBytes, List.length_replicate]
    rfl
  exact ⟨rfl, List.drop_left' hhead⟩

theorem ctxImage_of_reads {a b : List Byte} (ha : t.mramBytes 0x826000 0xA000 = some a) (hb : t.mramBytes 0x833000 0x6000 = some b) :
    t.ctxImage = some (a ++ b) := by
  unfold ctxImage
  generalize t.mramBytes 0x826000 0xA000 = x at ha
  generalize t.mramBytes 0x833000 0x6000 = y at hb
  subst ha hb
  rfl

section
variable {m : List Byte} (hm : m.length = 0x10000)
include hm

/-- An image whose parts and trailer stand in their places matches. -/
theorem ctxWhole_of_stands {n : Nat} (hlow : t.Stands 0x826000 (m.take 0xA000)) (hhigh : t.Stands 0x833000 (m.drop 0xA000))
    (htrailer : t.Stands 0x839000 (ctxTrailer n m)) : t.ctxWhole = true := by
  have hlowLen : (m.take 0xA000).length = 0xA000 := by rw [List.length_take, hm]; omega
  have hhighLen : (m.drop 0xA000).length = 0x6000 := by rw [List.length_drop, hm]
  have htrailerLen := length_ctxTrailer n m
  have hlowRead := mramBytes_of_stands hlow (by omega)
  have hhighRead := mramBytes_of_stands hhigh (by omega)
  have htrailerRead := mramBytes_of_stands htrailer (by omega)
  obtain ⟨hmagic, hdigest⟩ := ctxTrailer_fields n m
  rw [hlowLen] at hlowRead
  rw [hhighLen] at hhighRead
  rw [htrailerLen] at htrailerRead
  have himage := ctxImage_of_reads hlowRead hhighRead
  rw [List.take_append_drop] at himage
  simp [ctxWhole, htrailerRead, himage, hmagic, hdigest]

/-- Cells that take what is written hold the image whole. -/
theorem ctxWhole_of_writes (hweak : s.ecc.weak = []) (n : Nat) :
    (((s.mramWrite 0x826000 (m.take 0xA000)).mramWrite 0x833000 (m.drop 0xA000)).mramWrite 0x839000 (ctxTrailer n m)).ctxWhole = true := by
  have hlowLen : (m.take 0xA000).length = 0xA000 := by rw [List.length_take, hm]; omega
  have hhighLen : (m.drop 0xA000).length = 0x6000 := by rw [List.length_drop, hm]
  have htrailerLen := length_ctxTrailer n m
  have hlow := stands_mramWrite (a := 0x826000) (l := m.take 0xA000) hweak rfl (by omega)
  have hweakLow := (weak_of_ladderView (s.ladderView_mramWrite 0x826000 (m.take 0xA000))).trans hweak
  generalize s.mramWrite 0x826000 (m.take 0xA000) = u at hlow hweakLow ⊢
  have hhigh := stands_mramWrite (a := 0x833000) (l := m.drop 0xA000) hweakLow rfl (by omega)
  have hlow' := Stands.mramWrite (a := 0x833000) (l := m.drop 0xA000) hweakLow rfl (by omega) hlow (.inl (by omega))
  have hweakHigh := (weak_of_ladderView (u.ladderView_mramWrite 0x833000 (m.drop 0xA000))).trans hweakLow
  generalize u.mramWrite 0x833000 (m.drop 0xA000) = v at hhigh hlow' hweakHigh ⊢
  have hmod : (ctxTrailer n m).length % 8 = 0 := by rw [htrailerLen]
  exact ctxWhole_of_stands hm (Stands.mramWrite hweakHigh rfl hmod hlow' (.inl (by omega)))
    (Stands.mramWrite hweakHigh rfl hmod hhigh (.inl (by omega))) (stands_mramWrite hweakHigh rfl hmod)

end

theorem ctxSave_eq (s : State) : s.ctxSave =
    ((s.fresh.mramWrite 0x826000 (((List.range 0x10000).map (Config.imageByte s.free)).take 0xA000)).mramWrite 0x833000
      (((List.range 0x10000).map (Config.imageByte s.free)).drop 0xA000)).mramWrite 0x839000
        (ctxTrailer ((leVal (s.mramAny 0x839004 4) + 1) % 2 ^ 32) ((List.range 0x10000).map (Config.imageByte s.free))) := (rfl)

theorem ctxWhole_ctxSave (hweak : s.ecc.weak = []) : s.ctxSave.ctxWhole = true := by
  rw [ctxSave_eq]
  exact ctxWhole_of_writes (s := s.fresh) (by simp) hweak _

/-! A descent ends (R97). -/

/-- The state in which the rung is `r` and no descent runs. -/
def descRung (s : State) (r : Nat) : State :=
  (({ s with boot := { s.boot with descend := none } } : State).wr F.SYS_RUNG r).setBit F.SYS_RUNGMOVING s.boot.ascend.isSome

theorem descRung_fields (s : State) {r : Nat} (hr : r ≤ 4) :
    (s.descRung r).rung = r ∧ (s.descRung r).boot.descend = none ∧ (s.descRung r).modeNow = s.modeNow ∧
      (s.descRung r).ecc.weak = s.ecc.weak := by
  refine ⟨?_, rfl, ?_, rfl⟩
  · rw [rung, descRung, setBit, rd_wr_apart _ _ (by decide), rd_wr_self _ _ _ (by decide) (by decide)]
    exact Nat.mod_eq_of_lt (by simp [Fld.width, F.SYS_RUNG]; omega)
  · rw [modeNow, descRung, setBit, rd_wr_ne _ _ _ _ (by decide), rd_wr_ne _ _ _ _ (by decide)]
    rfl

/-- The units that stand still in rung `r`. -/
def descUnits (s : State) (r : Nat) : State :=
  let s := (s.mclkSync.each 2 fun s p => s.validClear p true).posDescent.lengGate
  let s := if 2 ≤ r then s.netDown.padcAbandon else s
  if 3 ≤ r then (s.stoSync.cellsAll.each 16 fun s n => if s.cmpOn n then s else s.cmpOff n).lengEmpty.graceHalt else s

theorem descentDone_eq (s : State) (r : Nat) :
    s.descentDone r = if r = 4 then ((s.descRung r).descUnits r).ctxSave else (s.descRung r).descUnits r := (rfl)

theorem ladderView_descUnits (s : State) (r : Nat) : ladderView (s.descUnits r) = ladderView s := by
  have hcmps (t : State) : ladderView (t.each 16 fun s n => if s.cmpOn n then s else s.cmpOff n) = ladderView t :=
    ladderView_each t _ _ fun u n => by rw [apply_ite ladderView, ladderView_cmpOff, ite_self]
  simp only [descUnits, apply_ite ladderView, ladderView_graceHalt, ladderView_lengEmpty, hcmps, ladderView_cellsAll, ladderView_stoSync,
    ladderView_padcAbandon, ladderView_netDown, ladderView_lengGate, ladderView_posDescent, ite_self]
  rw [ladderView_each _ _ _ fun t p => ladderView_validClear t p true, ladderView_mclkSync]

theorem ladderView_descentDone (s : State) (r : Nat) : ladderView (s.descentDone r) = ladderView (s.descRung r) := by
  rw [descentDone_eq, apply_ite ladderView, ladderView_ctxSave, ite_self, ladderView_descUnits]

theorem ctxWhole_descentDone (hweak : s.ecc.weak = []) : (s.descentDone 4).ctxWhole = true := by
  obtain ⟨-, -, -, hkept⟩ := s.descRung_fields (r := 4) (by decide)
  rw [descentDone_eq, if_pos rfl]
  exact ctxWhole_ctxSave ((weak_of_ladderView (ladderView_descUnits _ _)).trans (hkept.trans hweak))

/-! A wake source (R99). -/

theorem wake_of_usable {b : Nat} (hphase : s.phase = .up) (hhalt : s.keep.halted = false) (hdescend : s.boot.descend = none)
    (hen : s.rd (wakeEn.at b) = 1) (hrung : wakeUsable s.rung b = true) : s.wake b = s.ascend b := by
  simp [wake, hphase, hhalt, hdescend, hrung, bit_of_rd_one hen]

/-- A source that is not enabled, does not serve the rung, or finds the keeper halted. -/
theorem wake_of_unusable {b : Nat} (h : s.rd (wakeEn.at b) = 0 ∨ wakeUsable (s.boot.descend.getD s.rung) b = false ∨ s.keep.halted = true) :
    s.wake b = s := by
  rcases h with h | h | h
  · simp [wake, bit_of_rd_zero h]
  · simp [wake, h]
  · simp [wake, h]

/-! An ascent ends (R100). -/

/-- The device is in RUN, with no move under way, in the mode `m`, and EXITUS reads `lat`. -/
def Ascended (m : Nat) (lat : Word) (t : State) : Prop :=
  t.rung = 0 ∧ t.boot.ascend = none ∧ t.boot.descend = none ∧ t.modeNow = m ∧ t.reg 0x114 = lat

section
variable {m : Nat} {lat : Word} (h : Ascended m lat s)
include h

theorem Ascended.wr (f : Fld) (v : Nat) (hf : f.addr ≠ 0x104 ∧ f.addr ≠ 0x40 ∧ f.addr ≠ 0x114) : Ascended m lat (s.wr f v) := by
  obtain ⟨hrung, hascend, hdescend, hmode, hexit⟩ := h
  obtain ⟨hf104, hf40, hf114⟩ := hf
  refine ⟨(rd_wr_ne s f F.SYS_RUNG v hf104.symm).trans hrung, ?_, ?_, (rd_wr_ne s f F.SYS_MODE v hf40.symm).trans hmode,
    (reg_wr_ne s f v hf114.symm).trans hexit⟩
  · rwa [wr_boot]
  · rwa [wr_boot]

theorem Ascended.of_ladderView (hview : ladderView t = ladderView s) : Ascended m lat t := by
  obtain ⟨hrung, hascend, hdescend, hmode, hexit⟩ := h
  have htrung := (rung_of_ladderView hview).trans hrung
  have htdescend := (descend_of_ladderView hview).trans hdescend
  have hquiet : t.quietBoot.ascend = s.quietBoot.ascend := congrArg (fun v : LadderView => v.boot.ascend) hview
  simp only [quietBoot, htrung, htdescend, hrung, hdescend, and_self, if_true] at hquiet
  exact ⟨htrung, hquiet.trans hascend, htdescend, (modeNow_of_ladderView hview).trans hmode, (reg_of_ladderView hview (by decide)).trans hexit⟩

end

/-- The state in which the rung is RUN and no ascent runs. -/
def ascRung (s : State) (lat : Word) : State :=
  ((((({ s with boot := { s.boot with ascend := none } } : State).wr F.SYS_RUNG 0).wr F.SYS_RUNGMOVING 0).wr F.SYS_RUNGREQ 0).setReg 0x114 lat)

theorem ascended_ascRung (lat : Word) (hdescend : s.boot.descend = none) : Ascended s.modeNow lat (s.ascRung lat) := by
  refine ⟨?_, rfl, hdescend, ?_, reg_setReg_self _ _ _⟩
  · rw [rung, ascRung, rd_congr (reg_setReg_ne _ lat (by decide)), rd_wr_ne _ _ _ _ (by decide), rd_wr_apart _ _ (by decide),
      rd_wr_self _ _ _ (by decide) (by decide), Nat.zero_mod]
  · rw [modeNow, ascRung, rd_congr (reg_setReg_ne _ lat (by decide)), rd_wr_ne _ _ _ _ (by decide), rd_wr_ne _ _ _ _ (by decide),
      rd_wr_ne _ _ _ _ (by decide)]
    rfl

/-- The clocks after FAST and DORMANT: the PLL is locked, and the time is neither active nor locked. -/
def ascClocks (s : State) : State := (((s.wr F.TIME_ACTIVE 0).wr F.TIME_SLEWING 0).wr F.TIME_DLOCK 0).wr F.CLK_LOCK 1

theorem ascClocks_fields (s : State) : s.ascClocks.rd F.TIME_ACTIVE = 0 ∧ s.ascClocks.rd F.TIME_DLOCK = 0 := by
  refine ⟨?_, ?_⟩
  · rw [ascClocks, rd_wr_apart _ _ (by decide), rd_wr_apart _ _ (by decide), rd_wr_apart _ _ (by decide),
      rd_wr_self _ _ _ (by decide) (by decide), Nat.zero_mod]
  · rw [ascClocks, rd_wr_apart _ _ (by decide), rd_wr_self _ _ _ (by decide) (by decide), Nat.zero_mod]

/-- The device is not booted until the reload, and its wake shows. -/
def ascReload (s : State) : State := (s.latch F.BOOT_WAKE).wr F.BOOT_DONE 0

theorem ascReload_fields (s : State) : s.ascReload.rd F.BOOT_DONE = 0 ∧ s.ascReload.rd F.BOOT_WAKE = 1 := by
  refine ⟨?_, ?_⟩
  · rw [ascReload, rd_wr_self _ _ _ (by decide) (by decide), Nat.zero_mod]
  · rw [ascReload, rd_wr_ne _ _ _ _ (by decide), rd_latch, rd_wr_self _ _ _ (by decide) (by decide)]
    decide

/-- What an ascent from FAST or DORMANT does besides. -/
def ascWoken (s : State) : State := s.ascClocks.holdSync.loadCounters.ascReload.refill.graceResume

theorem ascentDone_eq (h : s.rung ≠ 4 ∨ s.ctxWhole = true) (m : Bool) (lat : Word) : s.ascentDone m lat =
    (if s.rung = 4 then ((if 3 ≤ s.rung then (s.ascRung lat).ascWoken else s.ascRung lat).mramTouch 0x826000 0xA000).mramTouch 0x833000 0x6040
      else if 3 ≤ s.rung then (s.ascRung lat).ascWoken else s.ascRung lat).resumeUnits := by
  have hwhole : (decide (s.rung = 4) && !s.ctxWhole) = false := by
    rcases h with h | h <;> simp [h]
  rw [ascentDone, hwhole]
  rfl

/-- The refill and the timers leave what the reload still shows. -/
theorem ladderView_ascWoken (s : State) : ladderView s.ascWoken = ladderView s.ascClocks.holdSync.loadCounters.ascReload := by
  rw [ascWoken, ladderView_graceResume, ladderView_refill]

theorem Ascended.ascWoken {m : Nat} {lat : Word} (h : Ascended m lat s) : Ascended m lat s.ascWoken := by
  have hclocks : Ascended m lat s.ascClocks :=
    (((h.wr F.TIME_ACTIVE 0 (by decide)).wr F.TIME_SLEWING 0 (by decide)).wr F.TIME_DLOCK 0 (by decide)).wr F.CLK_LOCK 1 (by decide)
  have hcounters : Ascended m lat s.ascClocks.holdSync.loadCounters :=
    hclocks.of_ladderView ((ladderView_loadCounters _).trans (ladderView_holdSync _))
  have hreload : Ascended m lat s.ascClocks.holdSync.loadCounters.ascReload :=
    Ascended.wr (s := s.ascClocks.holdSync.loadCounters.latch F.BOOT_WAKE) (hcounters.wr F.BOOT_WAKE _ (by decide)) F.BOOT_DONE 0 (by decide)
  exact hreload.of_ladderView s.ladderView_ascWoken

/-- What the host finds after an ascent from FAST or DORMANT. -/
theorem ascWoken_fields (s : State) : s.ascWoken.rd F.BOOT_DONE = 0 ∧ s.ascWoken.rd F.BOOT_WAKE = 1 ∧ s.ascWoken.rd F.TIME_ACTIVE = 0 ∧
    s.ascWoken.rd F.TIME_DLOCK = 0 := by
  have hview := s.ladderView_ascWoken
  have hcounters : ladderView s.ascClocks.holdSync.loadCounters = ladderView s.ascClocks :=
    (ladderView_loadCounters _).trans (ladderView_holdSync _)
  obtain ⟨hactive, hdlock⟩ := s.ascClocks_fields
  obtain ⟨hdone, hwake⟩ := s.ascClocks.holdSync.loadCounters.ascReload_fields
  refine ⟨?_, ?_, ?_, ?_⟩
  · exact (congrArg Prod.fst (bootStat_of_ladderView hview)).trans hdone
  · rw [rd_of_ladderView hview (by decide), hwake]
  · rw [rd_of_ladderView hview (by decide), ascReload, rd_wr_ne _ _ _ _ (by decide), rd_latch, rd_wr_ne _ _ _ _ (by decide),
      rd_of_ladderView hcounters (by decide), hactive]
  · rw [rd_of_ladderView hview (by decide), ascReload, rd_wr_ne _ _ _ _ (by decide), rd_latch, rd_wr_ne _ _ _ _ (by decide),
      rd_of_ladderView hcounters (by decide), hdlock]

theorem ladderView_ascentDone (h : s.rung ≠ 4 ∨ s.ctxWhole = true) (m : Bool) (lat : Word) :
    ladderView (s.ascentDone m lat) = ladderView (if 3 ≤ s.rung then (s.ascRung lat).ascWoken else s.ascRung lat) := by
  rw [ascentDone_eq h, ladderView_resumeUnits, apply_ite ladderView, ladderView_mramTouch, ladderView_mramTouch, ite_self]

/-- An ascent ends in RUN with the mode kept; from FAST and DORMANT the device waits for the reload. -/
theorem ascentDone_outcome (hdescend : s.boot.descend = none) (h : s.rung ≠ 4 ∨ s.ctxWhole = true) (m : Bool) (lat : Word) :
    Ascended s.modeNow lat (s.ascentDone m lat) ∧ (3 ≤ s.rung → (s.ascentDone m lat).rd F.BOOT_DONE = 0 ∧
      (s.ascentDone m lat).rd F.BOOT_WAKE = 1 ∧ (s.ascentDone m lat).rd F.TIME_ACTIVE = 0 ∧ (s.ascentDone m lat).rd F.TIME_DLOCK = 0) := by
  have hrun := ascended_ascRung lat hdescend
  have hview := ladderView_ascentDone h m lat
  by_cases hdeep : 3 ≤ s.rung
  · obtain ⟨hdone, hwake, hactive, hdlock⟩ := (s.ascRung lat).ascWoken_fields
    rw [if_pos hdeep] at hview
    refine ⟨hrun.ascWoken.of_ladderView hview, fun _ => ⟨?_, ?_, ?_, ?_⟩⟩
    · exact (congrArg Prod.fst (bootStat_of_ladderView hview)).trans hdone
    · rw [rd_of_ladderView hview (by decide), hwake]
    · rw [rd_of_ladderView hview (by decide), hactive]
    · rw [rd_of_ladderView hview (by decide), hdlock]
  · rw [if_neg hdeep] at hview
    exact ⟨hrun.of_ladderView hview, fun hle => absurd hle hdeep⟩

/-- The state in which a digest event waits to be reported. -/
def digestNoted (s : State) : State := { s with boot := { s.boot with digestEvent := true } }

/-- From DORMANT without a matching image the device resets. -/
theorem ascentDone_of_mismatch (hrung : s.rung = 4) (h : s.ctxWhole = false) (m : Bool) (lat : Word) :
    s.ascentDone m lat = (s.digestNoted.resetTo .booting 4).sampleTmode m := by
  have hbroken : (decide (s.rung = 4) && !s.ctxWhole) = true := by simp [hrung, h]
  rw [ascentDone, hbroken]
  rfl

theorem ascentReset_outcome (s : State) (m : Bool) :
    let t := (s.digestNoted.resetTo .booting 4).sampleTmode m
    t.phase = .booting ∧ t.modeNow = 0 ∧ t.rung = 0 ∧ t.boot.cause = s.boot.cause ||| 16 ∧ t.tmode = m := by
  have hcause : (s.digestNoted.resetTo .booting 4).boot.cause = s.boot.cause ||| 16 := cause_resetTo _ _ _
  obtain ⟨houtcome, hphase, htmode, hwaits⟩ :=
    sampleTmode_outcome ⟨resetOutcome_resetTo s.digestNoted .booting 4, phase_resetTo _ _ _, hcause⟩ m
  obtain ⟨hmode, hrung, -⟩ := houtcome
  exact ⟨hphase, hmode, hrung, hwaits, htmode⟩

end State

open State

theorem exec_rungDescentComplete (s : State) : exec .rungDescentComplete s =
    .next (match s.boot.descend with
      | none => s
      | some r => s.descentDone r) := (rfl)

theorem exec_wakeEvent (b : Fin 8) (s : State) : exec (.wakeEvent b) s = .next (s.wake b) := (rfl)

theorem exec_ascentComplete {s : State} (hascend : s.boot.ascend.isSome) (hdescend : s.boot.descend = none) (m : Bool) (lat : Word) :
    exec (.ascentComplete m lat) s = .next (s.ascentDone m lat) := by
  have hexec : exec (.ascentComplete m lat) s = .next (if s.boot.ascend.isSome && s.boot.descend.isNone then s.ascentDone m lat else s) := rfl
  simp [hexec, hascend, hdescend]

theorem exec_descriptorReloadDone (l : List (Nat × List Byte)) (s : State) : exec (.descriptorReloadDone l) s =
    .next (if s.bit F.BOOT_DONE || s.phase != .up then s else (s.reloadImages l).wr F.BOOT_DONE 1) := (rfl)

/-- Settles O14: a descent ends by `ladderView_descentDone` and `ctxWhole_descentDone`, a wake source goes by `wake_of_usable`, and an ascent
ends by `ascentDone_outcome`. That a halted keeper wakes nothing is the model's reading (log 29), as is that the reload sets DONE though an
entry fails (log 36). -/
theorem ladderMoves : Obligations.LadderMoves := by
  refine ⟨fun s r hdescend hr => ?descent, fun s hdescend => ?noDescent, fun b s hphase hhalt hdescend hascend hen hrung => ?wakes,
    fun b s h => ?sleeps, fun m w s hascend hdescend h => ?ascent, fun m w s hascend hdescend hrung h => ?mismatch,
    fun l s hphase hdone => ?reload⟩
  case descent =>
    have hexec : exec .rungDescentComplete s = .next (s.descentDone r) := by rw [exec_rungDescentComplete, hdescend]
    have hview := s.ladderView_descentDone r
    obtain ⟨hrung, hended, hmode, -⟩ := s.descRung_fields hr
    refine ⟨_, hexec, (rung_of_ladderView hview).trans hrung, (descend_of_ladderView hview).trans hended,
      (modeNow_of_ladderView hview).trans hmode, ?_⟩
    rintro rfl hweak
    exact ctxWhole_descentDone hweak
  case noDescent => rw [exec_rungDescentComplete, hdescend]
  case wakes =>
    obtain ⟨hsrc, hmoving, hbegun, -, honly⟩ := ascend_outcome b.isLt hascend
    rw [exec_wakeEvent, wake_of_usable hphase hhalt hdescend hen hrung]
    exact ⟨_, rfl, hsrc, hmoving, hbegun, honly⟩
  case sleeps => rw [exec_wakeEvent, wake_of_unusable h]
  case ascent =>
    obtain ⟨⟨hrung, hended, -, hmode, hexit⟩, hdeep⟩ := ascentDone_outcome hdescend h m w
    exact ⟨_, exec_ascentComplete hascend hdescend m w, hrung, hended, hmode, hexit, hdeep⟩
  case mismatch =>
    rw [exec_ascentComplete hascend hdescend, ascentDone_of_mismatch hrung h]
    exact ⟨_, rfl, s.ascentReset_outcome m⟩
  case reload =>
    have hexec : exec (.descriptorReloadDone l) s = .next ((s.reloadImages l).wr F.BOOT_DONE 1) := by
      simp [exec_descriptorReloadDone, bit_of_rd_zero hdone, hphase]
    refine ⟨_, hexec, ?_⟩
    rw [rd_wr_self _ _ _ (by decide) (by decide)]
    decide

end Sys2Proof.Machine
end

section
/-! SUPPORT. A checkpoint that completes is found in its slot (R110 to R112), the merge of the ledger that may follow it lying elsewhere (R445,
R446): the statement `CompletedCheckpointIsFound`. -/

namespace Sys2Proof.Machine
namespace State

variable (s : State)

/-! The merge of the ledger (R445, R446). -/

theorem length_ledgerBytes (l : Ledger) (lseq : Nat) : (ledgerBytes l lseq).length = 2048 := by
  simp only [ledgerBytes, List.length_append, length_leBytes, length_flatMap_leBytes, List.length_replicate, List.length_cons, List.length_nil]

theorem cells_fresh : cells s.fresh = cells s := (rfl)

theorem cells_wrap (f : Fld) : cells (s.wrap f) = cells s := (rfl)

theorem cells_withAge (age : AgeM) : cells { s with age := age } = cells s := (rfl)

theorem ecc_withAge (age : AgeM) : ({ s with age := age } : State).ecc = s.ecc := (rfl)

/-- A merge writes the other copy of the ledger, over a state with the memory it began with. -/
theorem mergeLedger_eq_mramWrite (dT dL : SMap Nat) (dRun mseq : Nat) : ∃ (u : State) (l : Ledger) (n : Nat),
    s.mergeLedger dT dL dRun mseq = u.mramWrite (ledAddr (1 - s.age.led.copy)) (ledgerBytes l n) ∧ cells u = cells s ∧ u.ecc = s.ecc := by
  refine ⟨_, _, _, rfl, (cells_withAge ..).trans ((cells_wrap ..).trans ?_), (ecc_withAge ..).trans (wrap_ecc ..)⟩
  rw [cells_fresh, cells_fresh]

theorem cells_mergeLive : cells s.mergeLive =
    cells (s.mergeLedger s.age.dTbin s.age.dLeg s.age.dRun ((s.rd F.KEEP_CKSEQ + 2 ^ 32 - 1) % 2 ^ 32)) := cells_withAge _ _

theorem cells_roDeg (k fref fstr : Nat) : cells (s.roDeg k fref fstr) = cells s := by
  unfold roDeg
  split
  · exact cells_wr s _ _
  · exact (cells_fresh _).trans (cells_wr s _ _)

theorem cells_measOsc (pairs : List (Nat × Nat)) : cells (s.measOsc pairs) = cells s := by
  unfold measOsc
  split
  · rfl
  · exact each_view cells 8 _ (fun t k _ => cells_roDeg t k _ _) s

theorem Stands.of_cells {s t : State} {a : Nat} {l : List Byte} (h : s.Stands a l) (hcells : cells t = cells s) : t.Stands a l :=
  h.of_eq fun _ _ => ⟨byte_of_cells hcells _, synd_of_cells hcells _⟩

section
variable {s} {a : Nat} {l : List Byte} (ha : a + l.length ≤ 0x824000) (hweak : s.ecc.weak = []) (h : s.Stands a l)
include ha hweak h

/-- What stands below the ledger stands after a merge. -/
theorem Stands.mergeLedger (dT dL : SMap Nat) (dRun mseq : Nat) : (s.mergeLedger dT dL dRun mseq).Stands a l := by
  obtain ⟨u, led, n, heq, hcells, hecc⟩ := s.mergeLedger_eq_mramWrite dT dL dRun mseq
  have hlen := length_ledgerBytes led n
  have hbase : 0x824000 ≤ ledAddr (1 - s.age.led.copy) ∧ ledAddr (1 - s.age.led.copy) % 8 = 0 := by unfold ledAddr; omega
  rw [heq]
  exact Stands.mramWrite (by rw [hecc, hweak]) hbase.2 (by omega) (h.of_cells hcells) (.inl (by omega))

/-- So it does after the merge of a run of the plan, which the measurement of the oscillators follows (R448). -/
theorem Stands.planMerge : s.planMerge.Stands a l := by
  unfold State.planMerge
  split
  · exact h
  · have hmerge := Stands.mergeLedger (s := { s with age := { s.age with run := none } }) ha hweak h
    exact Stands.of_cells (hmerge _ _ _ _) ((cells_measOsc _ _).trans (cells_mergeLive _))

end

/-! The checkpoint. -/

theorem ckpt_ckptBegin (kind rail time : Nat) :
    (s.ckptBegin kind rail time).keep.ckpt = some (s.rd F.KEEP_NEXTSLOT, s.ckptBody kind rail time) := by
  rw [ckptBegin_eq, (ckptBusy_kept _ _ _).2]

/-- A checkpoint begun and ended is complete in its slot, whatever merge follows. -/
theorem ckptSlot_ckptEnd_planMerge (hweak : s.ecc.weak = []) (kind rail time : Nat) :
    (s.ckptBegin kind rail time).ckptEnd.planMerge.ckptSlot (s.rd F.KEEP_NEXTSLOT) = some (s.rd F.KEEP_CKSEQ, s.ckptBody kind rail time) := by
  have hrest := s.length_ckptRest kind rail time
  have hlen := length_ckptFrame (seq := s.rd F.KEEP_CKSEQ) hrest
  have hcommitLen : (ckptCommit (s.rd F.KEEP_CKSEQ) (s.ckptRest kind rail time)).length = 8 := by simp [ckptCommit, length_leBytes]
  have hseq : s.rd F.KEEP_CKSEQ < 2 ^ 32 := s.rd_lt _
  have hslot : s.rd F.KEEP_NEXTSLOT < 2 ^ 3 := s.rd_lt _
  have haddr : ckptAddr (s.rd F.KEEP_NEXTSLOT) ≤ 0x820E00 := by unfold ckptAddr; omega
  have hckpt := s.ckpt_ckptBegin kind rail time
  have hweakBegin := (weak_of_ladderView (s.ladderView_ckptBegin kind rail time)).trans hweak
  rw [ckptBody_eq] at hckpt ⊢
  generalize s.ckptBegin kind rail time = b at hckpt hweakBegin ⊢
  have hweakEnd := (weak_of_ladderView b.ladderView_ckptEnd).trans hweakBegin
  obtain ⟨hbody, hcommit⟩ := b.stands_ckptEnd hrest hweakBegin hckpt
  exact ckptSlot_of_stands hrest hseq (hbody.planMerge (by omega) hweakEnd) (hcommit.planMerge (by omega) hweakEnd)

end State

open State

theorem exec_checkpointComplete (g : Bool) (s : State) : exec (.checkpointComplete g) s =
    .next (if s.keep.ckpt = none then s else (if g then s.ckptEnd else s.ckptEnd.detect 0x07).planMerge) := (rfl)

/-- Settles O23: the body and the commit word stand in the slot, and a merge that waited for the checkpoint leaves them
(`ckptSlot_ckptEnd_planMerge`). -/
theorem completedCheckpointIsFound : Obligations.CompletedCheckpointIsFound := by
  intro s hweak hper hrung hphase hbusy
  have hckpt := s.ckpt_ckptBegin 2 0 (if s.timeRuns = true then s.now64 else 0)
  refine ⟨_, _, exec_periodicCheckpoint hper hrung hphase hbusy, ?_, s.ckptSlot_ckptEnd_planMerge hweak 2 0 _⟩
  rw [exec_checkpointComplete, hckpt, if_neg (Option.some_ne_none _)]
  rfl

end Sys2Proof.Machine
end

section
/-! SUPPORT. Reads of fields after choices, one-bit writes and masked writes: the layer below the statements on the keeper. -/

namespace Sys2Proof

theorem Fld.of_mod_width (f : Fld) (v : Word) : f.of v % 2 ^ f.width = f.of v := Nat.mod_eq_of_lt (f.of_lt v)

namespace Machine

/-- A field whose bits are all taken from the word `v` reads as in `v`. -/
theorem wordGet_masked (x v m : Word) {hi lo : Nat} (h : ∀ i, i ≤ hi → lo ≤ i → m.getLsbD i = true) :
    wordGet ((x &&& ~~~m) ||| (v &&& m)) hi lo = wordGet v hi lo := by
  refine Nat.eq_of_testBit_eq fun i => ?_
  simp only [wordGet, Nat.testBit_mod_two_pow, Nat.testBit_div_two_pow, BitVec.testBit_toNat]
  by_cases hi' : i < hi + 1 - lo
  · simp [h (i + lo) (by omega) (by omega)]
  · simp [hi']

namespace State

variable {s t u : State}

theorem rd_ite {c : Prop} [Decidable c] (t u : State) (f : Fld) : (if c then t else u).rd f = if c then t.rd f else u.rd f :=
  apply_ite (fun x : State => x.rd f) c t u

theorem keep_ite {c : Prop} [Decidable c] (t u : State) : (if c then t else u).keep = if c then t.keep else u.keep :=
  apply_ite (fun x : State => x.keep) c t u

theorem rd_setBit_self (s : State) {f : Fld} (b : Bool) (h : f.hi = f.lo) (hb : f.hi < 32) : (s.setBit f b).rd f = if b = true then 1 else 0 := by
  have hw : f.width = 1 := by unfold Fld.width; omega
  rw [setBit, rd_wr_self _ _ _ h.ge hb, hw]
  cases b <;> rfl

theorem rd_setBit_apart (s : State) {f g : Fld} (b : Bool) (h : g.Apart f) : (s.setBit f b).rd g = s.rd g := rd_wr_apart s _ h

theorem OnlyRegs.setBit {l : List Nat} (h : OnlyRegs l s t) {f : Fld} (b : Bool) (hf : f.addr ∈ l) : OnlyRegs l s (t.setBit f b) := h.wr _ hf

theorem OnlyRegs.ite {l : List Nat} {c : Prop} [Decidable c] (ht : OnlyRegs l s t) (hu : OnlyRegs l s u) : OnlyRegs l s (if c then t else u) := by
  split
  · exact ht
  · exact hu

end State
end Machine
end Sys2Proof
end

section
/-! SUPPORT. The charging paths of the keeper, and a word that crosses to it (R102 to R104, R107, R108, R116): the statement
`KeeperCrossingWrites`. -/

namespace Sys2Proof.Machine
namespace State

variable (s : State)

/-! STAT.HARV and STAT.MAINCHG (R102 to R104). -/

theorem keepCharge_keep : s.keepCharge.keep = s.keep := (rfl)

theorem rd_keepCharge_apart {g : Fld} (hharv : g.Apart F.KEEP_HARV) (hmain : g.Apart F.KEEP_MAINCHG) : s.keepCharge.rd g = s.rd g := by
  rw [keepCharge, rd_setBit_apart _ _ hmain, rd_setBit_apart _ _ hharv]

theorem rd_harv_keepCharge : s.keepCharge.rd F.KEEP_HARV = if s.rd F.KEEP_HARVEN = 1 ∧ s.rd F.KEEP_VSCAP < s.rd F.KEEP_VTERM ∧
    (if s.rd F.KEEP_COLD = 1 then 165 ≤ s.rd F.KEEP_HVIN else s.keep.above = true) then 1 else 0 := by
  rw [keepCharge, rd_setBit_apart _ _ (by decide), rd_setBit_self _ _ rfl (by decide)]
  simp only [Bool.and_eq_true, decide_eq_true_eq, bit_iff_rd_one (f := F.KEEP_HARVEN) rfl, bit_iff_rd_one (f := F.KEEP_COLD) rfl, and_assoc,
    Bool.ite_eq_true_distrib]

theorem rd_mainchg_keepCharge : s.keepCharge.rd F.KEEP_MAINCHG =
    if s.keep.vddOk = true ∧ s.rd F.KEEP_VSCAP < s.rd F.KEEP_VTERM ∧ s.rd F.KEEP_ICHG ≠ 0 then 1 else 0 := by
  rw [keepCharge, rd_setBit_self _ _ rfl (by decide)]
  simp only [Bool.and_eq_true, decide_eq_true_eq, bne_iff_ne, and_assoc, setBit_keep, rd_setBit_apart s _ (by decide : F.KEEP_ICHG.Apart F.KEEP_HARV)]

theorem OnlyRegs.keepCharge {s t : State} {l : List Nat} (h : OnlyRegs l s t) (hl : 0x4044 ∈ l) : OnlyRegs l s t.keepCharge :=
  (h.setBit _ hl).setBit _ hl

/-! A host word to the keeper (R107, R108, R116). -/

/-- The state in which the word `v` crosses to the register at `a`. -/
def keepCrossing (s : State) (a : Nat) (v : Word) : State :=
  { s.wr F.KEEP_XBUSY 1 with keep := { s.keep with crossing := some (a, v) } }

section
variable {s} {o : Nat} {v : Word} (hlo : 0x40 ≤ o) (hhi : o < 0x1000)
include hlo hhi

theorem keepWrite_of_busy (h : s.rd F.KEEP_XBUSY = 1) : s.keepWrite (0x4000 + o) v = (s, .busy) := by
  have hofs : (0x4000 + o) % 0x1000 = o := by omega
  simp [keepWrite, hofs, hlo, bit_of_rd_one h]

theorem keepWrite_of_range (h : s.rd F.KEEP_XBUSY = 0) (hrange : s.keepRange o v = false) : s.keepWrite (0x4000 + o) v = (s, .range) := by
  have hofs : (0x4000 + o) % 0x1000 = o := by omega
  simp [keepWrite, hofs, hlo, bit_of_rd_zero h, hrange]

/-- Only KEEP.CTL has fields of the main logic. -/
theorem keepWrite_of_cross (hne : o ≠ 0x40) (h : s.rd F.KEEP_XBUSY = 0) (hrange : s.keepRange o v = true) :
    s.keepWrite (0x4000 + o) v = (s.keepCrossing (0x4000 + o) v, .ok) := by
  have hofs : (0x4000 + o) % 0x1000 = o := by omega
  simp [keepWrite, hofs, hlo, hne, bit_of_rd_zero h, hrange, keepCrossing]

end

/-! Its arrival. -/

/-- The state in which no word crosses. -/
def keepLanded (s : State) : State := ({ s with keep := { s.keep with crossing := none } } : State).wr F.KEEP_XBUSY 0

theorem rd_xbusy_keepLanded : s.keepLanded.rd F.KEEP_XBUSY = 0 := by
  rw [keepLanded, rd_wr_self _ _ _ (by decide) (by decide), Nat.zero_mod]

theorem rd_keepLanded_apart {g : Fld} (h : g.Apart F.KEEP_XBUSY) : s.keepLanded.rd g = s.rd g := rd_wr_apart _ _ h

theorem keepLanded_keep : s.keepLanded.keep = { s.keep with crossing := none } := (rfl)

theorem onlyRegs_keepLanded {l : List Nat} (hl : 0x4044 ∈ l) : OnlyRegs l { s with keep := { s.keep with crossing := none } } s.keepLanded :=
  (OnlyRegs.refl l _).wr _ hl

/-- The fields of KEEP.CTL that hold what crosses to them. -/
def ctlControls : List Fld := [F.KEEP_ALMEN, F.KEEP_DAWNEN, F.KEEP_VKEEPEN, F.KEEP_ICHG, F.KEEP_HARVEN]

/-- The controls of a word of KEEP.CTL in their bits. -/
def ctlFields (s : State) (v : Word) : State :=
  ((((s.wr F.KEEP_ALMEN (F.KEEP_ALMEN.of v)).wr F.KEEP_DAWNEN (F.KEEP_DAWNEN.of v)).wr F.KEEP_VKEEPEN (F.KEEP_VKEEPEN.of v)).wr F.KEEP_ICHG
    (F.KEEP_ICHG.of v)).wr F.KEEP_HARVEN (F.KEEP_HARVEN.of v)

/-- Its requests, and the dawn condition without its detector. -/
def ctlRequests (s : State) (v : Word) : State :=
  let s := if F.KEEP_KTSET.on v then s.wr F.KEEP_KTSET 1 else s
  let s := if F.KEEP_KTSNAP.on v then s.wr F.KEEP_KTSNAP 1 else s
  if s.bit F.KEEP_DAWNEN then s else s.wr F.KEEP_DAWN 0

/-- STAT.VKEEPON, HARV and MAINCHG as the controls have them. -/
def ctlStat (s : State) : State := (s.setBit F.KEEP_VKEEPON (s.bit F.KEEP_VKEEPEN && !s.keep.low1)).keepCharge

theorem rd_ctlFields (v : Word) : ∀ g ∈ ctlControls, (s.ctlFields v).rd g = g.of v := by
  simp (disch := decide) only [ctlControls, List.forall_mem_cons, ctlFields, rd_wr_apart, rd_wr_self, Fld.of_mod_width, List.not_mem_nil, false_imp_iff,
    implies_true, and_self]

theorem rd_ctlFields_apart (v : Word) {g : Fld} (h : ∀ f ∈ ctlControls, g.Apart f) :
    (s.ctlFields v).rd g = s.rd g := by
  simp only [ctlControls, List.forall_mem_cons] at h
  obtain ⟨halm, hdawn, hvkeep, hichg, hharv, -⟩ := h
  rw [ctlFields, rd_wr_apart _ _ hharv, rd_wr_apart _ _ hichg, rd_wr_apart _ _ hvkeep, rd_wr_apart _ _ hdawn, rd_wr_apart _ _ halm]

theorem rd_ctlRequests_apart (v : Word) {g : Fld} (h : ∀ f ∈ [F.KEEP_KTSET, F.KEEP_KTSNAP, F.KEEP_DAWN], g.Apart f) :
    (s.ctlRequests v).rd g = s.rd g := by
  simp only [List.forall_mem_cons] at h
  obtain ⟨hset, hsnap, hdawn, -⟩ := h
  simp only [ctlRequests, rd_ite, rd_wr_apart _ _ hset, rd_wr_apart _ _ hsnap, rd_wr_apart _ _ hdawn, ite_self]

theorem ctlRequests_keep (v : Word) : (s.ctlRequests v).keep = s.keep := by
  simp only [ctlRequests, keep_ite, wr_keep, ite_self]

/-- The requests leave the controls. -/
theorem rd_ctlRequests_ctlFields (v : Word) : ∀ g ∈ ctlControls, ((s.ctlFields v).ctlRequests v).rd g = g.of v := by
  intro g hg
  have hreq : ∀ g ∈ ctlControls, ∀ f ∈ [F.KEEP_KTSET, F.KEEP_KTSNAP, F.KEEP_DAWN], g.Apart f := by decide
  rw [rd_ctlRequests_apart _ _ (hreq g hg), rd_ctlFields _ _ _ hg]

theorem rd_ctlStat_apart {g : Fld} (h : ∀ f ∈ [F.KEEP_VKEEPON, F.KEEP_HARV, F.KEEP_MAINCHG], g.Apart f) : s.ctlStat.rd g = s.rd g := by
  simp only [List.forall_mem_cons] at h
  obtain ⟨hon, hharv, hmain, -⟩ := h
  rw [ctlStat, rd_keepCharge_apart _ hharv hmain, rd_setBit_apart _ _ hon]

theorem OnlyRegs.ctlFields {s t : State} {l : List Nat} (h : OnlyRegs l s t) (v : Word) (hl : 0x4040 ∈ l) : OnlyRegs l s (t.ctlFields v) :=
  ((((h.wr _ hl).wr _ hl).wr _ hl).wr _ hl).wr _ hl

theorem OnlyRegs.ctlRequests {s t : State} {l : List Nat} (h : OnlyRegs l s t) (v : Word) (hctl : 0x4040 ∈ l) (hstat : 0x4044 ∈ l) :
    OnlyRegs l s (t.ctlRequests v) := by
  have hset := OnlyRegs.ite (c := F.KEEP_KTSET.on v) (h.wr (f := F.KEEP_KTSET) 1 hctl) h
  have hsnap := OnlyRegs.ite (c := F.KEEP_KTSNAP.on v) (hset.wr (f := F.KEEP_KTSNAP) 1 hctl) hset
  exact hsnap.ite (hsnap.wr (f := F.KEEP_DAWN) 0 hstat)

theorem OnlyRegs.ctlStat {s t : State} {l : List Nat} (h : OnlyRegs l s t) (hl : 0x4044 ∈ l) : OnlyRegs l s t.ctlStat :=
  (h.setBit _ hl).keepCharge hl

section
variable {s} {v : Word}

/-- A crossing word lands where the keeper runs: KEEP.CTL gives its controls and requests, KEEP.STORE takes VRESVMIN along, and every other
register takes the word plainly. -/
theorem keepArrive_of_some {a : Nat} (h : s.keep.crossing = some (a, v)) : s.keepArrive =
    if s.keep.halted = true then s.keepLanded
    else if a % 0x1000 = 0x40 then ((s.keepLanded.ctlFields v).ctlRequests v).ctlStat
    else if a % 0x1000 = 0x54 then (s.keepLanded.genWrite a v).1.wr F.KEEP_VRESVMIN (vresvMin
      ((s.keepLanded.genWrite a v).1.rd F.KEEP_CSTORE) ((s.keepLanded.genWrite a v).1.rd F.KEEP_ESR))
    else (s.keepLanded.genWrite a v).1 := by
  unfold keepArrive
  rw [h]
  rfl

theorem keepArrive_of_halted {a : Nat} (h : s.keep.crossing = some (a, v)) (hhalt : s.keep.halted = true) : s.keepArrive = s.keepLanded := by
  rw [keepArrive_of_some h, if_pos hhalt]

theorem keepArrive_ctl (h : s.keep.crossing = some (0x4040, v)) (hhalt : s.keep.halted = false) :
    s.keepArrive = ((s.keepLanded.ctlFields v).ctlRequests v).ctlStat := by
  rw [keepArrive_of_some h, hhalt, if_neg Bool.false_ne_true, if_pos rfl]

theorem keepArrive_store (h : s.keep.crossing = some (0x4054, v)) (hhalt : s.keep.halted = false) :
    s.keepArrive = (s.keepLanded.genWrite 0x4054 v).1.wr F.KEEP_VRESVMIN (vresvMin
      ((s.keepLanded.genWrite 0x4054 v).1.rd F.KEEP_CSTORE) ((s.keepLanded.genWrite 0x4054 v).1.rd F.KEEP_ESR)) := by
  rw [keepArrive_of_some h, hhalt, if_neg Bool.false_ne_true, if_neg (by decide), if_pos rfl]

theorem keepArrive_vterm (h : s.keep.crossing = some (0x4058, v)) (hhalt : s.keep.halted = false) :
    s.keepArrive = (s.keepLanded.genWrite 0x4058 v).1 := by
  rw [keepArrive_of_some h, hhalt, if_neg Bool.false_ne_true, if_neg (by decide), if_neg (by decide)]

end

theorem find_vterm : RegMap.find 0x4058 = some ⟨0x58, 0, 1, 0, 1, 0xA8C, 0xFFF, 0, 0, 0, 0, 0⟩ := by
  decide

theorem find_store : RegMap.find 0x4054 = some ⟨0x54, 0, 1, 0, 1, 0x3E80032, 0xFFFFFFFF, 0, 0, 0, 0, 0⟩ := by
  decide

theorem genWrite_vterm (v : Word) : (s.genWrite 0x4058 v).1 = s.setReg 0x4058 ((s.reg 0x4058 &&& ~~~0xFFF#32) ||| (v &&& 0xFFF#32)) := by
  rw [genWrite_of_rw v find_vterm rfl rfl rfl]

/-- KEEP.STORE takes the whole word. -/
theorem genWrite_store (v : Word) : (s.genWrite 0x4054 v).1 = s.setReg 0x4054 v := by
  rw [genWrite_of_rw v find_store rfl rfl rfl]
  have hall (x : Word) : x &&& 0xFFFFFFFF#32 = x := BitVec.and_allOnes
  have hnone (x : Word) : x &&& ~~~0xFFFFFFFF#32 = 0#32 := BitVec.and_zero
  exact congrArg (s.setReg 0x4054) (by rw [hall, hnone, BitVec.zero_or])

end State

open State

theorem exec_keepWrite {w : Fin 1024} {v : Word} {s u : State} (h : s.turn (0x4000 + 4 * w) v = some u) :
    exec (.keepWrite w v) s = .next (noteWrite (0x4000 + 4 * w) (u.keepWrite (0x4000 + 4 * w) v)).settle :=
  congrArg Host.Outcome.next (hostWord_of_turn s h)

theorem exec_keepWriteArrival (s : State) : exec .keepWriteArrival s = .next s.keepArrive := (rfl)

/-- Settles O24: a word goes by `keepWrite_of_busy`, `keepWrite_of_range` and `keepWrite_of_cross`, and lands as the lemmas on `keepArrive` say.
That a halted keeper takes none of it, XBUSY reading 0 all the same, is the model's reading (log 41). -/
theorem keeperCrossingWrites : Obligations.KeeperCrossingWrites := by
  refine ⟨fun w v s u hw hturn => ?write, fun v s hcross hhalt => ?ctl, fun v s hcross hhalt => ?vterm, fun v s hcross hhalt => ?store,
    fun a v s hcross hhalt => ?halted⟩
  case write =>
    have hlo : 0x40 ≤ 4 * (w : Nat) := by omega
    have hhi : 4 * (w : Nat) < 0x1000 := by omega
    refine ⟨fun hfree hrange => ?_, fun hbusy => ?_, fun hfree hrange => ?_⟩
    · rw [exec_keepWrite hturn, keepWrite_of_cross hlo hhi (by omega) hfree hrange, noteWrite_ok]
      refine ⟨_, rfl, ?_, rfl, OnlyRegs.settle ?_⟩
      · exact rd_wr_self u F.KEEP_XBUSY 1 (by decide) (by decide)
      · exact (OnlyRegs.refl _ { u with keep := { u.keep with crossing := some (0x4000 + 4 * (w : Nat), v) } }).wr (f := F.KEEP_XBUSY) 1 (by decide)
    · rw [exec_keepWrite hturn, keepWrite_of_busy hlo hhi hbusy]
    · rw [exec_keepWrite hturn, keepWrite_of_range hlo hhi hfree hrange]
  case ctl =>
    have hkeep : (((s.keepLanded.ctlFields v).ctlRequests v).ctlStat).keep = { s.keep with crossing := none } := by
      rw [ctlStat, keepCharge_keep, setBit_keep, ctlRequests_keep]
      rfl
    have hcontrol := s.keepLanded.rd_ctlRequests_ctlFields v
    have hshown : ∀ g ∈ ctlControls, ((s.keepLanded.ctlFields v).ctlRequests v).ctlStat.rd g = g.of v := by
      intro g hg
      have hstat : ∀ g ∈ ctlControls, ∀ f ∈ [F.KEEP_VKEEPON, F.KEEP_HARV, F.KEEP_MAINCHG], g.Apart f := by decide
      rw [rd_ctlStat_apart _ (hstat g hg), hcontrol g hg]
    rw [exec_keepWriteArrival, keepArrive_ctl hcross hhalt]
    refine ⟨_, rfl, ?_, ?_, hshown _ (by decide), hshown _ (by decide), hshown _ (by decide), hshown _ (by decide), hshown _ (by decide),
      ?_, ?_, fun hoff => ?_, fun hoff => ?_, ?_⟩
    · rw [rd_ctlStat_apart _ (by decide), rd_ctlRequests_apart _ _ (by decide), rd_ctlFields_apart _ _ (by decide), rd_xbusy_keepLanded]
    · rw [hkeep]
    · rw [rd_ctlStat_apart _ (by decide), rd_ctlRequests_apart _ _ (by decide), rd_ctlFields_apart _ _ (by decide), rd_keepLanded_apart _ (by decide)]
    · rw [ctlStat, rd_keepCharge_apart _ (by decide) (by decide), rd_setBit_self _ _ rfl (by decide), ctlRequests_keep]
      simp only [Bool.and_eq_true, bit_iff_rd_one (f := F.KEEP_VKEEPEN) rfl, hcontrol F.KEEP_VKEEPEN (by decide), Bool.not_eq_true']
      rfl
    · rw [ctlStat, rd_harv_keepCharge, rd_setBit_apart _ _ (by decide), hcontrol _ (by decide), if_neg (by simp [hoff])]
    · rw [ctlStat, rd_mainchg_keepCharge, rd_setBit_apart (f := F.KEEP_VKEEPON) (g := F.KEEP_ICHG) _ _ (by decide), hcontrol _ (by decide),
        if_neg (by simp [hoff])]
    · rw [hkeep]
      exact (((s.onlyRegs_keepLanded (by decide)).ctlFields v (by decide)).ctlRequests v (by decide) (by decide)).ctlStat (by decide)
  case vterm =>
    rw [exec_keepWriteArrival, keepArrive_vterm hcross hhalt, genWrite_vterm]
    refine ⟨_, rfl, ?_, ?_, (s.onlyRegs_keepLanded (by decide)).setReg _ (by decide)⟩
    · rw [rd_congr (reg_setReg_ne _ _ (by decide)), rd_xbusy_keepLanded]
    · rw [rd, F.KEEP_VTERM, reg_setReg_self]
      exact wordGet_masked _ v _ (by decide)
  case store =>
    rw [exec_keepWriteArrival, keepArrive_store hcross hhalt, genWrite_store]
    refine ⟨_, rfl, ?_, ?_, ?_, ((s.onlyRegs_keepLanded (by decide)).setReg _ (by decide)).wr _ (by decide)⟩
    · rw [rd_wr_apart _ _ (by decide), rd_congr (reg_setReg_ne _ _ (by decide)), rd_xbusy_keepLanded]
    · rw [reg_wr_ne _ _ _ (by decide), reg_setReg_self]
    · rw [rd_wr_self _ _ _ (by decide) (by decide), rd, rd, F.KEEP_CSTORE, F.KEEP_ESR, reg_setReg_self]
      rfl
  case halted =>
    rw [exec_keepWriteArrival, keepArrive_of_halted hcross hhalt]
    exact ⟨_, rfl, s.rd_xbusy_keepLanded, rfl, s.onlyRegs_keepLanded (by decide)⟩

end Sys2Proof.Machine
end

section
/-! SUPPORT. The keeper's measurements and its restart (R102 to R106, R115): the statement `KeeperMeasurementThresholds`. -/

namespace Sys2Proof.Machine
namespace State

variable (s : State)

/-- A threshold crossed falling at `th`, which clears `up` above it (R105). -/
theorem fell_eq (was : Bool) (v th up : Nat) : fell was v th up = decide (v < th ∨ (was = true ∧ v < th + up)) := by
  unfold fell
  split
  case isTrue hbelow => simp [hbelow]
  case isFalse hbelow =>
    split
    case isTrue habove => simp [hbelow, habove]
    case isFalse habove => simp [hbelow, Nat.lt_of_not_le habove]

/-! A measurement: what it stores, what the keeper remembers of it, and what follows. -/

/-- The state `s` with the keeper `k`. -/
def withKeep (s : State) (k : KeepM) : State := { s with keep := k }

/-- VSCAP and HVIN take the measurement; COLD and LOWRESV follow. -/
def measFields (s : State) (vscap hvin : Nat) : State :=
  let s := (s.wr F.KEEP_VSCAP vscap).wr F.KEEP_HVIN hvin
  let s := s.setBit F.KEEP_COLD (if s.bit F.KEEP_COLD then decide (vscap < 1100) else decide (vscap < 1000))
  s.setBit F.KEEP_LOWRESV (fell (s.bit F.KEEP_LOWRESV) vscap (s.rd F.KEEP_VRESV) 50)

/-- The keeper after a measurement. -/
def measKeep (s : State) (vscap hvin : Nat) (vdd above : Bool) : KeepM :=
  { s.keep with low1 := fell s.keep.low1 vscap (s.rd F.KEEP_VCUT1) 50, low2 := fell s.keep.low2 vscap (s.rd F.KEEP_VCUT2) 50, vddOk := vdd
                above := above, dawnLow := fell s.keep.dawnLow hvin (s.rd F.KEEP_DAWNV) 25, halted := decide (vscap < 1000)
                rfGone := s.keep.rfGone || decide (vscap < 700) }

/-- What the keeper sheds, charges and clears of its STAT. -/
def measStat (s : State) : State :=
  let k := s.keep
  let s := s.setBit F.KEEP_VKEEPON (s.bit F.KEEP_VKEEPEN && !k.low1)
  let s := (if k.low2 || s.keep.halted then s.wr F.KEEP_KTVALID 0 else s).keepCharge
  if k.dawnLow || s.keep.halted then s.wr F.KEEP_DAWN 0 else s

theorem rd_withKeep (k : KeepM) (g : Fld) : (s.withKeep k).rd g = s.rd g := (rfl)

theorem withKeep_keep (k : KeepM) : (s.withKeep k).keep = k := (rfl)

theorem keepMeasure_eq (h : s.keep.halted = false) (vscap hvin : Nat) (vdd above : Bool) : s.keepMeasure vscap hvin vdd above =
    ((s.measFields vscap hvin).withKeep ((s.measFields vscap hvin).measKeep vscap hvin vdd above)).measStat := by
  unfold keepMeasure
  rw [if_neg (by rw [h]; decide)]
  rfl

theorem keepMeasure_of_halted (h : s.keep.halted = true) (vscap hvin : Nat) (vdd above : Bool) : s.keepMeasure vscap hvin vdd above = s := by
  unfold keepMeasure
  rw [if_pos h]

theorem measFields_keep (vscap hvin : Nat) : (s.measFields vscap hvin).keep = s.keep := by
  simp only [measFields, setBit_keep, wr_keep]

theorem rd_measFields_apart (vscap hvin : Nat) {g : Fld} (h : ∀ f ∈ [F.KEEP_VSCAP, F.KEEP_HVIN, F.KEEP_COLD, F.KEEP_LOWRESV], g.Apart f) :
    (s.measFields vscap hvin).rd g = s.rd g := by
  simp only [List.forall_mem_cons] at h
  obtain ⟨hvscap, hhvin, hcold, hlowresv, -⟩ := h
  rw [measFields, rd_setBit_apart _ _ hlowresv, rd_setBit_apart _ _ hcold, rd_wr_apart _ _ hhvin, rd_wr_apart _ _ hvscap]

theorem rd_vscap_measFields (vscap : Fin 4096) (hvin : Nat) : (s.measFields vscap hvin).rd F.KEEP_VSCAP = vscap := by
  simp (disch := decide) only [measFields, rd_setBit_apart, rd_wr_apart, rd_wr_self]
  exact Nat.mod_eq_of_lt vscap.isLt

theorem rd_hvin_measFields (vscap : Nat) (hvin : Fin 4096) : (s.measFields vscap hvin).rd F.KEEP_HVIN = hvin := by
  simp (disch := decide) only [measFields, rd_setBit_apart, rd_wr_self]
  exact Nat.mod_eq_of_lt hvin.isLt

theorem rd_cold_measFields (vscap hvin : Nat) : (s.measFields vscap hvin).rd F.KEEP_COLD =
    if vscap < 1000 ∨ (s.rd F.KEEP_COLD = 1 ∧ vscap < 1100) then 1 else 0 := by
  have hwas : ((s.wr F.KEEP_VSCAP vscap).wr F.KEEP_HVIN hvin).bit F.KEEP_COLD = true ↔ s.rd F.KEEP_COLD = 1 := by
    rw [bit_iff_rd_one rfl, rd_wr_apart _ _ (by decide), rd_wr_apart _ _ (by decide)]
  rw [measFields, rd_setBit_apart _ _ (by decide), rd_setBit_self _ _ rfl (by decide)]
  by_cases h : s.rd F.KEEP_COLD = 1
  · rw [if_pos (hwas.mpr h)]
    exact if_congr (by rw [decide_eq_true_eq]; omega) rfl rfl
  · rw [if_neg fun hbit => h (hwas.mp hbit)]
    exact if_congr (by rw [decide_eq_true_eq]; omega) rfl rfl

theorem rd_lowresv_measFields (vscap hvin : Nat) : (s.measFields vscap hvin).rd F.KEEP_LOWRESV =
    if vscap < s.rd F.KEEP_VRESV ∨ (s.rd F.KEEP_LOWRESV = 1 ∧ vscap < s.rd F.KEEP_VRESV + 50) then 1 else 0 := by
  rw [measFields, rd_setBit_self _ _ rfl (by decide), fell_eq]
  simp (disch := decide) only [decide_eq_true_eq, bit_iff_rd_one, rd_setBit_apart, rd_wr_apart]

/-- The thresholds of the keeper as the measurement leaves them (R105, R106, R115). -/
theorem measKeep_measFields (vscap hvin : Nat) (vdd above : Bool) :
    let k := (s.measFields vscap hvin).measKeep vscap hvin vdd above
    k.low1 = decide (vscap < s.rd F.KEEP_VCUT1 ∨ (s.keep.low1 = true ∧ vscap < s.rd F.KEEP_VCUT1 + 50)) ∧
    k.low2 = decide (vscap < s.rd F.KEEP_VCUT2 ∨ (s.keep.low2 = true ∧ vscap < s.rd F.KEEP_VCUT2 + 50)) ∧
    k.dawnLow = decide (hvin < s.rd F.KEEP_DAWNV ∨ (s.keep.dawnLow = true ∧ hvin < s.rd F.KEEP_DAWNV + 25)) ∧
    k.halted = decide (vscap < 1000) ∧ k.vddOk = vdd ∧ k.above = above := by
  simp (disch := decide) only [measKeep, fell_eq, measFields_keep, rd_measFields_apart, and_self]

theorem OnlyRegs.measFields {s t : State} {l : List Nat} (h : OnlyRegs l s t) (vscap hvin : Nat) (hstat : 0x4044 ∈ l) (hmeas : 0x4048 ∈ l) :
    OnlyRegs l s (t.measFields vscap hvin) :=
  (((h.wr _ hmeas).wr _ hmeas).setBit _ hstat).setBit _ hstat

theorem OnlyRegs.withKeep {s t : State} {l : List Nat} (h : OnlyRegs l s t) (k : KeepM) : OnlyRegs l (s.withKeep k) (t.withKeep k) := by
  obtain ⟨hreg, hrest⟩ := h
  exact ⟨hreg, congrArg (fun x : State => x.withKeep k) hrest⟩

theorem measStat_keep : s.measStat.keep = s.keep := by
  simp only [measStat, keep_ite, wr_keep, keepCharge_keep, setBit_keep, ite_self]

theorem rd_measStat_apart {g : Fld} (h : ∀ f ∈ [F.KEEP_VKEEPON, F.KEEP_KTVALID, F.KEEP_HARV, F.KEEP_MAINCHG, F.KEEP_DAWN], g.Apart f) :
    s.measStat.rd g = s.rd g := by
  simp only [List.forall_mem_cons] at h
  obtain ⟨hon, htime, hharv, hmain, hdawn, -⟩ := h
  simp only [measStat, rd_ite, rd_wr_apart _ _ hdawn, rd_keepCharge_apart _ hharv hmain, rd_wr_apart _ _ htime, rd_setBit_apart _ _ hon, ite_self]

/-- STAT after a measurement, by the fields and the keeper that it left (R102 to R106, R115). -/
theorem measStat_fields :
    s.measStat.rd F.KEEP_VKEEPON = (if s.rd F.KEEP_VKEEPEN = 1 ∧ s.keep.low1 = false then 1 else 0) ∧
    s.measStat.rd F.KEEP_KTVALID = (if s.keep.low2 = true ∨ s.keep.halted = true then 0 else s.rd F.KEEP_KTVALID) ∧
    s.measStat.rd F.KEEP_MAINCHG = (if s.keep.vddOk = true ∧ s.rd F.KEEP_VSCAP < s.rd F.KEEP_VTERM ∧ s.rd F.KEEP_ICHG ≠ 0 then 1 else 0) ∧
    s.measStat.rd F.KEEP_HARV = (if s.rd F.KEEP_HARVEN = 1 ∧ s.rd F.KEEP_VSCAP < s.rd F.KEEP_VTERM ∧
      (if s.rd F.KEEP_COLD = 1 then 165 ≤ s.rd F.KEEP_HVIN else s.keep.above = true) then 1 else 0) ∧
    s.measStat.rd F.KEEP_DAWN = (if s.keep.dawnLow = true ∨ s.keep.halted = true then 0 else s.rd F.KEEP_DAWN) := by
  refine ⟨?_, ?_, ?_, ?_, ?_⟩
  · simp (disch := decide) only [measStat, rd_ite, rd_wr_apart, rd_keepCharge_apart, rd_setBit_self, ite_self, Bool.and_eq_true, bit_iff_rd_one,
      Bool.not_eq_true']
  · simp (disch := decide) only [measStat, rd_ite, rd_wr_apart, rd_wr_self, rd_keepCharge_apart, rd_setBit_apart, ite_self, Bool.or_eq_true,
      setBit_keep, Nat.zero_mod]
  · simp (disch := decide) only [measStat, rd_ite, rd_wr_apart, rd_mainchg_keepCharge, rd_setBit_apart, ite_self, keep_ite, wr_keep, setBit_keep]
  · simp (disch := decide) only [measStat, rd_ite, rd_wr_apart, rd_harv_keepCharge, rd_setBit_apart, ite_self, keep_ite, wr_keep, setBit_keep]
  · simp (disch := decide) only [measStat, rd_ite, rd_wr_apart, rd_wr_self, rd_keepCharge_apart, rd_setBit_apart, ite_self, Bool.or_eq_true,
      keepCharge_keep, keep_ite, wr_keep, setBit_keep, Nat.zero_mod]

theorem OnlyRegs.measStat {s t : State} {l : List Nat} (h : OnlyRegs l s t) (hl : 0x4044 ∈ l) : OnlyRegs l s t.measStat := by
  have hon := h.setBit (f := F.KEEP_VKEEPON) (t.bit F.KEEP_VKEEPEN && !t.keep.low1) hl
  have hcharge := (OnlyRegs.ite (c := (t.keep.low2 || t.keep.halted) = true) (hon.wr (f := F.KEEP_KTVALID) 0 hl) hon).keepCharge hl
  exact OnlyRegs.ite (hcharge.wr (f := F.KEEP_DAWN) 0 hl) hcharge

/-! The restart (R106). -/

/-- The keeper's page from cold, without the fields of the main logic. -/
def keepCold (s : State) : State :=
  { s with regs := s.regs.filter fun e => !(0x4040 ≤ e.1 && e.1 < 0x5000)
           keep := { crossing := s.keep.crossing, ckpt := s.keep.ckpt, bootRef := s.keep.bootRef } }

/-- The state `t` with the fields that the main logic of `s` has in the keeper's page. -/
def mainFields (s t : State) : State :=
  (((t.wr F.KEEP_CKPER (s.rd F.KEEP_CKPER)).wr F.KEEP_CKREQ (s.rd F.KEEP_CKREQ)).wr F.KEEP_CKBUSY (s.rd F.KEEP_CKBUSY)).wr F.KEEP_XBUSY
    (s.rd F.KEEP_XBUSY)

theorem keepRestart_of_lost (hhalt : s.keep.halted = true) {low : Nat} (h : s.keep.rfGone = true ∨ low < 700) :
    s.keepRestart low = (s.mainFields s.keepCold).latch F.KEEP_RFLOST := by
  unfold keepRestart
  rw [if_neg (by simp [hhalt]), if_pos (by simpa using h)]
  rfl

theorem keepRestart_of_kept (hhalt : s.keep.halted = true) {low : Nat} (hgone : s.keep.rfGone = false) (h : 700 ≤ low) :
    s.keepRestart low = { s with keep := { s.keep with halted := false } } := by
  unfold keepRestart
  rw [if_neg (by simp [hhalt]), if_neg (by simpa [hgone] using h)]

theorem reg_keepCold {a : Nat} (hlo : 0x4040 ≤ a) (hhi : a < 0x5000) : s.keepCold.reg a = RegMap.resetOf a :=
  SMap.get_filter_keep RegMap.resetOf (fun k => !(0x4040 ≤ k && k < 0x5000)) s.regs (by simp [hlo, hhi])

theorem reg_keepCold_of_outside {a : Nat} (h : a < 0x4040 ∨ 0x5000 ≤ a) : s.keepCold.reg a = s.reg a :=
  SMap.get_filter_of_pass RegMap.resetOf (fun k => !(0x4040 ≤ k && k < 0x5000)) s.regs (by simp; omega)

theorem rd_ckper_mainFields (t : State) : (s.mainFields t).rd F.KEEP_CKPER = s.rd F.KEEP_CKPER := by
  simp (disch := decide) only [mainFields, rd_wr_apart, rd_wr_self]
  exact Nat.mod_eq_of_lt (s.rd_lt F.KEEP_CKPER)

theorem mainFields_keep (t : State) : (s.mainFields t).keep = t.keep := by
  simp only [mainFields, wr_keep]

theorem mainFields_mem (t : State) : (s.mainFields t).mem = t.mem := by
  simp only [mainFields, wr_mem]

/-- They lie in KEEP.CTL and KEEP.STAT. -/
theorem onlyRegs_mainFields (t : State) : OnlyRegs [0x4040, 0x4044] t (s.mainFields t) :=
  ((((OnlyRegs.refl _ t).wr _ (by decide)).wr _ (by decide)).wr _ (by decide)).wr _ (by decide)

end State

open State

theorem exec_keeperMeasurement (v h : Fin 4096) (m a : Bool) (s : State) :
    exec (.keeperMeasurement v h m a) s = .next (s.keepMeasure v h m a) := (rfl)

theorem exec_keeperRestart (l : Fin 4096) (s : State) : exec (.keeperRestart l) s = .next (s.keepRestart l) := (rfl)

/-- Settles O20: a measurement stores its fields (`measFields`), leaves the keeper `measKeep`, and `measStat_fields` tells STAT by both; a
restart goes by `keepRestart_of_kept` and `keepRestart_of_lost`. -/
theorem keeperMeasurementThresholds : Obligations.KeeperMeasurementThresholds := by
  refine ⟨fun v h m a s hrun => ?measured, fun v h m a s hhalt => ?halted, fun l s hhalt hgone hlow => ?kept, fun l s hhalt hlost => ?lost⟩
  case measured =>
    rw [exec_keeperMeasurement, keepMeasure_eq s hrun]
    have hvscap := s.rd_vscap_measFields v h
    have hhvin := s.rd_hvin_measFields v h
    have hcold := s.rd_cold_measFields v h
    have hlowresv := s.rd_lowresv_measFields v h
    have hmeas {g : Fld} := s.rd_measFields_apart v h (g := g)
    have hfields := (OnlyRegs.refl [0x4044, 0x4048] s).measFields v h (by decide) (by decide)
    obtain ⟨hlow1, hlow2, hdawnLow, hhalted, hvdd, habove⟩ := s.measKeep_measFields v h m a
    generalize (s.measFields v h).measKeep v h m a = k at *
    generalize s.measFields v h = u at *
    obtain ⟨hon, htime, hmain, hharv, hdawn⟩ := (u.withKeep k).measStat_fields
    have hstat {g : Fld} := (u.withKeep k).rd_measStat_apart (g := g)
    simp (disch := decide) only [rd_withKeep, withKeep_keep, hmeas, hvscap, hhvin, hhalted, hvdd, habove, decide_eq_true_eq] at hon htime hmain hharv hdawn hstat
    refine ⟨_, rfl, ?_, ?_, ?_, ?_, ?_, ?_, ?_, ?_, ?_, ?_, ?_, ?_, ?_, ?_⟩
    · rw [hstat (by decide), hvscap]
    · rw [hstat (by decide), hhvin]
    · rw [hstat (by decide), hcold]
    · rw [hstat (by decide), hlowresv]
    · rw [measStat_keep, withKeep_keep, hlow1]
    · rw [measStat_keep, withKeep_keep, hlow2]
    · rw [measStat_keep, withKeep_keep, hhalted]
    · rw [measStat_keep, withKeep_keep, hon]
    · simp only [measStat_keep, withKeep_keep, htime, hhalted, decide_eq_true_eq]
    · rw [hmain]
    · rw [hharv, hstat (g := F.KEEP_COLD) (by decide)]
    · rw [measStat_keep, withKeep_keep, hdawnLow]
    · rw [measStat_keep, withKeep_keep, hdawn]
    · rw [measStat_keep]
      exact (hfields.withKeep k).measStat (by decide)
  case halted =>
    rw [exec_keeperMeasurement, keepMeasure_of_halted s hhalt]
  case kept => rw [exec_keeperRestart, keepRestart_of_kept s hhalt hgone hlow]
  case lost =>
    rw [exec_keeperRestart, keepRestart_of_lost s hhalt hlost]
    obtain ⟨hreg, -⟩ := (s.onlyRegs_mainFields s.keepCold).latch (f := F.KEEP_RFLOST) (by decide)
    refine ⟨_, rfl, ?_, ?_, ?_, fun a hlo hhi => ?_, fun a hout => ?_, ?_⟩
    · rw [latch_keep, mainFields_keep]
      rfl
    · rw [rd_latch, rd_wr_self _ _ _ (by decide) (by decide)]
      decide
    · rw [rd_latch, rd_wr_apart _ _ (by decide), rd_ckper_mainFields]
    · rw [hreg a (by simp; omega), reg_keepCold s (by omega) hhi]
    · rw [hreg a (by simp; omega), reg_keepCold_of_outside s hout]
    · rw [latch_mem, mainFields_mem]
      rfl

end Sys2Proof.Machine
end

section
/-! SUPPORT. The registers of the keeper's page through a raise (R396 to R408) and through a write to the MRAM (R428), and the checkpoints of
R108 and R110: the statement `CheckpointsBegin`. -/

namespace Sys2Proof.Machine
namespace State

/-- The registers of the keeper's page. -/
def keepRegs (s : State) : Fin 0x1000 → Word := fun a => s.reg (0x4000 + a)

theorem reg_of_keepRegs {s t : State} (h : keepRegs t = keepRegs s) {a : Nat} (ha : a < 0x1000) : t.reg (0x4000 + a) = s.reg (0x4000 + a) :=
  congrFun h ⟨a, ha⟩

theorem keepRegs_of_lowRegs {s t : State} (h : lowRegs t = lowRegs s) : keepRegs t = keepRegs s :=
  funext fun a => reg_of_lowRegs h (by omega)

variable (s : State)

theorem keepRegs_setReg_low {a : Nat} (w : Word) (h : a < 0x4000) : keepRegs (s.setReg a w) = keepRegs s :=
  funext fun b => reg_setReg_ne s w (by omega)

@[simp] theorem keepRegs_setReg {a : Nat} (w : Word) (h : 0x5000 ≤ a) : keepRegs (s.setReg a w) = keepRegs s :=
  funext fun b => reg_setReg_ne s w (by omega)

@[simp] theorem keepRegs_wr {f : Fld} (v : Nat) (h : 0x5000 ≤ f.addr) : keepRegs (s.wr f v) = keepRegs s := keepRegs_setReg s _ h
@[simp] theorem keepRegs_setBit {f : Fld} (b : Bool) (h : 0x5000 ≤ f.addr) : keepRegs (s.setBit f b) = keepRegs s := keepRegs_wr s _ h
@[simp] theorem keepRegs_sat {f : Fld} (h : 0x5000 ≤ f.addr) : keepRegs (s.sat f) = keepRegs s := keepRegs_wr s _ h
@[simp] theorem keepRegs_wrap {f : Fld} (h : 0x5000 ≤ f.addr) : keepRegs (s.wrap f) = keepRegs s := keepRegs_wr s _ h
@[simp] theorem keepRegs_latch {f : Fld} (h : 0x5000 ≤ f.addr) : keepRegs (s.latch f) = keepRegs s := keepRegs_wr s _ h
@[simp] theorem keepRegs_wr_subF (c v : Nat) : keepRegs (s.wr (subF c) v) = keepRegs s := keepRegs_setReg_low s _ (by simp [subF, Pg.SYS])
@[simp] theorem keepRegs_setBit_moving (b : Bool) : keepRegs (s.setBit F.SYS_MOVING b) = keepRegs s := keepRegs_setReg_low s _ (by decide)

/-- An update of other parts keeps them. -/
@[simp] theorem keepRegs_upd (variant : Variant) (phase : Phase) (tmode : Bool) (hwSet : SMap Word) (mem : List Host.Cell) (chk : SMap Byte) (valid : SMap Bool)
    (clk : ClkM) (time : TimeM) (boot : BootM) (keep : KeepM) (sec : SecM) (age : AgeM) (hif : HifM) (alm : AlmM) (leng : LengM) (mtr : MtrM)
    (net : NetM) (flt : SMap FltRec) (jrnl : JrnlM) (ecc : EccM) (mode : ModeM) (safe : SafeM) (legs : SMap LegM) (ids : SMap IdM) (grids : SMap GridM)
    (chs : SMap ChM) (forms : SMap FormM) (dcs : SMap DcM) (isl : IslM) (ride : RideM) (subsSeen : Nat) (syncAt : Option Nat)
    (syncOutAt : Option Nat) (mach : MachM) (mods : SMap ModIn) (blks : SMap ModBlk) (padc : SMap PadcM) (cmps : SMap CmpM)
    (ramps : SMap RampM) (stRun : Option SelfTest) (stWait : List (Nat × Bool)) (trips : SMap TripM) (gdos : SMap GdoM) (free : Nat)
    (tick : Nat) (pending : List Instr) :
    keepRegs (State.mk variant phase tmode s.regs hwSet mem chk valid clk time boot keep sec age hif alm leng mtr net flt jrnl
      ecc mode safe legs ids grids chs forms dcs isl ride subsSeen syncAt syncOutAt mach mods blks padc cmps ramps stRun stWait trips
      gdos free tick pending) =
      keepRegs s := (rfl)

@[simp] theorem keepRegs_setGdo (k : Nat) (g : GdoM) : keepRegs (s.setGdo k g) = keepRegs s := (rfl)
@[simp] theorem keepRegs_setFltRec (n : Nat) (v : FltRec) : keepRegs (s.setFltRec n v) = keepRegs s := (rfl)

@[simp] theorem keepRegs_foldl {α : Type} (l : List α) (f : State → α → State) (h : ∀ t x, keepRegs (f t x) = keepRegs t) :
    keepRegs (l.foldl f s) = keepRegs s := foldl_view keepRegs l f (fun t x _ => h t x) s

@[simp] theorem keepRegs_each (n : Nat) (f : State → Nat → State) (h : ∀ t k, keepRegs (f t k) = keepRegs t) :
    keepRegs (s.each n f) = keepRegs s := keepRegs_foldl s _ f h

/-! What a raise does, in the order of the definitions. -/

@[simp] theorem keepRegs_wake (b : Nat) : keepRegs (s.wake b) = keepRegs s :=
  funext fun a => reg_wake_of_ne s b (by omega) (by omega)

@[simp] theorem keepRegs_iraw {pg : Nat} (b : Nat) (v : Bool) (h : 0x5000 ≤ pg) : keepRegs (s.iraw pg b v) = keepRegs s := by
  have hraw : 0x5000 ≤ ((F.IRAW pg).at b).addr := Nat.le_add_right_of_le h
  have hflg : 0x5000 ≤ ((F.IFLG pg).at b).addr := Nat.le_add_right_of_le h
  simp [iraw, apply_ite keepRegs, hraw, hflg]

@[simp] theorem keepRegs_ipulse {pg : Nat} (b : Nat) (h : 0x5000 ≤ pg) : keepRegs (s.ipulse pg b) = keepRegs s := by
  simp [ipulse, h]

@[simp] theorem keepRegs_jrnlPush (r : JRec) : keepRegs (s.jrnlPush r) = keepRegs s := by
  simp [jrnlPush, apply_ite keepRegs, F.JRNL_NEXTSEQ, F.JRNL_QDEPTH, F.JRNL_DROPCNT, Pg.JRNL]

@[simp] theorem keepRegs_jrnlAdd (kind src cls flags dclass scope aux data : Nat) :
    keepRegs (s.jrnlAdd kind src cls flags dclass scope aux data) = keepRegs s := keepRegs_jrnlPush s _

@[simp] theorem keepRegs_cellsAll : keepRegs s.cellsAll = keepRegs s :=
  keepRegs_of_lowRegs (by simp [cellsAll, cellUpdate])

@[simp] theorem keepRegs_gdoUpdate (k : Nat) : keepRegs (s.gdoUpdate k) = keepRegs s := by
  simp [gdoUpdate, apply_ite keepRegs, F.LEGX_GDFORCED, F.LEGX_GDONCNT, F.LEGX_GDOUT, Nat.le_add_right_of_le]

@[simp] theorem keepRegs_gdosAll : keepRegs s.gdosAll = keepRegs s := by
  simp [gdosAll]

@[simp] theorem keepRegs_stoSync : keepRegs s.stoSync = keepRegs s := by
  unfold stoSync
  dsimp only
  split
  · simp [F.SAFE_STOA, F.SAFE_STOB]
  · split
    · rfl
    · split
      · simp [F.SAFE_STOA, F.SAFE_STOB]
      · rw [keepRegs_gdosAll, keepRegs_cellsAll]
        exact (keepRegs_upd ..).trans (by simp [F.SAFE_STOA, F.SAFE_STOB])

@[simp] theorem keepRegs_ceaseGrid : keepRegs s.ceaseGrid = keepRegs s := by
  simp [ceaseGrid, apply_ite keepRegs]

@[simp] theorem keepRegs_safeStopBegin (shutdown : Bool) : keepRegs (s.safeStopBegin shutdown) = keepRegs s := by
  unfold safeStopBegin
  split
  · rfl
  · dsimp only
    rw [apply_ite keepRegs, keepRegs_ceaseGrid, ite_self, keepRegs_stoSync, keepRegs_ipulse _ _ (by decide)]
    exact (keepRegs_upd ..).trans (by simp [F.SAFE_PHASE, F.SAFE_DEMCNT])

@[simp] theorem keepRegs_fltLevels : keepRegs s.fltLevels = keepRegs s := by
  simp [fltLevels, Pg.FLT]

@[simp] theorem keepRegs_modeDue (cause : Nat) : keepRegs (s.modeDue cause) = keepRegs s := by
  simp [modeDue, apply_ite keepRegs]

@[simp] theorem keepRegs_tripReact (scope : Nat) : keepRegs (s.tripReact scope) = keepRegs s := by
  simp [tripReact, apply_ite keepRegs]

@[simp] theorem keepRegs_fltReact (c scope : Nat) : keepRegs (s.fltReact c scope) = keepRegs s := by
  simp [fltReact, apply_ite keepRegs]

@[simp] theorem keepRegs_fltLast (n c : Nat) : keepRegs (s.fltLast n c) = keepRegs s := by
  simp [fltLast, F.FLT_LASTV, F.FLT_LASTSRC, F.FLT_LASTCLS]

@[simp] theorem keepRegs_fltHoldSync : keepRegs s.fltHoldSync = keepRegs s := keepRegs_setReg_low s _ (by decide)

@[simp] theorem keepRegs_raiseOne (n ch : Nat) (forced : Bool) : keepRegs (s.raiseOne n ch forced) = keepRegs s := by
  have hrec : 0x5000 ≤ 0x6400 + 4 * n := by omega
  have hopen : 0x5000 ≤ 0x6080 + n / 32 * 4 := by omega
  unfold raiseOne
  dsimp only
  split
  · simp [apply_ite keepRegs, F.FLT_RPT, hrec]
  · split
    · simp [F.FLT_RPT, F.FLT_RAISECNT, hrec]
    · split
      · split <;> simp [F.FLT_RAISECNT, F.JRNL_NSUPP]
      · generalize (s.wrap F.FLT_RAISECNT).fltSecond n 4 (s.rd (F.FLT_CLASS n)) = r
        obtain ⟨c, second⟩ := r
        cases second <;> simp [apply_ite keepRegs, F.FLT_RPT, F.FLT_RAISECNT, F.FLT_SECCNT, F.FLT_OPEN, F.FLT_RESTORED, F.FLT_FORCED,
          F.FLT_CUR, Pg.FLT, hrec, hopen]

@[simp] theorem keepRegs_fltExpire (n : Nat) : keepRegs (s.fltExpire n) = keepRegs s := by
  simp [fltExpire, apply_ite keepRegs, F.FLT_CUR, F.FLT_ESCCNT, Pg.FLT, Nat.le_add_right_of_le]

@[simp] theorem keepRegs_graceRun (n : Nat) : keepRegs (s.graceRun n) = keepRegs s := by
  simp [graceRun, apply_ite keepRegs]

@[simp] theorem keepRegs_raiseFlt (n ch : Nat) (forced : Bool) : keepRegs (s.raiseFlt n ch forced) = keepRegs s := by
  simp [raiseFlt, apply_ite keepRegs]

@[simp] theorem keepRegs_detect (n : Nat) : keepRegs (s.detect n) = keepRegs s := keepRegs_raiseFlt s n 0 false/-! A write to the MRAM (R428). -/

@[simp] theorem keepRegs_store64 (a d : Nat) (syn : Byte) : keepRegs (s.store64 a d syn) = keepRegs s := by
  unfold keepRegs reg
  rw [store64_regs]

@[simp] theorem keepRegs_write64 (a v : Nat) (p : Bool) : keepRegs (s.write64 a v p) = keepRegs s := by
  simp [write64]

@[simp] theorem keepRegs_wear (a : Nat) : keepRegs (s.wear a) = keepRegs s := by
  unfold wear
  split <;> simp [F.ECC_MWEAR, Nat.le_add_right_of_le]

@[simp] theorem keepRegs_mramPut (a v : Nat) : keepRegs (s.mramPut a v) = keepRegs s := by
  simp [mramPut, apply_ite keepRegs]

@[simp] theorem keepRegs_mramWrite (a : Nat) (l : List Byte) : keepRegs (s.mramWrite a l) = keepRegs s := by
  simp [mramWrite]

theorem putBytes_age (l : List Byte) : ∀ (s : State) (a : Nat), (s.putBytes a l).age = s.age := by
  induction l with
  | nil => exact fun _ _ => rfl
  | cons x l ih => exact fun s a => ih _ _

theorem marked_age (w : Nat) (syn : Byte) : (s.marked w syn).age = s.age := (rfl)

theorem store64_age (a d : Nat) (syn : Byte) : (s.store64 a d syn).age = s.age := by
  rw [store64_eq_marked, marked_age, putBytes_age]

theorem wear_age (a : Nat) : (s.wear a).age = s.age := by
  unfold wear
  split <;> simp

section
variable {s} {a : Nat} {l : List Byte} (hweak : s.ecc.weak = [])
include hweak

theorem age_mramWords (k : Nat) : (s.mramWords a l k).age = s.age := by
  induction k with
  | zero => rfl
  | succ k ih => rw [mramWords_succ hweak, wear_age, store64_age, ih]

theorem age_mramWrite : (s.mramWrite a l).age = s.age := by
  rw [mramWrite_eq, age_mramWords hweak]

end

/-! A field of the keeper's page. -/

theorem rd_of_keepRegs {s t : State} (h : keepRegs t = keepRegs s) {f : Fld} (hlo : 0x4000 ≤ f.addr) (hhi : f.addr < 0x5000) : t.rd f = s.rd f := by
  have hreg := reg_of_keepRegs h (a := f.addr - 0x4000) (by omega)
  rw [Nat.add_sub_cancel' hlo] at hreg
  exact rd_congr hreg

/-! A checkpoint that begins (R110). -/

theorem ckptBusy_eq (slot : Nat) (body : List Byte) : s.ckptBusy slot body =
    (((s.wrap F.KEEP_CKSEQ).wrap F.KEEP_NEXTSLOT).wr F.KEEP_CKBUSY 1).withKeep { s.keep with ckpt := some (slot, body) } := by
  rw [ckptBusy, wrap_keep, wrap_keep, withKeep]

theorem rd_wrap_self (f : Fld) (h : f.lo ≤ f.hi) (hb : f.hi < 32) : (s.wrap f).rd f = (s.rd f + 1) % 2 ^ f.width := rd_wr_self s f _ h hb

theorem rd_wrap_apart {f g : Fld} (h : g.Apart f) : (s.wrap f).rd g = s.rd g := rd_wr_apart s _ h

theorem rd_ckbusy_ckptBusy (slot : Nat) (body : List Byte) : (s.ckptBusy slot body).rd F.KEEP_CKBUSY = 1 := by
  rw [ckptBusy_eq, rd_withKeep, rd_wr_self _ _ _ (by decide) (by decide)]
  rfl

theorem rd_ckseq_ckptBusy (slot : Nat) (body : List Byte) : (s.ckptBusy slot body).rd F.KEEP_CKSEQ = (s.rd F.KEEP_CKSEQ + 1) % 2 ^ 32 := by
  rw [ckptBusy_eq, rd_withKeep, rd_wr_apart _ _ (by decide), rd_wrap_apart _ (by decide), rd_wrap_self _ _ (by decide) (by decide)]
  rfl

theorem rd_nextslot_ckptBusy (slot : Nat) (body : List Byte) : (s.ckptBusy slot body).rd F.KEEP_NEXTSLOT = (s.rd F.KEEP_NEXTSLOT + 1) % 8 := by
  rw [ckptBusy_eq, rd_withKeep, rd_wr_apart _ _ (by decide), rd_wrap_self _ _ (by decide) (by decide), rd_wrap_apart _ (by decide)]
  rfl

theorem rd_ckptBusy_apart (slot : Nat) (body : List Byte) {g : Fld} (h : ∀ f ∈ [F.KEEP_CKBUSY, F.KEEP_CKSEQ, F.KEEP_NEXTSLOT], g.Apart f) :
    (s.ckptBusy slot body).rd g = s.rd g := by
  simp only [List.forall_mem_cons] at h
  obtain ⟨hbusy, hseq, hslot, -⟩ := h
  rw [ckptBusy_eq, rd_withKeep, rd_wr_apart _ _ hbusy, rd_wrap_apart _ hslot, rd_wrap_apart _ hseq]

theorem cells_withKeep (k : KeepM) : cells (s.withKeep k) = cells s := (rfl)

theorem cells_ckptBusy (slot : Nat) (body : List Byte) : cells (s.ckptBusy slot body) = cells s := by
  rw [ckptBusy_eq, cells_withKeep, cells_wr, cells_wrap, cells_wrap]

/-- It uses up the next SEQ and the next slot, KEEP.STAT shows it, and the other fields of the keeper's page stay. -/
theorem ckptBegin_fields (kind rail time : Nat) : (s.ckptBegin kind rail time).rd F.KEEP_CKBUSY = 1 ∧
    (s.ckptBegin kind rail time).rd F.KEEP_CKSEQ = (s.rd F.KEEP_CKSEQ + 1) % 2 ^ 32 ∧
    (s.ckptBegin kind rail time).rd F.KEEP_NEXTSLOT = (s.rd F.KEEP_NEXTSLOT + 1) % 8 ∧
    (s.ckptBegin kind rail time).rd F.KEEP_CKREQ = s.rd F.KEEP_CKREQ := by
  have hwrite {f : Fld} := rd_of_keepRegs (s.keepRegs_mramWrite (ckptAddr (s.rd F.KEEP_NEXTSLOT) + 0x1F8) (leBytes 8 0)) (f := f)
  rw [ckptBegin_eq, rd_ckbusy_ckptBusy, rd_ckseq_ckptBusy, rd_nextslot_ckptBusy, rd_ckptBusy_apart _ _ _ (by decide)]
  exact ⟨rfl, by rw [hwrite (by decide) (by decide)], by rw [hwrite (by decide) (by decide)], hwrite (by decide) (by decide)⟩

/-- The commit word of its slot holds zeros, and every other byte stays (R110). -/
theorem byte_ckptBegin (hweak : s.ecc.weak = []) (kind rail time a : Nat) : (s.ckptBegin kind rail time).byte a =
    if ckptAddr (s.rd F.KEEP_NEXTSLOT) + 0x1F8 ≤ a ∧ a < ckptAddr (s.rd F.KEEP_NEXTSLOT) + 0x200 then 0 else s.byte a := by
  have haddr : (ckptAddr (s.rd F.KEEP_NEXTSLOT) + 0x1F8) % 8 = 0 := by unfold ckptAddr; omega
  have hzeros (i : Nat) : (leBytes 8 0).getD i 0 = 0 := by
    have hrep : leBytes 8 0 = List.replicate 8 0 := rfl
    rw [hrep, List.getD_eq_getElem?_getD, List.getElem?_replicate]
    split <;> rfl
  rw [ckptBegin_eq, byte_of_cells (cells_ckptBusy _ _ _), byte_mramWrite hweak haddr (by rw [length_leBytes]), hzeros, length_leBytes]

theorem ckptStart_of_busy (kind : Nat) (h : s.rd F.KEEP_CKBUSY = 1) : s.ckptStart kind = s := by
  rw [ckptStart, bit_of_rd_one h, if_pos rfl]

theorem ckptStart_of_idle (kind : Nat) (h : s.rd F.KEEP_CKBUSY = 0) :
    s.ckptStart kind = s.ckptBegin kind 0 (if s.timeRuns = true then s.now64 else 0) := by
  rw [ckptStart, bit_of_rd_zero h, if_neg Bool.false_ne_true]

/-! A word of KEEP.CTL that asks for one (R113). -/

/-- The state in which the checkpoint asked for by the word `v` of KEEP.CTL has begun. -/
def ckptAsked (s : State) (v : Word) : State := ((s.wr F.KEEP_CKPER (F.KEEP_CKPER.of v)).wr F.KEEP_CKREQ 1).ckptStart 3

theorem keepWrite_ckreq {v : Word} (hfree : s.rd F.KEEP_XBUSY = 0) (hichg : F.KEEP_ICHG.of v ≠ 3) (hreq : F.KEEP_CKREQ.on v = true)
    (hbusy : s.rd F.KEEP_CKBUSY = 0) : s.keepWrite 0x4040 v = ((s.ckptAsked v).keepCrossing 0x4040 v, .ok) := by
  have hbusy' : (s.wr F.KEEP_CKPER (F.KEEP_CKPER.of v)).rd F.KEEP_CKBUSY = 0 := (rd_wr_apart s _ (by decide)).trans hbusy
  have hrange : s.keepRange 0x40 v = true := by simp [keepRange, hichg]
  simp [keepWrite, bit_of_rd_zero hfree, hrange, hreq, bit_of_rd_zero hbusy', ckptAsked, keepCrossing]

theorem keepCrossing_eq (a : Nat) (v : Word) : s.keepCrossing a v = (s.wr F.KEEP_XBUSY 1).withKeep { s.keep with crossing := some (a, v) } := (rfl)

theorem rd_xbusy_keepCrossing (a : Nat) (v : Word) : (s.keepCrossing a v).rd F.KEEP_XBUSY = 1 := by
  rw [keepCrossing_eq, rd_withKeep, rd_wr_self _ _ _ (by decide) (by decide)]
  rfl

theorem rd_keepCrossing_apart (a : Nat) (v : Word) {g : Fld} (h : g.Apart F.KEEP_XBUSY) : (s.keepCrossing a v).rd g = s.rd g :=
  rd_wr_apart s 1 h

theorem keepCrossing_ckpt (a : Nat) (v : Word) : (s.keepCrossing a v).keep.ckpt = s.keep.ckpt := (rfl)

theorem keepCrossing_crossing (a : Nat) (v : Word) : (s.keepCrossing a v).keep.crossing = some (a, v) := (rfl)

theorem ckptAsked_eq (v : Word) (h : s.rd F.KEEP_CKBUSY = 0) : ∃ time,
    s.ckptAsked v = ((s.wr F.KEEP_CKPER (F.KEEP_CKPER.of v)).wr F.KEEP_CKREQ 1).ckptBegin 3 0 time :=
  ⟨_, ckptStart_of_idle _ 3 (by rw [rd_wr_apart _ _ (by decide), rd_wr_apart _ _ (by decide), h])⟩

/-- The checkpoint asked for begins, and KEEP.CTL shows the request. -/
theorem ckptAsked_fields (v : Word) (h : s.rd F.KEEP_CKBUSY = 0) : (s.ckptAsked v).rd F.KEEP_CKBUSY = 1 ∧ (s.ckptAsked v).rd F.KEEP_CKREQ = 1 ∧
    (s.ckptAsked v).rd F.KEEP_CKSEQ = (s.rd F.KEEP_CKSEQ + 1) % 2 ^ 32 ∧ (s.ckptAsked v).keep.ckpt.isSome = true := by
  obtain ⟨time, heq⟩ := s.ckptAsked_eq v h
  obtain ⟨hbusy, hseq, -, hreq⟩ := ((s.wr F.KEEP_CKPER (F.KEEP_CKPER.of v)).wr F.KEEP_CKREQ 1).ckptBegin_fields 3 0 time
  rw [heq, hbusy, hseq, hreq, ckpt_ckptBegin, rd_wr_self _ _ _ (by decide) (by decide), rd_wr_apart _ _ (by decide), rd_wr_apart _ _ (by decide)]
  exact ⟨rfl, rfl, rfl, rfl⟩

/-! A checkpoint that ends (R110, R428). -/

theorem ckptIdle_eq : s.ckptIdle = ((s.wr F.KEEP_CKBUSY 0).wr F.KEEP_CKREQ 0).withKeep { s.keep with ckpt := none } := (rfl)

theorem rd_ckbusy_ckptIdle : s.ckptIdle.rd F.KEEP_CKBUSY = 0 := by
  rw [ckptIdle_eq, rd_withKeep, rd_wr_apart _ _ (by decide), rd_wr_self _ _ _ (by decide) (by decide), Nat.zero_mod]

theorem rd_ckreq_ckptIdle : s.ckptIdle.rd F.KEEP_CKREQ = 0 := by
  rw [ckptIdle_eq, rd_withKeep, rd_wr_self _ _ _ (by decide) (by decide), Nat.zero_mod]

theorem withKeep_age (k : KeepM) : (s.withKeep k).age = s.age := (rfl)

theorem ckptIdle_age : s.ckptIdle.age = s.age := by
  rw [ckptIdle_eq, withKeep_age, wr_age, wr_age]

theorem ckptIdle_ckpt : s.ckptIdle.keep.ckpt = none := by
  rw [ckptIdle_eq, withKeep_keep]

/-- Two blocks are written, and KEEP.STAT shows no checkpoint. -/
theorem exists_ckptEnd_eq (h : s.keep.ckpt.isSome = true) : ∃ (a b : Nat) (l m : List Byte), s.ckptEnd = ((s.mramWrite a l).mramWrite b m).ckptIdle := by
  obtain ⟨⟨slot, body⟩, hckpt⟩ := Option.isSome_iff_exists.mp h
  refine ⟨ckptAddr slot, ckptAddr slot + 0x1F8, body, (body.drop 0x1F0).take 4 ++ (body.drop 4).take 4, ?_⟩
  rw [ckptEnd, hckpt]
  rfl

theorem ckptEnd_fields (h : s.keep.ckpt.isSome = true) (hweak : s.ecc.weak = []) : s.ckptEnd.rd F.KEEP_CKBUSY = 0 ∧ s.ckptEnd.rd F.KEEP_CKREQ = 0 ∧
    s.ckptEnd.keep.ckpt = none ∧ s.ckptEnd.age = s.age := by
  obtain ⟨a, b, l, m, heq⟩ := s.exists_ckptEnd_eq h
  have hweak' : (s.mramWrite a l).ecc.weak = [] := (weak_of_ladderView (s.ladderView_mramWrite a l)).trans hweak
  rw [heq, rd_ckbusy_ckptIdle, rd_ckreq_ckptIdle, ckptIdle_ckpt, ckptIdle_age, age_mramWrite hweak', age_mramWrite hweak]
  exact ⟨rfl, rfl, rfl, rfl⟩

theorem keep_of_kept {s t : State} (h : kept t = kept s) : t.keep = s.keep := congrArg (fun x => x.keep) h

theorem age_of_kept {s t : State} (h : kept t = kept s) : t.age = s.age := congrArg (fun x => x.age) h

theorem planMerge_of_no_run (h : s.age.run = none) : s.planMerge = s := by
  rw [planMerge, h]

end State

open State

theorem exec_checkpointRequest {v : Word} {s u : State} (h : s.turn 0x4040 (F.KEEP_CKREQ.put v 1) = some u) :
    exec (.checkpointRequest v) s = .next (noteWrite 0x4040 (u.keepWrite 0x4040 (F.KEEP_CKREQ.put v 1))).settle :=
  congrArg Host.Outcome.next (hostWord_of_turn s h)

/-- Nothing begins outside RUN, with CKPER 0 or while a checkpoint is in progress. -/
theorem exec_periodicCheckpoint_of_none {s : State}
    (h : s.rd F.KEEP_CKPER = 0 ∨ s.rung ≠ 0 ∨ s.phase ≠ .up ∨ s.rd F.KEEP_CKBUSY = 1) : exec .periodicCheckpoint s = .next s := by
  have hexec : exec .periodicCheckpoint s = .next (if s.rd F.KEEP_CKPER != 0 && s.rung = 0 && s.phase == .up then s.ckptStart 2 else s) := rfl
  rw [hexec]
  rcases h with hper | hrung | hphase | hbusy
  · simp [hper]
  · simp [hrung]
  · simp [hphase]
  · rw [s.ckptStart_of_busy 2 hbusy, ite_self]

/-- Settles O22: a checkpoint begins by `ckptBegin_fields` and `byte_ckptBegin`, a word that asks for one goes by `keepWrite_ckreq`, and the end
is by `ckptEnd_fields`, which a raise of source 0x07 leaves so (`keepRegs_detect`). -/
theorem checkpointsBegin : Obligations.CheckpointsBegin := by
  refine ⟨fun s hweak hper hrung hphase hbusy => ?periodic, fun s h => exec_periodicCheckpoint_of_none h, fun v s u hturn => ?request,
    fun g s hckpt hweak hrun => ?complete, fun g s hckpt => ?idle⟩
  case periodic =>
    obtain ⟨hshown, hseq, hslot, -⟩ := s.ckptBegin_fields 2 0 (if s.timeRuns = true then s.now64 else 0)
    exact ⟨_, exec_periodicCheckpoint hper hrung hphase hbusy, hshown, hseq, hslot, s.ckpt_ckptBegin 2 0 _, s.byte_ckptBegin hweak 2 0 _⟩
  case request =>
    have hichg : F.KEEP_ICHG.of (F.KEEP_CKREQ.put v 1) = F.KEEP_ICHG.of v := Fld.of_put_beside v 1 (by decide)
    have hreq := F.KEEP_CKREQ.on_put_one v (by decide) (by decide)
    rw [exec_checkpointRequest hturn]
    generalize F.KEEP_CKREQ.put v 1 = x at hichg hreq
    refine ⟨fun _ hfree hne hbusy => ?_, fun hcross => ?_, fun hfree hthree => ?_⟩
    · obtain ⟨hshown, hask, hseq, hckpt⟩ := u.ckptAsked_fields x hbusy
      rw [keepWrite_ckreq u hfree (hichg.trans_ne hne) hreq hbusy, noteWrite_ok]
      have hrd {g : Fld} (hg : g.Apart F.KEEP_XBUSY) : ((u.ckptAsked x).keepCrossing 0x4040 x).settle.rd g = (u.ckptAsked x).rd g :=
        (settle_rd _ g).trans (rd_keepCrossing_apart _ 0x4040 x hg)
      refine ⟨_, rfl, (hrd (by decide)).trans hshown, (hrd (by decide)).trans hask, (settle_rd _ _).trans (rd_xbusy_keepCrossing _ 0x4040 x),
        (hrd (by decide)).trans hseq, ?_, ?_⟩
      · rw [settle_keep, keepCrossing_ckpt, hckpt]
      · rw [settle_keep, keepCrossing_crossing]
    · rw [keepWrite_of_busy (o := 0x40) (by decide) (by decide) hcross]
    · have hrange : u.keepRange 0x40 x = false := by simp [keepRange, hichg, hthree]
      rw [keepWrite_of_range (o := 0x40) (by decide) (by decide) hfree hrange]
  case complete =>
    obtain ⟨hbusy, hreq, hnone, hage⟩ := s.ckptEnd_fields hckpt hweak
    have hsome : s.keep.ckpt ≠ none := Option.isSome_iff_ne_none.mp hckpt
    rw [exec_checkpointComplete, if_neg hsome]
    cases g with
    | true =>
      rw [if_pos rfl, planMerge_of_no_run _ (by rw [hage, hrun])]
      exact ⟨_, rfl, hbusy, hreq, hnone, nofun⟩
    | false =>
      have hkept := kept_detect s.ckptEnd 0x07
      have hrd {f : Fld} := rd_of_keepRegs (s.ckptEnd.keepRegs_detect 0x07) (f := f)
      rw [if_neg Bool.false_ne_true, planMerge_of_no_run _ (by rw [age_of_kept hkept, hage, hrun])]
      exact ⟨_, rfl, (hrd (by decide) (by decide)).trans hbusy, (hrd (by decide) (by decide)).trans hreq, by rw [keep_of_kept hkept, hnone], fun _ => rfl⟩
  case idle =>
    rw [exec_checkpointComplete, if_pos hckpt]

end Sys2Proof.Machine
end

section
/-! SUPPORT. The order in which the words of the write buffer complete, and the fences (R131, R132). -/

namespace Sys2Proof.Machine

/-- What `bufPick` picks, of the list with the earlier words `pre` (newest first) before it: the word itself, the rest in order, and nothing
earlier of its page or from before a fence it came after. -/
theorem bufPick_eq_some {a : Nat} {v : Word} {w : BufWord} {rest : List BufWord} :
    ∀ {l pre : List BufWord}, State.bufPick a v pre l = some (w, rest) →
      ∃ p q, l = p ++ w :: q ∧ w.addr = a ∧ w.val = v ∧ rest = pre.reverse ++ (p ++ q) ∧
        ∀ x ∈ pre ++ p, x.addr / 0x1000 ≠ a / 0x1000 ∧ w.fence ≤ x.fence
  | [], _, h => by simp [State.bufPick] at h
  | x :: t, pre, h => by
    unfold State.bufPick at h
    split at h
    next hx =>
      obtain ⟨haddr, hval⟩ := hx
      split at h
      · exact absurd h nofun
      · next hfree =>
        obtain ⟨rfl, rfl⟩ := Prod.mk.inj (Option.some.inj h)
        have hpre : ∀ y ∈ pre, y.addr / 0x1000 ≠ a / 0x1000 ∧ x.fence ≤ y.fence := by simpa using hfree
        exact ⟨[], t, rfl, haddr, hval, rfl, fun y hy => hpre y (by simpa using hy)⟩
    next =>
      obtain ⟨p, q, rfl, haddr, hval, rfl, hfree⟩ := bufPick_eq_some h
      exact ⟨x :: p, q, rfl, haddr, hval, by simp, fun y hy => hfree y (by simpa [or_left_comm, or_assoc] using hy)⟩

namespace State

/-- A word that has its turn waits nowhere, or leaves the buffer as the first one of its page, ahead of which no word stands on the
other side of a fence. -/
theorem turn_eq_some {s u : State} {a : Nat} {v : Word} (h : s.turn a v = some u) :
    s.hostUp = true ∧
    ((u = s ∧ s.bufHas a v = false) ∨
     ∃ (p q : List BufWord) (w : BufWord), s.hif.buf = p ++ w :: q ∧ w.addr = a ∧ w.val = v ∧
       u = { s with hif := { s.hif with buf := p ++ q } } ∧ ∀ x ∈ p, x.addr / 0x1000 ≠ a / 0x1000 ∧ w.fence ≤ x.fence) := by
  unfold turn at h
  split at h
  · exact absurd h nofun
  · next hup =>
    refine ⟨by simpa using hup, ?_⟩
    split at h
    · next w rest hpick =>
      obtain ⟨p, q, hbuf, haddr, hval, rfl, hfree⟩ := bufPick_eq_some hpick
      exact .inr ⟨p, q, w, hbuf, haddr, hval, (Option.some.inj h).symm, hfree⟩
    · split at h
      · exact absurd h nofun
      · next hhas => exact .inl ⟨(Option.some.inj h).symm, by simpa using hhas⟩

theorem bufHas_eq_false_iff {s : State} {a : Nat} {v : Word} : s.bufHas a v = false ↔ ∀ w ∈ s.hif.buf, ¬(w.addr = a ∧ w.val = v) := by
  simp [bufHas, List.any_eq_false]

theorem hostUp_iff {s : State} : s.hostUp = true ↔ s.phase = .up ∧ s.rung < 3 := by
  simp [hostUp]

/-! A write of HIF.FENCE with GO set, and the end of the fences. -/

theorem fenceGoWrite_of_free {s : State} {v : Word} (hv : F.HIF_FENCEGO.on v = true) (h : s.bit F.HIF_FENCEGO = false) :
    s.fenceGoWrite v =
      (({ s with hif := { s.hif with fenceOut := s.hif.fenceOut + 1, fenceIn := max s.hif.fenceIn (s.hif.fenceOut + 1) } } : State).setBit
        F.HIF_FENCEGO (s.hif.buf.any fun w => w.fence ≤ s.hif.fenceOut), .ok) := by
  simp [fenceGoWrite, hv, h]

theorem fenceGoWrite_of_busy {s : State} (v : Word) (h : s.bit F.HIF_FENCEGO = true) : s.fenceGoWrite v = (s, .ok) := by
  simp [fenceGoWrite, h]

theorem fenceDone_of_empty {s : State} (h : s.hif.buf = []) :
    s.fenceDone = ({ s with hif := { s.hif with fenceFrame := false } } : State).wr F.HIF_FENCEGO 0 := by
  simp [fenceDone, h]

/-- A word of an earlier fence keeps every fence. -/
theorem fenceDone_of_earlier {s : State} (h : ∃ w ∈ s.hif.buf, w.fence < s.hif.fenceOut) : s.fenceDone = s := by
  obtain ⟨w, hw, hlt⟩ := h
  have hne : s.hif.buf ≠ [] := List.ne_nil_of_mem hw
  have hall : (s.hif.buf.all fun w => decide (s.hif.fenceOut ≤ w.fence)) = false := by
    simpa [List.all_eq_false] using ⟨w, hw, hlt⟩
  simp [fenceDone, hne, hall]

end State

open State

theorem exec_fenceGo {v : Word} {s u : State} (h : s.turn 0x5048 (F.HIF_FENCEGO.put v 1) = some u) :
    exec (.fenceGo v) s = .next (noteWrite 0x5048 (u.fenceGoWrite (F.HIF_FENCEGO.put v 1))).settle :=
  congrArg Host.Outcome.next (hostWord_of_turn s h)

theorem exec_fenceComplete (s : State) : exec .fenceComplete s = .next s.fenceDone := (rfl)

/-- Settles O27: a word's turn is as `turn_eq_some` says, by induction on the words `bufPick` has passed; HIF.FENCE.GO and FENCE_COMPLETE go by
the cases of `fenceGoWrite` and `fenceDone`. -/
theorem bufferOrderAndFences : Obligations.BufferOrderAndFences := by
  refine ⟨fun a v s u hturn => ?turn, fun v s u hturn => ⟨fun hfree => ?go, fun hbusy => ?again⟩, fun s hbuf => ?empty, fun s hearly => ?early⟩
  case turn =>
    obtain ⟨hup, hcases⟩ := turn_eq_some hturn
    obtain ⟨hphase, hrung⟩ := hostUp_iff.mp hup
    exact ⟨hphase, hrung, hcases.imp_left fun ⟨hu, hhas⟩ => ⟨hu, bufHas_eq_false_iff.mp hhas⟩⟩
  case go =>
    have hgo := F.HIF_FENCEGO.on_put_one v (by decide) (by decide)
    rw [exec_fenceGo hturn, fenceGoWrite_of_free hgo (by simp [State.bit, hfree]), noteWrite_ok]
    refine ⟨_, rfl, rfl, rfl, ?_, ((OnlyRegs.refl [0x5048] _).setBit _ (by decide)).settle⟩
    rw [settle_rd, rd_setBit_self _ _ rfl (by decide)]
    simp [List.any_eq_true]
  case again =>
    rw [exec_fenceGo hturn, fenceGoWrite_of_busy _ (by simp [State.bit, hbusy]), noteWrite_ok]
  case empty =>
    rw [exec_fenceComplete, fenceDone_of_empty hbuf]
    exact ⟨_, rfl, rfl, rd_wr_self _ _ _ (by decide) (by decide), (OnlyRegs.refl [0x5048] _).wr 0 (by decide)⟩
  case early => rw [exec_fenceComplete, fenceDone_of_earlier hearly]

end Sys2Proof.Machine
end

section
/-! SUPPORT. The frames of the host interface while the device runs: what each check answers, and what an accepted frame does (R119 to R126). -/

namespace Sys2Proof.Machine

/-- An accepted WRITE buffers its words in address order, each of four bytes. -/
theorem length_bufWords (a : Nat) (d : List Byte) (k n : Nat) : (State.bufWords a d k n).1.length = n := by
  induction n generalizing a d k with
  | zero => rfl
  | succ n ih => simp [State.bufWords, ih]

theorem getElem?_bufWords {a i : Nat} {d : List Byte} {k n : Nat} {x : BufWord} (h : (State.bufWords a d k n).1[i]? = some x) :
    x.addr = a + 4 * i ∧ x.val = BitVec.ofNat 32 (beVal ((d.drop (4 * i)).take 4)) := by
  induction n generalizing a d k i with
  | zero => simp [State.bufWords] at h
  | succ n ih =>
    cases i with
    | zero =>
      obtain rfl : _ = x := by simpa [State.bufWords] using h
      exact ⟨rfl, rfl⟩
    | succ i =>
      obtain ⟨haddr, hval⟩ := ih (by simpa [State.bufWords] using h)
      exact ⟨by omega, by rw [hval, List.drop_drop, Nat.mul_succ, Nat.add_comm 4]⟩

namespace State

section
variable {s : State}

theorem check12_of_crc {c : Bool} (r : Bool) (h : c = false) : s.check12 r c = (s.sat F.HIF_CRCCNT, .crcerr) := by
  simp [check12, h]

theorem check12_of_low {c r : Bool} (h : c = true) (hr : r = false) : s.check12 r c = (s.sat F.HIF_BUSYCNT, .busy) := by
  simp [check12, h, hr]

theorem check12_of_ready {c r : Bool} (h : c = true) (hr : r = true) : s.check12 r c = (s, .ok) := by
  simp [check12, h, hr]

theorem check4_of_absent {a : Nat} (len : Nat) (hw : inWin a = false) (hp : s.has (pageOf a) = false) :
    s.check4 a len = (s.satBy F.HIF_ABSENTCNT len, .absent) := by
  simp [check4, hw, hp]

/-- A frame in range asks for at least one word, so the free words fall short exactly when the buffer would pass its 64. -/
theorem wfree_lt_iff {a len : Nat} (h : frameRange a len = true) : s.wfree < len ↔ 64 < s.hif.buf.length + len := by
  have hpos : 1 ≤ len := by
    simp only [frameRange, Bool.and_eq_true, decide_eq_true_eq] at h
    obtain ⟨⟨⟨⟨hpos, -⟩, -⟩, -⟩, -⟩ := h
    exact hpos
  unfold wfree
  omega

theorem check4_of_full {a len : Nat} (hpage : ¬(inWin a = false ∧ s.has (pageOf a) = false)) (h : s.wfree < len) :
    s.check4 a len = (s.sat F.HIF_BUSYCNT, .busy) := by
  rw [check4, if_neg (by simpa using hpage), if_pos h]

theorem check4_of_room {a len : Nat} (hpage : ¬(inWin a = false ∧ s.has (pageOf a) = false)) (h : ¬s.wfree < len) :
    s.check4 a len = (s, .ok) := by
  rw [check4, if_neg (by simpa using hpage), if_neg h]

end

/-! In RUN, with no descent, the fall of HCS_N is no wake and every frame is served (R125, R130). -/

section
variable {s : State} {l : List Byte} (hphase : s.phase = .up) (hrung : s.rung = 0) (hdesc : s.boot.descend = none)
include hphase hrung hdesc

theorem hcsFall_of_run : s.hcsFall = (s.answer [], true) := by
  have hup : (s.answer []).phase = .up := hphase
  have hrun : (s.answer []).rung = 0 := hrung
  have hstay : (s.answer []).boot.descend = none := hdesc
  have hwake : (s.answer []).wake 3 = s.answer [] :=
    wake_of_unusable (.inr (.inl (by rw [hstay, Option.getD_none, hrun, wakeUsable_run])))
  simp [hcsFall, hup, hwake, hrun]

section
variable (hlen : 6 + 4 * (l.getD 3 0).toNat ≤ l.length)
include hlen

theorem writeFrame_of_crc (h : crcOk 0x02 l (6 + 4 * (l.getD 3 0).toNat) = false) :
    s.writeFrame l = (s.sat F.HIF_CRCCNT).answer [0xA1#8] := by
  rw [writeFrame, if_neg (Nat.not_lt.mpr hlen), hcsFall_of_run hphase hrung hdesc]
  simp only [check12_of_crc s.hrdy h]
  rfl

theorem writeFrame_of_low (h : crcOk 0x02 l (6 + 4 * (l.getD 3 0).toNat) = true) (hr : s.hrdy = false) :
    s.writeFrame l = (s.sat F.HIF_BUSYCNT).answer [0xA6#8] := by
  rw [writeFrame, if_neg (Nat.not_lt.mpr hlen), hcsFall_of_run hphase hrung hdesc]
  simp only [check12_of_low h hr]
  rfl

theorem writeFrame_of_ready (h : crcOk 0x02 l (6 + 4 * (l.getD 3 0).toNat) = true) (hr : s.hrdy = true) {u : State} {c : Status}
    (haccept : (s.answer []).writeAccept (beVal (l.take 3)) (l.getD 3 0).toNat (l.drop 4) = (u, c)) :
    s.writeFrame l = u.answer [statByte c] := by
  rw [writeFrame, if_neg (Nat.not_lt.mpr hlen), hcsFall_of_run hphase hrung hdesc]
  simp only [check12_of_ready h hr, haccept]

end

theorem readFrame_of_crc (hlen : 6 ≤ l.length) (h : crcOk 0x0B l 6 = false) : s.readFrame l = (s.sat F.HIF_CRCCNT).answer [0xA1#8] := by
  rw [readFrame, if_neg (Nat.not_lt.mpr hlen), hcsFall_of_run hphase hrung hdesc]
  simp only [check12_of_crc s.hrdy h]
  rfl

theorem readFrame_of_low (hlen : 6 ≤ l.length) (h : crcOk 0x0B l 6 = true) (hr : s.hrdy = false) :
    s.readFrame l = (s.sat F.HIF_BUSYCNT).answer [0xA6#8] := by
  rw [readFrame, if_neg (Nat.not_lt.mpr hlen), hcsFall_of_run hphase hrung hdesc]
  simp only [check12_of_low h hr]
  rfl

theorem readFrame_of_ready (hlen : 6 ≤ l.length) (h : crcOk 0x0B l 6 = true) (hr : s.hrdy = true) {u : State} {c : Status}
    (haccept : (s.answer []).readAccept (beVal (l.take 3)) (l.getD 3 0).toNat = (u, c)) : s.readFrame l = u.answer [statByte c] := by
  rw [readFrame, if_neg (Nat.not_lt.mpr hlen), hcsFall_of_run hphase hrung hdesc]
  simp only [check12_of_ready h hr, haccept]

theorem fenceFrame_of_crc (hlen : 2 ≤ l.length) (h : crcOk 0x0F l 2 = false) : s.fenceFrame l = (s.sat F.HIF_CRCCNT).answer [0xA1#8] := by
  rw [fenceFrame, if_neg (Nat.not_lt.mpr hlen), hcsFall_of_run hphase hrung hdesc]
  simp only [check12_of_crc s.hrdy h]
  rfl

theorem fenceFrame_of_low (hlen : 2 ≤ l.length) (h : crcOk 0x0F l 2 = true) (hr : s.hrdy = false) :
    s.fenceFrame l = (s.sat F.HIF_BUSYCNT).answer [0xA6#8] := by
  rw [fenceFrame, if_neg (Nat.not_lt.mpr hlen), hcsFall_of_run hphase hrung hdesc]
  simp only [check12_of_low h hr]
  rfl

theorem fenceFrame_of_ready (hlen : 2 ≤ l.length) (h : crcOk 0x0F l 2 = true) (hr : s.hrdy = true) :
    s.fenceFrame l = { s with hif := { s.hif with answer := [0xA0#8], fenceFrame := !s.hif.buf.isEmpty } } := by
  rw [fenceFrame, if_neg (Nat.not_lt.mpr hlen), hcsFall_of_run hphase hrung hdesc]
  simp only [check12_of_ready h hr]
  rfl

end

/-! What the last checks say of a frame whose CRC and HRDY are right. -/

section
variable {s : State} {a len : Nat} {d : List Byte}

theorem writeAccept_of_range (h : frameRange a len = false) : s.writeAccept a len d = (s, .range) := by
  simp [writeAccept, h]

theorem writeAccept_of_refused {u : State} {c : Status} (h : frameRange a len = true) (h4 : s.check4 a len = (u, c)) (hc : c ≠ .ok) :
    s.writeAccept a len d = (u, c) := by
  cases c <;> simp_all [writeAccept]

theorem writeAccept_of_room (h : frameRange a len = true) (h4 : s.check4 a len = (s, .ok)) : s.writeAccept a len d = (s.bufAdd a len d, .ok) := by
  simp [writeAccept, h, h4]

/-- An accepted WRITE changes nothing but the buffer, the fences seen in it, and the answer. -/
theorem answer_bufAdd_answer (x y : List Byte) :
    ((s.answer x).bufAdd a len d).answer y =
      { s with hif := { s.hif with answer := y, buf := s.hif.buf ++ (bufWords a d s.hif.fenceIn len).1, fenceIn := (bufWords a d s.hif.fenceIn len).2 } } := (rfl)

theorem readAccept_of_range (h : frameRange a len = false) : s.readAccept a len = (s, .range) := by
  simp [readAccept, h]

theorem readAccept_of_ok (h : frameRange a len = true) :
    s.readAccept a len = ({ s with hif := { s.hif with held := none, reading := some (a, len) } }, .ok) := by
  simp [readAccept, h]

end
end State

open State

theorem exec_hostWriteFrame (l : List Byte) (s : State) : exec (.hostWriteFrame l) s = .next (s.writeFrame l) := (rfl)

theorem exec_hostReadFrame (l : List Byte) (s : State) : exec (.hostReadFrame l) s = .next (s.readFrame l) := (rfl)

theorem exec_hostFenceFrame (l : List Byte) (s : State) : exec (.hostFenceFrame l) s = .next (s.fenceFrame l) := (rfl)

/-- Settles O25: checks 1 and 2 answer as `check12` says, a WRITE then goes by the range, the page and the room, and its words are buffered as
`getElem?_bufWords` says. -/
theorem hostFrameChecks : Obligations.HostFrameChecks := by
  refine ⟨fun l s hphase hrung hdesc hlen => ?write, fun l s hphase hrung hdesc hlen => ?read, fun l s hphase hrung hdesc hlen => ?fence⟩
  case write =>
    simp only [exec_hostWriteFrame]
    refine ⟨fun hcrc => by rw [writeFrame_of_crc hphase hrung hdesc hlen hcrc], fun hcrc =>
      ⟨fun hr => by rw [writeFrame_of_low hphase hrung hdesc hlen hcrc hr], fun hr hrange => ?_, fun hr hrange => ?_⟩⟩
    · rw [writeFrame_of_ready hphase hrung hdesc hlen hcrc hr (writeAccept_of_range hrange)]
      rfl
    · have hroom : (s.answer []).wfree < (l.getD 3 0).toNat ↔ 64 < s.hif.buf.length + (l.getD 3 0).toNat := wfree_lt_iff hrange
      split
      · next hpage =>
        obtain ⟨hwin, hpage⟩ := hpage
        have h4 := check4_of_absent (s := s.answer []) (l.getD 3 0).toNat hwin hpage
        rw [writeFrame_of_ready hphase hrung hdesc hlen hcrc hr (writeAccept_of_refused hrange h4 nofun)]
        rfl
      · next hpage =>
        split
        · next hfull =>
          have h4 := check4_of_full (s := s.answer []) hpage (hroom.mpr hfull)
          rw [writeFrame_of_ready hphase hrung hdesc hlen hcrc hr (writeAccept_of_refused hrange h4 nofun)]
          rfl
        · next hfits =>
          have h4 := check4_of_room (s := s.answer []) hpage (mt hroom.mp hfits)
          rw [writeFrame_of_ready hphase hrung hdesc hlen hcrc hr (writeAccept_of_room hrange h4)]
          rw [answer_bufAdd_answer]
          refine ⟨_, _, rfl, rfl, rfl, length_bufWords _ _ _ _, fun i x hx => ?_, .refl _ _⟩
          obtain ⟨haddr, hval⟩ := getElem?_bufWords hx
          exact ⟨haddr, by rw [hval, List.drop_drop]⟩
  case read =>
    simp only [exec_hostReadFrame]
    refine ⟨fun hcrc => by rw [readFrame_of_crc hphase hrung hdesc hlen hcrc], fun hcrc hr => by rw [readFrame_of_low hphase hrung hdesc hlen hcrc hr],
      fun hcrc hr hrange => ?_, fun hcrc hr hrange => ?_⟩
    · rw [readFrame_of_ready hphase hrung hdesc hlen hcrc hr (readAccept_of_range hrange)]
      rfl
    · rw [readFrame_of_ready hphase hrung hdesc hlen hcrc hr (readAccept_of_ok hrange)]
      rfl
  case fence =>
    simp only [exec_hostFenceFrame]
    exact ⟨fun hcrc => by rw [fenceFrame_of_crc hphase hrung hdesc hlen hcrc], fun hcrc hr => by rw [fenceFrame_of_low hphase hrung hdesc hlen hcrc hr],
      fun hcrc hr => by rw [fenceFrame_of_ready hphase hrung hdesc hlen hcrc hr]⟩

end Sys2Proof.Machine
end

section
/-! SUPPORT. The words of a READ, and the answers to FETCH and STATUS (R119, R123 to R127). -/

namespace Sys2Proof.Machine
namespace State

section
variable {s : State} {a : Nat}

theorem wordsRead_one (s : State) (a : Nat) : s.wordsRead a 1 = ((s.wordRead a).1, [((s.wordRead a).2.1, (s.wordRead a).2.2)]) := (rfl)

/-- A word read by itself, with the rest of the READ after it. -/
theorem wordsRead_single (h : pairRead a = false) (n : Nat) : s.wordsRead a (n + 1) =
    (((s.wordRead a).1.wordsRead (a + 4) n).1, (s.wordRead a).2 :: ((s.wordRead a).1.wordsRead (a + 4) n).2) := by
  cases n with
  | zero => rfl
  | succ n => simp [wordsRead, h]

/-- Two words that one read of a memory word gives. -/
theorem wordsRead_pair (h : pairRead a = true) (n : Nat) : s.wordsRead a (n + 2) =
    (((s.read64 a).1.wordsRead (a + 8) n).1, ((halves (s.read64 a).2.1).1, if (s.read64 a).2.2 then .poison else .ok) ::
      ((halves (s.read64 a).2.1).2, if (s.read64 a).2.2 then .poison else .ok) :: ((s.read64 a).1.wordsRead (a + 8) n).2) := by
  simp [wordsRead, h]

theorem length_wordsRead (n : Nat) : ∀ (s : State) (a : Nat), (s.wordsRead a n).2.length = n := by
  induction n using Nat.twoStepInduction with
  | zero => exact fun _ _ => rfl
  | one => exact fun _ _ => rfl
  | more n hn hsucc =>
    intro s a
    cases h : pairRead a with
    | true => rw [wordsRead_pair h, List.length_cons, List.length_cons, hn]
    | false => rw [wordsRead_single h, List.length_cons, hsucc]

/-- Words that read by themselves and leave the state are the READ's words one by one. -/
theorem wordsRead_of_each {f : Nat → Word × Status} (n : Nat) :
    ∀ a, (∀ b ∈ List.range' a n 4, pairRead b = false ∧ s.wordRead b = (s, f b)) → s.wordsRead a n = (s, (List.range' a n 4).map f) := by
  induction n with
  | zero => exact fun _ _ => rfl
  | succ n ih =>
    intro a h
    rw [List.range'_succ, List.forall_mem_cons] at h
    obtain ⟨⟨hpair, hword⟩, hrest⟩ := h
    rw [wordsRead_single hpair, hword, ih _ hrest, List.range'_succ, List.map_cons]

theorem getElem?_map_range' {α : Type} (f : Nat → α) {a n i : Nat} (h : i < n) : ((List.range' a n 4).map f)[i]? = some (f (a + 4 * i)) := by
  simp [h]

/-! A page of registers, present or absent. -/

theorem pairRead_of_not_inWin (h : inWin a = false) : pairRead a = false := by
  simp [pairRead, h]

theorem wordRead_of_absent (hw : inWin a = false) (hp : s.has (pageOf a) = false) : s.wordRead a = (s, 0#32, .absent) := by
  simp [wordRead, hw, hp]

/-- The status that a READ gives the register at `a` (R423). -/
def regStatus (s : State) (a : Nat) : Status :=
  if 0x10048 ≤ a && a < 0x10058 && s.ecc.almPoison / 2 ^ ((a - 0x10048) / 4) % 2 == 1 then .poison else .ok

theorem wordRead_of_present (hw : inWin a = false) (hp : s.has (pageOf a) = true) : s.wordRead a = (s, s.regWord a, s.regStatus a) := by
  simp [wordRead, hw, hp, regStatus]

/-- The words of a READ that stays within its page lie in that page, in no window when the page is one of registers. -/
theorem page_of_read {n : Nat} (hpage : a % 0x1000 + 4 * n ≤ 0x1000) (hlow : a < 0x100000) :
    ∀ b ∈ List.range' a n 4, pageOf b = pageOf a ∧ inWin b = false := by
  intro b hb
  obtain ⟨i, hi, rfl⟩ := List.mem_range'.mp hb
  have hq : (a + 4 * i) / 0x1000 = a / 0x1000 := by omega
  have hlow' : a + 4 * i < 0x100000 := by omega
  refine ⟨by rw [pageOf, pageOf, hq], ?_⟩
  simp [inWin, inMram]
  omega

theorem wordsRead_of_present {n : Nat} (hpage : a % 0x1000 + 4 * n ≤ 0x1000) (hlow : a < 0x100000) (hp : s.has (pageOf a) = true) :
    s.wordsRead a n = (s, (List.range' a n 4).map fun b => (s.regWord b, s.regStatus b)) :=
  wordsRead_of_each n a fun b hb => by
    obtain ⟨hpg, hwin⟩ := page_of_read hpage hlow b hb
    exact ⟨pairRead_of_not_inWin hwin, wordRead_of_present hwin (by rw [hpg, hp])⟩

theorem wordsRead_of_absent {n : Nat} (hpage : a % 0x1000 + 4 * n ≤ 0x1000) (hlow : a < 0x100000) (hp : s.has (pageOf a) = false) :
    s.wordsRead a n = (s, (List.range' a n 4).map fun _ => (0#32, .absent)) :=
  wordsRead_of_each n a fun b hb => by
    obtain ⟨hpg, hwin⟩ := page_of_read hpage hlow b hb
    exact ⟨pairRead_of_not_inWin hwin, wordRead_of_absent hwin (by rw [hpg, hp])⟩

/-! Poisoned memory. -/

/-- The word of memory at `a` may be read, and carries the poison mark (R420). -/
def PoisonAt (s : State) (a : Nat) : Prop :=
  inWin a = true ∧ mramHidden a = false ∧ s.isInvalid (a / 8 * 8) = false ∧ s.synd (a / 8 * 8) = 0xFF

/-- What a READ shows there: the stored half, poisoned. -/
def poisonWord (s : State) (a : Nat) : Word × Status := (BitVec.ofNat 32 (s.raw64 (a / 8 * 8) / 2 ^ (8 * (a % 8))), .poison)

theorem raw64_sat (s : State) (f : Fld) (a : Nat) : (s.sat f).raw64 a = s.raw64 a := (rfl)

theorem PoisonAt.sat (h : s.PoisonAt a) (f : Fld) : (s.sat f).PoisonAt a := by
  obtain ⟨hwin, hshown, hvalid, hmark⟩ := h
  exact ⟨hwin, hshown, hvalid, hmark⟩

theorem poisonWord_sat (s : State) (f : Fld) : (s.sat f).poisonWord = s.poisonWord := by
  funext a
  rw [poisonWord, raw64_sat, poisonWord]

/-- A read of a poisoned word gives its stored data, marks it so, and counts. -/
theorem read64_of_poison (h : s.PoisonAt a) : s.read64 a = (s.sat F.ECC_POISRD, s.raw64 (a / 8 * 8), true) := by
  obtain ⟨-, -, hvalid, hmark⟩ := h
  simp [read64, hvalid, hmark]

theorem wordRead_of_poison (h : s.PoisonAt a) (ha : a % 4 = 0) : s.wordRead a = (s.sat F.ECC_POISRD, s.poisonWord a) := by
  obtain ⟨hwin, hshown, -⟩ := id h
  have hhalf : (if a / 4 % 2 = 0 then s.raw64 (a / 8 * 8) else s.raw64 (a / 8 * 8) / 2 ^ 32) = s.raw64 (a / 8 * 8) / 2 ^ (8 * (a % 8)) := by
    split
    · rw [show a % 8 = 0 by omega, Nat.mul_zero, Nat.pow_zero, Nat.div_one]
    · rw [show a % 8 = 4 by omega]
  rw [wordRead, if_pos hwin, hshown]
  simp only [read32, read64_of_poison h, hhalf]
  rfl

/-- Both halves of a poisoned word, of one read of it. -/
theorem halves_of_pair (h : pairRead a = true) :
    ((halves (s.raw64 (a / 8 * 8))).1, Status.poison) = s.poisonWord a ∧ ((halves (s.raw64 (a / 8 * 8))).2, Status.poison) = s.poisonWord (a + 4) := by
  have ha : a % 8 = 0 := by
    simp only [pairRead, Bool.and_eq_true, beq_iff_eq] at h
    exact h.1.1
  have hword : (a + 4) / 8 * 8 = a / 8 * 8 := by omega
  have hhigh : (a + 4) % 8 = 4 := by omega
  simp [halves, poisonWord, ha, hword, hhigh]

/-- A READ of poisoned words gives each one's stored data, poisoned, and leaves the memory. -/
theorem wordsRead_of_poison (n : Nat) : ∀ (s : State) (a : Nat), a % 4 = 0 → (∀ b ∈ List.range' a n 4, s.PoisonAt b) →
    (s.wordsRead a n).1.mem = s.mem ∧ (s.wordsRead a n).2 = (List.range' a n 4).map s.poisonWord := by
  induction n using Nat.twoStepInduction with
  | zero => exact fun _ _ _ _ => ⟨rfl, rfl⟩
  | one =>
    intro s a ha h
    rw [wordsRead_one, wordRead_of_poison (h a (by simp)) ha]
    exact ⟨sat_mem s _, rfl⟩
  | more n hn hsucc =>
    intro s a ha h
    rw [List.range'_succ, List.forall_mem_cons] at h
    obtain ⟨hfirst, hrest⟩ := h
    cases hp : pairRead a with
    | true =>
      have hnext : a + 4 + 4 = a + 8 := by omega
      rw [List.range'_succ, List.forall_mem_cons, hnext] at hrest
      obtain ⟨-, hrest⟩ := hrest
      obtain ⟨hmem, hwords⟩ := hn (s.sat F.ECC_POISRD) (a + 8) (by omega) fun b hb => (hrest b hb).sat _
      obtain ⟨hlow, hhigh⟩ := s.halves_of_pair hp
      rw [wordsRead_pair hp, read64_of_poison hfirst]
      refine ⟨hmem.trans (sat_mem s _), ?_⟩
      rw [List.range'_succ, List.range'_succ, hnext, List.map_cons, List.map_cons, ← hlow, ← hhigh]
      exact congrArg (fun l => _ :: _ :: l) (hwords.trans (by rw [poisonWord_sat]))
    | false =>
      obtain ⟨hmem, hwords⟩ := hsucc (s.sat F.ECC_POISRD) (a + 4) (by omega) fun b hb => (hrest b hb).sat _
      rw [wordsRead_single hp, wordRead_of_poison hfirst ha]
      refine ⟨hmem.trans (sat_mem s _), ?_⟩
      rw [List.range'_succ, List.map_cons]
      exact congrArg (fun l => _ :: l) (hwords.trans (by rw [poisonWord_sat]))

theorem reg_answer (s : State) (l : List Byte) (a : Nat) : (s.answer l).reg a = s.reg a := (rfl)

theorem hif_answer (s : State) (l : List Byte) : (s.answer l).hif.answer = l := (rfl)

/-- An answer goes out with what a frame changed of the registers. -/
theorem OnlyRegs.answer {t : State} {r : List Nat} (h : OnlyRegs r s t) (l : List Byte) :
    OnlyRegs r { s with hif := (t.answer l).hif } (t.answer l) := by
  obtain ⟨hreg, hrest⟩ := h
  exact ⟨hreg, congrArg (fun x : State => { x with hif := (t.answer l).hif }) hrest⟩

end

/-! A READ served, and the answers to FETCH and STATUS. -/

/-- The state in which a READ of `n` words at `a` has been served: its words are held for FETCH. -/
theorem readServe_of_free {s : State} {a n : Nat} (h : s.hif.reading = some (a, n)) (hfree : ∀ w ∈ s.hif.buf, w.addr / 0x1000 ≠ a / 0x1000) :
    s.readServe =
      { (s.wordsRead a n).1 with
        hif := { (s.wordsRead a n).1.hif with reading := none, held := some { addr := a, words := (s.wordsRead a n).2 } } } := by
  have hnone : (s.hif.buf.any fun w => w.addr / 0x1000 == a / 0x1000) = false := by simpa [List.any_eq_false] using hfree
  simp only [readServe, h, hnone]
  rfl

theorem readServe_of_waiting {s : State} {a n : Nat} (h : s.hif.reading = some (a, n)) (hwait : ∃ w ∈ s.hif.buf, w.addr / 0x1000 = a / 0x1000) :
    s.readServe = s := by
  have hsome : (s.hif.buf.any fun w => w.addr / 0x1000 == a / 0x1000) = true := by simpa [List.any_eq_true] using hwait
  simp only [readServe, h, hsome]
  rfl

/-- A result whose words all read OK. -/
theorem fetchData_of_ok {r : ReadRes} (h : ∀ w ∈ r.words, w.2 = Status.ok) :
    fetchData r = withCrc ([0xA0#8] ++ beBytes 3 r.addr ++ beBytes 1 r.words.length ++ [0xFF#8] ++ r.words.flatMap fun w => beBytes 4 w.1.toNat) := by
  have hnone : (r.words.findIdx fun w => w.2 != .ok) = r.words.length := List.findIdx_eq_length.mpr fun w hw => by simp [h w hw]
  simp [fetchData, hnone, statByte, Status.code]

/-- A result whose first word that did not read OK is the one at index `i`. -/
theorem fetchData_of_bad {r : ReadRes} {i : Nat} {w : Word} {c : Status} (hok : ∀ x ∈ r.words.take i, x.2 = Status.ok)
    (hi : r.words[i]? = some (w, c)) (hc : c ≠ .ok) :
    fetchData r = withCrc ([BitVec.ofNat 8 (0xA0 + c.code)] ++ beBytes 3 r.addr ++ beBytes 1 r.words.length ++ [BitVec.ofNat 8 i] ++
      r.words.flatMap fun w => beBytes 4 w.1.toNat) := by
  obtain ⟨hlt, hget⟩ := List.getElem?_eq_some_iff.mp hi
  have hfirst : (r.words.findIdx fun w => w.2 != .ok) = i := by
    refine (List.findIdx_eq hlt).mpr ⟨by simp [hget, hc], fun j hj => ?_⟩
    have hmem : r.words[j] ∈ r.words.take i := List.mem_take_iff_getElem.mpr ⟨j, by omega, rfl⟩
    simp [hok _ hmem]
  simp [fetchData, hfirst, hget, hlt, statByte]

section
variable {s : State} {l : List Byte} (hphase : s.phase = .up) (hrung : s.rung = 0) (hdesc : s.boot.descend = none)
include hphase hrung hdesc

theorem frameAbort_of_run : s.frameAbort = (s.answer []).sat F.HIF_ABORTCNT := by
  rw [frameAbort, hcsFall_of_run hphase hrung hdesc]

section
variable (hlen : 2 ≤ l.length)
include hlen

theorem fetchFrame_of_crc (h : crcOk 0x0C l 2 = false) : s.fetchFrame l = (s.sat F.HIF_CRCCNT).answer (fetchNone .crcerr) := by
  rw [fetchFrame, if_neg (Nat.not_lt.mpr hlen), hcsFall_of_run hphase hrung hdesc]
  simp only [h]
  rfl

theorem fetchFrame_of_reading (h : crcOk 0x0C l 2 = true) (hr : s.hif.reading.isSome) :
    s.fetchFrame l = (s.sat F.HIF_BUSYCNT).answer (fetchNone .busy) := by
  have hr' : (s.answer []).hif.reading.isSome = true := hr
  rw [fetchFrame, if_neg (Nat.not_lt.mpr hlen), hcsFall_of_run hphase hrung hdesc]
  simp only [h, hr']
  rfl

theorem fetchFrame_of_none (h : crcOk 0x0C l 2 = true) (hr : s.hif.reading = none) (hh : s.hif.held = none) :
    s.fetchFrame l = s.answer (fetchNone .range) := by
  have hr' : (s.answer []).hif.reading.isSome = false := Option.isSome_eq_false_iff.mpr (Option.isNone_iff_eq_none.mpr hr)
  have hh' : (s.answer []).hif.held = none := hh
  rw [fetchFrame, if_neg (Nat.not_lt.mpr hlen), hcsFall_of_run hphase hrung hdesc]
  simp only [h, hr', hh']
  rfl

theorem fetchFrame_of_held {r : ReadRes} (h : crcOk 0x0C l 2 = true) (hr : s.hif.reading = none) (hh : s.hif.held = some r) :
    s.fetchFrame l = s.answer (fetchData r) := by
  have hr' : (s.answer []).hif.reading.isSome = false := Option.isSome_eq_false_iff.mpr (Option.isNone_iff_eq_none.mpr hr)
  have hh' : (s.answer []).hif.held = some r := hh
  rw [fetchFrame, if_neg (Nat.not_lt.mpr hlen), hcsFall_of_run hphase hrung hdesc]
  simp only [h, hr', hh']
  rfl

theorem statusFrame_of_crc (b : Bool) (h : crcOk 0x05 l 2 = false) :
    s.statusFrame l b = (s.sat F.HIF_CRCCNT).answer (s.statusBytes .crcerr) := by
  rw [statusFrame, if_neg (Nat.not_lt.mpr hlen), hcsFall_of_run hphase hrung hdesc]
  simp only [h]
  rfl

theorem statusFrame_of_ok (b : Bool) (h : crcOk 0x05 l 2 = true) :
    s.statusFrame l b = (if b then s.setReg 0x504C 0 else s).answer (s.statusBytes .ok) := by
  rw [statusFrame, if_neg (Nat.not_lt.mpr hlen), hcsFall_of_run hphase hrung hdesc]
  simp only [h]
  cases b <;> rfl

end
end

theorem statusFrame_of_short {l : List Byte} (h : l.length < 2) (s : State) (b : Bool) : s.statusFrame l b = s.frameAbort := by
  rw [statusFrame, if_pos h]

end State

open State

theorem exec_readServed (s : State) : exec .readServed s = .next s.readServe := (rfl)

theorem exec_hostFetchFrame (l : List Byte) (s : State) : exec (.hostFetchFrame l) s = .next (s.fetchFrame l) := (rfl)

theorem exec_hostStatusFrame (l : List Byte) (b : Bool) (s : State) : exec (.hostStatusFrame l b) s = .next (s.statusFrame l b) := (rfl)

theorem exec_frameAbort (s : State) : exec .frameAbort s = .next s.frameAbort := (rfl)

/-- Settles O26: the words of a READ are as `wordsRead_of_present`, `wordsRead_of_absent` and `wordsRead_of_poison` say, and each answer to FETCH
and STATUS by its own case of the frame. -/
theorem splitReadsAndStatus : Obligations.SplitReadsAndStatus := by
  refine ⟨fun s a n hread hfree => ?served, fun s a n hread hwait => ?waiting, fun l s hphase hrung hdesc hlen => ?fetch,
    fun l b s hphase hrung hdesc hlen => ?status, fun s hphase hrung hdesc => ?abort, fun l s hlen => ?short⟩
  case served =>
    rw [exec_readServed, readServe_of_free hread hfree]
    refine ⟨_, _, rfl, rfl, rfl, rfl, length_wordsRead n s a, fun hpage _ hlow hp => ?_, fun hpage _ hlow hp i hi => ?_, fun ha hmark => ?_⟩
    · rw [wordsRead_of_present hpage hlow hp]
      exact ⟨.refl _ _, fun i hi => by rw [getElem?_map_range' _ hi, Option.map_some]⟩
    · rw [wordsRead_of_absent hpage hlow hp]
      exact getElem?_map_range' _ hi
    · obtain ⟨hmem, hwords⟩ := wordsRead_of_poison n s a ha fun b hb => by
        obtain ⟨i, hi, rfl⟩ := List.mem_range'.mp hb
        exact hmark i hi
      exact ⟨hmem, fun i hi => by rw [hwords, getElem?_map_range' _ hi, poisonWord]⟩
  case waiting => rw [exec_readServed, readServe_of_waiting hread hwait]
  case fetch =>
    simp only [exec_hostFetchFrame]
    refine ⟨fun hcrc => by rw [fetchFrame_of_crc hphase hrung hdesc hlen hcrc]; rfl,
      fun hcrc hr => by rw [fetchFrame_of_reading hphase hrung hdesc hlen hcrc hr]; rfl,
      fun hcrc hr hh => by rw [fetchFrame_of_none hphase hrung hdesc hlen hcrc hr hh]; rfl, fun r hcrc hr hh hok => ?_,
      fun r i w c hcrc hr hh hok hi hc => ?_⟩
    · rw [fetchFrame_of_held hphase hrung hdesc hlen hcrc hr hh, fetchData_of_ok hok]
    · rw [fetchFrame_of_held hphase hrung hdesc hlen hcrc hr hh, fetchData_of_bad hok hi hc]
  case status =>
    simp only [exec_hostStatusFrame]
    refine ⟨fun hcrc => by rw [statusFrame_of_ok hphase hrung hdesc hlen b hcrc]; rfl, fun hcrc => ?_⟩
    rw [statusFrame_of_crc hphase hrung hdesc hlen b hcrc]
    have hcount : OnlyRegs [0x5054] s (s.sat F.HIF_CRCCNT) := (OnlyRegs.refl _ s).wr _ (by decide)
    obtain ⟨hreg, -⟩ := id hcount
    refine ⟨_, rfl, by rw [hif_answer]; rfl, by rw [reg_answer, hreg 0x504C (by decide)], hcount.answer _⟩
  case abort => rw [exec_frameAbort, frameAbort_of_run hphase hrung hdesc]
  case short => rw [exec_hostStatusFrame, exec_frameAbort, statusFrame_of_short hlen]

end Sys2Proof.Machine
end

section
/-! SUPPORT. What the pins and the cell of a leg leave alone (R202, R203, R232), and what a command of the modulator comes to. -/

namespace Sys2Proof.Machine

/-- The fields of a leg that its pins and its cell do not move: those of its counter, its commits and its slots. -/
def LegM.carrier (l : LegM) : LegM :=
  { l with modCmd := .off, cell := .off, pls := false, en := false, seq := [], safe := false, rose := false, driving := false, part := .none,
           refresh := false, slotNow := false, cut := false }

/-- The registers in which the cells, the comparators and the trip inputs show what a leg's pins do. -/
def CellReg (a : Nat) : Prop := 0x42100 ≤ a ∨ a % 0x1000 ∈ [0x10, 0x18, 0x44, 0xC0]

namespace State

@[simp] theorem leg_setLeg_self (s : State) (n : Nat) (l : LegM) : (s.setLeg n l).leg n = l := SMap.get_set_self _ _ _ _

theorem leg_setLeg_ne (s : State) {n m : Nat} (l : LegM) (h : m ≠ n) : (s.setLeg n l).leg m = s.leg m := SMap.get_set_ne _ _ _ h

/-- The registers of the set `P`. -/
def regsIn (P : Nat → Prop) (s : State) : {a // P a} → Word := fun a => s.reg a

theorem reg_of_regsIn {P : Nat → Prop} {s t : State} (h : regsIn P t = regsIn P s) {a : Nat} (ha : P a) : t.reg a = s.reg a := congrFun h ⟨a, ha⟩

theorem rd_of_regsIn {P : Nat → Prop} {s t : State} (h : regsIn P t = regsIn P s) {f : Fld} (hf : P f.addr) : t.rd f = s.rd f := by
  rw [rd, reg_of_regsIn h hf, rd]

theorem regsIn_setReg {P : Nat → Prop} (s : State) {a : Nat} (w : Word) (h : ¬P a) : regsIn P (s.setReg a w) = regsIn P s :=
  funext fun ⟨b, hb⟩ => reg_setReg_ne s w fun e => h (by subst e; exact hb)

/-- What the cell of a leg leaves alone. -/
def cellFrame (s : State) : ({a // ¬CellReg a} → Word) × (Nat → Nat) × (Nat → LegM) × List Host.Cell :=
  (regsIn (fun a => ¬CellReg a) s, fun n => s.rd (F.LEG_CMPCLAMP n), fun n => (s.leg n).carrier, s.mem)

section
variable (s : State)

/-- A field that the cells may write. -/
def CellFld (f : Fld) : Prop := CellReg f.addr ∧ ∀ n, (F.LEG_CMPCLAMP n).Apart f

theorem cellFrame_wr {f : Fld} (v : Nat) (h : CellFld f) : cellFrame (s.wr f v) = cellFrame s := by
  obtain ⟨hcell, hclamp⟩ := h
  exact Prod.ext (regsIn_setReg s _ (not_not_intro hcell)) (Prod.ext (funext fun n => rd_wr_apart s v (hclamp n)) rfl)

theorem cellFrame_setBit {f : Fld} (b : Bool) (h : CellFld f) : cellFrame (s.setBit f b) = cellFrame s := cellFrame_wr s _ h
theorem cellFrame_sat {f : Fld} (h : CellFld f) : cellFrame (s.sat f) = cellFrame s := cellFrame_wr s _ h
theorem cellFrame_latch {f : Fld} (h : CellFld f) : cellFrame (s.latch f) = cellFrame s := cellFrame_wr s _ h

/-- A field of a register other than LEGn.STAT. -/
theorem cellFld_of_addr {f : Fld} (h : CellReg f.addr) (hstat : f.addr % 0x1000 ≠ 0x44) : CellFld f :=
  ⟨h, fun n => .inl (by simp only [F.LEG_CMPCLAMP]; omega)⟩

theorem cellFld_run (n : Nat) : CellFld (F.LEG_RUN n) :=
  ⟨.inr (by simp [F.LEG_RUN]), fun m => .inr (by simp [F.LEG_RUN, F.LEG_CMPCLAMP])⟩

@[simp] theorem cellFrame_setRamp (n : Nat) (v : RampM) : cellFrame (s.setRamp n v) = cellFrame s := (rfl)
@[simp] theorem cellFrame_setCmp (n : Nat) (v : CmpM) : cellFrame (s.setCmp n v) = cellFrame s := (rfl)
@[simp] theorem cellFrame_setTrip (n : Nat) (v : TripM) : cellFrame (s.setTrip n v) = cellFrame s := (rfl)

/-- A leg that moves in its pins and its cell alone. -/
theorem cellFrame_setLeg {n : Nat} {l : LegM} (h : l.carrier = (s.leg n).carrier) : cellFrame (s.setLeg n l) = cellFrame s := by
  have hlegs : (fun m => ((s.setLeg n l).leg m).carrier) = fun m => (s.leg m).carrier := by
    funext m
    by_cases hm : m = n
    · rw [hm, leg_setLeg_self, h]
    · rw [leg_setLeg_ne s l hm]
  exact Prod.ext rfl (Prod.ext rfl (Prod.ext hlegs rfl))

@[simp] theorem cellFrame_each (n : Nat) (f : State → Nat → State) (h : ∀ t k, cellFrame (f t k) = cellFrame t) :
    cellFrame (s.each n f) = cellFrame s := each_view cellFrame n f (fun t k _ => h t k) s

@[simp] theorem cellFrame_foldl {α : Type} (l : List α) (f : State → α → State) (h : ∀ t x, cellFrame (f t x) = cellFrame t) :
    cellFrame (l.foldl f s) = cellFrame s := foldl_view cellFrame l f (fun t x _ => h t x) s

@[simp] theorem cellFrame_iraw (n b : Nat) (v : Bool) : cellFrame (s.iraw (Pg.LEG n) b v) = cellFrame s := by
  have hraw : CellFld ((F.IRAW (Pg.LEG n)).at b) := cellFld_of_addr (.inr (by simp [Fld.at, F.IRAW, Pg.LEG]; omega)) (by simp [Fld.at, F.IRAW, Pg.LEG]; omega)
  have hflg : CellFld ((F.IFLG (Pg.LEG n)).at b) := cellFld_of_addr (.inr (by simp [Fld.at, F.IFLG, Pg.LEG]; omega)) (by simp [Fld.at, F.IFLG, Pg.LEG]; omega)
  simp [iraw, apply_ite cellFrame, cellFrame_setBit _ _ hraw, cellFrame_latch _ hflg]

@[simp] theorem cellFrame_rampRestart (n t : Nat) : cellFrame (s.rampRestart n t) = cellFrame s := by
  simp [rampRestart, apply_ite cellFrame]

@[simp] theorem cellFrame_blankOpen (n : Nat) : cellFrame (s.blankOpen n) = cellFrame s := by
  have hcnt (i : Nat) : CellFld (F.TRIP_BLANKCNT i) :=
    cellFld_of_addr (.inl (by simp only [F.TRIP_BLANKCNT]; omega)) (by simp only [F.TRIP_BLANKCNT]; omega)
  simp [blankOpen, apply_ite cellFrame, cellFrame_sat _ (hcnt _)]

@[simp] theorem cellFrame_pinEdge (n : Nat) (e : PinEdge) : cellFrame (s.pinEdge n e) = cellFrame s := by
  unfold pinEdge
  dsimp only
  rw [apply_ite cellFrame, cellFrame_rampRestart, ite_self, apply_ite cellFrame, cellFrame_blankOpen, ite_self, cellFrame_setLeg]
  rfl

@[simp] theorem cellFrame_edgesDue (n t : Nat) : cellFrame (s.edgesDue n t) = cellFrame s := by
  unfold edgesDue
  dsimp only
  rw [cellFrame_foldl _ _ _ fun u e => cellFrame_pinEdge u n e, cellFrame_setLeg]
  rfl

@[simp] theorem cellFrame_cellDrive (n : Nat) (v : Lvl) (safe hush : Bool) (t : Nat) :
    cellFrame (s.cellDrive n v safe hush t) = cellFrame s := by
  unfold cellDrive
  dsimp only
  split
  · rw [cellFrame_setLeg, cellFrame_edgesDue]
    split <;> split <;> rfl
  · rw [cellFrame_edgesDue, cellFrame_setLeg, cellFrame_edgesDue]
    rfl

@[simp] theorem cellFrame_cellCut (n t : Nat) : cellFrame (s.cellCut n t) = cellFrame s := by
  unfold cellCut
  dsimp only
  rw [cellFrame_edgesDue, cellFrame_setLeg, cellFrame_edgesDue]
  rfl

/-- A field of PROT. -/
theorem cellFld_prot {n : Nat} {f : Fld} (h : f.addr = 0x200C0 + 0x1000 * n) : CellFld f :=
  cellFld_of_addr (.inr (by simp [h])) (by rw [h]; omega)

@[simp] theorem cellFrame_cellAt (n t : Nat) : cellFrame (s.cellAt n t) = cellFrame s := by
  have hprot {f : Fld} (hf : f.addr = 0x200C0 + 0x1000 * n) (u : State) (v : Nat) : cellFrame (u.wr f v) = cellFrame u :=
    cellFrame_wr u v (cellFld_prot hf)
  unfold cellAt
  split
  · rfl
  · extract_lets +onlyGivenNames runs l held
    have hheld : cellFrame held = cellFrame s := by
      unfold held
      split
      · rfl
      · exact cellFrame_setLeg s rfl
    simp only [cellFrame_iraw, setBit]
    rw [hprot rfl, hprot rfl, hprot rfl, hprot rfl, hprot rfl, hprot rfl, hprot rfl, cellFrame_wr _ _ (cellFld_run n), apply_ite cellFrame,
      cellFrame_cellCut, cellFrame_cellDrive, ite_self, hheld]

@[simp] theorem cellFrame_legCut (k : Nat) : cellFrame (s.legCut k).1 = cellFrame s := by
  unfold legCut
  dsimp only
  split
  · rw [cellUpdate, cellFrame_cellAt, cellFrame_setLeg]
    rfl
  · rfl

@[simp] theorem cellFrame_cmpCut (n m : Nat) : cellFrame (s.cmpCut n m) = cellFrame s := by
  have hlegs (l : List Nat) (p : State × Bool) : cellFrame (l.foldl (fun (p : State × Bool) k =>
      if m / 2 ^ k % 2 = 1 then let q := p.1.legCut k; (q.1, p.2 || q.2) else p) p).1 = cellFrame p.1 := by
    induction l generalizing p with
    | nil => rfl
    | cons k l ih =>
      rw [List.foldl_cons, ih]
      split
      · exact cellFrame_legCut p.1 k
      · rfl
  have hcnt : CellFld (F.CMP_EVTCNT n) := cellFld_of_addr (.inl (by simp only [F.CMP_EVTCNT]; omega)) (by simp only [F.CMP_EVTCNT]; omega)
  unfold cmpCut
  dsimp only
  split
  · rw [cellFrame_sat _ hcnt, cellFrame_setCmp, hlegs]
  · exact hlegs _ _

@[simp] theorem cellFrame_cutAtStart (k : Nat) : cellFrame (s.cutAtStart k) = cellFrame s := by
  unfold cutAtStart
  split
  · rfl
  · rw [cellFrame_each _ _ _ fun t n => by split <;> simp, cellFrame_setLeg]
    rfl

@[simp] theorem cellFrame_setCmd (n : Nat) (v : Lvl) (t : Nat) : cellFrame (s.setCmd n v t) = cellFrame s := by
  unfold setCmd
  dsimp only
  rw [cellFrame_cutAtStart, cellFrame_cellAt, cellFrame_setLeg]
  rfl

end
end State
end Sys2Proof.Machine
end

section
/-! SUPPORT. The command of a leg and its cell after a command of the modulator, while no idle edge of R210 is due (R202, R203). -/

namespace Sys2Proof.Machine

/-- The leg with the command `v`: a refresh ends with a command other than HI. -/
def LegM.commanded (l : LegM) (v : Lvl) : LegM := { l with modCmd := v, refresh := l.refresh && v == .hi }

namespace State

section
variable {s : State} {n : Nat}

theorem tick_of_kept {s t : State} (h : kept t = kept s) : t.tick = s.tick := congrArg (fun x => x.tick) h

theorem noIdleDue_iff : s.noIdleDue n = true ↔ ∀ e ∈ (s.leg n).seq, e.off = true → 16 * s.tick + 16 ≤ e.time := by
  simp only [noIdleDue, List.all_eq_true, Bool.or_eq_true, Bool.not_eq_true', decide_eq_true_eq]
  exact forall₂_congr fun e _ => by cases e.off <;> simp

/-- The two legs are commanded alike, and the same edges await them. -/
def SameCmd (l m : LegM) : Prop := l.modCmd = m.modCmd ∧ l.cell = m.cell ∧ l.seq = m.seq

theorem leg_blankOpen (s : State) (k n : Nat) : (s.blankOpen k).leg n = s.leg n :=
  each_view (fun t => t.leg n) 8 _ (fun t i _ => by dsimp only; split <;> [split <;> rfl; rfl]) s

theorem leg_rampRestart (s : State) (k t n : Nat) : (s.rampRestart k t).leg n = s.leg n := by
  refine each_view (fun t => t.leg n) 8 _ (fun u i _ => ?_) s
  split
  · exact each_view (fun t => t.leg n) 16 _ (fun v j _ => by dsimp only; split <;> rfl) _
  · rfl

/-- An edge of a dead time or of a command leaves the command. -/
theorem pinEdge_of_on {e : PinEdge} (h : e.off = false) : SameCmd ((s.pinEdge n e).leg n) (s.leg n) := by
  have hleg (u : State) (c : Prop) [Decidable c] (t : Nat) : (if c then u.rampRestart n t else u).leg n = u.leg n := by
    split
    · exact leg_rampRestart u n t n
    · rfl
  have hopen (u : State) (c : Prop) [Decidable c] : (if c then u.blankOpen n else u).leg n = u.leg n := by
    split
    · exact leg_blankOpen u n n
    · rfl
  unfold pinEdge
  dsimp only
  rw [hleg, hopen, leg_setLeg_self]
  simp [SameCmd, h]

theorem SameCmd.trans {l m k : LegM} (h : SameCmd l m) (h' : SameCmd m k) : SameCmd l k := by
  obtain ⟨hcmd, hcell, hseq⟩ := h
  obtain ⟨hcmd', hcell', hseq'⟩ := h'
  exact ⟨hcmd.trans hcmd', hcell.trans hcell', hseq.trans hseq'⟩

theorem foldl_pinEdge_of_on {l : List PinEdge} (h : ∀ e ∈ l, e.off = false) (s : State) :
    SameCmd ((l.foldl (fun s e => s.pinEdge n e) s).leg n) (s.leg n) := by
  induction l generalizing s with
  | nil => exact ⟨rfl, rfl, rfl⟩
  | cons e l ih =>
    rw [List.forall_mem_cons] at h
    obtain ⟨he, hl⟩ := h
    exact (ih hl _).trans (pinEdge_of_on he)

/-- The edges made in this tick leave the command; those left wait on. -/
theorem edgesDue_of_noIdle (h : s.noIdleDue n = true) (t : Nat) :
    ((s.edgesDue n t).leg n).modCmd = (s.leg n).modCmd ∧ ((s.edgesDue n t).leg n).cell = (s.leg n).cell ∧ (s.edgesDue n t).noIdleDue n = true := by
  have htick : (s.edgesDue n t).tick = s.tick := tick_of_kept (kept_edgesDue s n t)
  have hon : ∀ e ∈ (s.leg n).seq.filter fun e => e.time < min t (16 * s.tick + 16), e.off = false := by
    intro e he
    obtain ⟨hmem, hlt⟩ := List.mem_filter.mp he
    by_contra hoff
    have hlate := noIdleDue_iff.mp h e hmem (by simpa using hoff)
    simp at hlt
    omega
  obtain ⟨hcmd, hcell, hseq⟩ := foldl_pinEdge_of_on hon
    (s.setLeg n { s.leg n with seq := (s.leg n).seq.filter fun e => !(e.time < min t (16 * s.tick + 16)) })
  rw [leg_setLeg_self] at hcmd hcell hseq
  refine ⟨hcmd, hcell, noIdleDue_iff.mpr fun e he hoff => ?_⟩
  rw [htick]
  exact noIdleDue_iff.mp h e (List.mem_of_mem_filter (hseq ▸ he)) hoff

theorem mem_idleEdges {l : LegM} {e : PinEdge} (h : e ∈ idleEdges l) : e ∈ l.seq := by
  unfold idleEdges at h
  split at h
  · exact List.mem_of_mem_filter h
  · exact absurd h (by simp)

/-- The same of a leg just set. -/
theorem edgesDue_setLeg_of_noIdle {l : LegM} (h : ∀ e ∈ l.seq, e.off = true → 16 * s.tick + 16 ≤ e.time) (t : Nat) :
    (((s.setLeg n l).edgesDue n t).leg n).modCmd = l.modCmd ∧ (((s.setLeg n l).edgesDue n t).leg n).cell = l.cell := by
  have hidle : (s.setLeg n l).noIdleDue n = true := noIdleDue_iff.mpr (by rw [leg_setLeg_self]; exact h)
  obtain ⟨hcmd, hcell, -⟩ := edgesDue_of_noIdle hidle t
  rw [leg_setLeg_self] at hcmd hcell
  exact ⟨hcmd, hcell⟩

/-- A cell driven to `v` holds it, whatever edges that takes; the modulator's command stays. -/
theorem cellDrive_of_noIdle (h : s.noIdleDue n = true) (v : Lvl) (safe hush : Bool) (t : Nat) :
    ((s.cellDrive n v safe hush t).leg n).modCmd = (s.leg n).modCmd ∧ ((s.cellDrive n v safe hush t).leg n).cell = v := by
  obtain ⟨hcmd, hcell, hidle⟩ := edgesDue_of_noIdle h t
  unfold cellDrive
  dsimp only
  generalize s.edgesDue n t = u at hcmd hcell hidle ⊢
  split
  · next hholds =>
    have hv : v = (u.leg n).cell := by
      simp only [cellHolds, Bool.and_eq_true, beq_iff_eq] at hholds
      exact hholds.1
    rw [leg_setLeg_self, ← hcmd, hv]
    split <;> split <;> exact ⟨rfl, rfl⟩
  · rw [← hcmd]
    refine edgesDue_setLeg_of_noIdle (fun e he hoff => ?_) _
    rcases List.mem_append.mp he with he | he
    · rcases List.mem_append.mp he with he | he
      · obtain ⟨x, -, rfl⟩ := List.mem_map.mp he
        exact absurd hoff Bool.false_ne_true
      · have hon : (!e.off) = true := (List.all_eq_true (p := fun e : PinEdge => !e.off)).mp (by (repeat' split) <;> rfl) e he
        simp [hoff] at hon
    · split at he
      · exact absurd he (by simp)
      · exact noIdleDue_iff.mp hidle e (mem_idleEdges (List.mem_of_mem_filter he)) hoff

/-- The interlock takes the pins of the cell, not the command. -/
theorem modCmd_cellCut_of_noIdle (h : s.noIdleDue n = true) (t : Nat) : ((s.cellCut n t).leg n).modCmd = (s.leg n).modCmd := by
  obtain ⟨hcmd, -, hidle⟩ := edgesDue_of_noIdle h t
  unfold cellCut
  dsimp only
  generalize s.edgesDue n t = u at hcmd hidle ⊢
  rw [← hcmd]
  refine (edgesDue_setLeg_of_noIdle (fun e he hoff => ?_) _).1
  rcases List.mem_cons.mp he with rfl | he
  · exact absurd hoff Bool.false_ne_true
  · exact noIdleDue_iff.mp hidle e (mem_idleEdges he) hoff

theorem leg_wr (s : State) (f : Fld) (v n : Nat) : (s.wr f v).leg n = s.leg n := (rfl)

theorem leg_setBit (s : State) (f : Fld) (b : Bool) (n : Nat) : (s.setBit f b).leg n = s.leg n := (rfl)

theorem leg_iraw (s : State) (pg b : Nat) (v : Bool) (n : Nat) : (s.iraw pg b v).leg n = s.leg n := by
  unfold iraw
  dsimp only
  split <;> rfl

theorem legRuns_setLeg {l : LegM} (hcmp : l.demCmp = (s.leg n).demCmp) (hmod : l.demMod = (s.leg n).demMod) (htrip : l.demTrip = (s.leg n).demTrip) :
    (s.setLeg n l).legRuns n = s.legRuns n := by
  have hover : (s.setLeg n l).overridden n = s.overridden n := by
    simp only [overridden, leg_setLeg_self, hcmp, hmod, htrip]
    rfl
  simp only [legRuns, hover]
  rfl

/-- The cell of a leg that R200 lets run holds its level, and a leg that it does not is commanded off. -/
theorem cellAt_of_noIdle (hp : s.has (Pg.LEG n) = true) (h : s.noIdleDue n = true) (t : Nat) :
    ((s.cellAt n t).leg n).modCmd = (if s.legRuns n = true then (s.leg n).modCmd else .off) ∧
      (s.legRuns n = true → s.interlocked n = false → ((s.cellAt n t).leg n).cell = s.cellLevel n) := by
  rw [cellAt, if_neg (by simp [hp])]
  extract_lets +onlyGivenNames runs l held safe cut driven
  have hcmd : (held.leg n).modCmd = if s.legRuns n = true then (s.leg n).modCmd else .off := by
    unfold held runs
    split
    · rfl
    · rw [leg_setLeg_self]
  have hidle : held.noIdleDue n = true := by
    rw [noIdleDue_iff] at h ⊢
    unfold held
    split
    · exact h
    · rw [leg_setLeg_self]
      exact h
  have hdriven : (driven.leg n).modCmd = (held.leg n).modCmd := by
    unfold driven
    split
    · exact modCmd_cellCut_of_noIdle hidle t
    · exact (cellDrive_of_noIdle hidle _ _ _ t).1
  refine ⟨?_, fun hruns hfree => ?_⟩
  · simp only [leg_iraw, leg_wr, leg_setBit]
    rw [hdriven, hcmd]
  · have hheld : held = s := if_pos hruns
    have hcut : cut = false := by
      unfold cut
      rw [hheld, hfree, Bool.false_and]
    have hcell : (driven.leg n).cell = s.cellLevel n := by
      unfold driven
      rw [hcut, if_neg Bool.false_ne_true, (cellDrive_of_noIdle hidle _ _ _ t).2, hheld]
    simp only [leg_iraw, leg_wr, leg_setBit]
    exact hcell

/-- Without the comparators no on-time is cut as it begins. -/
theorem cutAtStart_of_cmp_off (h : s.enabled Pg.CMP = false) (n : Nat) :
    ((s.cutAtStart n).leg n).modCmd = (s.leg n).modCmd ∧ ((s.cutAtStart n).leg n).cell = (s.leg n).cell := by
  unfold cutAtStart
  split
  · exact ⟨rfl, rfl⟩
  · generalize hu : s.setLeg n _ = u
    have hoff (k : Nat) : u.cmpCuts k = false := by
      have hen : u.enabled Pg.CMP = false := by rw [← h, ← hu]; rfl
      simp [cmpCuts, cmpOn, hen]
    rw [each, List.foldl_fixed' (fun k => by rw [hoff, Bool.false_and, if_neg Bool.false_ne_true]), ← hu, leg_setLeg_self]
    exact ⟨rfl, rfl⟩

theorem setCmd_of_uncut (h : (s.leg n).cut = false) (v : Lvl) (t : Nat) :
    s.setCmd n v t = ((s.setLeg n ((s.leg n).commanded v)).cellAt n t).cutAtStart n := by
  unfold setCmd
  dsimp only
  rw [if_neg (by simp [h])]
  rfl

theorem interlocked_setLeg {l : LegM} (h : l.forceEnd = (s.leg n).forceEnd) : (s.setLeg n l).interlocked n = s.interlocked n := by
  rw [interlocked, leg_setLeg_self, h]
  rfl

/-- The agents above the modulator leave a leg that runs to it. -/
theorem cellLevel_of_runs (h : s.legRuns n = true) (hdriving : (s.leg n).driving = true) (hrefresh : (s.leg n).refresh = false) :
    s.cellLevel n = (s.leg n).modCmd := by
  have hrun := h
  simp only [legRuns, Bool.and_eq_true, Bool.not_eq_true'] at h
  obtain ⟨⟨⟨-, hsto⟩, hover⟩, hfault⟩ := h
  simp [cellLevel, hsto, hover, hfault, hrun, hdriving, hrefresh]

/-- What a command of the modulator comes to (R200, R202): the leg that runs is commanded so, and its cell holds it; any other is commanded
off. -/
theorem setCmd_of_noIdle (hp : s.has (Pg.LEG n) = true) (h : s.noIdleDue n = true) (hcmp : s.enabled Pg.CMP = false)
    (huncut : (s.leg n).cut = false) (v : Lvl) (t : Nat) :
    ((s.setCmd n v t).leg n).modCmd = (if s.legRuns n = true then v else .off) ∧
      (s.legRuns n = true → s.interlocked n = false → (s.leg n).driving = true → (s.leg n).refresh = false →
        ((s.setCmd n v t).leg n).cell = v) := by
  rw [setCmd_of_uncut huncut]
  generalize hu : s.setLeg n ((s.leg n).commanded v) = u
  have hleg : u.leg n = (s.leg n).commanded v := by rw [← hu, leg_setLeg_self]
  have hruns : u.legRuns n = s.legRuns n := by rw [← hu, legRuns_setLeg (l := (s.leg n).commanded v) rfl rfl rfl]
  have hlock : u.interlocked n = s.interlocked n := by rw [← hu, interlocked_setLeg (l := (s.leg n).commanded v) rfl]
  have hcmpu : (u.cellAt n t).enabled Pg.CMP = false := by
    have hreg : regsIn (fun a => ¬CellReg a) (u.cellAt n t) = regsIn (fun a => ¬CellReg a) u := congrArg (fun x => x.1) (u.cellFrame_cellAt n t)
    have hen : (u.cellAt n t).rd (F.EN Pg.CMP) = u.rd (F.EN Pg.CMP) := rd_of_regsIn hreg (by simp [CellReg, F.EN, Pg.CMP])
    rw [enabled, bit, hen, ← hcmp, ← hu]
    rfl
  have hidle : u.noIdleDue n = true := by
    rw [noIdleDue_iff] at h ⊢
    rw [← hu, leg_setLeg_self]
    exact h
  obtain ⟨hcmd, hcell⟩ := cellAt_of_noIdle (s := u) (by rw [← hp, ← hu]; rfl) hidle t
  obtain ⟨hcmd', hcell'⟩ := cutAtStart_of_cmp_off hcmpu n
  refine ⟨?_, fun hrun hfree hdriving hrefresh => ?_⟩
  · rw [hcmd', hcmd, hruns, hleg]
    rfl
  · have hlevel : u.cellLevel n = v := by
      rw [cellLevel_of_runs (hruns.trans hrun) (by rw [hleg]; exact hdriving) (by rw [hleg, LegM.commanded, hrefresh, Bool.false_and]), hleg]
      rfl
    rw [hcell', hcell (hruns.trans hrun) (hlock.trans hfree), hlevel]

end
end State
end Sys2Proof.Machine
end

section
/-! SUPPORT. Commits of a leg and of a channel (R136, R225, R226). -/

namespace Sys2Proof.Machine
namespace State

theorem reg_iraw_ne (s : State) {pg a : Nat} (b : Nat) (v : Bool) (hraw : a ≠ pg + 0x10) (hflg : a ≠ pg + 0x18) : (s.iraw pg b v).reg a = s.reg a := by
  unfold iraw
  dsimp only
  split
  · exact (reg_wr_ne _ _ _ hraw).trans (reg_wr_ne s ((F.IFLG pg).at b) _ hflg)
  · exact reg_wr_ne _ _ _ hraw

theorem rd_iraw_ne (s : State) {pg : Nat} {f : Fld} (b : Nat) (v : Bool) (hraw : f.addr ≠ pg + 0x10) (hflg : f.addr ≠ pg + 0x18) :
    (s.iraw pg b v).rd f = s.rd f := by
  rw [rd, reg_iraw_ne s b v hraw hflg, rd]

theorem leg_latch (s : State) (f : Fld) (n : Nat) : (s.latch f).leg n = s.leg n := (rfl)

theorem tick_setLeg_wr (s : State) (n : Nat) (l : LegM) (f : Fld) (v : Nat) : ((s.setLeg n l).wr f v).tick = s.tick := (rfl)

/-! LATE_COMMIT (R226). -/

theorem leg_legLate (s : State) (k n : Nat) : (s.legLate k).leg n = s.leg n := by
  rw [legLate, leg_iraw, sat, leg_wr, leg_latch]

theorem reg_legLate_ne (s : State) (k : Nat) {a : Nat} (h : ∀ o ∈ [0x10, 0x18, 0x44, 0x194], a ≠ Pg.LEG k + o) : (s.legLate k).reg a = s.reg a := by
  have hstat : a ≠ (F.LEG_LATE k).addr := by simpa [Pg.LEG, F.LEG_LATE, Nat.add_right_comm] using h 0x44 (by simp)
  have hcnt : a ≠ (F.LEG_LATECNT k).addr := by simpa [Pg.LEG, F.LEG_LATECNT, Nat.add_right_comm] using h 0x194 (by simp)
  exact (reg_iraw_ne _ 0 true (h 0x10 (by simp)) (h 0x18 (by simp))).trans ((reg_wr_ne _ _ _ hcnt).trans (reg_wr_ne s _ _ hstat))

theorem legLate_shown (s : State) (n : Nat) :
    (s.legLate n).rd (F.LEG_LATE n) = 1 ∧ (s.legLate n).rd (F.LEG_LATECNT n) = min (s.rd (F.LEG_LATECNT n) + 1) 65535 := by
  have hraw {f : Fld} (hf : f.addr = 0x20044 + 0x1000 * n ∨ f.addr = 0x20194 + 0x1000 * n) :
      (s.legLate n).rd f = ((s.latch (F.LEG_LATE n)).sat (F.LEG_LATECNT n)).rd f :=
    rd_iraw_ne _ 0 true (by simp only [Pg.LEG]; omega) (by simp only [Pg.LEG]; omega)
  have hlate : (F.LEG_LATE n).addr ≠ (F.LEG_LATECNT n).addr := by simp only [F.LEG_LATE, F.LEG_LATECNT]; omega
  refine ⟨?_, ?_⟩
  · rw [hraw (.inl rfl), sat, rd_wr_ne _ _ _ _ hlate]
    exact rd_wr_self s _ _ (by simp [F.LEG_LATE]) (by simp [F.LEG_LATE])
  · have hkeep : (s.latch (F.LEG_LATE n)).rd (F.LEG_LATECNT n) = s.rd (F.LEG_LATECNT n) := rd_wr_ne s _ _ _ hlate.symm
    rw [hraw (.inr rfl), sat, rd_wr_self _ _ _ (by simp [F.LEG_LATECNT]) (by simp [F.LEG_LATECNT]), hkeep]
    simp only [F.LEG_LATECNT, Fld.width]
    omega

/-! LEG_COMMIT (R225). -/

/-- A commit that comes in the cycle of a reload already made, the first of its tick. -/
def lateCommit (s : State) (n : Nat) : Prop := (s.leg n).rlTick = some s.tick ∧ (s.leg n).cmTick ≠ some s.tick

/-- The commit itself: the shadow words are held, and PEND shows it. -/
def legCommitted (s : State) (n : Nat) : State :=
  (s.setLeg n { s.leg n with prev := if (s.leg n).cmTick = some s.tick then (s.leg n).prev else (s.leg n).pend, pend := some (s.shadowOf n),
                             cmTick := some s.tick }).wr (F.PEND (Pg.LEG n)) 1

theorem legCommit_eq (s : State) (n : Nat) :
    s.legCommit n = if (decide ((s.leg n).rlTick = some s.tick) && !decide ((s.leg n).cmTick = some s.tick)) = true then (s.legCommitted n).legLate n
      else s.legCommitted n := by
  simp only [legCommit, tick_setLeg_wr, decide_eq_true_eq]
  rfl

theorem legCommit_of_late {s : State} {n : Nat} (h : s.lateCommit n) : s.legCommit n = (s.legCommitted n).legLate n := by
  rw [legCommit_eq, if_pos (by simpa [lateCommit] using h)]

theorem legCommit_of_early {s : State} {n : Nat} (h : ¬s.lateCommit n) : s.legCommit n = s.legCommitted n := by
  rw [legCommit_eq, if_neg (by simpa [lateCommit] using h)]

/-- What a commit of leg `k` may write. -/
theorem reg_legCommit_ne (s : State) (k : Nat) {a : Nat} (h : ∀ o ∈ [0x10, 0x18, 0x20, 0x44, 0x194], a ≠ Pg.LEG k + o) :
    (s.legCommit k).reg a = s.reg a := by
  have hcommitted : (s.legCommitted k).reg a = s.reg a := reg_wr_ne _ _ _ (h 0x20 (by simp))
  by_cases hlate : s.lateCommit k
  · rw [legCommit_of_late hlate, reg_legLate_ne _ _ fun o ho => h o (by simp at ho ⊢; tauto), hcommitted]
  · rw [legCommit_of_early hlate, hcommitted]

theorem leg_legCommit (s : State) (k n : Nat) : (s.legCommit k).leg n = (s.legCommitted k).leg n := by
  by_cases hlate : s.lateCommit k
  · rw [legCommit_of_late hlate, leg_legLate]
  · rw [legCommit_of_early hlate]

theorem pend_legCommit (s : State) (n : Nat) : ((s.legCommit n).leg n).pend = some (s.shadowOf n) := by
  rw [leg_legCommit, legCommitted, leg_wr, leg_setLeg_self]

theorem leg_legCommit_ne (s : State) {k n : Nat} (h : n ≠ k) : (s.legCommit k).leg n = s.leg n := by
  rw [leg_legCommit, legCommitted, leg_wr, leg_setLeg_ne _ _ h]

theorem pendShown_legCommit (s : State) (n : Nat) : (s.legCommit n).rd (F.PEND (Pg.LEG n)) = 1 := by
  have hcommitted : (s.legCommitted n).rd (F.PEND (Pg.LEG n)) = 1 := rd_wr_self _ _ _ (by simp [F.PEND]) (by simp [F.PEND])
  by_cases hlate : s.lateCommit n
  · rw [legCommit_of_late hlate, rd, reg_legLate_ne _ _ (by simp [F.PEND]), ← rd, hcommitted]
  · rw [legCommit_of_early hlate, hcommitted]

@[simp] theorem kept_legCommit (s : State) (n : Nat) : kept (s.legCommit n) = kept s := by
  by_cases hlate : s.lateCommit n
  · rw [legCommit_of_late hlate, legLate, kept_iraw, kept_sat, kept_latch, legCommitted, kept_wr, kept_setLeg]
  · rw [legCommit_of_early hlate, legCommitted, kept_wr, kept_setLeg]

theorem shadowOf_congr {s t : State} {n : Nat} (h : ∀ o ∈ [0x48, 0x4C, 0x50, 0x54, 0x58, 0x5C, 0x60], t.reg (Pg.LEG n + o) = s.reg (Pg.LEG n + o)) :
    t.shadowOf n = s.shadowOf n := by
  simp only [List.forall_mem_cons, List.not_mem_nil, false_implies, implies_true, and_true] at h
  obtain ⟨h0, h1, h2, h3, h4, h5, h6⟩ := h
  simp only [shadowOf, h0, h1, h2, h3, h4, h5, h6]

theorem shadowOf_legCommit (s : State) (k n : Nat) : (s.legCommit k).shadowOf n = s.shadowOf n :=
  shadowOf_congr fun o ho => reg_legCommit_ne s k fun o' ho' => by
    simp only [List.mem_cons, List.not_mem_nil, or_false] at ho ho'
    simp only [Pg.LEG]
    omega

/-- The commit of leg `n` is held and shows. -/
def ShadowHeld (s : State) (n : Nat) : Prop := (s.leg n).pend = some (s.shadowOf n) ∧ s.rd (F.PEND (Pg.LEG n)) = 1

theorem ShadowHeld.legCommit_self (s : State) (n : Nat) : (s.legCommit n).ShadowHeld n :=
  ⟨(pend_legCommit s n).trans (by rw [shadowOf_legCommit]), pendShown_legCommit s n⟩

theorem ShadowHeld.legCommit {s : State} {n : Nat} (h : s.ShadowHeld n) (k : Nat) : (s.legCommit k).ShadowHeld n := by
  by_cases hk : n = k
  · rw [← hk]
    exact .legCommit_self s n
  · obtain ⟨hpend, hshown⟩ := h
    refine ⟨by rw [leg_legCommit_ne s hk, shadowOf_legCommit, hpend], ?_⟩
    rw [rd, reg_legCommit_ne s k (fun o ho => by
      simp only [List.mem_cons, List.not_mem_nil, or_false] at ho
      simp only [F.PEND, Pg.LEG]
      omega), ← rd, hshown]

/-- Commits of several legs, one after the other. -/
theorem shadowHeld_foldl_legCommit {n : Nat} (l : List Nat) : ∀ s : State, (n ∈ l ∨ s.ShadowHeld n) → (l.foldl legCommit s).ShadowHeld n := by
  induction l with
  | nil => exact fun s h => h.resolve_left (by simp)
  | cons k l ih =>
    intro s h
    refine ih _ ?_
    rcases h with h | h
    · rcases List.mem_cons.mp h with rfl | h
      · exact .inr (.legCommit_self s n)
      · exact .inl h
    · exact .inr (h.legCommit k)

/-! CHANNEL_COMMIT (R136, R271). -/

/-- The registers in which a channel shows its committed slots. -/
def CommReg (a : Nat) : Prop := 0x140 ≤ a % 0x1000 ∧ a % 0x1000 < 0x180

/-- What the commit of a slot leaves alone. -/
def slotFrame (s : State) : ({a // ¬CommReg a} → Word) × SMap LegM × Variant × List Host.Cell :=
  (regsIn (fun a => ¬CommReg a) s, s.legs, s.variant, s.mem)

theorem commReg_comm (c : Nat) {k : Nat} (h : k < 16) : CommReg (F.CH_COMM c k).addr := by
  simp only [CommReg, F.CH_COMM]
  omega

theorem slotFrame_slotCommit (s : State) (c : Nat) {k : Nat} (h : k < 16) : slotFrame (s.slotCommit c k) = slotFrame s := by
  unfold slotCommit
  dsimp only
  split
  · rfl
  · exact Prod.ext (regsIn_setReg _ _ (not_not_intro (commReg_comm c h))) rfl

theorem grantSlot_of_slotFrame {s t : State} (h : slotFrame t = slotFrame s) (c k : Nat) : t.grantSlot c k = s.grantSlot c k := by
  have htype : t.chType c = s.chType c := rd_of_regsIn (congrArg (fun x => x.1) h) (by simp [CommReg, F.CH_TYPE])
  rw [grantSlot, grantSlot, isGrid, isGrid, htype]

theorem comm_slotCommit_self {s : State} {c k : Nat} (h : s.grantSlot c k = false) :
    (s.slotCommit c k).reg (F.CH_COMM c k).addr = s.reg (F.CH_SLOT c k).addr := by
  unfold slotCommit
  dsimp only
  rw [if_neg (by rw [show (s.setCh c _).grantSlot c k = s.grantSlot c k from rfl, h]; exact Bool.false_ne_true), reg_setReg_self]

theorem comm_slotCommit_ne (s : State) {c j k : Nat} (h : j ≠ k) : (s.slotCommit c k).reg (F.CH_COMM c j).addr = s.reg (F.CH_COMM c j).addr := by
  have hne : (F.CH_COMM c j).addr ≠ (F.CH_COMM c k).addr := by
    simp only [F.CH_COMM]
    omega
  unfold slotCommit
  dsimp only
  split
  · rfl
  · exact reg_setReg_ne _ _ hne

/-- The slots of a channel, committed in turn: each shows what was written to it, unless it shows a grant. -/
theorem slotCommits (s : State) (c : Nat) {m : Nat} (h : m ≤ 16) :
    slotFrame (s.each m fun s k => s.slotCommit c k) = slotFrame s ∧
      ∀ k, k < m → s.grantSlot c k = false → (s.each m fun s k => s.slotCommit c k).reg (F.CH_COMM c k).addr = s.reg (F.CH_SLOT c k).addr := by
  induction m with
  | zero => exact ⟨rfl, nofun⟩
  | succ m ih =>
    obtain ⟨hframe, hshown⟩ := ih (by omega)
    have hsucc : (s.each (m + 1) fun s k => s.slotCommit c k) = (s.each m fun s k => s.slotCommit c k).slotCommit c m := by
      simp [each, List.range_succ]
    rw [hsucc]
    generalize (s.each m fun s k => s.slotCommit c k) = t at hframe hshown ⊢
    refine ⟨(slotFrame_slotCommit t c (by omega)).trans hframe, fun k hk hgrant => ?_⟩
    by_cases hkm : k = m
    · rw [hkm] at hgrant ⊢
      rw [comm_slotCommit_self (by rw [grantSlot_of_slotFrame hframe, hgrant])]
      exact reg_of_regsIn (congrArg (fun x => x.1) hframe) (by simp only [CommReg, F.CH_SLOT]; omega)
    · rw [comm_slotCommit_ne t hkm, hshown k (by omega) hgrant]

theorem legsOf_congr {s t : State} (hv : t.variant = s.variant) (h : ∀ n, n < 24 → t.reg (0x38180 + 4 * n) = s.reg (0x38180 + 4 * n)) (c : Nat) :
    t.legsOf c = s.legsOf c := by
  refine List.filter_congr fun n hn => ?_
  have hreg := h n (List.mem_range.mp hn)
  have hvalid : t.rd (F.LEGX_MAPA_VALID n) = s.rd (F.LEGX_MAPA_VALID n) := by
    rw [rd, rd, show (F.LEGX_MAPA_VALID n).addr = 0x38180 + 4 * n from rfl, hreg]
  have hch : t.rd (F.LEGX_MAPA_CH n) = s.rd (F.LEGX_MAPA_CH n) := by
    rw [rd, rd, show (F.LEGX_MAPA_CH n).addr = 0x38180 + 4 * n from rfl, hreg]
  simp only [mapped, has, bit, legCh, hv, hvalid, hch]

/-- What a commit of channel `c` writes beside its slots and the legs' pages. -/
def chCommitRegs (c : Nat) : List Nat := [0x180B8 + 0x1000 * c, Pg.CH c + 0x20]

/-- A commit of a channel: its slots, then its legs. -/
theorem chCommit_eq (s : State) (c : Nat) :
    ∃ t, s.chCommit c = (s.legsOf c).foldl legCommit t ∧ t.legs = s.legs ∧ t.mem = s.mem ∧
      (∀ a, ¬CommReg a → a ∉ chCommitRegs c → t.reg a = s.reg a) ∧
      ∀ k, k < 16 → s.grantSlot c k = false → t.reg (F.CH_COMM c k).addr = s.reg (F.CH_SLOT c k).addr := by
  obtain ⟨hframe, hshown⟩ := (s.setCh c { s.ch c with cmTick := some s.tick }).slotCommits c (le_refl 16)
  unfold chCommit
  extract_lets _ slots taken done legs _ t
  have htaken : slotFrame taken = slotFrame s ∧ ∀ a, taken.reg a = slots.reg a := by
    unfold taken dcCommit
    split
    · exact ⟨hframe, fun _ => rfl⟩
    · exact ⟨hframe, fun _ => rfl⟩
  obtain ⟨htaken, hsame⟩ := htaken
  have hdone : done.legs = s.legs ∧ done.mem = s.mem ∧ done.variant = s.variant := by
    have hslots : taken.legs = s.legs ∧ taken.mem = s.mem ∧ taken.variant = s.variant :=
      ⟨congrArg (fun x => x.2.1) htaken, congrArg (fun x => x.2.2.2) htaken, congrArg (fun x => x.2.2.1) htaken⟩
    unfold done
    split
    · exact hslots
    · exact hslots
  obtain ⟨hlegs, hmem, hvariant⟩ := hdone
  have hreg {a : Nat} (ha : a ≠ 0x180B8 + 0x1000 * c) : done.reg a = taken.reg a := by
    unfold done
    split
    · exact reg_wr_ne _ _ _ ha
    · rfl
  have hmap : legs = s.legsOf c := legsOf_congr hvariant (fun n hn => by
    rw [hreg (by omega)]
    exact reg_of_regsIn (congrArg (fun x => x.1) htaken) (by simp only [CommReg]; omega)) c
  refine ⟨t, by rw [hmap], hlegs, hmem, fun a ha hne => ?_, fun k hk hgrant => ?_⟩
  · simp only [chCommitRegs, List.mem_cons, List.not_mem_nil, or_false, not_or] at hne
    obtain ⟨hdone, hpend⟩ := hne
    exact (reg_wr_ne _ _ _ hpend).trans ((hreg hdone).trans (reg_of_regsIn (congrArg (fun x => x.1) htaken) ha))
  · have hcomm := commReg_comm c hk
    have hpend : (F.CH_COMM c k).addr ≠ (F.PEND (Pg.CH c)).addr := by
      simp only [F.CH_COMM, F.PEND, Pg.CH]
      omega
    exact (reg_wr_ne _ _ _ hpend).trans ((hreg (by simp only [F.CH_COMM]; omega)).trans ((hsame _).trans (hshown k hk hgrant)))

/-- What a commit of channel `c` leaves: each slot without a grant shows what was written, and every leg of the channel holds its words. -/
theorem chCommit_outcome (s : State) {c : Nat} (hc : c < 8) :
    (s.chCommit c).mem = s.mem ∧
      (∀ k, k < 16 → s.grantSlot c k = false → (s.chCommit c).reg (F.CH_COMM c k).addr = s.reg (F.CH_SLOT c k).addr) ∧
      ∀ n ∈ s.legsOf c, ((s.chCommit c).leg n).pend = some (s.shadowOf n) ∧ (s.chCommit c).rd (F.PEND (Pg.LEG n)) = 1 := by
  obtain ⟨t, heq, -, hmem, hreg, hcomm⟩ := s.chCommit_eq c
  rw [heq]
  refine ⟨?_, fun k hk hgrant => ?_, fun n hn => ?_⟩
  · rw [← hmem]
    exact foldl_view (fun u => u.mem) _ _ (fun u k _ => mem_of_kept (kept_legCommit u k)) t
  · rw [← hcomm k hk hgrant]
    refine foldl_view (fun u => u.reg (F.CH_COMM c k).addr) _ _ (fun u i _ => reg_legCommit_ne u i fun o ho => ?_) t
    simp only [List.mem_cons, List.not_mem_nil, or_false] at ho
    simp only [F.CH_COMM, Pg.LEG]
    omega
  · obtain ⟨hpend, hshown⟩ := shadowHeld_foldl_legCommit (s.legsOf c) t (.inl hn)
    have hshadow : ((s.legsOf c).foldl legCommit t).shadowOf n = t.shadowOf n :=
      foldl_view (fun u => u.shadowOf n) _ _ (fun u k _ => shadowOf_legCommit u k n) t
    have hsame : t.shadowOf n = s.shadowOf n := shadowOf_congr fun o ho => by
      simp only [List.mem_cons, List.not_mem_nil, or_false] at ho
      refine hreg _ ?_ ?_
      · simp only [CommReg, Pg.LEG]
        omega
      · simp only [chCommitRegs, Pg.CH, Pg.LEG, List.mem_cons, List.not_mem_nil, or_false]
        omega
    exact ⟨by rw [hpend, hshadow, hsame], hshown⟩

/-! The writes that ask for them. -/

section
variable (s : State)

theorem shdwWrite_leg {n : Nat} (hn : n < 24) (v : Word) :
    s.shdwWrite (Pg.LEG n) ((F.COMMIT (Pg.LEG n)).put v 1) = (s.legCommit n, .ok) := by
  have hon : (F.COMMIT (Pg.LEG n)).on ((F.COMMIT (Pg.LEG n)).put v 1) = true := Fld.on_put_one _ v (by simp [F.COMMIT]) (by simp [F.COMMIT])
  have hpage : Pg.LEG 0 ≤ Pg.LEG n ∧ Pg.LEG n ≤ Pg.LEG 23 := by
    simp only [Pg.LEG]
    omega
  have hindex : (Pg.LEG n - Pg.LEG 0) / 0x1000 = n := by
    simp only [Pg.LEG]
    omega
  rw [shdwWrite, hon, if_neg (by decide), if_pos hpage, hindex]

theorem shdwWrite_ch {c : Nat} (hc : c < 8) (v : Word) : s.shdwWrite (Pg.CH c) ((F.COMMIT (Pg.CH c)).put v 1) = (s.chCommit c, .ok) := by
  have hon : (F.COMMIT (Pg.CH c)).on ((F.COMMIT (Pg.CH c)).put v 1) = true := Fld.on_put_one _ v (by simp [F.COMMIT]) (by simp [F.COMMIT])
  have hleg : ¬(Pg.LEG 0 ≤ Pg.CH c ∧ Pg.CH c ≤ Pg.LEG 23) := by
    simp only [Pg.LEG, Pg.CH]
    omega
  have hpage : Pg.CH 0 ≤ Pg.CH c ∧ Pg.CH c ≤ Pg.CH 7 := by
    simp only [Pg.CH]
    omega
  have hindex : (Pg.CH c - Pg.CH 0) / 0x1000 = c := by
    simp only [Pg.CH]
    omega
  rw [shdwWrite, hon, if_neg (by decide), if_neg hleg, if_pos hpage, hindex]

end

end State

open State

theorem exec_legCommit {n : Fin 24} {v : Word} {s u : State} (h : s.turn (Pg.LEG n + 0x20) ((F.COMMIT (Pg.LEG n)).put v 1) = some u)
    (hp : u.has (Pg.LEG n) = true) : exec (.legCommit n v) s = .next (u.legCommit n).settle := by
  have hexec : exec (.legCommit n v) s = .next (noteWrite (Pg.LEG n + 0x20)
      (u.onPage (Pg.LEG n) fun s => s.shdwWrite (Pg.LEG n) ((F.COMMIT (Pg.LEG n)).put v 1))).settle :=
    congrArg Host.Outcome.next (hostWord_of_turn s h)
  rw [hexec, onPage, if_pos hp, shdwWrite_leg _ n.isLt, noteWrite_ok]

theorem exec_channelCommit_host {c : Fin 8} {v : Word} {s u : State} (h : u.turn (Pg.CH c + 0x20) ((F.COMMIT (Pg.CH c)).put v 1) = some s)
    (hp : s.has (Pg.CH c) = true) : exec (.channelCommit c true v) u = .next (s.chCommit c).settle := by
  have hexec : exec (.channelCommit c true v) u = .next (noteWrite (Pg.CH c + 0x20)
      (s.onPage (Pg.CH c) fun s => s.shdwWrite (Pg.CH c) ((F.COMMIT (Pg.CH c)).put v 1))).settle :=
    congrArg Host.Outcome.next (hostWord_of_turn u h)
  rw [hexec, onPage, if_pos hp, shdwWrite_ch _ c.isLt, noteWrite_ok]

theorem exec_channelCommit_engine {c : Fin 8} (v : Word) {s : State} (hp : s.has (Pg.CH c) = true) :
    exec (.channelCommit c false v) s = .next (s.chCommit c) := by
  have hexec : exec (.channelCommit c false v) s = .next (if s.has (Pg.CH c) then s.chCommit c else s) := rfl
  rw [hexec, if_pos hp]

/-- A commit of a leg, late or not (R225, R226). -/
theorem legCommit_outcome (u : State) (n : Nat) :
    ((u.legCommit n).settle.leg n).pend = some (u.shadowOf n) ∧ (u.legCommit n).settle.rd (F.PEND (Pg.LEG n)) = 1 ∧
      (if (u.leg n).rlTick = some u.tick ∧ (u.leg n).cmTick ≠ some u.tick then
        (u.legCommit n).settle.rd (F.LEG_LATE n) = 1 ∧ (u.legCommit n).settle.rd (F.LEG_LATECNT n) = min (u.rd (F.LEG_LATECNT n) + 1) 65535 ∧
          (u.legCommit n).settle.mem = u.mem
       else RestKept [Pg.LEG n + 0x20] u (u.legCommit n).settle) := by
  refine ⟨u.pend_legCommit n, u.pendShown_legCommit n, ?_⟩
  have hmem : (u.legCommit n).settle.mem = u.mem := mem_of_kept (u.kept_legCommit n)
  split
  · next hlate =>
    obtain ⟨hshown, hcnt⟩ := (u.legCommitted n).legLate_shown n
    have hkeep : (u.legCommitted n).rd (F.LEG_LATECNT n) = u.rd (F.LEG_LATECNT n) := rd_wr_ne _ _ _ _ (by simp only [F.LEG_LATECNT, F.PEND, Pg.LEG]; omega)
    rw [hkeep] at hcnt
    refine ⟨?_, ?_, hmem⟩
    · rw [settle_rd, legCommit_of_late hlate, hshown]
    · rw [settle_rd, legCommit_of_late hlate, hcnt]
  · next hearly =>
    refine ⟨fun a ha => ?_, hmem⟩
    rw [settle_reg, legCommit_of_early hearly]
    exact reg_wr_ne _ _ _ (by simpa [F.PEND] using ha)

end Sys2Proof.Machine
end

section
/-! SUPPORT. The SYNC chain, and the edges of the CPWM counter that reload nothing (R220, R229, R230). -/

namespace Sys2Proof.Machine
namespace State

section
variable {s : State} {n : Nat}

theorem reg_of_regs {s t : State} (h : t.regs = s.regs) (a : Nat) : t.reg a = s.reg a := by
  rw [reg, h, reg]

theorem rd_of_regs {s t : State} (h : t.regs = s.regs) (f : Fld) : t.rd f = s.rd f := by
  rw [rd, reg_of_regs h, rd]

/-- What a cell moves of a leg is none of its counter's. -/
theorem carrier_setCmd (s : State) (k n : Nat) (v : Lvl) (t : Nat) : ((s.setCmd k v t).leg n).carrier = (s.leg n).carrier :=
  congrFun (congrArg (fun x => x.2.2.1) (s.cellFrame_setCmd k v t)) n

theorem carrier_fields {l m : LegM} (h : l.carrier = m.carrier) :
    l.up = m.up ∧ l.ctrPh = m.ctrPh ∧ l.ctrAt = m.ctrAt ∧ l.syncLoad = m.syncLoad ∧ l.cUse = m.cUse ∧ l.pend = m.pend := by
  have hup := congrArg LegM.up h
  have hph := congrArg LegM.ctrPh h
  have hat := congrArg LegM.ctrAt h
  have hload := congrArg LegM.syncLoad h
  have huse := congrArg LegM.cUse h
  have hpend := congrArg LegM.pend h
  exact ⟨hup, hph, hat, hload, huse, hpend⟩

theorem mem_setCmd (s : State) (k : Nat) (v : Lvl) (t : Nat) : (s.setCmd k v t).mem = s.mem :=
  congrArg (fun x => x.2.2.2) (s.cellFrame_setCmd k v t)

/-! SYNC_IN (R229). -/

/-- An accepted edge of SYNC_IN asks leg `n` for a load. -/
def syncTakes (s : State) (n : Nat) : Bool := s.rdBit F.LEGX_SYNCMASK n && s.rd (F.LEG_MODE n) = 1

/-- The load asked of the counter of leg `n`, 24 ns from now. -/
def syncAsk (s : State) (n : Nat) : State :=
  if s.syncTakes n then s.setLeg n { s.leg n with syncLoad := some (16 * s.tick + 192) } else s

theorem syncAsks (s : State) (m : Nat) :
    (s.each m syncAsk).regs = s.regs ∧ (s.each m syncAsk).tick = s.tick ∧ (s.each m syncAsk).mem = s.mem ∧ (s.each m syncAsk).syncAt = s.syncAt ∧
      ∀ n, (s.each m syncAsk).leg n = if n < m ∧ s.syncTakes n = true then { s.leg n with syncLoad := some (16 * s.tick + 192) } else s.leg n := by
  induction m with
  | zero => exact ⟨rfl, rfl, rfl, rfl, fun n => by simp [each]⟩
  | succ m ih =>
    rw [each_succ]
    generalize s.each m syncAsk = u at ih ⊢
    obtain ⟨hregs, htick, hmem, hsync, hleg⟩ := ih
    have htakes : u.syncTakes m = s.syncTakes m := by
      rw [syncTakes, syncTakes, rdBit, rdBit, rd_of_regs hregs, rd_of_regs hregs]
    unfold syncAsk
    split
    · next hm =>
      refine ⟨hregs, htick, hmem, hsync, fun n => ?_⟩
      by_cases hn : n = m
      · rw [hn, leg_setLeg_self, hleg m, if_neg (by omega), htick, if_pos ⟨by omega, htakes ▸ hm⟩]
      · rw [leg_setLeg_ne _ _ hn, hleg n]
        exact if_congr (and_congr_left fun _ => by omega) rfl rfl
    · next hm =>
      refine ⟨hregs, htick, hmem, hsync, fun n => ?_⟩
      rw [hleg n]
      by_cases hn : n = m
      · rw [hn, if_neg (by omega), if_neg (by rw [← htakes]; tauto)]
      · exact if_congr (and_congr_left fun _ => by omega) rfl rfl

/-- Whether an edge of SYNC_IN follows the last accepted one too closely. -/
def syncNear (s : State) : Bool := match s.syncAt with
  | some t => decide (s.tick - t < 100)
  | none => false

theorem syncNear_eq_true : s.syncNear = true ↔ ∃ k, s.syncAt = some k ∧ s.tick - k < 100 := by
  unfold syncNear
  cases s.syncAt <;> simp

/-- The state in which an accepted edge has asked for its loads. -/
def syncAccepted (s : State) : State := (({ s with syncAt := some s.tick } : State).wrap F.LEGX_SYNCIN).each 24 syncAsk

theorem syncIn_eq (s : State) (b : Bool) :
    s.syncIn b = if (!s.bit F.LEGX_INEN || b != s.bit F.LEGX_INPOL || s.syncNear) = true then s
      else if s.syncAccepted.rd F.LEGX_OUTSRC = 3 then s.syncAccepted.syncPulse else s.syncAccepted := (rfl)

theorem syncIn_of_refused {b : Bool} (h : s.rd F.LEGX_INEN = 0 ∨ b ≠ s.bit F.LEGX_INPOL ∨ ∃ k, s.syncAt = some k ∧ s.tick - k < 100) :
    s.syncIn b = s := by
  rw [syncIn_eq, if_pos]
  rw [← syncNear_eq_true] at h
  rcases h with h | h | h
  · simp [bit, h]
  · simp [h]
  · simp [h]

theorem leg_wrap (s : State) (f : Fld) (n : Nat) : (s.wrap f).leg n = s.leg n := (rfl)

theorem rd_wrap_setSyncAt (s : State) (x : Option Nat) (f g : Fld) : (({ s with syncAt := x } : State).wrap f).rd g = (s.wrap f).rd g := (rfl)

/-- What an accepted edge leaves before SYNC_OUT follows it. -/
theorem syncAccepted_outcome (s : State) :
    (∀ f, s.syncAccepted.rd f = (s.wrap F.LEGX_SYNCIN).rd f) ∧ s.syncAccepted.mem = s.mem ∧ s.syncAccepted.syncAt = some s.tick ∧
      ∀ n, n < 24 → s.syncTakes n = true → s.syncAccepted.leg n = { s.leg n with syncLoad := some (16 * s.tick + 192) } := by
  obtain ⟨hregs, -, hmem, hsync, hleg⟩ := (({ s with syncAt := some s.tick } : State).wrap F.LEGX_SYNCIN).syncAsks 24
  refine ⟨fun f => (rd_of_regs hregs f).trans (rd_wrap_setSyncAt ..), hmem.trans (wrap_mem _ _), hsync.trans (wrap_syncAt _ _), fun n hn htakes => ?_⟩
  have hmask : (({ s with syncAt := some s.tick } : State).wrap F.LEGX_SYNCIN).syncTakes n = s.syncTakes n := by
    have hmask : (({ s with syncAt := some s.tick } : State).wrap F.LEGX_SYNCIN).rd F.LEGX_SYNCMASK = s.rd F.LEGX_SYNCMASK := rd_wrap_apart _ (by decide)
    have hmode : (({ s with syncAt := some s.tick } : State).wrap F.LEGX_SYNCIN).rd (F.LEG_MODE n) = s.rd (F.LEG_MODE n) :=
      rd_wrap_apart _ (.inl (by simp only [F.LEG_MODE, F.LEGX_SYNCIN]; omega))
    rw [syncTakes, rdBit, hmask, hmode, syncTakes, rdBit]
  rw [syncAccepted, hleg n, if_pos ⟨hn, hmask.trans htakes⟩, wrap_tick, leg_wrap]
  rfl

theorem syncPulse_outcome (s : State) :
    (∀ f, s.syncPulse.rd f = (s.wrap F.LEGX_SYNCOUT).rd f) ∧ s.syncPulse.mem = s.mem ∧ s.syncPulse.syncAt = s.syncAt ∧
      ∀ n, s.syncPulse.leg n = s.leg n := by
  unfold syncPulse
  generalize hw : s.wrap F.LEGX_SYNCOUT = w
  exact ⟨fun _ => rfl, by rw [← wrap_mem s F.LEGX_SYNCOUT, hw], by rw [← wrap_syncAt s F.LEGX_SYNCOUT, hw],
    fun n => by rw [← leg_wrap s F.LEGX_SYNCOUT n, ← hw]; rfl⟩

/-- What an accepted edge leaves (R229, R230). -/
theorem syncIn_of_accepted {b : Bool} (hen : s.rd F.LEGX_INEN = 1) (hpol : b = s.bit F.LEGX_INPOL)
    (hfar : ∀ k, s.syncAt = some k → 100 ≤ s.tick - k) :
    (s.syncIn b).syncAt = some s.tick ∧ (s.syncIn b).rd F.LEGX_SYNCIN = (s.rd F.LEGX_SYNCIN + 1) % 65536 ∧ (s.syncIn b).mem = s.mem ∧
      (s.syncIn b).rd F.LEGX_SYNCOUT = (if s.rd F.LEGX_OUTSRC = 3 then (s.rd F.LEGX_SYNCOUT + 1) % 65536 else s.rd F.LEGX_SYNCOUT) ∧
      ∀ n, n < 24 → s.syncTakes n = true → (s.syncIn b).leg n = { s.leg n with syncLoad := some (16 * s.tick + 192) } := by
  have hnear : s.syncNear = false := by
    rw [← Bool.not_eq_true, syncNear_eq_true]
    rintro ⟨k, hk, hlt⟩
    have := hfar k hk
    omega
  have heq : s.syncIn b = if s.syncAccepted.rd F.LEGX_OUTSRC = 3 then s.syncAccepted.syncPulse else s.syncAccepted := by
    rw [syncIn_eq, if_neg]
    simp [bit, hen, hpol, hnear]
  obtain ⟨hrd, hmem, hsync, hlegs⟩ := s.syncAccepted_outcome
  rw [heq]
  generalize s.syncAccepted = t at hrd hmem hsync hlegs ⊢
  have hsrc : t.rd F.LEGX_OUTSRC = s.rd F.LEGX_OUTSRC := (hrd _).trans (rd_wrap_apart s (by decide))
  have hin : t.rd F.LEGX_SYNCIN = (s.rd F.LEGX_SYNCIN + 1) % 65536 := (hrd _).trans (rd_wrap_self s _ (by decide) (by decide))
  have hout : t.rd F.LEGX_SYNCOUT = s.rd F.LEGX_SYNCOUT := (hrd _).trans (rd_wrap_apart s (by decide))
  obtain ⟨hrd', hmem', hsync', hlegs'⟩ := t.syncPulse_outcome
  rw [hsrc]
  split
  · refine ⟨hsync'.trans hsync, ?_, hmem'.trans hmem, ?_, fun n hn htakes => (hlegs' n).trans (hlegs n hn htakes)⟩
    · rw [hrd', rd_wrap_apart t (by decide), hin]
    · rw [hrd', rd_wrap_self t _ (by decide) (by decide), hout]
      rfl
  · exact ⟨hsync, hin, hmem, hout, hlegs⟩

/-! The load of a counter (R229). -/

theorem syncDue_of_early {k : Nat} (h : (s.leg n).syncLoad = some k) (hk : 16 * s.tick < k) : s.syncDue n = s := by
  simp only [syncDue, h, if_pos hk]

/-- The leg whose counter is loaded with its phase at the instant `k`. -/
def loadedLeg (s : State) (n k : Nat) : LegM :=
  { s.leg n with syncLoad := none, up := decide (s.rd (F.LEG_SYNCPH n) ≤ s.rd (F.LEG_ACT_PER n)), ctrPh := s.rd (F.LEG_SYNCPH n), ctrAt := k }

theorem syncDue_of_late {k : Nat} (h : (s.leg n).syncLoad = some k) (hk : k ≤ 16 * s.tick) (hrun : s.ctrRuns n = true)
    (hmode : s.rd (F.LEG_MODE n) = 1) :
    ∃ v, s.syncDue n = ((s.setLeg n { s.leg n with syncLoad := none }).setLeg n (s.loadedLeg n k)).setCmd n v k := by
  have hrun' : (s.setLeg n { s.leg n with syncLoad := none }).ctrRuns n = true := by
    rw [← hrun, ctrRuns, leg_setLeg_self, ctrRuns]
    rfl
  have hmode' : (s.setLeg n { s.leg n with syncLoad := none }).rd (F.LEG_MODE n) = 1 := hmode
  rw [syncDue, h]
  dsimp only
  rw [if_neg (Nat.not_lt.mpr hk), if_neg (by rw [hrun', hmode']; decide)]
  exact ⟨_, rfl⟩

/-- The load is made: the counter stands at its phase at the instant `k`, on the slope that phase lies on. -/
theorem syncDue_loaded {k : Nat} (h : (s.leg n).syncLoad = some k) (hk : k ≤ 16 * s.tick) (hrun : s.ctrRuns n = true)
    (hmode : s.rd (F.LEG_MODE n) = 1) :
    ((s.syncDue n).leg n).syncLoad = none ∧ (s.syncDue n).mem = s.mem ∧
      (((s.syncDue n).leg n).up = true ↔ s.rd (F.LEG_SYNCPH n) ≤ s.rd (F.LEG_ACT_PER n)) ∧ ((s.syncDue n).leg n).ctrPh = s.rd (F.LEG_SYNCPH n) ∧
      ((s.syncDue n).leg n).ctrAt = k := by
  obtain ⟨v, hv⟩ := syncDue_of_late h hk hrun hmode
  have hcarrier : ((s.syncDue n).leg n).carrier = (s.loadedLeg n k).carrier := by
    rw [hv, carrier_setCmd, leg_setLeg_self]
  obtain ⟨hup, hph, hat, hload, -⟩ := carrier_fields hcarrier
  refine ⟨hload, by rw [hv, mem_setCmd, setLeg_mem, setLeg_mem], ?_, hph, hat⟩
  rw [hup]
  exact decide_eq_true_iff

/-! The edges of a counter that reload nothing (R220). -/

theorem ctrZero_of_stopped (h : s.ctrRuns n = false) (sub : Nat) : s.ctrZero n sub = s := by
  simp [ctrZero, h]

theorem ctrPeak_of_stopped (h : s.ctrRuns n = false) (sub : Nat) : s.ctrPeak n sub = s := by
  simp [ctrPeak, h]

theorem ctrEdge_of_stopped (h : s.ctrRuns n = false) : s.ctrEdge n = s := by
  simp [ctrEdge, h]

theorem fbEnds_of_cpwm (h : s.rd (F.LEG_MODE n) = 1) (neg : Bool) : s.fbEnds n neg = false := by
  simp [fbEnds, h]

/-- A peak without RLDPK turns the count, and may ask for a decimation. -/
theorem ctrPeak_of_turn (hrun : s.ctrRuns n = true) (hup : (s.leg n).up = true) (hrld : s.rd (F.LEG_RLDPK n) = 0) (hmode : s.rd (F.LEG_MODE n) = 1)
    (sub : Nat) :
    s.ctrPeak n sub =
      (s.setLeg n { s.leg n with up := false, ctrPh := s.rd (F.LEG_ACT_PER n), ctrAt := 16 * s.tick + sub }).carrierEvent n (16 * s.tick + sub)
        (2 * s.rd (F.LEG_ACT_PER n)) true := by
  have hcond : (!s.ctrRuns n || !(s.leg n).up) = false := by rw [hrun, hup]; rfl
  rw [ctrPeak, if_neg (by rw [hcond]; exact Bool.false_ne_true)]
  dsimp only
  rw [fbEnds_of_cpwm (s := s.setLeg n _) hmode, if_neg Bool.false_ne_true, if_neg]
  · rfl
  · simp [bit, show (s.setLeg n _).rd (F.LEG_RLDPK n) = s.rd (F.LEG_RLDPK n) from rfl, hrld]

/-- A carrier event moves the schedules of the decimations alone. -/
theorem carrierEvent_eq (s : State) (k t per : Nat) (peak : Bool) : ∃ x, s.carrierEvent k t per peak = { s with blks := x } := by
  have hview : { s.carrierEvent k t per peak with blks := [] } = { s with blks := [] } :=
    each_view (fun u : State => { u with blks := [] }) 4 _ (fun u m _ => by dsimp only; split <;> rfl) s
  exact ⟨(s.carrierEvent k t per peak).blks, congrArg (fun u : State => { u with blks := (s.carrierEvent k t per peak).blks }) hview⟩

/-- The command that a compare edge of an unshifted counter gives. -/
theorem ctrEdge_of_unshifted (hrun : s.ctrRuns n = true) (hpos : 0 < (s.leg n).cUse) (hlt : (s.leg n).cUse < s.rd (F.LEG_ACT_PER n))
    (hshift : (s.leg n).shift = 0) : s.ctrEdge n = s.setCmd n (if (s.leg n).up then .hi else .lo) (16 * s.tick) := by
  have hcond : ¬(((!s.ctrRuns n || decide ((s.leg n).cUse = 0)) || decide (s.rd (F.LEG_ACT_PER n) ≤ (s.leg n).cUse)) = true) := by
    simp [hrun]
    omega
  simp only [ctrEdge, hshift, if_true]
  rw [if_neg hcond]

end
end State
end Sys2Proof.Machine
end

section
/-! SUPPORT. The reload of a CPWM counter (R220, R221, R225, R226). -/

namespace Sys2Proof.Machine

/-- The registers that neither a reload nor a duty writes, but for the active ones. -/
def ReloadKeeps (a : Nat) : Prop := ¬(0x18000 ≤ a ∧ a < 0x38000 ∧ a % 0x1000 ∈ [0x10, 0x18, 0x20, 0x44, 0x9C, 0xB4, 0x194])

/-- Those of them that the counter's own events leave too: not PERCNT, nor the counts of the SYNC chain. -/
def RunReg (a : Nat) : Prop := ReloadKeeps a ∧ ¬(0x20000 ≤ a ∧ a < 0x38000 ∧ a % 0x1000 = 0x19C) ∧ a ≠ 0x38054

namespace State

/-- The registers of the set `P`, and what the counter's events leave of the other parts. -/
def ctrFrame (P : Nat → Prop) (s : State) : ({a // P a} → Word) × State :=
  (regsIn P s, { s with regs := [], hwSet := [], legs := [], chs := [], syncOutAt := none })

section
variable {P : Nat → Prop} {s t : State}

theorem ctrFrame.rd (h : ctrFrame P t = ctrFrame P s) {f : Fld} (hf : P f.addr) : t.rd f = s.rd f := rd_of_regsIn (congrArg (fun x => x.1) h) hf

theorem ctrFrame.bit (h : ctrFrame P t = ctrFrame P s) {f : Fld} (hf : P f.addr) : t.bit f = s.bit f := by
  rw [State.bit, ctrFrame.rd h hf, State.bit]

theorem ctrFrame.mem_eq (h : ctrFrame P t = ctrFrame P s) : t.mem = s.mem := congrArg (fun x => x.2.mem) h
theorem ctrFrame.tick_eq (h : ctrFrame P t = ctrFrame P s) : t.tick = s.tick := congrArg (fun x => x.2.tick) h
theorem ctrFrame.safe_eq (h : ctrFrame P t = ctrFrame P s) : t.safe = s.safe := congrArg (fun x => x.2.safe) h
theorem ctrFrame.mach_eq (h : ctrFrame P t = ctrFrame P s) : t.mach = s.mach := congrArg (fun x => x.2.mach) h
theorem ctrFrame.has_eq (h : ctrFrame P t = ctrFrame P s) (pg : Nat) : t.has pg = s.has pg := by
  have hv : t.variant = s.variant := congrArg (fun x => x.2.variant) h
  rw [has, hv, has]

theorem ctrFrame.mono {Q : Nat → Prop} (h : ctrFrame P t = ctrFrame P s) (hQ : ∀ a, Q a → P a) : ctrFrame Q t = ctrFrame Q s :=
  Prod.ext (funext fun ⟨a, ha⟩ => congrFun (congrArg (fun x => x.1) h) ⟨a, hQ a ha⟩) (congrArg (fun x => x.2) h)

theorem ctrFrame_setReg (s : State) {a : Nat} (w : Word) (h : ¬P a) : ctrFrame P (s.setReg a w) = ctrFrame P s := Prod.ext (regsIn_setReg s w h) rfl
theorem ctrFrame_wr (s : State) {f : Fld} (v : Nat) (h : ¬P f.addr) : ctrFrame P (s.wr f v) = ctrFrame P s := ctrFrame_setReg s _ h
theorem ctrFrame_wrF (s : State) {f : Fld} (v : F32) (h : ¬P f.addr) : ctrFrame P (s.wrF f v) = ctrFrame P s := ctrFrame_setReg s _ h
theorem ctrFrame_setBit (s : State) {f : Fld} (b : Bool) (h : ¬P f.addr) : ctrFrame P (s.setBit f b) = ctrFrame P s := ctrFrame_wr s _ h
theorem ctrFrame_sat (s : State) {f : Fld} (h : ¬P f.addr) : ctrFrame P (s.sat f) = ctrFrame P s := ctrFrame_wr s _ h
theorem ctrFrame_wrap (s : State) {f : Fld} (h : ¬P f.addr) : ctrFrame P (s.wrap f) = ctrFrame P s := ctrFrame_wr s _ h
theorem ctrFrame_latch (s : State) {f : Fld} (h : ¬P f.addr) : ctrFrame P (s.latch f) = ctrFrame P s := Prod.ext (regsIn_setReg s _ h) rfl
theorem ctrFrame_setLeg (s : State) (n : Nat) (l : LegM) : ctrFrame P (s.setLeg n l) = ctrFrame P s := (rfl)
theorem ctrFrame_setCh (s : State) (c : Nat) (m : ChM) : ctrFrame P (s.setCh c m) = ctrFrame P s := (rfl)

theorem ctrFrame_iraw (s : State) {pg : Nat} (b : Nat) (v : Bool) (hraw : ¬P (pg + 0x10)) (hflg : ¬P (pg + 0x18)) :
    ctrFrame P (s.iraw pg b v) = ctrFrame P s := by
  unfold iraw
  dsimp only
  rw [ctrFrame_setBit _ _ hraw]
  split
  · exact ctrFrame_latch s hflg
  · rfl

end

/-! What lets a leg run, read alike. -/

section
variable {s t : State} {n : Nat}

theorem released_of_frame (h : ctrFrame RunReg t = ctrFrame RunReg s) (c : Nat) : t.released c = s.released c := by
  have hrd {f : Fld} (hf : RunReg f.addr) := ctrFrame.rd h hf
  have hmode : t.modeNow = s.modeNow := hrd (by simp [RunReg, ReloadKeeps, F.SYS_MODE])
  have hsub : t.sub c = s.sub c := hrd (by simp [RunReg, ReloadKeeps, subF, Pg.SYS])
  have htype : t.chType c = s.chType c := hrd (by simp [RunReg, ReloadKeeps, F.CH_TYPE]; omega)
  have hride : t.bit F.RIDE_MC = s.bit F.RIDE_MC := ctrFrame.bit h (by simp [RunReg, ReloadKeeps, F.RIDE_MC])
  have hcease : t.rd F.SYS_CEASERUN = s.rd F.SYS_CEASERUN := hrd (by simp [RunReg, ReloadKeeps, F.SYS_CEASERUN])
  have hmach := ctrFrame.mach_eq h
  have hgrid : t.isGrid c = s.isGrid c := by rw [isGrid, htype, isGrid]
  unfold released
  dsimp only
  rw [hmode, hsub, hgrid, htype, hride, rdBit, hcease, hmach, rdBit]

theorem mapped_of_frame (h : ctrFrame RunReg t = ctrFrame RunReg s) (hn : n < 24) : t.mapped n = s.mapped n ∧ t.legCh n = s.legCh n := by
  have hvalid : t.bit (F.LEGX_MAPA_VALID n) = s.bit (F.LEGX_MAPA_VALID n) :=
    ctrFrame.bit h (by simp [RunReg, ReloadKeeps, F.LEGX_MAPA_VALID]; omega)
  have hch : t.legCh n = s.legCh n := ctrFrame.rd h (by simp [RunReg, ReloadKeeps, F.LEGX_MAPA_CH]; omega)
  exact ⟨by rw [mapped, ctrFrame.has_eq h, hvalid, mapped], hch⟩

theorem enabled_of_frame (h : ctrFrame RunReg t = ctrFrame RunReg s) {pg : Nat} (hpg : pg % 0x1000 = 0) : t.enabled pg = s.enabled pg :=
  ctrFrame.bit h (by simp [RunReg, ReloadKeeps, F.EN]; omega)

/-- A leg runs in both or in neither. -/
theorem legRuns_of_frame (h : ctrFrame RunReg t = ctrFrame RunReg s) (hn : n < 24) (hcmp : (t.leg n).demCmp = (s.leg n).demCmp)
    (hmod : (t.leg n).demMod = (s.leg n).demMod) (htrip : (t.leg n).demTrip = (s.leg n).demTrip) : t.legRuns n = s.legRuns n := by
  obtain ⟨hmapped, hch⟩ := mapped_of_frame h hn
  have hleg : t.enabled (Pg.LEG n) = s.enabled (Pg.LEG n) := enabled_of_frame h (by simp only [Pg.LEG]; omega)
  have hchan : t.enabled (Pg.CH (s.legCh n)) = s.enabled (Pg.CH (s.legCh n)) := enabled_of_frame h (by simp only [Pg.CH]; omega)
  have hmode : t.rd (F.LEG_MODE n) = s.rd (F.LEG_MODE n) := ctrFrame.rd h (by simp [RunReg, ReloadKeeps, F.LEG_MODE]; omega)
  have hboot : t.bit (F.LEG_BOOTLAT n) = s.bit (F.LEG_BOOTLAT n) := ctrFrame.bit h (by simp [RunReg, ReloadKeeps, F.LEG_BOOTLAT]; omega)
  have hnow : t.modeNow = s.modeNow := ctrFrame.rd h (by simp [RunReg, ReloadKeeps, F.SYS_MODE])
  have hsub : t.sub (s.legCh n) = s.sub (s.legCh n) := ctrFrame.rd h (by simp [RunReg, ReloadKeeps, subF, Pg.SYS])
  have hover : t.overridden n = s.overridden n := by rw [overridden, hcmp, hmod, htrip, hboot, overridden]
  have hsto : t.stoHolds = s.stoHolds := by rw [stoHolds, ctrFrame.safe_eq h, hnow, stoHolds]
  have hfault : t.faultHolds n = s.faultHolds n := by rw [faultHolds, hmapped, hch, hsub, faultHolds]
  have hen : t.chEn (s.legCh n) = s.chEn (s.legCh n) := by rw [chEn, ctrFrame.has_eq h, hchan, chEn]
  rw [legRuns, hleg, hmapped, hch, hen, released_of_frame h, hmode, hsto, hover, hfault, legRuns]

theorem interlocked_of_frame (h : ctrFrame RunReg t = ctrFrame RunReg s) (hforce : (t.leg n).forceEnd = (s.leg n).forceEnd) :
    t.interlocked n = s.interlocked n := by
  have hxon : t.bit (F.LEG_XON n) = s.bit (F.LEG_XON n) := ctrFrame.bit h (by simp [RunReg, ReloadKeeps, F.LEG_XON]; omega)
  rw [interlocked, hxon, hforce, interlocked]

theorem machLeg_of_frame (h : ctrFrame RunReg t = ctrFrame RunReg s) (hn : n < 24) : t.machLeg n = s.machLeg n := by
  obtain ⟨hmapped, hch⟩ := mapped_of_frame h hn
  have hen : t.enabled Pg.MACH = s.enabled Pg.MACH := enabled_of_frame h (by decide)
  have htype : t.chType (s.legCh n) = s.chType (s.legCh n) := ctrFrame.rd h (by simp [RunReg, ReloadKeeps, F.CH_TYPE]; omega)
  have hserved : t.rd F.MACH_CH = s.rd F.MACH_CH := ctrFrame.rd h (by simp [RunReg, ReloadKeeps, F.MACH_CH])
  simp only [machLeg]
  rw [ctrFrame.has_eq h, hen, hmapped, hch, htype, hserved]

theorem machReload_of_not_machLeg (h : s.machLeg n = false) : s.machReload n = s := by
  have href : s.machRef n = false := by
    rw [← Bool.not_eq_true]
    intro href
    rw [← Bool.not_eq_true] at h
    simp only [machRef, machLeg, Bool.and_eq_true] at href h
    exact h href.1
  rw [machReload, href, if_neg Bool.false_ne_true]

/-! The reload itself (R224 to R226). -/

/-- The leg after a reload that takes all that was pending. -/
def reloadedLeg (s : State) (n : Nat) : LegM := { s.leg n with prev := none, pend := none, rlTick := some s.tick, lostNow := 0 }

/-- What a reload shows: DTAGE, LOSTVS, and nothing pending. -/
def reloadShow (s t : State) (n : Nat) : State :=
  ((t.wr (F.LEG_DTAGE n) (t.rd F.AGE_DTAGE)).wrF (F.LEG_LOSTVS n) (s.leg n).lostNow).setBit (F.PEND (Pg.LEG n)) false

theorem reload_of_none (h : (s.leg n).pend = none) : s.reload n = (s.reloadShow (s.setLeg n (s.reloadedLeg n)) n).chDone n := by
  have hlate : ((s.leg n).pend.isSome && decide ((s.leg n).cmTick = some s.tick) && (s.leg n).rlTick != some s.tick) = false := by
    rw [h]
    rfl
  unfold reload
  dsimp only
  rw [hlate, if_neg Bool.false_ne_true, if_neg Bool.false_ne_true, h]
  rfl

theorem reload_of_stage {x : Shadow} (h : (s.leg n).pend = some x) (hcm : (s.leg n).cmTick ≠ some s.tick) :
    s.reload n = (s.reloadShow ((s.setLeg n (s.reloadedLeg n)).shadowTo n x) n).chDone n := by
  have hlate : ((s.leg n).pend.isSome && decide ((s.leg n).cmTick = some s.tick) && (s.leg n).rlTick != some s.tick) = false := by
    simp [hcm]
  unfold reload
  dsimp only
  rw [hlate, if_neg Bool.false_ne_true, if_neg Bool.false_ne_true, h]
  rfl

theorem ctrFrame_chDone (s : State) (n : Nat) : ctrFrame ReloadKeeps (s.chDone n) = ctrFrame ReloadKeeps s := by
  refine each_view (ctrFrame ReloadKeeps) 8 _ (fun u c hc => ?_) s
  dsimp only
  split
  · rw [ctrFrame_setBit _ _ (by simp [ReloadKeeps, F.PEND, Pg.CH]; omega), ctrFrame_setCh]
  · rfl

theorem leg_chDone (s : State) (k n : Nat) : (s.chDone k).leg n = s.leg n :=
  each_view (fun u => u.leg n) 8 _ (fun u c _ => by dsimp only; split <;> rfl) s

theorem ctrFrame_reloadShow (t : State) (hn : n < 24) : ctrFrame ReloadKeeps (s.reloadShow t n) = ctrFrame ReloadKeeps t := by
  rw [reloadShow, ctrFrame_setBit _ _ (by simp [ReloadKeeps, F.PEND, Pg.LEG]; omega),
    ctrFrame_wrF _ _ (by simp [ReloadKeeps, F.LEG_LOSTVS]; omega), ctrFrame_wr _ _ (by simp [ReloadKeeps, F.LEG_DTAGE]; omega)]

theorem leg_wrF (s : State) (f : Fld) (v : F32) (n : Nat) : (s.wrF f v).leg n = s.leg n := (rfl)

theorem leg_reloadShow (t : State) (k m : Nat) : (s.reloadShow t k).leg m = t.leg m := by
  rw [reloadShow, leg_setBit, leg_wrF, leg_wr]

/-- A reload with nothing pending. -/
theorem reload_quiet (hn : n < 24) (h : (s.leg n).pend = none) :
    ctrFrame ReloadKeeps (s.reload n) = ctrFrame ReloadKeeps s ∧ (s.reload n).leg n = s.reloadedLeg n := by
  rw [reload_of_none h]
  refine ⟨?_, ?_⟩
  · rw [ctrFrame_chDone, ctrFrame_reloadShow _ hn, ctrFrame_setLeg]
  · rw [leg_chDone, leg_reloadShow, leg_setLeg_self]

/-! The duty of a period (R221). -/

/-- C of the period that begins: the ratio of PER, or the compare word clamped to PER. -/
def cpwmDuty (s : State) (n : Nat) : Nat :=
  if s.rd (F.LEG_ACT_RATIO n) = 1 then s.rd (F.LEG_ACT_CMP n) % 65536 * s.rd (F.LEG_ACT_PER n) / 65536
  else min (s.rd (F.LEG_ACT_CMP n)) (s.rd (F.LEG_ACT_PER n))

/-- A compare word beyond PER is told. -/
def clampTold (s : State) (n : Nat) : State := ((s.latch (F.LEG_CMPCLAMP n)).sat (F.LEG_CLAMPCNT n)).iraw (Pg.LEG n) 1 true

theorem ctrFrame_clampTold (hn : n < 24) : ctrFrame ReloadKeeps (s.clampTold n) = ctrFrame ReloadKeeps s := by
  rw [clampTold, ctrFrame_iraw _ _ _ (by simp [ReloadKeeps, Pg.LEG]; omega) (by simp [ReloadKeeps, Pg.LEG]; omega),
    ctrFrame_sat _ (by simp [ReloadKeeps, F.LEG_CLAMPCNT]; omega), ctrFrame_latch _ (by simp [ReloadKeeps, F.LEG_CMPCLAMP]; omega)]

theorem leg_clampTold (s : State) (k n : Nat) : (s.clampTold k).leg n = s.leg n := by
  rw [clampTold, leg_iraw, sat, leg_wr, leg_latch]

theorem cmpclamp_clampTold (s : State) (n : Nat) : (s.clampTold n).rd (F.LEG_CMPCLAMP n) = 1 := by
  have hcnt : (F.LEG_CMPCLAMP n).addr ≠ (F.LEG_CLAMPCNT n).addr := by
    simp only [F.LEG_CMPCLAMP, F.LEG_CLAMPCNT]
    omega
  rw [clampTold, rd_iraw_ne _ _ _ (by simp only [F.LEG_CMPCLAMP, Pg.LEG]; omega) (by simp only [F.LEG_CMPCLAMP, Pg.LEG]; omega), sat,
    rd_wr_ne _ _ _ _ hcnt]
  exact rd_wr_self s _ _ (by simp [F.LEG_CMPCLAMP]) (by simp [F.LEG_CMPCLAMP])

theorem cpwmC_of_cpwm (hn : n < 24) (hmode : s.rd (F.LEG_MODE n) = 1) (hmach : s.machLeg n = false) (sub : Nat) :
    ∃ t, s.cpwmC n sub = (some (s.cpwmDuty n), t) ∧ ctrFrame ReloadKeeps t = ctrFrame ReloadKeeps s ∧ t.leg n = s.leg n ∧
      (s.rd (F.LEG_ACT_RATIO n) = 0 → s.rd (F.LEG_ACT_PER n) < s.rd (F.LEG_ACT_CMP n) → t.rd (F.LEG_CMPCLAMP n) = 1) := by
  have hmode' : ¬s.rd (F.LEG_MODE n) = 2 := by omega
  rw [cpwmC, cpwmDuty]
  rw [if_neg hmode', hmach, if_neg Bool.false_ne_true]
  by_cases hratio : s.rd (F.LEG_ACT_RATIO n) = 1
  · rw [if_pos (by simp [bit, hratio]), if_pos hratio]
    exact ⟨s, rfl, rfl, rfl, fun h => by omega⟩
  · rw [if_neg (by simpa [bit_iff_rd_one (s := s) (f := F.LEG_ACT_RATIO n) rfl] using hratio), if_neg hratio]
    by_cases hclamp : s.rd (F.LEG_ACT_PER n) < s.rd (F.LEG_ACT_CMP n)
    · rw [if_pos hclamp, min_eq_right hclamp.le]
      exact ⟨s.clampTold n, rfl, ctrFrame_clampTold hn, leg_clampTold s n n, fun _ _ => cmpclamp_clampTold s n⟩
    · rw [if_neg hclamp, min_eq_left (by omega)]
      exact ⟨s, rfl, rfl, rfl, fun _ h => absurd h hclamp⟩

/-! The reload of a counter that plays its compare word (R220). -/

theorem cpwmDuty_of_frame {P : Nat → Prop} (h : ctrFrame P t = ctrFrame P s) (hper : P (F.LEG_ACT_PER n).addr) (hcmp : P (F.LEG_ACT_CMP n).addr) :
    t.cpwmDuty n = s.cpwmDuty n := by
  have hratio : t.rd (F.LEG_ACT_RATIO n) = s.rd (F.LEG_ACT_RATIO n) := ctrFrame.rd h hcmp
  rw [cpwmDuty, hratio, ctrFrame.rd h hper, ctrFrame.rd h hcmp, cpwmDuty]

/-- The leg as a reload at zero leaves it, but for its duty and its command: one that runs drives. -/
def zeroLeg (s : State) (n : Nat) : LegM := { s.reloadedLeg n with driving := s.legRuns n || (s.leg n).driving }

/-- A leg that runs takes part from here. -/
def driven (s : State) (n : Nat) : State := if s.legRuns n then s.setLeg n { s.leg n with driving := true } else s

theorem driven_reload (hn : n < 24) (hpend : (s.leg n).pend = none) :
    ctrFrame ReloadKeeps ((s.reload n).driven n) = ctrFrame ReloadKeeps s ∧ ((s.reload n).driven n).leg n = s.zeroLeg n := by
  obtain ⟨hframe, hleg⟩ := reload_quiet (s := s) hn hpend
  have hruns : (s.reload n).legRuns n = s.legRuns n :=
    legRuns_of_frame (ctrFrame.mono hframe fun _ ha => ha.1) hn (by rw [hleg]; rfl) (by rw [hleg]; rfl) (by rw [hleg]; rfl)
  rw [driven, hruns]
  cases hrun : s.legRuns n with
  | true =>
    rw [if_pos rfl, ctrFrame_setLeg, leg_setLeg_self, hleg, zeroLeg, hrun]
    exact ⟨hframe, rfl⟩
  | false =>
    rw [if_neg Bool.false_ne_true, hleg, zeroLeg, hrun]
    exact ⟨hframe, rfl⟩

theorem ctrReload_of_cpwm (hn : n < 24) (hmode : s.rd (F.LEG_MODE n) = 1) (hmach : s.machLeg n = false) (hpend : (s.leg n).pend = none) (sub : Nat) :
    ∃ t, s.ctrReload n sub false =
        (t.setLeg n { s.zeroLeg n with cUse := s.cpwmDuty n }).setCmd n
          (if s.rd (F.LEG_ACT_PER n) ≤ s.cpwmDuty n ∧ s.cpwmDuty n ≠ 0 then .hi else .lo) (16 * s.tick + sub) ∧
      ctrFrame ReloadKeeps t = ctrFrame ReloadKeeps s ∧
      (s.rd (F.LEG_ACT_RATIO n) = 0 → s.rd (F.LEG_ACT_PER n) < s.rd (F.LEG_ACT_CMP n) → t.rd (F.LEG_CMPCLAMP n) = 1) := by
  obtain ⟨hreload, -⟩ := reload_quiet (s := s) hn hpend
  have hrun : ctrFrame RunReg (s.reload n) = ctrFrame RunReg s := ctrFrame.mono hreload fun _ ha => ha.1
  have hmach' : (s.reload n).machReload n = s.reload n := machReload_of_not_machLeg ((machLeg_of_frame hrun hn).trans hmach)
  obtain ⟨hframe, hleg⟩ := driven_reload (s := s) hn hpend
  have hperKept : ReloadKeeps (F.LEG_ACT_PER n).addr := by
    simp [ReloadKeeps, F.LEG_ACT_PER]
  have hcmpKept : ReloadKeeps (F.LEG_ACT_CMP n).addr := by
    simp [ReloadKeeps, F.LEG_ACT_CMP]
  have hmodeKept : ReloadKeeps (F.LEG_MODE n).addr := by
    simp [ReloadKeeps, F.LEG_MODE]
  unfold ctrReload
  dsimp only
  rw [hmach', show (if (s.reload n).legRuns n = true then _ else s.reload n) = (s.reload n).driven n from rfl]
  generalize (s.reload n).driven n = u at hframe hleg
  rw [if_neg Bool.false_ne_true]
  have hmodeu : u.rd (F.LEG_MODE n) = 1 := (ctrFrame.rd hframe hmodeKept).trans hmode
  have hmachu : u.machLeg n = false := (machLeg_of_frame (ctrFrame.mono hframe fun _ ha => ha.1) hn).trans hmach
  obtain ⟨t, ht, htframe, htleg, hclamp⟩ := cpwmC_of_cpwm hn hmodeu hmachu sub
  have hall := htframe.trans hframe
  rw [ht]
  dsimp only
  have hper : (t.setLeg n { t.leg n with cUse := u.cpwmDuty n }).rd (F.LEG_ACT_PER n) = s.rd (F.LEG_ACT_PER n) :=
    ctrFrame.rd ((ctrFrame_setLeg t n _).trans hall) hperKept
  have hduty : u.cpwmDuty n = s.cpwmDuty n := cpwmDuty_of_frame hframe hperKept hcmpKept
  rw [hmodeu]
  refine ⟨t, ?_, hall, ?_⟩
  · rw [if_neg (by decide), if_neg Bool.false_ne_true, hper, hduty, htleg, hleg]
    exact congrArg (fun v => setCmd _ n v _) (if_congr (by simp) rfl rfl)
  · rwa [ctrFrame.rd hframe (f := F.LEG_ACT_RATIO n) hcmpKept, ctrFrame.rd hframe hperKept, ctrFrame.rd hframe hcmpKept] at hclamp

end
end State
end Sys2Proof.Machine
end

section
/-! SUPPORT. The counter at zero (R220, R221). -/

namespace Sys2Proof.Machine
namespace State

section
variable {s : State} {n : Nat}

/-- The leg whose counter reaches zero at the instant `t`. -/
def zeroedLeg (s : State) (n t : Nat) : LegM := { s.leg n with ctrFirst := false, up := true, cut := false, ctrPh := 0, ctrAt := t }

/-- The period that ends is counted, but the one before the counter's first zero. -/
def periodCounted (s : State) (n : Nat) : State := if (s.leg n).ctrFirst then s else s.wrap (F.LEG_PERCNT n)

/-- The counter at zero, before its reload: SYNC_OUT may follow it. -/
def zeroed (s : State) (n t : Nat) : State :=
  let u := (s.periodCounted n).setLeg n (s.zeroedLeg n t)
  if u.rd F.LEGX_OUTSRC = 2 && u.rd F.LEGX_OUTLEG = n then u.syncPulse else u

theorem ctrZero_of_cpwm {k : Nat} (hrun : s.ctrRuns n = true) (hz : (s.zeroed n (16 * s.tick + k)).rd (F.LEG_MODE n) = 1) :
    s.ctrZero n k = ((s.zeroed n (16 * s.tick + k)).ctrReload n k false).carrierEvent n (16 * s.tick + k)
      (2 * ((s.zeroed n (16 * s.tick + k)).ctrReload n k false).rd (F.LEG_ACT_PER n)) false := by
  rw [ctrZero, hrun, if_neg (by decide)]
  extract_lets +onlyGivenNames l now counted set z
  have hzero : s.zeroed n (16 * s.tick + k) = z := rfl
  rw [hzero] at hz ⊢
  clear_value z
  rw [fbEnds_of_cpwm hz true, if_neg Bool.false_ne_true, hz]
  rfl

theorem periodCounted_shown (s : State) (n : Nat) :
    (s.periodCounted n).rd (F.LEG_PERCNT n) =
      if (s.leg n).ctrFirst = true then s.rd (F.LEG_PERCNT n) else (s.rd (F.LEG_PERCNT n) + 1) % 2 ^ 32 := by
  unfold periodCounted
  split
  · rfl
  · exact rd_wrap_self s _ (by simp [F.LEG_PERCNT]) (by simp [F.LEG_PERCNT])

theorem ctrFrame_periodCounted (s : State) {n : Nat} (hn : n < 24) : ctrFrame RunReg (s.periodCounted n) = ctrFrame RunReg s := by
  unfold periodCounted
  split
  · rfl
  · exact ctrFrame_wrap s (by simp [RunReg, F.LEG_PERCNT]; omega)

theorem ctrFrame_setSyncOutAt {P : Nat → Prop} (s : State) (x : Option Nat) : ctrFrame P { s with syncOutAt := x } = ctrFrame P s := (rfl)

theorem ctrFrame_syncPulse (s : State) : ctrFrame RunReg s.syncPulse = ctrFrame RunReg s := by
  rw [syncPulse, ctrFrame_setSyncOutAt, ctrFrame_wrap s (by simp [RunReg, F.LEGX_SYNCOUT])]

/-- What the counter's arrival at zero leaves. -/
theorem zeroed_outcome (s : State) {n : Nat} (hn : n < 24) (t : Nat) :
    ctrFrame RunReg (s.zeroed n t) = ctrFrame RunReg s ∧ (s.zeroed n t).leg n = s.zeroedLeg n t ∧
      (s.zeroed n t).rd (F.LEG_PERCNT n) = (if (s.leg n).ctrFirst = true then s.rd (F.LEG_PERCNT n) else (s.rd (F.LEG_PERCNT n) + 1) % 2 ^ 32) := by
  have hframe : ctrFrame RunReg ((s.periodCounted n).setLeg n (s.zeroedLeg n t)) = ctrFrame RunReg s :=
    (ctrFrame_setLeg _ n _).trans (ctrFrame_periodCounted s hn)
  have hcnt : ((s.periodCounted n).setLeg n (s.zeroedLeg n t)).rd (F.LEG_PERCNT n) = (s.periodCounted n).rd (F.LEG_PERCNT n) := rfl
  have hleg := leg_setLeg_self (s.periodCounted n) n (s.zeroedLeg n t)
  rw [zeroed]
  rw [← periodCounted_shown, ← hcnt]
  generalize (s.periodCounted n).setLeg n (s.zeroedLeg n t) = u at hframe hleg
  obtain ⟨hrd, -, -, hlegs⟩ := u.syncPulse_outcome
  split
  · refine ⟨(ctrFrame_syncPulse u).trans hframe, (hlegs n).trans hleg, ?_⟩
    rw [hrd, rd_wrap_apart u (.inl (by simp only [F.LEG_PERCNT, F.LEGX_SYNCOUT]; omega))]
  · exact ⟨hframe, hleg, rfl⟩

/-! What the command that follows leaves. -/

theorem rd_setCmd (s : State) (k : Nat) (v : Lvl) (t : Nat) {f : Fld} (hf : ¬CellReg f.addr) : (s.setCmd k v t).rd f = s.rd f :=
  rd_of_regsIn (congrArg (fun x => x.1) (s.cellFrame_setCmd k v t)) hf

theorem cmpclamp_setCmd (s : State) (k : Nat) (v : Lvl) (t n : Nat) : (s.setCmd k v t).rd (F.LEG_CMPCLAMP n) = s.rd (F.LEG_CMPCLAMP n) :=
  congrFun (congrArg (fun x => x.2.1) (s.cellFrame_setCmd k v t)) n

/-- The period that begins at a zero of a leg that plays its compare word, with nothing pending. -/
theorem ctrZero_outcome (hn : n < 24) (k : Nat) (hrun : s.ctrRuns n = true) (hmode : s.rd (F.LEG_MODE n) = 1) (hmach : s.machLeg n = false)
    (hpend : (s.leg n).pend = none) (hcmp : s.enabled Pg.CMP = false) (hidle : s.noIdleDue n = true) :
    (s.ctrZero n k).mem = s.mem ∧ ((s.ctrZero n k).leg n).up = true ∧
      (s.ctrZero n k).rd (F.LEG_PERCNT n) = (if (s.leg n).ctrFirst = true then s.rd (F.LEG_PERCNT n) else (s.rd (F.LEG_PERCNT n) + 1) % 2 ^ 32) ∧
      ((s.ctrZero n k).leg n).cUse = s.cpwmDuty n ∧ ((s.ctrZero n k).leg n).ctrPh = 0 ∧ ((s.ctrZero n k).leg n).ctrAt = 16 * s.tick + k ∧
      ((s.ctrZero n k).leg n).modCmd =
        (if s.legRuns n = true then if s.rd (F.LEG_ACT_PER n) ≤ s.cpwmDuty n ∧ s.cpwmDuty n ≠ 0 then .hi else .lo else .off) ∧
      (s.rd (F.LEG_ACT_RATIO n) = 0 → s.rd (F.LEG_ACT_PER n) < s.rd (F.LEG_ACT_CMP n) → (s.ctrZero n k).rd (F.LEG_CMPCLAMP n) = 1) ∧
      (s.legRuns n = true → s.interlocked n = false → (s.leg n).refresh = false →
        ((s.ctrZero n k).leg n).cell = ((s.ctrZero n k).leg n).modCmd) := by
  have hper : RunReg (F.LEG_ACT_PER n).addr := by
    simp [RunReg, ReloadKeeps, F.LEG_ACT_PER]
    omega
  have hcmpw : RunReg (F.LEG_ACT_CMP n).addr := by
    simp [RunReg, ReloadKeeps, F.LEG_ACT_CMP]
    omega
  have hmodew : RunReg (F.LEG_MODE n).addr := by
    simp [RunReg, ReloadKeeps, F.LEG_MODE]
    omega
  obtain ⟨hframe, hleg, hcnt⟩ := s.zeroed_outcome hn (16 * s.tick + k)
  have hz : (s.zeroed n (16 * s.tick + k)).rd (F.LEG_MODE n) = 1 := (ctrFrame.rd hframe hmodew).trans hmode
  rw [ctrZero_of_cpwm hrun hz]
  generalize s.zeroed n (16 * s.tick + k) = z at hframe hleg hcnt hz
  have htick : z.tick = s.tick := ctrFrame.tick_eq hframe
  obtain ⟨t, ht, htframe, hclamp⟩ := ctrReload_of_cpwm hn hz ((machLeg_of_frame hframe hn).trans hmach) (by rw [hleg]; exact hpend) k
  rw [cpwmDuty_of_frame hframe hper hcmpw, ctrFrame.rd hframe hper, htick] at ht
  rw [ctrFrame.rd hframe (f := F.LEG_ACT_RATIO n) hcmpw, ctrFrame.rd hframe hper, ctrFrame.rd hframe hcmpw] at hclamp
  have hruns : z.legRuns n = s.legRuns n := legRuns_of_frame hframe hn (by rw [hleg]; rfl) (by rw [hleg]; rfl) (by rw [hleg]; rfl)
  generalize hq : t.setLeg n { z.zeroLeg n with cUse := s.cpwmDuty n } = q at ht
  have hqframe : ctrFrame RunReg q = ctrFrame RunReg s := by
    rw [← hq, ctrFrame_setLeg]
    exact (ctrFrame.mono htframe fun _ ha => ha.1).trans hframe
  have hqleg : q.leg n = { z.zeroLeg n with cUse := s.cpwmDuty n } := by rw [← hq, leg_setLeg_self]
  have hqcnt : q.rd (F.LEG_PERCNT n) = z.rd (F.LEG_PERCNT n) := by
    rw [← hq]
    exact (ctrFrame.rd htframe (by simp [ReloadKeeps, F.LEG_PERCNT]))
  have hqclamp : q.rd (F.LEG_CMPCLAMP n) = t.rd (F.LEG_CMPCLAMP n) := by
    rw [← hq]
    rfl
  have hqruns : q.legRuns n = s.legRuns n :=
    legRuns_of_frame hqframe hn (by rw [hqleg, zeroLeg, reloadedLeg, hleg]; rfl) (by rw [hqleg, zeroLeg, reloadedLeg, hleg]; rfl)
      (by rw [hqleg, zeroLeg, reloadedLeg, hleg]; rfl)
  have hqidle : q.noIdleDue n = true := by
    rw [noIdleDue_iff] at hidle ⊢
    rw [hqleg, zeroLeg, reloadedLeg, hleg, ctrFrame.tick_eq hqframe]
    exact hidle
  have hqhas : q.has (Pg.LEG n) = true := by
    rw [ctrFrame.has_eq hqframe]
    simp only [ctrRuns, Bool.and_eq_true] at hrun
    exact hrun.1.1
  have hquncut : (q.leg n).cut = false := by
    rw [hqleg, zeroLeg, reloadedLeg, hleg]
    rfl
  have hdrives : s.legRuns n = true → (q.leg n).driving = true := fun h => by rw [hqleg, zeroLeg, hruns, h, Bool.true_or]
  have hrefresh : (q.leg n).refresh = (s.leg n).refresh := by rw [hqleg, zeroLeg, reloadedLeg, hleg]; rfl
  have hlock : q.interlocked n = s.interlocked n := interlocked_of_frame hqframe (by rw [hqleg, zeroLeg, reloadedLeg, hleg]; rfl)
  generalize (if s.rd (F.LEG_ACT_PER n) ≤ s.cpwmDuty n ∧ s.cpwmDuty n ≠ 0 then Lvl.hi else .lo) = v at ht ⊢
  obtain ⟨hcmd, hcell⟩ := setCmd_of_noIdle hqhas hqidle ((enabled_of_frame hqframe (by decide)).trans hcmp) hquncut v (16 * s.tick + k)
  have hmem := (mem_setCmd q n v (16 * s.tick + k)).trans (ctrFrame.mem_eq hqframe)
  obtain ⟨hup, hph, hat, -, huse, -⟩ := carrier_fields (carrier_setCmd q n n v (16 * s.tick + k))
  have hwcnt := (rd_setCmd q n v (16 * s.tick + k) (f := F.LEG_PERCNT n) (by simp [CellReg, F.LEG_PERCNT]; omega)).trans (hqcnt.trans hcnt)
  have hwclamp := (cmpclamp_setCmd q n v (16 * s.tick + k) n).trans hqclamp
  rw [hqleg, zeroLeg, reloadedLeg, hleg] at hup hph hat huse
  rw [hqruns] at hcmd hcell
  rw [ht]
  generalize q.setCmd n v (16 * s.tick + k) = w at hcmd hcell hmem hup hph hat huse hwcnt hwclamp
  obtain ⟨b, hb⟩ := w.carrierEvent_eq n (16 * s.tick + k) (2 * w.rd (F.LEG_ACT_PER n)) false
  rw [hb]
  refine ⟨hmem, hup, hwcnt, huse, hph, hat, hcmd, fun hratio hlt => hwclamp.trans (hclamp hratio hlt), fun hr hfree hnone => ?_⟩
  rw [hr, if_pos rfl] at hcmd
  exact (hcell hr (hlock.trans hfree) (hdrives hr) (hrefresh.trans hnone)).trans hcmd.symm

end
end State
end Sys2Proof.Machine
end

section
/-! SUPPORT. The stage that a reload transfers (R225, R226), and what follows a reload without touching it. -/

namespace Sys2Proof.Machine

/-- The active registers of the legs, DTAGE among them, their PEND and their MODE. -/
def StageReg (a : Nat) : Prop := 0x20000 ≤ a ∧ a < 0x38000 ∧ (a % 0x1000 = 0x20 ∨ a % 0x1000 = 0x40 ∨ 0x80 ≤ a % 0x1000 ∧ a % 0x1000 < 0xA0)

namespace State

/-- What the legs hold pending, and what is in force. -/
def stage (s : State) : ({a // StageReg a} → Word) × (Nat → Option Shadow) := (regsIn StageReg s, fun n => (s.leg n).pend)

section
variable (s : State)

theorem stage_wr {f : Fld} (v : Nat) (h : ¬StageReg f.addr) : stage (s.wr f v) = stage s := Prod.ext (regsIn_setReg s _ h) rfl
theorem stage_wrF {f : Fld} (v : F32) (h : ¬StageReg f.addr) : stage (s.wrF f v) = stage s := Prod.ext (regsIn_setReg s _ h) rfl
theorem stage_setBit {f : Fld} (b : Bool) (h : ¬StageReg f.addr) : stage (s.setBit f b) = stage s := stage_wr s _ h
theorem stage_sat {f : Fld} (h : ¬StageReg f.addr) : stage (s.sat f) = stage s := stage_wr s _ h
theorem stage_latch {f : Fld} (h : ¬StageReg f.addr) : stage (s.latch f) = stage s := Prod.ext (regsIn_setReg s _ h) rfl
/-- An update of parts other than the registers and the legs. -/
theorem stage_upd (variant : Variant) (phase : Phase) (tmode : Bool) (hwSet : SMap Word) (mem : List Host.Cell) (chk : SMap Byte) (valid : SMap Bool)
    (clk : ClkM) (time : TimeM) (boot : BootM) (keep : KeepM) (sec : SecM) (age : AgeM) (hif : HifM) (alm : AlmM) (leng : LengM) (mtr : MtrM)
    (net : NetM) (flt : SMap FltRec) (jrnl : JrnlM) (ecc : EccM) (mode : ModeM) (safe : SafeM) (ids : SMap IdM) (grids : SMap GridM)
    (chs : SMap ChM) (forms : SMap FormM) (dcs : SMap DcM) (isl : IslM) (ride : RideM) (subsSeen : Nat) (syncAt syncOutAt : Option Nat)
    (mach : MachM) (mods : SMap ModIn) (blks : SMap ModBlk) (padc : SMap PadcM) (cmps : SMap CmpM) (ramps : SMap RampM)
    (stRun : Option SelfTest) (stWait : List (Nat × Bool)) (trips : SMap TripM) (gdos : SMap GdoM) (free tick : Nat) (pending : List Instr) :
    stage (State.mk variant phase tmode s.regs hwSet mem chk valid clk time boot keep sec age hif alm leng mtr net flt jrnl ecc mode safe s.legs ids
      grids chs forms dcs isl ride subsSeen syncAt syncOutAt mach mods blks padc cmps ramps stRun stWait trips gdos free tick pending) = stage s := (rfl)

theorem stage_setCh (c : Nat) (m : ChM) : stage (s.setCh c m) = stage s := (rfl)
theorem stage_fresh : stage s.fresh = stage s := (rfl)
theorem stage_rnd (x : Rat) : stage (s.rnd x).2 = stage s := (rfl)

theorem stage_root (x : Rat) : stage (s.root x).2 = stage s := by
  unfold root
  split <;> rfl

theorem stage_setLeg {n : Nat} {l : LegM} (h : l.pend = (s.leg n).pend) : stage (s.setLeg n l) = stage s := by
  refine Prod.ext rfl (funext fun m => ?_)
  by_cases hm : m = n
  · rw [hm]
    exact (congrArg LegM.pend (leg_setLeg_self s n l)).trans h
  · exact congrArg LegM.pend (leg_setLeg_ne s l hm)

theorem stage_iraw {pg : Nat} (b : Nat) (v : Bool) (hraw : ¬StageReg (pg + 0x10)) (hflg : ¬StageReg (pg + 0x18)) :
    stage (s.iraw pg b v) = stage s := by
  unfold iraw
  dsimp only
  rw [stage_setBit _ _ hraw]
  split
  · exact stage_latch s hflg
  · rfl

theorem stage_ipulse_mach (b : Nat) : stage (s.ipulse Pg.MACH b) = stage s := by
  have hraw : ¬StageReg (Pg.MACH + 0x10) := by simp [StageReg, Pg.MACH]
  have hflg : ¬StageReg (Pg.MACH + 0x18) := by simp [StageReg, Pg.MACH]
  rw [ipulse, stage_iraw _ _ _ hraw hflg, stage_iraw _ _ _ hraw hflg, stage_iraw _ _ _ hraw hflg]

theorem stage_setCmd (k : Nat) (v : Lvl) (t : Nat) : stage (s.setCmd k v t) = stage s := by
  have hframe := s.cellFrame_setCmd k v t
  refine Prod.ext (funext fun ⟨a, ha⟩ => ?_) (funext fun n => ?_)
  · have hfree : ¬CellReg a := by
      simp only [StageReg, CellReg, List.mem_cons, List.not_mem_nil, or_false] at ha ⊢
      omega
    exact congrFun (congrArg (fun x => x.1) hframe) ⟨a, hfree⟩
  · obtain ⟨-, -, -, -, -, hpend⟩ := carrier_fields (congrFun (congrArg (fun x => x.2.2.1) hframe) n)
    exact hpend

theorem stage_foldl_snd {α β : Type} (l : List α) (f : β × State → α → β × State) (h : ∀ p x, stage (f p x).2 = stage p.2) (p : β × State) :
    stage (l.foldl f p).2 = stage p.2 := by
  induction l generalizing p with
  | nil => rfl
  | cons x l ih => rw [List.foldl_cons, ih, h]

theorem stage_setMach (m : MachM) : stage { s with mach := m } = stage s := (rfl)

theorem stage_svm (c n : Nat) : stage (s.svm c n) = stage s := by
  unfold svm
  dsimp only
  rw [stage_setMach, stage_setBit _ _ (by simp [StageReg, F.MACH_VBAD]), stage_setBit _ _ (by simp [StageReg, F.MACH_VSAT])]
  refine (stage_foldl_snd _ _ ?_ _).trans ?_
  · intro p x
    dsimp only
    rw [stage_rnd]
  simp only [apply_ite stage, apply_ite Prod.snd, stage_root, stage_rnd, ite_self]

theorem stage_machLimits (c n : Nat) : stage (s.machLimits c n) = stage s := by
  unfold machLimits
  dsimp only
  rw [stage_setMach, stage_wrF _ _ (by simp [StageReg, F.CH_COMM]; omega), stage_wrF _ _ (by simp [StageReg, F.CH_COMM]; omega),
    stage_wrF _ _ (by simp [StageReg, F.CH_COMM])]
  simp only [apply_ite stage, apply_ite Prod.snd, stage_ipulse_mach, ite_self]
  rw [stage_wrF _ _ (by simp [StageReg, F.MACH_CQ]), stage_wrF _ _ (by simp [StageReg, F.MACH_IDFW]),
    stage_setBit _ _ (by simp [StageReg, F.MACH_SPDCEIL]), stage_setBit _ _ (by simp [StageReg, F.MACH_FWLIM])]
  have hrsnq (u : State) (v : Nat) : stage (u.wr (F.CH_RSNQ c) v) = stage u := stage_wr u v (by simp [StageReg, F.CH_RSNQ])
  simp only [apply_ite stage, hrsnq, stage_root, stage_rnd, stage_fresh, ite_self]

theorem stage_machReload (n : Nat) : stage (s.machReload n) = stage s := by
  rw [machReload]
  split
  · rw [stage_machLimits, stage_svm]
  · rfl

theorem stage_machShift (n per cc now : Nat) : stage (s.machShift n per cc now) = stage s := by
  rw [machShift]
  split
  · rw [stage_ipulse_mach, stage_sat _ (by simp [StageReg, F.MACH_TWMISS])]
    exact stage_setLeg s rfl
  · dsimp only
    split
    · exact stage_setLeg s rfl
    · rw [stage_sat _ (by simp [StageReg, F.MACH_SHIFTCNT])]
      exact stage_setLeg s rfl

theorem stage_clampTold (n : Nat) : stage (s.clampTold n) = stage s := by
  rw [clampTold, stage_iraw _ _ _ (by simp [StageReg, Pg.LEG]; omega) (by simp [StageReg, Pg.LEG]; omega),
    stage_sat _ (by simp [StageReg, F.LEG_CLAMPCNT]), stage_latch _ (by simp [StageReg, F.LEG_CMPCLAMP])]

theorem stage_driven (n : Nat) : stage (s.driven n) = stage s := by
  rw [driven]
  split
  · exact stage_setLeg s rfl
  · rfl

theorem stage_cpwmC {n : Nat} (hmode : s.rd (F.LEG_MODE n) = 1) (k : Nat) : stage (s.cpwmC n k).2 = stage s := by
  rw [cpwmC, hmode, if_neg (by decide)]
  split
  · split
    · rfl
    · exact stage_machShift s n _ _ _
  · split
    · rfl
    · split
      · exact stage_clampTold s n
      · rfl

end

section
variable {s t : State} {n : Nat}

theorem reg_of_stage (h : stage t = stage s) {a : Nat} (ha : StageReg a) : t.reg a = s.reg a :=
  reg_of_regsIn (congrArg (fun x => x.1) h) ha

theorem pend_of_stage (h : stage t = stage s) (n : Nat) : (t.leg n).pend = (s.leg n).pend := congrFun (congrArg (fun x => x.2) h) n

theorem mode_of_stage (hn : n < 24) (h : stage t = stage s) : t.rd (F.LEG_MODE n) = s.rd (F.LEG_MODE n) :=
  rd_of_regsIn (congrArg (fun x => x.1) h) (by simp [StageReg, F.LEG_MODE]; omega)

/-- A reload of a counter that plays its duty transfers what `reload` transfers. -/
theorem stage_ctrReload (hn : n < 24) (k : Nat) (hmode : (s.reload n).rd (F.LEG_MODE n) = 1) :
    stage (s.ctrReload n k false) = stage (s.reload n) := by
  have hmode' : (((s.reload n).machReload n).driven n).rd (F.LEG_MODE n) = 1 := by
    rw [mode_of_stage hn ((stage_driven _ n).trans (stage_machReload _ n)), hmode]
  unfold ctrReload
  dsimp only
  rw [show (if ((s.reload n).machReload n).legRuns n = true then _ else (s.reload n).machReload n) = ((s.reload n).machReload n).driven n from rfl]
  rw [← stage_machReload (s.reload n) n, ← stage_driven ((s.reload n).machReload n) n]
  generalize ((s.reload n).machReload n).driven n = u at hmode' ⊢
  rw [if_neg Bool.false_ne_true]
  have hduty := stage_cpwmC u hmode' k
  generalize u.cpwmC n k = r at hduty ⊢
  obtain ⟨_ | c, v⟩ := r
  · rw [hmode']
    dsimp only
    rw [if_neg (by decide), stage_setCmd, ← hduty]
    exact stage_setLeg v rfl
  · rw [hmode']
    dsimp only
    rw [if_neg (by decide), stage_setCmd, ← hduty]
    exact stage_setLeg v rfl

/-- Leg `n` holds nothing pending, and `h` is in force with the dead-time addition `d`. -/
structure Transferred (t : State) (n : Nat) (h : Shadow) (d : Nat) : Prop where
  pend : (t.leg n).pend = none
  told : t.rd (F.PEND (Pg.LEG n)) = 0
  per : t.reg (0x20080 + 0x1000 * n) = h.per
  ton : t.reg (0x20084 + 0x1000 * n) = h.ton
  toff : t.reg (0x20088 + 0x1000 * n) = h.toff
  cmp : t.reg (0x2008C + 0x1000 * n) = h.cmp
  dtr : t.reg (0x20090 + 0x1000 * n) = h.dtr
  dtf : t.reg (0x20094 + 0x1000 * n) = h.dtf
  iref : t.reg (0x20098 + 0x1000 * n) = h.iref
  dtage : t.rd (F.LEG_DTAGE n) = d

/-- Only the stage tells. -/
theorem Transferred.of_stage {h : Shadow} {d : Nat} (hs : Transferred s n h d) (hn : n < 24) (ht : stage t = stage s) : Transferred t n h d := by
  have hreg {o : Nat} (ho : o = 0x20 ∨ 0x80 ≤ o ∧ o < 0xA0) : StageReg (0x20000 + o + 0x1000 * n) := by
    unfold StageReg
    omega
  have hrd {f : Fld} := rd_of_regsIn (f := f) (congrArg (fun x => x.1) ht)
  exact
    { pend := (pend_of_stage ht n).trans hs.pend
      told := (hrd (by simp [StageReg, F.PEND, Pg.LEG]; omega)).trans hs.told
      per := (reg_of_stage ht (hreg (o := 0x80) (by omega))).trans hs.per
      ton := (reg_of_stage ht (hreg (o := 0x84) (by omega))).trans hs.ton
      toff := (reg_of_stage ht (hreg (o := 0x88) (by omega))).trans hs.toff
      cmp := (reg_of_stage ht (hreg (o := 0x8C) (by omega))).trans hs.cmp
      dtr := (reg_of_stage ht (hreg (o := 0x90) (by omega))).trans hs.dtr
      dtf := (reg_of_stage ht (hreg (o := 0x94) (by omega))).trans hs.dtf
      iref := (reg_of_stage ht (hreg (o := 0x98) (by omega))).trans hs.iref
      dtage := (hrd (hreg (o := 0x9C) (by omega))).trans hs.dtage }

theorem stage_chDone (s : State) (n : Nat) : stage (s.chDone n) = stage s := by
  refine each_view stage 8 _ (fun u c hc => ?_) s
  dsimp only
  split
  · rw [stage_setBit _ _ (by simp [StageReg, F.PEND, Pg.CH]; omega), stage_setCh]
  · rfl

theorem reg_shadowTo_ne (s : State) (h : Shadow) {a : Nat} (ha : a < Pg.LEG n + 0x80 ∨ Pg.LEG n + 0x9C ≤ a) : (s.shadowTo n h).reg a = s.reg a := by
  unfold shadowTo
  dsimp only
  iterate 7 rw [reg_setReg_ne _ _ (by omega)]

theorem rd_shadowTo_ne (s : State) (h : Shadow) {f : Fld} (hf : f.addr < Pg.LEG n + 0x80 ∨ Pg.LEG n + 0x9C ≤ f.addr) :
    (s.shadowTo n h).rd f = s.rd f := by
  rw [rd, reg_shadowTo_ne s h hf, rd]

theorem leg_setReg (s : State) (a : Nat) (w : Word) (m : Nat) : (s.setReg a w).leg m = s.leg m := (rfl)

theorem leg_shadowTo (s : State) (n m : Nat) (h : Shadow) : (s.shadowTo n h).leg m = s.leg m := by
  simp only [shadowTo, leg_setReg]

/-- What a reload shows is no active register but DTAGE. -/
theorem reg_reloadShow (s t : State) {o : Nat} (ho : 0x80 ≤ o) (ho' : o < 0x9C) : (s.reloadShow t n).reg (0x20000 + o + 0x1000 * n) = t.reg (Pg.LEG n + o) := by
  have haddr : 0x20000 + o + 0x1000 * n = Pg.LEG n + o := by
    simp only [Pg.LEG]
    omega
  rw [reloadShow, setBit, reg_wr_ne _ _ _ (by simp only [F.PEND, Pg.LEG]; omega), wrF, reg_wr_ne _ _ _ (by simp only [F.LEG_LOSTVS]; omega),
    reg_wr_ne _ _ _ (by simp only [F.LEG_DTAGE]; omega), haddr]

/-- A reload transfers the stage that was pending. -/
theorem transferred_reload (hn : n < 24) {h : Shadow} (hpend : (s.leg n).pend = some h) (hcm : (s.leg n).cmTick ≠ some s.tick) :
    Transferred (s.reload n) n h (s.rd F.AGE_DTAGE) := by
  rw [reload_of_stage hpend hcm]
  refine Transferred.of_stage ?_ hn (stage_chDone _ n)
  have hage : ((s.setLeg n (s.reloadedLeg n)).shadowTo n h).rd F.AGE_DTAGE = s.rd F.AGE_DTAGE :=
    rd_shadowTo_ne _ _ (.inl (by simp only [F.AGE_DTAGE, Pg.LEG]; omega))
  have hleg := (leg_shadowTo (s.setLeg n (s.reloadedLeg n)) n n h).trans (leg_setLeg_self s n (s.reloadedLeg n))
  have hword := fun {o : Nat} => reg_reloadShow (n := n) (o := o) s ((s.setLeg n (s.reloadedLeg n)).shadowTo n h)
  refine ⟨?_, ?_, ?_, ?_, ?_, ?_, ?_, ?_, ?_, ?_⟩
  · rw [leg_reloadShow, hleg]
    rfl
  · rw [reloadShow, rd_setBit_self _ _ rfl (by simp [F.PEND]), if_neg Bool.false_ne_true]
  · rw [hword (o := 0x80) (by decide) (by decide)]
    simp [shadowTo, reg_setReg_ne]
  · rw [hword (o := 0x84) (by decide) (by decide)]
    simp [shadowTo, reg_setReg_ne]
  · rw [hword (o := 0x88) (by decide) (by decide)]
    simp [shadowTo, reg_setReg_ne]
  · rw [hword (o := 0x8C) (by decide) (by decide)]
    simp [shadowTo, reg_setReg_ne]
  · rw [hword (o := 0x90) (by decide) (by decide)]
    simp [shadowTo, reg_setReg_ne]
  · rw [hword (o := 0x94) (by decide) (by decide)]
    simp [shadowTo, reg_setReg_ne]
  · rw [hword (o := 0x98) (by decide) (by decide)]
    simp [shadowTo]
  · rw [reloadShow, setBit, rd_wr_ne _ _ _ _ (by simp only [F.PEND, F.LEG_DTAGE, Pg.LEG]; omega), wrF,
      rd_wr_ne _ _ _ _ (by simp only [F.LEG_LOSTVS, F.LEG_DTAGE]; omega), rd_wr_self _ _ _ (by simp [F.LEG_DTAGE]) (by simp [F.LEG_DTAGE]), hage]
    exact Nat.mod_eq_of_lt ((s.rd_lt F.AGE_DTAGE).trans (by simp [Fld.width, F.LEG_DTAGE, F.AGE_DTAGE]))

theorem rd_setLeg (s : State) (n : Nat) (l : LegM) (f : Fld) : (s.setLeg n l).rd f = s.rd f := (rfl)

theorem mode_reloadShow (s t : State) (n : Nat) : (s.reloadShow t n).rd (F.LEG_MODE n) = t.rd (F.LEG_MODE n) := by
  rw [reloadShow, setBit, rd_wr_ne _ _ _ _ (by simp only [F.PEND, F.LEG_MODE, Pg.LEG]; omega), wrF,
    rd_wr_ne _ _ _ _ (by simp only [F.LEG_LOSTVS, F.LEG_MODE]; omega), rd_wr_ne _ _ _ _ (by simp only [F.LEG_DTAGE, F.LEG_MODE]; omega)]

theorem mode_reload_of_stage (hn : n < 24) {h : Shadow} (hpend : (s.leg n).pend = some h) (hcm : (s.leg n).cmTick ≠ some s.tick) :
    (s.reload n).rd (F.LEG_MODE n) = s.rd (F.LEG_MODE n) := by
  rw [reload_of_stage hpend hcm, mode_of_stage hn (stage_chDone _ n), mode_reloadShow,
    rd_shadowTo_ne _ _ (.inl (by simp only [F.LEG_MODE, Pg.LEG]; omega)), rd_setLeg]

theorem stage_setBlks (s : State) (x : SMap ModBlk) : stage { s with blks := x } = stage s := (rfl)

/-- A stage that is pending when the counter reaches zero is in force after it. -/
theorem transferred_ctrZero (hn : n < 24) (k : Nat) (hrun : s.ctrRuns n = true) (hmode : s.rd (F.LEG_MODE n) = 1) {h : Shadow}
    (hpend : (s.leg n).pend = some h) (hcm : (s.leg n).cmTick ≠ some s.tick) : Transferred (s.ctrZero n k) n h (s.rd F.AGE_DTAGE) := by
  obtain ⟨hframe, hleg, -⟩ := s.zeroed_outcome hn (16 * s.tick + k)
  have hz : (s.zeroed n (16 * s.tick + k)).rd (F.LEG_MODE n) = 1 :=
    (ctrFrame.rd hframe (by simp [RunReg, ReloadKeeps, F.LEG_MODE]; omega)).trans hmode
  rw [ctrZero_of_cpwm hrun hz]
  have hage : (s.zeroed n (16 * s.tick + k)).rd F.AGE_DTAGE = s.rd F.AGE_DTAGE := ctrFrame.rd hframe (by simp [RunReg, ReloadKeeps, F.AGE_DTAGE])
  generalize s.zeroed n (16 * s.tick + k) = z at hframe hleg hz hage
  have hzpend : (z.leg n).pend = some h := by rw [hleg, zeroedLeg, hpend]
  have hzcm : (z.leg n).cmTick ≠ some z.tick := by rwa [hleg, zeroedLeg, ctrFrame.tick_eq hframe]
  have hreload := stage_ctrReload hn k ((mode_reload_of_stage hn hzpend hzcm).trans hz)
  generalize z.ctrReload n k false = w at hreload
  obtain ⟨x, hx⟩ := w.carrierEvent_eq n (16 * s.tick + k) (2 * w.rd (F.LEG_ACT_PER n)) false
  rw [hx]
  have htransferred := transferred_reload hn hzpend hzcm
  rw [hage] at htransferred
  exact htransferred.of_stage hn ((stage_setBlks w x).trans hreload)

end
end State
end Sys2Proof.Machine
end

section
/-! O42: commits and the carrier (R136, R201, R220, R221, R225, R226, R229, R230). -/
namespace Sys2Proof.Machine
open State
open Host

theorem exec_legCommit_outcome {n : Fin 24} {v : Word} {s u : State} (hturn : s.turn (Pg.LEG n + 0x20) ((F.COMMIT (Pg.LEG n)).put v 1) = some u)
    (hp : u.has (Pg.LEG n) = true) :
    ∃ t, exec (.legCommit n v) s = .next t ∧ (t.leg n).pend = some (u.shadowOf n) ∧ t.rd (F.PEND (Pg.LEG n)) = 1 ∧
      (if (u.leg n).rlTick = some u.tick ∧ (u.leg n).cmTick ≠ some u.tick then
        t.rd (F.LEG_LATE n) = 1 ∧ t.rd (F.LEG_LATECNT n) = min (u.rd (F.LEG_LATECNT n) + 1) 65535 ∧ t.mem = u.mem
       else RestKept [Pg.LEG n + 0x20] u t) :=
  ⟨(u.legCommit n).settle, exec_legCommit hturn hp, legCommit_outcome u n⟩

theorem onlyRegs_of_legs {s u : State} (h : u = { s with legs := u.legs }) (x : SMap ModBlk) :
    OnlyRegs [] { s with legs := u.legs, blks := x } { u with blks := x } := by
  generalize u.legs = l at h ⊢
  subst h
  exact OnlyRegs.refl _ _

theorem exec_cpwmPeak_outcome {n : Fin 24} (b : Fin 16) {s : State} (hrun : s.ctrRuns n = true) (hup : (s.leg n).up = true) (hrld : s.rd (F.LEG_RLDPK n) = 0)
    (hmode : s.rd (F.LEG_MODE n) = 1) :
    ∃ t, exec (.cpwmPeak n b) s = .next t ∧ (t.leg n).up = false ∧ (t.leg n).ctrPh = s.rd (F.LEG_ACT_PER n) ∧ (t.leg n).ctrAt = 16 * s.tick + b ∧
      (t.leg n).pend = (s.leg n).pend ∧ (t.leg n).modCmd = (s.leg n).modCmd ∧ OnlyRegs [] { s with legs := t.legs, blks := t.blks } t := by
  have hexec : exec (.cpwmPeak n b) s = .next (s.ctrPeak n b) := (rfl)
  rw [hexec, ctrPeak_of_turn hrun hup hrld hmode]
  generalize hu : s.setLeg n { s.leg n with up := false, ctrPh := s.rd (F.LEG_ACT_PER n), ctrAt := 16 * s.tick + b } = u
  have hleg : u.leg n = { s.leg n with up := false, ctrPh := s.rd (F.LEG_ACT_PER n), ctrAt := 16 * s.tick + b } := by
    rw [← hu, leg_setLeg_self]
  have hrest : u = { s with legs := u.legs } := by
    rw [← hu]
    rfl
  obtain ⟨x, hx⟩ := u.carrierEvent_eq n (16 * s.tick + b) (2 * s.rd (F.LEG_ACT_PER n)) true
  rw [hx]
  have hlegx : ({ u with blks := x } : State).leg n = u.leg n := rfl
  refine ⟨_, rfl, ?_⟩
  rw [hlegx, hleg]
  exact ⟨rfl, rfl, rfl, rfl, rfl, onlyRegs_of_legs hrest x⟩

theorem exec_cpwmCounterZero_quiet {n : Fin 24} (b : Fin 16) {s : State} (hrun : s.ctrRuns n = true) (hmode : s.rd (F.LEG_MODE n) = 1) (hmach : s.machLeg n = false)
    (hpend : (s.leg n).pend = none) (hcmp : s.enabled Pg.CMP = false) (hidle : s.noIdleDue n = true) :
    ∃ t, exec (.cpwmCounterZero n b) s = .next t ∧ t.mem = s.mem ∧ (t.leg n).up = true ∧
      t.rd (F.LEG_PERCNT n) = (if (s.leg n).ctrFirst = true then s.rd (F.LEG_PERCNT n) else (s.rd (F.LEG_PERCNT n) + 1) % 2 ^ 32) ∧
      (t.leg n).cUse = (if s.rd (F.LEG_ACT_RATIO n) = 1 then s.rd (F.LEG_ACT_CMP n) % 65536 * s.rd (F.LEG_ACT_PER n) / 65536
        else min (s.rd (F.LEG_ACT_CMP n)) (s.rd (F.LEG_ACT_PER n))) ∧
      (t.leg n).ctrPh = 0 ∧ (t.leg n).ctrAt = 16 * s.tick + b ∧
      (t.leg n).modCmd = (if s.legRuns n = false then .off else if s.rd (F.LEG_ACT_PER n) ≤ (t.leg n).cUse ∧ (t.leg n).cUse ≠ 0 then .hi else .lo) ∧
      (s.rd (F.LEG_ACT_RATIO n) = 0 → s.rd (F.LEG_ACT_PER n) < s.rd (F.LEG_ACT_CMP n) → t.rd (F.LEG_CMPCLAMP n) = 1) ∧
      (s.legRuns n = true → s.interlocked n = false → (s.leg n).refresh = false → (t.leg n).cell = (t.leg n).modCmd) := by
  obtain ⟨hmem, hup, hcnt, huse, hph, hat, hcmd, hclamp, hcell⟩ := ctrZero_outcome n.isLt b hrun hmode hmach hpend hcmp hidle
  refine ⟨s.ctrZero n b, (rfl), hmem, hup, hcnt, huse, hph, hat, ?_, hclamp, hcell⟩
  rw [hcmd, huse]
  cases s.legRuns n <;> rfl

theorem exec_cpwmCounterZero_pending {n : Fin 24} (b : Fin 16) {h : Shadow} {s : State} (hrun : s.ctrRuns n = true) (hmode : s.rd (F.LEG_MODE n) = 1)
    (hpend : (s.leg n).pend = some h) (hcm : (s.leg n).cmTick ≠ some s.tick) :
    ∃ t, exec (.cpwmCounterZero n b) s = .next t ∧ Transferred t n h (s.rd F.AGE_DTAGE) :=
  ⟨s.ctrZero n b, (rfl), transferred_ctrZero n.isLt b hrun hmode hpend hcm⟩

theorem exec_cpwmCompareEdge_outcome {n : Fin 24} {s : State} (hrun : s.ctrRuns n = true) (hpos : 0 < (s.leg n).cUse) (hlt : (s.leg n).cUse < s.rd (F.LEG_ACT_PER n))
    (huncut : (s.leg n).cut = false) (hcmp : s.enabled Pg.CMP = false) (hshift : (s.leg n).shift = 0) (hidle : s.noIdleDue n = true) :
    ∃ t, exec (.cpwmCompareEdge n) s = .next t ∧ t.mem = s.mem ∧
      (t.leg n).modCmd = (if s.legRuns n = false then .off else if (s.leg n).up = true then .hi else .lo) := by
  have hp : s.has (Pg.LEG n) = true := by
    simp only [ctrRuns, Bool.and_eq_true] at hrun
    exact hrun.1.1
  obtain ⟨hcmd, -⟩ := setCmd_of_noIdle hp hidle hcmp huncut (if (s.leg n).up then .hi else .lo) (16 * s.tick)
  refine ⟨s.ctrEdge n, (rfl), ?_, ?_⟩
  · rw [ctrEdge_of_unshifted hrun hpos hlt hshift, mem_setCmd]
  · rw [ctrEdge_of_unshifted hrun hpos hlt hshift, hcmd]
    cases s.legRuns n <;> rfl

theorem exec_channelCommit_outcome (c : Fin 8) (v : Word) (s : State) (hp : s.has (Pg.CH c) = true) :
    (∃ t, exec (.channelCommit c false v) s = .next t ∧ t.mem = s.mem ∧
      (∀ k, k < 16 → s.grantSlot c k = false → t.reg (F.CH_COMM c k).addr = s.reg (F.CH_SLOT c k).addr) ∧
      (∀ n ∈ s.legsOf c, (t.leg n).pend = some (s.shadowOf n) ∧ t.rd (F.PEND (Pg.LEG n)) = 1)) ∧
    (∀ u : State, u.turn (Pg.CH c + 0x20) ((F.COMMIT (Pg.CH c)).put v 1) = some s →
      ∃ t, exec (.channelCommit c false v) s = .next t ∧ exec (.channelCommit c true v) u = .next t.settle) :=
  ⟨⟨s.chCommit c, exec_channelCommit_engine v hp, chCommit_outcome s c.isLt⟩,
    fun _ hturn => ⟨s.chCommit c, exec_channelCommit_engine v hp, exec_channelCommit_host hturn hp⟩⟩

theorem exec_syncInEdge_outcome {b : Bool} {s : State} (hen : s.rd F.LEGX_INEN = 1) (hpol : b = s.bit F.LEGX_INPOL)
    (hfar : ∀ k, s.syncAt = some k → 100 ≤ s.tick - k) :
    ∃ t, exec (.syncInEdge b) s = .next t ∧ t.syncAt = some s.tick ∧ t.rd F.LEGX_SYNCIN = (s.rd F.LEGX_SYNCIN + 1) % 65536 ∧ t.mem = s.mem ∧
      t.rd F.LEGX_SYNCOUT = (if s.rd F.LEGX_OUTSRC = 3 then (s.rd F.LEGX_SYNCOUT + 1) % 65536 else s.rd F.LEGX_SYNCOUT) ∧
      ∀ n, n < 24 → s.rdBit F.LEGX_SYNCMASK n = true → s.rd (F.LEG_MODE n) = 1 → t.leg n = { s.leg n with syncLoad := some (16 * s.tick + 192) } := by
  obtain ⟨hat, hin, hmem, hout, hleg⟩ := syncIn_of_accepted hen hpol hfar
  exact ⟨s.syncIn b, (rfl), hat, hin, hmem, hout, fun n hn hmask hmode => hleg n hn (by rw [syncTakes, hmask, hmode]; rfl)⟩

/-- Settles O42: a commit, a zero, a peak, a compare edge and an edge of SYNC_IN, each by what its own function leaves. -/
theorem commitsAndCarrier : Obligations.CommitsAndCarrier := by
  unfold Obligations.CommitsAndCarrier
  refine ⟨fun n v s u hturn hp => exec_legCommit_outcome hturn hp, exec_channelCommit_outcome,
    fun n b s hrun hmode hmach hpend hcmp hidle => exec_cpwmCounterZero_quiet b hrun hmode hmach hpend hcmp hidle, fun n b h s hrun hmode hpend hcm => ?_,
    fun n b s hrun hup hrld hmode => exec_cpwmPeak_outcome b hrun hup hrld hmode, fun n b s hrun => ?_,
    fun n s hrun hpos hlt huncut hcmp hshift hidle => exec_cpwmCompareEdge_outcome hrun hpos hlt huncut hcmp hshift hidle,
    fun b s hen hpol hfar => exec_syncInEdge_outcome hen hpol hfar,
    fun n k s hload => ⟨fun hk => syncDue_of_early hload hk, fun hk hrun hmode => syncDue_loaded hload hk hrun hmode⟩, fun b s hrefused => ?_⟩
  · obtain ⟨t, hexec, ht⟩ := exec_cpwmCounterZero_pending b hrun hmode hpend hcm
    exact ⟨t, hexec, ht.pend, ht.told, ht.per, ht.ton, ht.toff, ht.cmp, ht.dtr, ht.dtf, ht.iref, ht.dtage⟩
  · exact ⟨congrArg Outcome.next (ctrZero_of_stopped hrun b), congrArg Outcome.next (ctrPeak_of_stopped hrun b),
      congrArg Outcome.next (ctrEdge_of_stopped hrun)⟩
  · exact congrArg Outcome.next (syncIn_of_refused hrefused)

end Sys2Proof.Machine
end

section
/-! SUPPORT. The write buffer and the bound of the journal queue are left as they are by the records, the registers, the parts of a unit, the journal and the faults. -/

namespace Sys2Proof.Machine
namespace State

/-- The words of the write buffer, and whether the journal queue keeps its bound. -/
def queues (s : State) : List BufWord × Prop := (s.hif.buf, s.JrnlBound)

section
variable (s : State)

/-- An update of the other parts keeps them. -/
@[simp] theorem queues_upd (variant : Variant) (phase : Phase) (tmode : Bool) (regs : SMap Word) (hwSet : SMap Word) (mem : List Host.Cell)
    (chk : SMap Byte) (valid : SMap Bool) (clk : ClkM) (time : TimeM) (boot : BootM) (keep : KeepM) (sec : SecM) (age : AgeM) (alm : AlmM)
    (leng : LengM) (mtr : MtrM) (net : NetM) (flt : SMap FltRec) (ecc : EccM) (mode : ModeM) (safe : SafeM) (legs : SMap LegM)
    (ids : SMap IdM) (grids : SMap GridM) (chs : SMap ChM) (forms : SMap FormM) (dcs : SMap DcM) (isl : IslM) (ride : RideM)
    (subsSeen : Nat) (syncAt syncOutAt : Option Nat) (mach : MachM) (mods : SMap ModIn) (blks : SMap ModBlk) (padc : SMap PadcM)
    (cmps : SMap CmpM) (ramps : SMap RampM) (stRun : Option SelfTest) (stWait : List (Nat × Bool)) (trips : SMap TripM)
    (gdos : SMap GdoM) (free tick : Nat) (pending : List Instr) :
    queues (State.mk variant phase tmode regs hwSet mem chk valid clk time boot keep sec age s.hif alm leng mtr net flt s.jrnl ecc mode
      safe legs ids grids chs forms dcs isl ride subsSeen syncAt syncOutAt mach mods blks padc cmps ramps stRun stWait trips gdos free tick
      pending) = queues s := (rfl)

@[simp] theorem queues_foldl {α : Type} (l : List α) (f : State → α → State) (h : ∀ t x, queues (f t x) = queues t) :
    queues (l.foldl f s) = queues s := foldl_view queues l f (fun t x _ => h t x) s

@[simp] theorem queues_each (n : Nat) (f : State → Nat → State) (h : ∀ t k, queues (f t k) = queues t) :
    queues (s.each n f) = queues s := queues_foldl s _ f h

/-- Another journal queue keeps them when it is as far within the bound. -/
theorem queues_setJrnl {j : JrnlM} (h : j.queue.length ≤ 32 ↔ s.jrnl.queue.length ≤ 32) : queues { s with jrnl := j } = queues s :=
  Prod.ext rfl (propext h)

/-- A fold whose state is a part of what it carries. -/
theorem queues_foldl_fst {α β : Type} (l : List α) (f : State × β → α → State × β) (h : ∀ p x, queues (f p x).1 = queues p.1) (p : State × β) :
    queues (l.foldl f p).1 = queues p.1 := by
  induction l generalizing p with
  | nil => rfl
  | cons x l ih => rw [List.foldl_cons, ih, h]

theorem queues_foldl_snd {α β : Type} (l : List α) (f : β × State → α → β × State) (h : ∀ p x, queues (f p x).2 = queues p.2) (p : β × State) :
    queues (l.foldl f p).2 = queues p.2 := by
  induction l generalizing p with
  | nil => rfl
  | cons x l ih => rw [List.foldl_cons, ih, h]

theorem ite_eq_of_both {α : Type} {p : Prop} [Decidable p] {a b c : α} (ha : a = c) (hb : b = c) : (if p then a else b) = c := by
  split <;> assumption

/-- A pair taken apart: `m` is the match, whose one branch is `f`. Stated for any `m` that has this branch, so that the kernel never
compares two matches whose pairs it would first have to evaluate. -/
theorem queues_pair {α τ : Type} (μ : τ → List BufWord × Prop) {q : List BufWord × Prop} {r : α × State}
    {m : α × State → (α → State → τ) → τ} {f : α → State → τ} (hm : ∀ a t g, m (a, t) g = g a t) (hr : queues r.2 = q)
    (h : ∀ a t, queues t = q → μ (f a t) = q) : μ (m r f) = q :=
  (congrArg μ (hm r.1 r.2 f)).trans (h r.1 r.2 hr)

theorem queues_triple {α β τ : Type} (μ : τ → List BufWord × Prop) {q : List BufWord × Prop} {r : α × β × State}
    {m : α × β × State → (α → β → State → τ) → τ} {f : α → β → State → τ} (hm : ∀ a b t g, m (a, b, t) g = g a b t)
    (hr : queues r.2.2 = q) (h : ∀ a b t, queues t = q → μ (f a b t) = q) : μ (m r f) = q :=
  (congrArg μ (hm r.1 r.2.1 r.2.2 f)).trans (h r.1 r.2.1 r.2.2 hr)

theorem queues_quintuple {α β γ δ τ : Type} (μ : τ → List BufWord × Prop) {q : List BufWord × Prop} {r : α × β × γ × δ × State}
    {m : α × β × γ × δ × State → (α → β → γ → δ → State → τ) → τ} {f : α → β → γ → δ → State → τ}
    (hm : ∀ a b c d t g, m (a, b, c, d, t) g = g a b c d t) (hr : queues r.2.2.2.2 = q)
    (h : ∀ a b c d t, queues t = q → μ (f a b c d t) = q) : μ (m r f) = q :=
  (congrArg μ (hm r.1 r.2.1 r.2.2.1 r.2.2.2.1 r.2.2.2.2 f)).trans (h r.1 r.2.1 r.2.2.1 r.2.2.2.1 r.2.2.2.2 hr)

/-- A pair without a state taken apart. -/
theorem queues_plain {α β τ : Type} (μ : τ → List BufWord × Prop) {q : List BufWord × Prop} {r : α × β}
    {m : α × β → (α → β → τ) → τ} {f : α → β → τ} (hm : ∀ a b g, m (a, b) g = g a b) (h : ∀ a b, μ (f a b) = q) : μ (m r f) = q :=
  (congrArg μ (hm r.1 r.2 f)).trans (h r.1 r.2)

@[simp] theorem queues_setReg (a : Nat) (w : Word) : queues (s.setReg a w) = queues s := by
  simp [setReg]

@[simp] theorem queues_wr (f : Fld) (v : Nat) : queues (s.wr f v) = queues s := by
  simp [wr]

@[simp] theorem queues_setBit (f : Fld) (b : Bool) : queues (s.setBit f b) = queues s := by
  simp [setBit]

@[simp] theorem queues_latch (f : Fld) : queues (s.latch f) = queues s := by
  simp [latch]

@[simp] theorem queues_wrF (f : Fld) (v : F32) : queues (s.wrF f v) = queues s := by
  simp [wrF]

@[simp] theorem queues_sat (f : Fld) : queues (s.sat f) = queues s := by
  simp [sat]

@[simp] theorem queues_satBy (f : Fld) (k : Nat) : queues (s.satBy f k) = queues s := by
  simp [satBy]

@[simp] theorem queues_wrap (f : Fld) : queues (s.wrap f) = queues s := by
  simp [wrap]

@[simp] theorem queues_wr64 (lo : Fld) (v : Nat) : queues (s.wr64 lo v) = queues s := by
  simp [wr64]

@[simp] theorem queues_clear (l : List Fld) : queues (s.clear l) = queues s := by
  induction l generalizing s with
  | nil => rfl
  | cons f t ih => rw [clear, ih, queues_wr]

@[simp] theorem queues_fresh : queues s.fresh = queues s := by
  simp [fresh]

@[simp] theorem queues_wrQ (f : Fld) (x : Rat) : queues (s.wrQ f x) = queues s := by
  simp [wrQ]

@[simp] theorem queues_rnd (x : Rat) : queues (s.rnd x).2 = queues s := by
  simp [rnd]

@[simp] theorem queues_sumF (l : List F32) : queues (s.sumF l).2 = queues s := by
  unfold sumF
  split <;> simp

@[simp] theorem queues_root (x : Rat) : queues (s.root x).2 = queues s := by
  simp [root, apply_ite queues, apply_ite Prod.snd]

@[simp] theorem queues_setLeg (n : Nat) (l : LegM) : queues (s.setLeg n l) = queues s := by
  simp [setLeg]

@[simp] theorem queues_setGrid (p : Nat) (v : GridM) : queues (s.setGrid p v) = queues s := by
  simp [setGrid]

@[simp] theorem queues_setCh (c : Nat) (v : ChM) : queues (s.setCh c v) = queues s := by
  simp [setCh]

@[simp] theorem queues_setForm (c : Nat) (v : FormM) : queues (s.setForm c v) = queues s := by
  simp [setForm]

@[simp] theorem queues_setDc (c : Nat) (v : DcM) : queues (s.setDc c v) = queues s := by
  simp [setDc]

@[simp] theorem queues_setMin (n : Nat) (v : ModIn) : queues (s.setMin n v) = queues s := by
  simp [setMin]

@[simp] theorem queues_setBlk (m : Nat) (v : ModBlk) : queues (s.setBlk m v) = queues s := by
  simp [setBlk]

@[simp] theorem queues_setConv (c : Nat) (v : PadcM) : queues (s.setConv c v) = queues s := by
  simp [setConv]

@[simp] theorem queues_setCmp (n : Nat) (v : CmpM) : queues (s.setCmp n v) = queues s := by
  simp [setCmp]

@[simp] theorem queues_setRamp (r : Nat) (v : RampM) : queues (s.setRamp r v) = queues s := by
  simp [setRamp]

@[simp] theorem queues_setTrip (i : Nat) (v : TripM) : queues (s.setTrip i v) = queues s := by
  simp [setTrip]

@[simp] theorem queues_setGdo (k : Nat) (v : GdoM) : queues (s.setGdo k v) = queues s := by
  simp [setGdo]

@[simp] theorem queues_setFltRec (n : Nat) (v : FltRec) : queues (s.setFltRec n v) = queues s := by
  simp [setFltRec]

@[simp] theorem queues_setMtrPort (p : Nat) (v : MtrPort) : queues (s.setMtrPort p v) = queues s := by
  simp [setMtrPort, apply_ite queues]

@[simp] theorem queues_setPulse (k : Nat) (v : PulseM) : queues (s.setPulse k v) = queues s := by
  simp [setPulse, apply_ite queues]

@[simp] theorem queues_setPort (p : Nat) (v : PortM) : queues (s.setPort p v) = queues s := by
  simp [setPort, apply_ite queues]

@[simp] theorem queues_setQueue (p q : Nat) (l : List QFrame) : queues (s.setQueue p q l) = queues s := by
  simp [setQueue]

@[simp] theorem queues_setSp (n : Nat) (v : SpSlot) : queues (s.setSp n v) = queues s := by
  simp [setSp]

@[simp] theorem queues_setStrm (k : Nat) (v : StrmM) : queues (s.setStrm k v) = queues s := by
  simp [setStrm]

@[simp] theorem queues_setEnergy (p q v : Nat) : queues (s.setEnergy p q v) = queues s := by
  simp [setEnergy]

@[simp] theorem queues_mtreTake (p : Nat) : queues (s.mtreTake p) = queues s := by
  simp [mtreTake]

@[simp] theorem queues_iraw (pg b : Nat) (v : Bool) : queues (s.iraw pg b v) = queues s := by
  simp [iraw, apply_ite queues]

@[simp] theorem queues_ipulse (pg b : Nat) : queues (s.ipulse pg b) = queues s := by
  simp [ipulse]

@[simp] theorem queues_setCounter (k v : Nat) : queues (s.setCounter k v) = queues s := by
  simp [setCounter, apply_ite queues]

@[simp] theorem queues_putTime (a t : Nat) : queues (s.putTime a t) = queues s := by
  simp [putTime]

/-- A record enters the queue where there is room for it (R414). -/
@[simp] theorem queues_jrnlPush (r : JRec) : queues (s.jrnlPush r) = queues s := by
  unfold jrnlPush
  by_cases h : s.jrnlDepth < if r.cls < 3 then 28 else 32
  · have hroom : s.jrnl.queue.length < 32 := h.trans_le (by split <;> decide)
    have hlen : (s.jrnl.queue ++ [{ r with seq := s.rd F.JRNL_NEXTSEQ }]).length ≤ 32 ↔ s.jrnl.queue.length ≤ 32 := by
      simp only [List.length_append, List.length_singleton]
      omega
    simp only [if_pos h, queues_wr, queues_wrap]
    exact queues_setJrnl s hlen
  · simp [h]

@[simp] theorem queues_jrnlAdd (kind src cls flags dclass scope aux data : Nat) : queues (s.jrnlAdd kind src cls flags dclass scope aux data) = queues s := by
  simp [jrnlAdd]

@[simp] theorem queues_ascend (b : Nat) : queues (s.ascend b) = queues s := by
  unfold ascend
  split <;> simp [apply_ite queues]

@[simp] theorem queues_wake (b : Nat) : queues (s.wake b) = queues s := by
  simp [wake, apply_ite queues]

@[simp] theorem queues_rampRestart (n t : Nat) : queues (s.rampRestart n t) = queues s := by
  simp [rampRestart, apply_ite queues]

@[simp] theorem queues_blankOpen (n : Nat) : queues (s.blankOpen n) = queues s := by
  simp [blankOpen, apply_ite queues]

@[simp] theorem queues_pinEdge (n : Nat) (e : PinEdge) : queues (s.pinEdge n e) = queues s := by
  simp [pinEdge, apply_ite queues]

@[simp] theorem queues_edgesDue (n t : Nat) : queues (s.edgesDue n t) = queues s := by
  simp [edgesDue]

@[simp] theorem queues_cellDrive (n : Nat) (v : Lvl) (safe hush : Bool) (t : Nat) : queues (s.cellDrive n v safe hush t) = queues s := by
  simp [cellDrive, apply_ite queues]

@[simp] theorem queues_cellCut (n t : Nat) : queues (s.cellCut n t) = queues s := by
  simp [cellCut]

@[simp] theorem queues_cellAt (n t : Nat) : queues (s.cellAt n t) = queues s := by
  simp [cellAt, apply_ite queues]

@[simp] theorem queues_cellUpdate (n : Nat) : queues (s.cellUpdate n) = queues s := by
  simp [cellUpdate]

@[simp] theorem queues_legTick (n : Nat) : queues (s.legTick n) = queues s := by
  unfold legTick
  dsimp only
  split <;> simp [apply_ite queues]

@[simp] theorem queues_cellsAll : queues s.cellsAll = queues s := by
  simp [cellsAll]

@[simp] theorem queues_cellsIn (m : Nat) : queues (s.cellsIn m) = queues s := by
  simp [cellsIn, apply_ite queues]

@[simp] theorem queues_subUpdate (ceased : Bool) (c : Nat) : queues (s.subUpdate ceased c) = queues s := by
  simp [subUpdate]

@[simp] theorem queues_channelsUpdate (ceased : Bool) : queues (s.channelsUpdate ceased) = queues s := by
  simp [channelsUpdate]

@[simp] theorem queues_demandCmp (k m : Nat) (on : Bool) : queues (s.demandCmp k m on) = queues s := by
  simp [demandCmp, apply_ite queues]

@[simp] theorem queues_demandMod (k m : Nat) (on : Bool) : queues (s.demandMod k m on) = queues s := by
  simp [demandMod, apply_ite queues]

@[simp] theorem queues_demandTrip (k m : Nat) (on : Bool) : queues (s.demandTrip k m on) = queues s := by
  simp [demandTrip, apply_ite queues]

@[simp] theorem queues_gdoUpdate (k : Nat) : queues (s.gdoUpdate k) = queues s := by
  simp [gdoUpdate, apply_ite queues]

@[simp] theorem queues_gdosAll : queues s.gdosAll = queues s := by
  simp [gdosAll]

@[simp] theorem queues_stoSync : queues s.stoSync = queues s := by
  simp [stoSync, apply_ite queues]

@[simp] theorem queues_ceaseGrid : queues s.ceaseGrid = queues s := by
  simp [ceaseGrid, apply_ite queues]

@[simp] theorem queues_safeStopBegin (shutdown : Bool) : queues (s.safeStopBegin shutdown) = queues s := by
  simp [safeStopBegin, apply_ite queues]

@[simp] theorem queues_fltLevels : queues s.fltLevels = queues s := by
  simp [fltLevels]

@[simp] theorem queues_modeDue (cause : Nat) : queues (s.modeDue cause) = queues s := by
  simp [modeDue, apply_ite queues]

@[simp] theorem queues_tripReact (scope : Nat) : queues (s.tripReact scope) = queues s := by
  simp [tripReact, apply_ite queues]

@[simp] theorem queues_fltReact (c scope : Nat) : queues (s.fltReact c scope) = queues s := by
  simp [fltReact, apply_ite queues]

@[simp] theorem queues_fltLast (n c : Nat) : queues (s.fltLast n c) = queues s := by
  simp [fltLast]

@[simp] theorem queues_graceMap (f : Nat → Nat) : queues (s.graceMap f) = queues s := by
  simp [graceMap]

@[simp] theorem queues_graceHalt : queues s.graceHalt = queues s := by
  simp [graceHalt]

@[simp] theorem queues_graceResume : queues s.graceResume = queues s := by
  simp [graceResume]

@[simp] theorem queues_fltHoldSync : queues s.fltHoldSync = queues s := by
  simp [fltHoldSync]

@[simp] theorem queues_raiseOne (n ch : Nat) (forced : Bool) : queues (s.raiseOne n ch forced) = queues s := by
  simp [raiseOne, apply_ite queues]

@[simp] theorem queues_fltExpire (n : Nat) : queues (s.fltExpire n) = queues s := by
  simp [fltExpire, apply_ite queues]

@[simp] theorem queues_graceRun (n : Nat) : queues (s.graceRun n) = queues s := by
  simp [graceRun, apply_ite queues]

@[simp] theorem queues_raiseFlt (n ch : Nat) (forced : Bool) : queues (s.raiseFlt n ch forced) = queues s := by
  simp [raiseFlt, apply_ite queues]

@[simp] theorem queues_detect (n : Nat) : queues (s.detect n) = queues s := by
  simp [detect]

end
end State
end Sys2Proof.Machine
end

section
/-! SUPPORT. The write buffer and the bound of the journal queue are left as they are by the acknowledgements of faults, the memory, ageing, the comparators, the modulators, the grids and the trackers. -/

namespace Sys2Proof.Machine
namespace State

section
variable (s : State)

@[simp] theorem queues_fltClose (n : Nat) : queues (s.fltClose n) = queues s := by
  simp [fltClose, apply_ite queues]

@[simp] theorem queues_fltAck (v : Word) : queues (s.fltAck v) = queues s := by
  simp [fltAck, apply_ite queues]

@[simp] theorem queues_uvReport (hi : Bool) : queues (s.uvReport hi) = queues s := by
  simp [uvReport, apply_ite queues]

@[simp] theorem queues_putBytes (l : List Byte) : ∀ (s : State) (a : Nat), queues (s.putBytes a l) = queues s := by
  induction l with
  | nil => intro s a; rfl
  | cons b t ih => intro s a; exact (ih _ _).trans (queues_upd ..)

@[simp] theorem queues_store64 (a v : Nat) (syn : Byte) : queues (s.store64 a v syn) = queues s := by
  simp [store64]

@[simp] theorem queues_eccLast (a : Nat) (ue : Bool) (syn : Nat) : queues (s.eccLast a ue syn) = queues s := by
  unfold eccLast
  split <;> simp [apply_ite queues]

@[simp] theorem queues_wear (a : Nat) : queues (s.wear a) = queues s := by
  unfold wear
  split <;> simp

@[simp] theorem queues_writeBack (a v : Nat) (syn : Byte) : queues (s.writeBack a v syn) = queues s := by
  simp [writeBack]

@[simp] theorem queues_read64 (a : Nat) : queues (s.read64 a).1 = queues s := by
  unfold read64
  dsimp only
  (repeat' split)
  all_goals simp

@[simp] theorem queues_read32 (a : Nat) : queues (s.read32 a).1 = queues s := by
  simp [read32]

@[simp] theorem queues_write64 (a v : Nat) (poison : Bool) : queues (s.write64 a v poison) = queues s := by
  simp [write64]

@[simp] theorem queues_write32 (a : Nat) (v : Word) (poison : Bool) : queues (s.write32 a v poison) = queues s := by
  simp [write32]

@[simp] theorem queues_readWords (n : Nat) : ∀ (s : State) (a : Nat), queues (s.readWords a n).1 = queues s := by
  induction n using Nat.twoStepInduction with
  | zero => intro s a; rfl
  | one => intro s a; exact queues_read32 s a
  | more n ih ih1 =>
    intro s a
    unfold readWords
    split
    · exact (ih _ _).trans (queues_read64 s a)
    · exact (ih1 _ _).trans (queues_read32 s a)

@[simp] theorem queues_readBytes (a n : Nat) : queues (s.readBytes a n).1 = queues s := by
  simp [readBytes]

@[simp] theorem queues_writeBytes (a : Nat) (l : List Byte) (poison : Bool) : queues (s.writeBytes a l poison) = queues s := by
  simp [writeBytes]

@[simp] theorem queues_mramPut (a v : Nat) : queues (s.mramPut a v) = queues s := by
  simp [mramPut, apply_ite queues]

@[simp] theorem queues_mramWrite (a : Nat) (l : List Byte) : queues (s.mramWrite a l) = queues s := by
  simp [mramWrite]

@[simp] theorem queues_mramTouch (a n : Nat) : queues (s.mramTouch a n) = queues s := by
  simp [mramTouch, apply_ite queues]

@[simp] theorem queues_invalidate (a n : Nat) : queues (s.invalidate a n) = queues s := by
  simp [invalidate]

@[simp] theorem queues_fillArray (k : Nat) : queues (s.fillArray k) = queues s := by
  simp [fillArray]

theorem queues_onPage (pg : Nat) (eff : State → State × Status) (h : queues (eff s).1 = queues s) : queues (s.onPage pg eff).1 = queues s := by
  unfold onPage
  split
  · exact h
  · exact queues_sat ..

@[simp] theorem queues_genWrite (a : Nat) (v : Word) : queues (s.genWrite a v).1 = queues s := by
  unfold genWrite
  split <;> simp

@[simp] theorem queues_genIf (a : Nat) (v : Word) (ok : Bool) : queues (s.genIf a v ok).1 = queues s := by
  simp [genIf, apply_ite queues, apply_ite Prod.fst]
-- turn

@[simp] theorem queues_settle : queues s.settle = queues s := by
  simp [settle]
-- hostWord

@[simp] theorem queues_roDeg (k fref fstr : Nat) : queues (s.roDeg k fref fstr) = queues s := by
  simp [roDeg, apply_ite queues]

@[simp] theorem queues_measOsc (pairs : List (Nat × Nat)) : queues (s.measOsc pairs) = queues s := by
  simp [measOsc, apply_ite queues]

@[simp] theorem queues_junction (k : Nat) (t : Int) : queues (s.junction k t) = queues s := by
  simp [junction]

@[simp] theorem queues_junctionSample (t : List Int) : queues (s.junctionSample t) = queues s := by
  simp [junctionSample, apply_ite queues]

@[simp] theorem queues_boundsTake : queues s.boundsTake = queues s := by
  simp [boundsTake]

@[simp] theorem queues_legCycle (n : Nat) (t : Rat) : queues (s.legCycle n t) = queues s := by
  simp [legCycle]

@[simp] theorem queues_legModel (n : Nat) (i : F32) (r : Int) : queues (s.legModel n i r) = queues s := by
  simp [legModel, apply_ite queues]

@[simp] theorem queues_mergeLedger (dT dL : SMap Nat) (dRun mseq : Nat) : queues (s.mergeLedger dT dL dRun mseq) = queues s := by
  simp [mergeLedger]

@[simp] theorem queues_mergeLive : queues s.mergeLive = queues s :=
  (queues_upd (s.mergeLedger s.age.dTbin s.age.dLeg s.age.dRun _) ..).trans (queues_mergeLedger ..)

@[simp] theorem queues_ledgerSelect : queues s.ledgerSelect = queues s := by
  unfold ledgerSelect
  dsimp only
  split <;> simp [apply_ite queues]

@[simp] theorem queues_planRequest : queues s.planRequest = queues s := by
  simp [planRequest, apply_ite queues]

@[simp] theorem queues_planMerge : queues s.planMerge = queues s := by
  unfold planMerge
  split <;> simp

@[simp] theorem queues_planStart (pairs : List (Nat × Nat)) : queues (s.planStart pairs) = queues s := by
  simp [planStart, apply_ite queues]

@[simp] theorem queues_planAbandon : queues s.planAbandon = queues s := by
  simp [planAbandon, apply_ite queues]

@[simp] theorem queues_planComplete : queues s.planComplete = queues s := by
  simp [planComplete, apply_ite queues]

@[simp] theorem queues_ageCtlWrite (v : Word) (pairs : List (Nat × Nat)) : queues (s.ageCtlWrite v pairs).1 = queues s := by
  simp [ageCtlWrite, apply_ite queues]

@[simp] theorem queues_boundWrite (a : Nat) (v : Word) : queues (s.boundWrite a v).1 = queues s := by
  simp [boundWrite, apply_ite queues, apply_ite Prod.fst]

@[simp] theorem queues_boundsLoad : queues s.boundsLoad = queues s := by
  unfold boundsLoad
  split <;> simp [apply_ite queues]

@[simp] theorem queues_ageWrite (a : Nat) (v : Word) : queues (s.ageWrite a v).1 = queues s := by
  simp [ageWrite, apply_ite queues, apply_ite Prod.fst]

@[simp] theorem queues_cmpSetOut (n : Nat) (v : Bool) : queues (s.cmpSetOut n v) = queues s := by
  simp [cmpSetOut, apply_ite queues]

@[simp] theorem queues_cmpOff (n : Nat) : queues (s.cmpOff n) = queues s := by
  simp [cmpOff]

@[simp] theorem queues_cmpTake (n pin vref : Nat) : queues (s.cmpTake n pin vref) = queues s := by
  simp [cmpTake]

@[simp] theorem queues_cmpTrip (n : Nat) (forced : Bool) : queues (s.cmpTrip n forced) = queues s := by
  simp [cmpTrip]

@[simp] theorem queues_cmpTripEvent (n pin vref : Nat) : queues (s.cmpTripEvent n pin vref) = queues s := by
  simp [cmpTripEvent, apply_ite queues]

@[simp] theorem queues_legCut (k : Nat) : queues (s.legCut k).1 = queues s := by
  simp [legCut, apply_ite queues, apply_ite Prod.fst]

@[simp] theorem queues_cmpCut (n m : Nat) : queues (s.cmpCut n m) = queues s := by
  have hlegs (p : State × Bool) (k : Nat) : queues (if m / 2 ^ k % 2 = 1 then let q := p.1.legCut k; (q.1, p.2 || q.2) else p).1 = queues p.1 := by
    split
    · exact queues_legCut p.1 k
    · rfl
  unfold cmpCut
  dsimp only
  split <;> simp [queues_foldl_fst, hlegs]

@[simp] theorem queues_cmpCutEvent (n pin vref : Nat) : queues (s.cmpCutEvent n pin vref) = queues s := by
  simp [cmpCutEvent, apply_ite queues]

@[simp] theorem queues_cutAtStart (k : Nat) : queues (s.cutAtStart k) = queues s := by
  simp [cutAtStart, apply_ite queues]

@[simp] theorem queues_tripstatWrite (v : Word) : queues (s.tripstatWrite v).1 = queues s := by
  simp [tripstatWrite, apply_ite queues]

@[simp] theorem queues_cmpDrop (eng : Bool) : queues (s.cmpDrop eng) = queues s := by
  simp [cmpDrop]

@[simp] theorem queues_dacSet (n v : Nat) : queues (s.dacSet n v) = queues s := by
  simp [dacSet, apply_ite queues]

@[simp] theorem queues_slopeSet (r v : Nat) : queues (s.slopeSet r v) = queues s := by
  simp [slopeSet, apply_ite queues]

@[simp] theorem queues_dacEngine (n v : Nat) : queues (s.dacEngine n v) = queues s := by
  simp [dacEngine, apply_ite queues]

@[simp] theorem queues_slopeEngine (r v : Nat) : queues (s.slopeEngine r v) = queues s := by
  simp [slopeEngine, apply_ite queues]

@[simp] theorem queues_dacRelease (n : Nat) : queues (s.dacRelease n) = queues s := by
  simp [dacRelease, apply_ite queues]

@[simp] theorem queues_rampWrite (r a : Nat) (v : Word) : queues (s.rampWrite r a v).1 = queues s := by
  simp [rampWrite, apply_ite queues, apply_ite Prod.fst]

@[simp] theorem queues_cmpCfgWrite (n a : Nat) (v : Word) : queues (s.cmpCfgWrite n a v).1 = queues s := by
  simp [cmpCfgWrite, apply_ite queues, apply_ite Prod.fst]

@[simp] theorem queues_stBegin (n : Nat) (host : Bool) : queues (s.stBegin n host) = queues s := by
  simp [stBegin]

@[simp] theorem queues_stRequest (n : Nat) (host : Bool) : queues (s.stRequest n host) = queues s := by
  simp [stRequest, apply_ite queues]

@[simp] theorem queues_stNext (l : List (Nat × Bool)) : ∀ s : State, queues (s.stNext l) = queues s := by
  induction l with
  | nil => intro s; exact queues_upd ..
  | cons w l ih => intro s; simp [stNext, apply_ite queues, ih]

@[simp] theorem queues_stEnd (smp : List Bool) : queues (s.stEnd smp) = queues s := by
  unfold stEnd
  split <;> simp [apply_ite queues]

@[simp] theorem queues_stgoWrite (v : Word) : queues (s.stgoWrite v).1 = queues s := by
  simp [stgoWrite, apply_ite queues]

@[simp] theorem queues_cmpOwnerWrite (v : Word) : queues (s.cmpOwnerWrite v).1 = queues s := by
  simp [cmpOwnerWrite, apply_ite queues]

@[simp] theorem queues_cmpWrite (a : Nat) (v : Word) : queues (s.cmpWrite a v).1 = queues s := by
  simp [cmpWrite, apply_ite queues, apply_ite Prod.fst]

@[simp] theorem queues_modStat (m : Nat) : queues (s.modStat m) = queues s := by
  simp [modStat]

@[simp] theorem queues_modRestart (n : Nat) : queues (s.modRestart n) = queues s := by
  simp [modRestart]

@[simp] theorem queues_mclkStop (m : Nat) : queues (s.mclkStop m) = queues s := by
  simp [mclkStop]

@[simp] theorem queues_mclkPhase (m : Nat) : queues (s.mclkPhase m) = queues s := by
  simp [mclkPhase]

@[simp] theorem queues_mclkStart (m : Nat) : queues (s.mclkStart m) = queues s := by
  simp [mclkStart, apply_ite queues]

@[simp] theorem queues_mclkSync : queues s.mclkSync = queues s := by
  simp [mclkSync, apply_ite queues]

@[simp] theorem queues_mclkResume : queues s.mclkResume = queues s := by
  simp [mclkResume]

@[simp] theorem queues_mclkAlign : queues s.mclkAlign = queues s := by
  simp [mclkAlign, apply_ite queues]

@[simp] theorem queues_filterSettled (n k : Nat) : queues (s.filterSettled n k) = queues s := by
  simp [filterSettled, apply_ite queues]

@[simp] theorem queues_decimServe (m : Nat) : queues (s.decimServe m) = queues s := by
  simp [decimServe]

@[simp] theorem queues_carrierEvent (n t per : Nat) (peak : Bool) : queues (s.carrierEvent n t per peak) = queues s := by
  simp [carrierEvent, apply_ite queues]

@[simp] theorem queues_decimate (m : Nat) : queues (s.decimate m) = queues s := by
  simp [decimate, apply_ite queues]

@[simp] theorem queues_stuckRaise (n : Nat) : queues (s.stuckRaise n) = queues s := by
  simp [stuckRaise]

@[simp] theorem queues_ocTrip (n : Nat) (forced : Bool) : queues (s.ocTrip n forced) = queues s := by
  simp [ocTrip]

@[simp] theorem queues_ocCycle (n : Nat) : queues (s.ocCycle n) = queues s := by
  simp [ocCycle, apply_ite queues]

@[simp] theorem queues_modSample (n : Nat) (b : Bool) : queues (s.modSample n b) = queues s := by
  simp [modSample, apply_ite queues]

@[simp] theorem queues_modSamples (n : Nat) (l : List Bool) : queues (s.modSamples n l) = queues s := by
  simp [modSamples]

@[simp] theorem queues_ocClear (v : Word) : queues (s.ocClear v).1 = queues s := by
  simp [ocClear, apply_ite queues]

@[simp] theorem queues_stuckClear (v : Word) : queues (s.stuckClear v).1 = queues s := by
  simp [stuckClear, apply_ite queues]

@[simp] theorem queues_blkCfgWrite (m a : Nat) (v : Word) : queues (s.blkCfgWrite m a v).1 = queues s := by
  simp [blkCfgWrite, apply_ite queues, apply_ite Prod.fst]

@[simp] theorem queues_blkSyncWrite (m a : Nat) (v : Word) : queues (s.blkSyncWrite m a v).1 = queues s := by
  simp [blkSyncWrite, apply_ite queues]

@[simp] theorem queues_modInWrite (n a : Nat) (v : Word) : queues (s.modInWrite n a v).1 = queues s := by
  simp [modInWrite, apply_ite queues, apply_ite Prod.fst]

@[simp] theorem queues_modWrite (a : Nat) (v : Word) : queues (s.modWrite a v).1 = queues s := by
  simp [modWrite, apply_ite queues, apply_ite Prod.fst]

@[simp] theorem queues_gridRebase (p : Nat) : queues (s.gridRebase p) = queues s := by
  simp [gridRebase]

@[simp] theorem queues_gridHold (p : Nat) : queues (s.gridHold p) = queues s := by
  simp [gridHold]

@[simp] theorem queues_validClear (p : Nat) (descent : Bool) : queues (s.validClear p descent) = queues s := by
  simp [validClear, apply_ite queues]

@[simp] theorem queues_gridRestart (p : Nat) (descent : Bool) : queues (s.gridRestart p descent) = queues s := by
  simp [gridRestart]

@[simp] theorem queues_gridPhases (p : Nat) : queues (s.gridPhases p).2 = queues s := by
  simp [gridPhases, apply_ite queues, apply_ite Prod.snd]

@[simp] theorem queues_gridClarke (p : Nat) (ph : List F32) : queues (s.gridClarke p ph).2.2 = queues s := by
  simp [gridClarke, apply_ite queues, apply_ite Prod.snd]

@[simp] theorem queues_gridZc (p : Nat) (v : F32) (tk delay : Nat) : queues (s.gridZc p v tk delay) = queues s := by
  unfold gridZc
  dsimp only
  (repeat' split)
  all_goals simp

@[simp] theorem queues_gridZcTo (p : Nat) : queues (s.gridZcTo p) = queues s := by
  simp [gridZcTo, apply_ite queues]

@[simp] theorem queues_gridAnchor (p : Nat) : queues (s.gridAnchor p) = queues s := by
  simp [gridAnchor]

@[simp] theorem queues_gridCore (p : Nat) : queues (s.gridCore p) = queues s := by
  have rnd {t : State} (x : Rat) (h : queues t = queues s) : queues (t.rnd x).2 = queues s := (queues_rnd t x).trans h
  have either {c : Prop} [Decidable c] {t : State} {x : F32 × State} {y : F32} (h : queues t = queues s) (hx : queues x.2 = queues s) :
      queues (if c then (y, t) else x).2 = queues s := by
    split
    · exact h
    · exact hx
  rw [gridCore]
  refine queues_pair queues (fun _ _ _ => rfl) (queues_gridPhases ..) fun ph s1 h1 => ?_
  refine queues_triple queues (fun _ _ _ _ => rfl) ((queues_gridClarke ..).trans h1) fun ua ub s2 h2 => ?_
  extract_lets +onlyGivenNames g wf w k qa
  refine queues_pair queues (fun _ _ _ => rfl) (rnd _ h2) fun a1 s3 h3 => ?_
  refine queues_pair queues (fun _ _ _ => rfl) (rnd _ h3) fun qa1 s4 h4 => ?_
  extract_lets +onlyGivenNames qb
  refine queues_pair queues (fun _ _ _ => rfl) (either h4 (rnd _ h4)) fun b1 s5 h5 => ?_
  refine queues_pair queues (fun _ _ _ => rfl) (either h5 (rnd _ h5)) fun qb1 s6 h6 => ?_
  extract_lets +onlyGivenNames ra rqa rb rqb ap bp an bn th co si
  refine queues_pair queues (fun _ _ _ => rfl) (rnd _ h6) fun vpd s7 h7 => ?_
  refine queues_pair queues (fun _ _ _ => rfl) (rnd _ h7) fun vpq s8 h8 => ?_
  refine queues_pair queues (fun _ _ _ => rfl) (rnd _ h8) fun vnd s9 h9 => ?_
  refine queues_pair queues (fun _ _ _ => rfl) (rnd _ h9) fun vnq s10 h10 => ?_
  refine queues_pair queues (fun _ _ _ => rfl) ((queues_root ..).trans h10) fun vpm s11 h11 => ?_
  extract_lets +onlyGivenNames e vlow v2 err
  refine queues_pair queues (fun _ _ _ => rfl) (either h11 (rnd _ h11)) fun r1 s12 h12 => ?_
  extract_lets +onlyGivenNames lo hi
  refine queues_pair queues (fun _ _ _ => rfl) (either h12 (rnd _ h12)) fun w1 s13 h13 => ?_
  refine queues_pair queues (fun _ _ _ => rfl) (rnd _ h13) fun om s14 h14 => ?_
  refine queues_pair queues (fun _ _ _ => rfl) (either h14 (rnd _ h14)) fun x1 s15 h15 => ?_
  extract_lets +onlyGivenNames th1 f vs win first old
  refine queues_pair queues (fun _ _ _ => rfl) (either h15 ?_) fun roc s16 h16 => ?_
  · split
    · exact h15
    · exact rnd _ h15
  · simp [apply_ite queues, h16]

@[simp] theorem queues_validSet (p : Nat) : queues (s.validSet p) = queues s := by
  simp [validSet, apply_ite queues]

@[simp] theorem queues_gridSnap (p : Nat) : queues (s.gridSnap p) = queues s := by
  simp [gridSnap]

@[simp] theorem queues_gridWrite (p a : Nat) (v : Word) : queues (s.gridWrite p a v).1 = queues s := by
  simp [gridWrite, apply_ite queues, apply_ite Prod.fst]

@[simp] theorem queues_setSpeed (w : F32) : queues (s.setSpeed w) = queues s := by
  simp [setSpeed]

@[simp] theorem queues_posInvalid : queues s.posInvalid = queues s := by
  simp [posInvalid, apply_ite queues]

@[simp] theorem queues_posDescent : queues s.posDescent = queues s := by
  simp [posDescent, apply_ite queues]

@[simp] theorem queues_posSync : queues s.posSync = queues s := by
  simp [posSync, apply_ite queues]

@[simp] theorem queues_encEdge (a b : Bool) : queues (s.encEdge a b) = queues s := by
  unfold encEdge
  dsimp only
  (repeat' split)
  all_goals simp

@[simp] theorem queues_encIndex : queues s.encIndex = queues s := by
  simp [encIndex, apply_ite queues]

@[simp] theorem queues_encStill : queues s.encStill = queues s := by
  simp [encStill, apply_ite queues]

@[simp] theorem queues_resolver (sn cs : Int) : queues (s.resolver sn cs) = queues s := by
  simp [resolver, apply_ite queues]

@[simp] theorem queues_svm (c n : Nat) : queues (s.svm c n) = queues s := by
  simp [svm, apply_ite queues, apply_ite Prod.snd, queues_foldl_snd]

@[simp] theorem queues_dcTake (c : Nat) : queues (s.dcTake c) = queues s := by
  simp [dcTake]

@[simp] theorem queues_machLimits (c n : Nat) : queues (s.machLimits c n) = queues s := by
  simp [machLimits, apply_ite queues, apply_ite Prod.fst, apply_ite Prod.snd]

@[simp] theorem queues_machReload (n : Nat) : queues (s.machReload n) = queues s := by
  simp [machReload, apply_ite queues]

@[simp] theorem queues_machShift (n per cc now : Nat) : queues (s.machShift n per cc now) = queues s := by
  unfold machShift
  dsimp only
  split <;> simp [apply_ite queues]

@[simp] theorem queues_machBrake (on : Bool) : queues (s.machBrake on) = queues s := by
  simp [machBrake]

end
end State
end Sys2Proof.Machine
end

section
/-! SUPPORT. The write buffer and the bound of the journal queue are left as they are by the machine, the trips, the gate drivers, the counters of the legs, the converters of DC channels and the allocation. -/

namespace Sys2Proof.Machine
namespace State

section
variable (s : State)

@[simp] theorem queues_machPhase (ph : Nat) : queues (s.machPhase ph) = queues s := by
  simp [machPhase, apply_ite queues]

@[simp] theorem queues_machRefuse (res : Nat) : queues (s.machRefuse res) = queues s := by
  simp [machRefuse]

@[simp] theorem queues_machEval : queues s.machEval = queues s := by
  simp [machEval, apply_ite queues]

@[simp] theorem queues_machStart : queues s.machStart = queues s := by
  simp [machStart, apply_ite queues]

@[simp] theorem queues_machEnd : queues s.machEnd = queues s := by
  simp [machEnd]

@[simp] theorem queues_machCmdWrite (v : Word) : queues (s.machCmdWrite v).1 = queues s := by
  simp [machCmdWrite, apply_ite queues, apply_ite Prod.fst]

@[simp] theorem queues_machStopTick : queues s.machStopTick = queues s := by
  unfold machStopTick
  split <;> simp [apply_ite queues]

@[simp] theorem queues_machWrite (a : Nat) (v : Word) : queues (s.machWrite a v).1 = queues s := by
  simp [machWrite, apply_ite queues, apply_ite Prod.fst]

@[simp] theorem queues_coincide (n : Nat) : queues (s.coincide n) = queues s := by
  simp [coincide, apply_ite queues]

@[simp] theorem queues_xonForce (n : Nat) : queues (s.xonForce n) = queues s := by
  simp [xonForce]

@[simp] theorem queues_coincideEnd (n : Nat) : queues (s.coincideEnd n) = queues s := by
  simp [coincideEnd, apply_ite queues]

@[simp] theorem queues_tripSync (i : Nat) : queues (s.tripSync i) = queues s := by
  simp [tripSync, apply_ite queues]

@[simp] theorem queues_tripEdge (i : Nat) (level : Bool) : queues (s.tripEdge i level) = queues s := by
  simp [tripEdge, apply_ite queues]

@[simp] theorem queues_tripAct (i : Nat) (forced : Bool) : queues (s.tripAct i forced) = queues s := by
  simp [tripAct]

@[simp] theorem queues_tripQualify (i : Nat) : queues (s.tripQualify i) = queues s := by
  simp [tripQualify, apply_ite queues]

@[simp] theorem queues_blankClose (i : Nat) : queues (s.blankClose i) = queues s := by
  simp [blankClose]

@[simp] theorem queues_tripStatWrite (v : Word) : queues (s.tripStatWrite v).1 = queues s := by
  simp [tripStatWrite, apply_ite queues]

@[simp] theorem queues_tripCfgWrite (i a : Nat) (v : Word) : queues (s.tripCfgWrite i a v).1 = queues s := by
  simp [tripCfgWrite, apply_ite queues, apply_ite Prod.fst]

@[simp] theorem queues_tripWrite (a : Nat) (v : Word) : queues (s.tripWrite a v).1 = queues s := by
  simp [tripWrite, apply_ite queues, apply_ite Prod.fst]

@[simp] theorem queues_safeLvlWrite (n a : Nat) (v : Word) : queues (s.safeLvlWrite n a v).1 = queues s := by
  simp [safeLvlWrite, apply_ite queues, apply_ite Prod.fst]

@[simp] theorem queues_uvShow : queues s.uvShow = queues s := by
  simp [uvShow]

@[simp] theorem queues_uvlo (hi low : Bool) : queues (s.uvlo hi low) = queues s := by
  simp [uvlo, apply_ite queues]

@[simp] theorem queues_gdoPeriod (k : Nat) : queues (s.gdoPeriod k) = queues s := by
  simp [gdoPeriod, apply_ite queues]

@[simp] theorem queues_gdoWrite (k a : Nat) (v : Word) : queues (s.gdoWrite k a v).1 = queues s := by
  simp [gdoWrite, apply_ite queues, apply_ite Prod.fst]

@[simp] theorem queues_tcmV (n sub : Nat) : queues (s.tcmV n sub).2 = queues s := by
  simp [tcmV, apply_ite queues, apply_ite Prod.fst, apply_ite Prod.snd]

@[simp] theorem queues_tcmIn (n sub : Nat) : queues (s.tcmIn n sub).2 = queues s := by
  simp [tcmIn, apply_ite Prod.snd]

@[simp] theorem queues_shadowTo (n : Nat) (h : Shadow) : queues (s.shadowTo n h) = queues s := by
  simp [shadowTo]

@[simp] theorem queues_legLate (n : Nat) : queues (s.legLate n) = queues s := by
  simp [legLate]

@[simp] theorem queues_legCommit (n : Nat) : queues (s.legCommit n) = queues s := by
  simp [legCommit, apply_ite queues]

@[simp] theorem queues_shadowWritten (n : Nat) : queues (s.shadowWritten n) = queues s := by
  simp [shadowWritten, apply_ite queues]

@[simp] theorem queues_chDone (n : Nat) : queues (s.chDone n) = queues s := by
  simp [chDone, apply_ite queues]

@[simp] theorem queues_reload (n : Nat) : queues (s.reload n) = queues s := by
  unfold reload
  dsimp only
  (repeat' split)
  all_goals simp

@[simp] theorem queues_setCmd (n : Nat) (v : Lvl) (t : Nat) : queues (s.setCmd n v t) = queues s := by
  simp [setCmd]

@[simp] theorem queues_syncPulse : queues s.syncPulse = queues s := by
  simp [syncPulse]

@[simp] theorem queues_syncTarget : queues s.syncTarget = queues s := by
  simp [syncTarget, apply_ite queues]

@[simp] theorem queues_legBad (n sub : Nat) : queues (s.legBad n sub) = queues s := by
  simp [legBad]

@[simp] theorem queues_legGood (n : Nat) : queues (s.legGood n) = queues s := by
  simp [legGood]

@[simp] theorem queues_setAct (g k : Nat) : queues (s.setAct g k) = queues s := by
  have hslot (t : State) (n : Nat) : queues (match (t.leg n).slot with
      | none => t
      | some m => t.setLeg n { t.leg n with slot := some { m with moved := true } }) = queues t := by
    split <;> simp
  unfold setAct
  split
  · rfl
  · exact (queues_foldl _ _ _ hslot).trans (by simp)

@[simp] theorem queues_shed (g : Nat) : queues (s.shed g) = queues s := by
  simp [shed]

@[simp] theorem queues_shedHold (n sub : Nat) : queues (s.shedHold n sub) = queues s := by
  simp [shedHold]

@[simp] theorem queues_setId (g : Nat) (v : IdM) : queues (s.setId g v) = queues s := by
  simp [setId]

@[simp] theorem queues_idSync (g : Nat) : queues (s.idSync g) = queues s := by
  simp [idSync, apply_ite queues]

@[simp] theorem queues_idTake (n : Nat) : queues (s.idTake n).2 = queues s := by
  simp [idTake, apply_ite queues, apply_ite Prod.snd]

@[simp] theorem queues_idSkip (n : Nat) (due : Bool) : queues (s.idSkip n due) = queues s := by
  simp [idSkip, apply_ite queues]

@[simp] theorem queues_fbC (n sub : Nat) : queues (s.fbC n sub).2 = queues s := by
  have h := queues_tcmIn s n sub
  unfold fbC
  split
  next t ht => rwa [ht] at h
  next x t ht =>
    rw [ht] at h
    dsimp only
    split <;> exact h

@[simp] theorem queues_tcmFallback (n sub : Nat) (was : Bool) : queues (s.tcmFallback n sub was) = queues s := by
  unfold tcmFallback
  dsimp only
  split
  next t ht => exact (queues_legBad ..).trans ((queues_setLeg ..).trans ((congrArg (fun r => queues r.2) ht).symm.trans (by simp)))
  next c t ht => exact (queues_setCmd ..).trans ((queues_setLeg ..).trans ((congrArg (fun r => queues r.2) ht).symm.trans (by simp)))

@[simp] theorem queues_meanOf (i k : Nat) : queues (s.meanOf i k).2 = queues s := by
  simp [meanOf, apply_ite queues, apply_ite Prod.snd]

@[simp] theorem queues_slotBegin (n t1 : Nat) (neg : Bool) (c1 l : F32) : queues (s.slotBegin n t1 neg c1 l).2 = queues s := by
  simp [slotBegin]

@[simp] theorem queues_tcmEval (n sub : Nat) (t : TcmIn) (neg seg zero cont due : Bool) : queues (s.tcmEval n sub t neg seg zero cont due) = queues s := by
  simp [tcmEval, apply_ite queues, apply_ite Prod.fst, apply_ite Prod.snd]

@[simp] theorem queues_tcmStart (n sub : Nat) (zero : Bool) : queues (s.tcmStart n sub zero) = queues s := by
  unfold tcmStart
  dsimp only
  rw [apply_ite queues]
  refine ite_eq_of_both (by simp [apply_ite queues]) ?_
  generalize hr : tcmIn _ n sub = r
  have h := congrArg (fun r => queues r.2) hr
  simp only [queues_tcmIn, queues_setBit, queues_setLeg, queues_carrierEvent, queues_idTake, apply_ite queues, queues_shed, queues_setCmd,
    queues_wrap, ite_self] at h
  obtain ⟨_ | x, t⟩ := r
  · simp [h]
  · simp [h]

@[simp] theorem queues_tcmPeriod (n sub : Nat) : queues (s.tcmPeriod n sub) = queues s := by
  simp [tcmPeriod, apply_ite queues]

@[simp] theorem queues_legRestore (n sub : Nat) : queues (s.legRestore n sub) = queues s := by
  simp [legRestore, apply_ite queues]

@[simp] theorem queues_tcmSecond (n sub : Nat) : queues (s.tcmSecond n sub) = queues s := by
  have h := queues_tcmIn s n sub
  unfold tcmSecond
  dsimp only
  split
  · rfl
  · split
    next t ht =>
      rw [ht] at h
      exact (queues_legBad ..).trans h
    next x t ht =>
      rw [ht] at h
      simpa [apply_ite queues] using h

@[simp] theorem queues_cpwmC (n sub : Nat) : queues (s.cpwmC n sub).2 = queues s := by
  have h := queues_fbC s n sub
  unfold cpwmC
  dsimp only
  split
  · split
    next t ht => rwa [ht] at h
    next c t ht => rwa [ht] at h
  · simp [apply_ite queues, apply_ite Prod.snd]

@[simp] theorem queues_ctrReload (n sub : Nat) (top : Bool) : queues (s.ctrReload n sub top) = queues s := by
  unfold ctrReload
  dsimp only
  split
  next t ht =>
    have h := congrArg (fun r => queues r.2) ht
    simp only [queues_cpwmC, apply_ite queues, queues_setLeg, queues_machReload, queues_reload, ite_self] at h
    simp [apply_ite queues, ← h]
  next c t ht =>
    have h := congrArg (fun r => queues r.2) ht
    simp only [queues_cpwmC, apply_ite queues, queues_setLeg, queues_machReload, queues_reload, ite_self] at h
    simp [apply_ite queues, ← h]

@[simp] theorem queues_fbLeave (n sub : Nat) : queues (s.fbLeave n sub) = queues s := by
  simp [fbLeave]

@[simp] theorem queues_fbPeriod (n : Nat) : queues (s.fbPeriod n) = queues s := by
  simp [fbPeriod, apply_ite queues]

@[simp] theorem queues_ctrZero (n sub : Nat) : queues (s.ctrZero n sub) = queues s := by
  simp [ctrZero, apply_ite queues]

@[simp] theorem queues_ctrPeak (n sub : Nat) : queues (s.ctrPeak n sub) = queues s := by
  simp [ctrPeak, apply_ite queues]

@[simp] theorem queues_ctrEdge (n : Nat) : queues (s.ctrEdge n) = queues s := by
  simp [ctrEdge, apply_ite queues]

@[simp] theorem queues_dirStart (n sub : Nat) : queues (s.dirStart n sub) = queues s := by
  simp [dirStart, apply_ite queues]

@[simp] theorem queues_dirOff (n : Nat) : queues (s.dirOff n) = queues s := by
  simp [dirOff, apply_ite queues]

@[simp] theorem queues_capEstimate (c : Nat) (m : SlotM) (k : Nat) (ts q : F32) : queues (s.capEstimate c m k ts q) = queues s := by
  simp [capEstimate, apply_ite queues]

@[simp] theorem queues_capDue (n : Nat) : queues (s.capDue n) = queues s := by
  unfold capDue
  split <;> simp [apply_ite queues]

@[simp] theorem queues_lcorrUpdate (n : Nat) : queues (s.lcorrUpdate n) = queues s := by
  unfold lcorrUpdate
  split <;> simp [apply_ite queues]

@[simp] theorem queues_slotCollect (m : Nat) : queues (s.slotCollect m) = queues s := by
  refine queues_each s 24 _ fun t n => ?_
  dsimp only
  split
  · split <;> simp
  · split <;> simp

@[simp] theorem queues_refreshBegin (n : Nat) : queues (s.refreshBegin n) = queues s := by
  simp [refreshBegin, apply_ite queues]

@[simp] theorem queues_refreshEnd (n : Nat) : queues (s.refreshEnd n) = queues s := by
  simp [refreshEnd, apply_ite queues]

@[simp] theorem queues_bootLatch (n : Nat) (forced : Bool) : queues (s.bootLatch n forced) = queues s := by
  simp [bootLatch]

@[simp] theorem queues_bootCheck (n : Nat) : queues (s.bootCheck n) = queues s := by
  simp [bootCheck, apply_ite queues]

@[simp] theorem queues_syncIn (falling : Bool) : queues (s.syncIn falling) = queues s := by
  simp [syncIn, apply_ite queues]

@[simp] theorem queues_syncDue (n : Nat) : queues (s.syncDue n) = queues s := by
  unfold syncDue
  split <;> simp [apply_ite queues]

@[simp] theorem queues_modTick (n : Nat) : queues (s.modTick n) = queues s := by
  simp [modTick]

@[simp] theorem queues_mapApply : queues s.mapApply = queues s := by
  unfold mapApply
  dsimp only
  split <;> simp [apply_ite queues]

@[simp] theorem queues_irefWrite (n a : Nat) (v : Word) : queues (s.irefWrite n a v).1 = queues s := by
  unfold irefWrite
  split
  · simp [apply_ite queues]
  · simp [shadowed]

@[simp] theorem queues_irefEngine (n : Nat) (v : Word) : queues (s.irefEngine n v) = queues s := by
  simp [irefEngine, apply_ite queues]

@[simp] theorem queues_legIraw (n : Nat) : queues (s.legIraw n) = queues s := by
  simp [legIraw]

@[simp] theorem queues_legWrite (n a : Nat) (v : Word) : queues (s.legWrite n a v).1 = queues s := by
  simp [legWrite, apply_ite queues, apply_ite Prod.fst, shadowed]

@[simp] theorem queues_mapCtlWrite (v : Word) : queues (s.mapCtlWrite v).1 = queues s := by
  simp [mapCtlWrite, apply_ite queues]

@[simp] theorem queues_legxWrite (a : Nat) (v : Word) : queues (s.legxWrite a v).1 = queues s := by
  simp [legxWrite, apply_ite queues, apply_ite Prod.fst]

@[simp] theorem queues_slotCommit (c k : Nat) : queues (s.slotCommit c k) = queues s := by
  simp [slotCommit, apply_ite queues]

@[simp] theorem queues_dcCommit (c : Nat) : queues (s.dcCommit c) = queues s := by
  simp [dcCommit, apply_ite queues]

@[simp] theorem queues_slotWritten (c k : Nat) : queues (s.slotWritten c k) = queues s := by
  simp [slotWritten, apply_ite queues]

@[simp] theorem queues_chCommit (c : Nat) : queues (s.chCommit c) = queues s := by
  simp [chCommit, apply_ite queues]

@[simp] theorem queues_shdwWrite (pg : Nat) (v : Word) : queues (s.shdwWrite pg v).1 = queues s := by
  simp [shdwWrite, apply_ite queues]

@[simp] theorem queues_dcLatch (c : Nat) : queues (s.dcLatch c) = queues s := by
  simp [dcLatch]

@[simp] theorem queues_curtBegin (c : Nat) : queues (s.curtBegin c) = queues s := by
  simp [curtBegin, apply_ite queues]

@[simp] theorem queues_scanAbandon (c : Nat) : queues (s.scanAbandon c) = queues s := by
  unfold scanAbandon
  dsimp only
  split <;> simp

@[simp] theorem queues_scanV (c j : Nat) : queues (s.scanV c j).2 = queues s := by
  simp [scanV]

@[simp] theorem queues_scanPeriod (c : Nat) (t : ScanM) : queues (s.scanPeriod c t) = queues s := by
  unfold scanPeriod
  dsimp only
  (repeat' split)
  all_goals simp

@[simp] theorem queues_scanStart (c : Nat) : queues (s.scanStart c) = queues s := by
  simp [scanStart]

@[simp] theorem queues_mpptUpdate (c : Nat) (pp pn : F32) : queues (s.mpptUpdate c pp pn) = queues s := by
  simp [mpptUpdate, apply_ite queues, apply_ite Prod.fst, apply_ite Prod.snd]

@[simp] theorem queues_halfStart (c : Nat) (neg : Bool) : queues (s.halfStart c neg) = queues s := by
  simp [halfStart, apply_ite queues, apply_ite Prod.fst, apply_ite Prod.snd]

@[simp] theorem queues_dcBoundary (c : Nat) : queues (s.dcBoundary c) = queues s := by
  unfold dcBoundary
  dsimp only
  (repeat' split)
  all_goals simp

@[simp] theorem queues_dcEntry (i : Nat) : queues (s.dcEntry i) = queues s := by
  simp [dcEntry, apply_ite queues]

@[simp] theorem queues_dcSample (m : Nat) : queues (s.dcSample m) = queues s := by
  refine queues_each s 8 _ fun t c => ?_
  dsimp only
  split
  · rfl
  · split
    · simp
    · split
      · rfl
      · split
        · simp
        · split <;> simp

@[simp] theorem queues_dcStart (c : Nat) : queues (s.dcStart c) = queues s := by
  simp [dcStart]

@[simp] theorem queues_dcStarted (c : Nat) : queues (s.dcStarted c) = queues s := by
  simp [dcStarted, apply_ite queues]

@[simp] theorem queues_dcOut (c : Nat) : queues (s.dcOut c) = queues s := by
  simp [dcOut, apply_ite queues]

@[simp] theorem queues_dcBreak (c : Nat) : queues (s.dcBreak c) = queues s := by
  simp [dcBreak, apply_ite queues]

@[simp] theorem queues_chargeDone (c : Nat) : queues (s.chargeDone c) = queues s := by
  simp [chargeDone, apply_ite queues]

@[simp] theorem queues_scanFall (c : Nat) : queues (s.scanFall c) = queues s := by
  simp [scanFall, apply_ite queues]

@[simp] theorem queues_demands (c : Nat) : queues (s.demands c).2.2 = queues s := by
  simp [demands, apply_ite queues, apply_ite Prod.snd]

@[simp] theorem queues_iqRide (c : Nat) : queues (s.iqRide c).2 = queues s := by
  simp [iqRide, apply_ite queues, apply_ite Prod.snd]

@[simp] theorem queues_rest (a x : F32) : queues (s.rest a x).2 = queues s := by
  simp [rest]

@[simp] theorem queues_unlimit (d : Nat) : queues (s.unlimit d) = queues s := by
  simp [unlimit, apply_ite queues]

@[simp] theorem queues_linkSync : queues s.linkSync = queues s := by
  simp [linkSync, apply_ite queues]

@[simp] theorem queues_dcLink (g : Nat) : queues (s.dcLink g) = queues s := by
  simp [dcLink, apply_ite queues]

@[simp] theorem queues_mtrReason (c r : Nat) : queues (s.mtrReason c r) = queues s := by
  unfold mtrReason
  dsimp only
  split <;> simp

@[simp] theorem queues_allocWrite (c : Nat) (d q h : F32) (rp rq rh : Nat) (a : F32) : queues (s.allocWrite c d q h rp rq rh a) = queues s := by
  simp [allocWrite]

@[simp] theorem queues_grantsZero : queues s.grantsZero = queues s := by
  simp [grantsZero, apply_ite queues]

@[simp] theorem queues_allocStat : queues s.allocStat = queues s := by
  simp [allocStat]

@[simp] theorem queues_setDelayed (c : Nat) (v : Bool) : queues (s.setDelayed c v) = queues s := by
  simp [setDelayed]

@[simp] theorem queues_rampLim (c : Nat) (on : Bool) (prev : F32) : queues (s.rampLim c on prev).2 = queues s := by
  simp [rampLim, apply_ite queues, apply_ite Prod.snd]

@[simp] theorem queues_stepped (c : Nat) (prev x : F32) : queues (s.stepped c prev x).2.2 = queues s := by
  simp [stepped, apply_ite Prod.snd]

@[simp] theorem queues_setVilim (c : Nat) (v : Bool) : queues (s.setVilim c v) = queues s := by
  simp [setVilim, apply_ite queues]

/-- The view of a grant's words and reasons with the state they leave. -/
def grantQueues (r : F32 × F32 × Nat × Nat × State) : List BufWord × Prop := queues r.2.2.2.2

@[simp] theorem queues_allocRun (c : Nat) : queues (s.allocRun c) = queues s := by
  have rnd {t : State} (x : Rat) (h : queues t = queues s) : queues (t.rnd x).2 = queues s := (queues_rnd t x).trans h
  have rest {t : State} (a x : F32) (h : queues t = queues s) : queues (t.rest a x).2 = queues s := (queues_rest t a x).trans h
  rw [allocRun]
  split
  · rfl
  extract_lets +onlyGivenNames s1 m mc
  have h1 : queues s1 = queues s := queues_wrap ..
  clear_value s1 m mc
  split
  · simp [h1]
  extract_lets +onlyGivenNames kt kage ir fp
  refine queues_pair queues (fun _ _ _ => rfl) (rnd _ h1) fun e s2 h2 => ?_
  refine queues_pair queues (fun _ _ _ => rfl) (rnd _ h2) fun a0 s3 h3 => ?_
  refine queues_pair queues (fun _ _ _ => rfl) (rnd _ h3) fun au s4 h4 => ?_
  extract_lets +onlyGivenNames k
  refine queues_pair queues (fun _ _ _ => rfl) ?_ fun a s5 h5 => ?_
  · split
    · exact h4
    · exact rnd _ h4
  refine queues_triple queues (fun _ _ _ _ => rfl) ((queues_demands ..).trans h5) fun dd dq s6 h6 => ?_
  extract_lets +onlyGivenNames md mq dh why first s7
  have h7 : queues s7 = queues s := by simp [s7, apply_ite queues, h6]
  clear_value s7
  have h8 := (queues_setCh s7 c { s7.ch c with entRamp := false }).trans h7
  generalize s7.setCh c { s7.ch c with entRamp := false } = s8 at h8 ⊢
  extract_lets +onlyGivenNames s8' late prev
  refine queues_pair queues (fun _ _ _ => rfl) ((queues_rampLim ..).trans h8) fun lim s9 h9 => ?_
  refine queues_quintuple queues (fun _ _ _ _ _ _ => rfl) ?_ fun d q rp rq s10 h10 => ?_
  · change grantQueues _ = _
    split
    · refine queues_pair grantQueues (fun _ _ _ => rfl) ((queues_iqRide ..).trans h9) fun iq t ht => ?_
      extract_lets +onlyGivenNames q
      refine queues_pair grantQueues (fun _ _ _ => rfl) (rest _ _ ht) fun room t ht => ?_
      exact queues_plain grantQueues (fun _ _ _ => rfl) fun _ _ => ht
    split
    · refine queues_pair grantQueues (fun _ _ _ => rfl) ((queues_root ..).trans h9) fun mag t ht => ?_
      split
      · extract_lets +onlyGivenNames f
        refine queues_pair grantQueues (fun _ _ _ => rfl) (rnd _ ht) fun d t ht => ?_
        refine queues_pair grantQueues (fun _ _ _ => rfl) (rnd _ ht) fun q t ht => ?_
        extract_lets +onlyGivenNames r
        exact queues_plain grantQueues (fun _ _ _ => rfl) fun _ _ => (queues_setVilim ..).trans ht
      · exact queues_plain grantQueues (fun _ _ _ => rfl) fun _ _ => (queues_setVilim ..).trans ht
    split
    · refine queues_plain grantQueues (fun _ _ _ => rfl) fun p bind => ?_
      refine queues_pair grantQueues (fun _ _ _ => rfl) (rest _ _ h9) fun room t ht => ?_
      extract_lets +onlyGivenNames q
      refine queues_pair grantQueues (fun _ _ _ => rfl) (rest _ _ ht) fun _ t ht => ?_
      exact ht
    · extract_lets +onlyGivenNames q
      refine queues_pair grantQueues (fun _ _ _ => rfl) (rest _ _ h9) fun room t ht => ?_
      refine queues_plain grantQueues (fun _ _ _ => rfl) fun p bind => ?_
      refine queues_pair grantQueues (fun _ _ _ => rfl) (rest _ _ ht) fun _ t ht => ?_
      exact ht
  refine queues_quintuple queues (fun _ _ _ _ _ _ => rfl) ?_ fun d q rp rq s11 h11 => ?_
  · change grantQueues _ = _
    split
    · refine queues_triple grantQueues (fun _ _ _ _ => rfl) ((queues_stepped ..).trans h10) fun d' b1 t ht => ?_
      exact queues_triple grantQueues (fun _ _ _ _ => rfl) ((queues_stepped ..).trans ht) fun q' b2 t ht =>
        (queues_setCh ..).trans ht
    · exact h10
  refine queues_pair queues (fun _ _ _ => rfl) ((queues_root ..).trans h11) fun mag s12 h12 => ?_
  extract_lets +onlyGivenNames fits h refused s13 s14 s15 s16 s17
  have h13 : queues s13 = queues s := by simp [s13, apply_ite queues, h12]
  have h14 : queues s14 = queues s := by simp [s14, apply_ite queues, h13]
  simp [s17, s16, s15, apply_ite queues, h14]

@[simp] theorem queues_formStat (c : Nat) : queues (s.formStat c) = queues s := by
  simp [formStat]

@[simp] theorem queues_formUpdate (c : Nat) : queues (s.formUpdate c) = queues s := by
  simp [formUpdate, apply_ite queues]

@[simp] theorem queues_formFall (c : Nat) (forced : Bool) : queues (s.formFall c forced) = queues s := by
  simp [formFall, apply_ite queues]

end
end State
end Sys2Proof.Machine
end

section
/-! SUPPORT. The write buffer and the bound of the journal queue are left as they are by forming, the ride, islanding, the loop engine and metrology. -/

namespace Sys2Proof.Machine
namespace State

section
variable (s : State)

@[simp] theorem queues_formFallback (c : Nat) : queues (s.formFallback c) = queues s := by
  simp [formFallback, apply_ite queues]

@[simp] theorem queues_formReturn (c : Nat) : queues (s.formReturn c) = queues s := by
  simp [formReturn, apply_ite queues]

@[simp] theorem queues_deadQualify (c : Nat) : queues (s.deadQualify c) = queues s := by
  simp [deadQualify, apply_ite queues]

@[simp] theorem queues_deadSync (p : Nat) : queues (s.deadSync p) = queues s := by
  simp [deadSync, apply_ite queues]

@[simp] theorem queues_formTransfer (c : Nat) : queues (s.formTransfer c) = queues s := by
  simp [formTransfer]

@[simp] theorem queues_formDead (c : Nat) : queues (s.formDead c) = queues s := by
  simp [formDead]

@[simp] theorem queues_formRisen (c : Nat) : queues (s.formRisen c) = queues s := by
  simp [formRisen]

@[simp] theorem queues_formEnter (dead : Bool) : queues (s.formEnter dead) = queues s := by
  simp [formEnter, apply_ite queues]

@[simp] theorem queues_formLeave (ride follow : Bool) : queues (s.formLeave ride follow) = queues s := by
  simp [formLeave, apply_ite queues]

@[simp] theorem queues_formWrite (a : Nat) (v : Word) : queues (s.formWrite a v).1 = queues s := by
  simp [formWrite, apply_ite queues, apply_ite Prod.fst]

@[simp] theorem queues_slotPut (c k a : Nat) (v : Word) : queues (s.slotPut c k a v).1 = queues s := by
  simp [slotPut, apply_ite queues, apply_ite Prod.fst]

@[simp] theorem queues_slotWrite (c k a : Nat) (v : Word) : queues (s.slotWrite c k a v).1 = queues s := by
  simp [slotWrite, apply_ite queues, apply_ite Prod.fst]

@[simp] theorem queues_slotEngine (c k : Nat) (v : Word) : queues (s.slotEngine c k v) = queues s := by
  simp [slotEngine, apply_ite queues]

@[simp] theorem queues_chOwnerWrite (c a : Nat) (v : Word) : queues (s.chOwnerWrite c a v).1 = queues s := by
  simp [chOwnerWrite, apply_ite queues]

@[simp] theorem queues_chWrite (c a : Nat) (v : Word) : queues (s.chWrite c a v).1 = queues s := by
  simp [chWrite, apply_ite queues, apply_ite Prod.fst]

@[simp] theorem queues_allocPageWrite (a : Nat) (v : Word) : queues (s.allocPageWrite a v).1 = queues s := by
  simp [allocPageWrite, apply_ite queues, apply_ite Prod.fst]

@[simp] theorem queues_rideMeasure (p : Nat) : queues (s.rideMeasure p) = queues s := by
  simp [rideMeasure, apply_ite queues, apply_ite Prod.fst, apply_ite Prod.snd]

@[simp] theorem queues_setRideTimer (key : Nat) (v : Option Nat) : queues (s.setRideTimer key v) = queues s := by
  simp [setRideTimer]

@[simp] theorem queues_rideTimers (p dt : Nat) : queues (s.rideTimers p dt) = queues s := by
  simp [rideTimers, apply_ite queues]

@[simp] theorem queues_mcBegin : queues s.mcBegin = queues s := by
  simp [mcBegin, apply_ite queues]

@[simp] theorem queues_mcEnd : queues s.mcEnd = queues s := by
  simp [mcEnd, apply_ite queues]

@[simp] theorem queues_rideMc : queues s.rideMc = queues s := by
  simp [rideMc, apply_ite queues]

@[simp] theorem queues_rideUpdate (p : Nat) : queues (s.rideUpdate p) = queues s := by
  simp [rideUpdate, apply_ite queues]

@[simp] theorem queues_rideCross : queues s.rideCross = queues s := by
  unfold rideCross
  dsimp only
  (repeat' split)
  all_goals simp

@[simp] theorem queues_rideEnter : queues s.rideEnter = queues s := by
  simp [rideEnter, apply_ite queues]

@[simp] theorem queues_rideLeave : queues s.rideLeave = queues s := by
  simp [rideLeave, apply_ite queues]

@[simp] theorem queues_rideWrite (a : Nat) (v : Word) : queues (s.rideWrite a v).1 = queues s := by
  simp [rideWrite, apply_ite queues, apply_ite Prod.fst]

@[simp] theorem queues_setZport (p : Nat) (z : ZPort) : queues (s.setZport p z) = queues s := by
  simp [setZport, apply_ite queues]

@[simp] theorem queues_islClear (p : Nat) : queues (s.islClear p) = queues s := by
  simp [islClear]

@[simp] theorem queues_islClearAll : queues s.islClearAll = queues s := by
  simp [islClearAll]

@[simp] theorem queues_islServed : queues s.islServed = queues s := by
  simp [islServed, apply_ite queues]

@[simp] theorem queues_islDeclare (src p : Nat) : queues (s.islDeclare src p) = queues s := by
  simp [islDeclare, apply_ite queues]

@[simp] theorem queues_injSync : queues s.injSync = queues s := by
  simp [injSync, apply_ite queues]

@[simp] theorem queues_islUpdate (p : Nat) : queues (s.islUpdate p) = queues s := by
  simp [islUpdate, apply_ite queues]

@[simp] theorem queues_rocofDetect (p : Nat) : queues (s.rocofDetect p) = queues s := by
  simp [rocofDetect, apply_ite queues]

@[simp] theorem queues_afdDeclare : queues s.afdDeclare = queues s := by
  simp [afdDeclare, apply_ite queues]

@[simp] theorem queues_zTest (p : Nat) (zr zi : F32) : queues (s.zTest p zr zi).2.2 = queues s := by
  simp [zTest]

@[simp] theorem queues_zAccept (p : Nat) (zr zi : F32) : queues (s.zAccept p zr zi) = queues s := by
  unfold zAccept
  extract_lets +onlyGivenNames u armed wins ride
  have hu : queues u = queues s := by simp [u]
  clear_value u armed wins ride
  rw [← hu]
  split
  · split
    · rfl
    · simp [apply_ite queues]
  · extract_lets +onlyGivenNames test
    have hz : queues (if test then u.zTest p zr zi else (false, false, u)).2.2 = queues u := by split <;> simp
    generalize (if test then u.zTest p zr zi else (false, false, u)) = r at hz ⊢
    obtain ⟨mag, ang, v⟩ := r
    simp [apply_ite queues, hz]

@[simp] theorem queues_zWindow (p : Nat) : queues (s.zWindow p) = queues s := by
  simp [zWindow, apply_ite queues, apply_ite Prod.fst, apply_ite Prod.snd]

@[simp] theorem queues_probeBoundary : queues s.probeBoundary = queues s := by
  simp [probeBoundary, apply_ite queues]

@[simp] theorem queues_holdSync : queues s.holdSync = queues s := by
  simp [holdSync, apply_ite queues]

@[simp] theorem queues_holdExpire : queues s.holdExpire = queues s := by
  simp [holdExpire, apply_ite queues]

@[simp] theorem queues_probeInject (on : Bool) : queues (s.probeInject on) = queues s := by
  simp [probeInject]

@[simp] theorem queues_probeWords : queues s.probeWords = queues s := by
  simp [probeWords, apply_ite queues]

@[simp] theorem queues_islPut (a : Nat) (v : Word) : queues (s.islPut a v).1 = queues s := by
  simp [islPut, apply_ite queues, apply_ite Prod.fst]

@[simp] theorem queues_islWrite (a : Nat) (v : Word) : queues (s.islWrite a v).1 = queues s := by
  simp [islWrite]

@[simp] theorem queues_sigRead (x : LoopRun) (a : Nat) : queues (s.sigRead x a).1 = queues s := by
  simp [sigRead, apply_ite queues, apply_ite Prod.fst]

@[simp] theorem queues_operand (x : LoopRun) (a : Nat) (stride : Bool) (n : Nat) : queues (s.operand x a stride n).1 = queues s := by
  refine queues_foldl_fst _ _ (fun p k => ?_) (s, [], false)
  exact queues_sigRead p.1 x _

@[simp] theorem queues_param (x : LoopRun) (w : List Word) (g i : Nat) : queues (s.param x w g i).1 = queues s := by
  simp [param, apply_ite queues, apply_ite Prod.fst]

@[simp] theorem queues_params (x : LoopRun) (w : List Word) (n : Nat) : queues (s.params x w n).1 = queues s := by
  refine queues_foldl_fst _ _ (fun p i => ?_) (s, [], false)
  exact queues_param p.1 x w _ i

@[simp] theorem queues_stWords (x : LoopRun) (k : Nat) : queues (s.stWords x k).1 = queues s := by
  simp [stWords]

@[simp] theorem queues_put4 (a : Nat) (l : List Word) (p : Bool) : queues (s.put4 a l p) = queues s := by
  simp [put4]

@[simp] theorem queues_putWords (x : LoopRun) (k : Nat) (l : List Word) : queues (s.putWords x k l) = queues s := by
  simp [putWords]

@[simp] theorem queues_putSlot (x : LoopRun) (k : Nat) (l : List Word) (p : Bool) : queues (s.putSlot x k l p) = queues s := by
  simp [putSlot]

@[simp] theorem queues_outLeg (c n : Nat) (v : Word) : queues (s.outLeg c n v) = queues s := by
  simp [outLeg, apply_ite queues]

@[simp] theorem queues_outShared (l : List Word) (i : Nat) : queues (s.outShared i l) = queues s := by
  induction s, i, l using outShared.induct with
  | case1 => rfl
  | case2 s i v => exact queues_write32 ..
  | case3 s i v w r h ih => rw [outShared, if_pos h, ih, queues_write64]
  | case4 s i v w r h ih => rw [outShared, if_neg h, ih, queues_write32]

@[simp] theorem queues_outWrite (c cls i : Nat) (v : Word) : queues (s.outWrite c cls i v) = queues s := by
  unfold outWrite
  split
  · simp
  · split
    · simp
    · split
      · split <;> simp
      · simp [apply_ite queues]

@[simp] theorem queues_lengLevels : queues s.lengLevels = queues s := by
  simp [lengLevels]

@[simp] theorem queues_lengShed : queues s.lengShed = queues s := by
  simp [lengShed, apply_ite queues]

@[simp] theorem queues_loopTrigger (d : Nat) : queues (s.loopTrigger d) = queues s := by
  simp [loopTrigger, apply_ite queues]

@[simp] theorem queues_loopReady (m : Nat) : queues (s.loopReady m) = queues s := by
  simp [loopReady, apply_ite queues]

@[simp] theorem queues_loopTierGo (t : Nat) : queues (s.loopTierGo t) = queues s := by
  simp [loopTierGo, apply_ite queues]

@[simp] theorem queues_lengGate : queues s.lengGate = queues s := by
  simp [lengGate]

@[simp] theorem queues_lengEmpty : queues s.lengEmpty = queues s := by
  simp [lengEmpty]

@[simp] theorem queues_descRead (d : Nat) : queues (s.descRead d).1 = queues s := by
  unfold descRead
  dsimp only
  split
  · simp
  · refine (queues_foldl_fst _ _ (fun p k => ?_) _).trans (queues_readWords 16 s _)
    exact queues_readWords 8 p.1 _

@[simp] theorem queues_admCheck (l : List Nat) : ∀ (s : State) (k : List Submit), queues (s.admCheck l k).1 = queues s := by
  induction l with
  | nil => intro s k; rfl
  | cons d l ih =>
    intro s k
    unfold admCheck
    dsimp only
    split
    · exact queues_descRead s d
    · exact (ih _ _).trans (queues_descRead s d)

@[simp] theorem queues_admSwitch (l : List Submit) : queues (s.admSwitch l) = queues s := by
  simp [admSwitch]

@[simp] theorem queues_admitWrite (v : Word) : queues (s.admitWrite v).1 = queues s := by
  simp [admitWrite, apply_ite queues, apply_ite Prod.fst]

@[simp] theorem queues_admDone : queues s.admDone = queues s := by
  unfold admDone
  split <;> simp [apply_ite queues]

@[simp] theorem queues_loopRegion (x : LoopRun) (h : List Word) : queues (s.loopRegion x h) = queues s := by
  unfold loopRegion
  dsimp only
  (repeat' split)
  all_goals simp

@[simp] theorem queues_loopRun (d : Nat) : queues (s.loopRun d) = queues s := by
  simp [loopRun, apply_ite queues]

@[simp] theorem queues_loopStart : queues s.loopStart = queues s := by
  unfold loopStart
  dsimp only
  (repeat' split)
  all_goals simp

@[simp] theorem queues_stageEnd (acc : LoopAcc) (x : LoopRun) (k : Nat) (pois old : Bool) (ops y : List F32) (nw : Option (List Word)) :
    queues (stageEnd acc x k pois old ops y nw).1.s = queues acc.s := by
  have hnew (t : State) : queues (match nw with
      | none => t
      | some l => t.putWords x k l) = queues t := by
    cases nw with
    | none => rfl
    | some l => exact queues_putWords ..
  rw [stageEnd]
  split
  · simp [apply_ite queues]
  split
  · rfl
  · exact (hnew _).trans (queues_putSlot ..)

@[simp] theorem queues_stagePlain (acc : LoopAcc) (x : LoopRun) (k : Nat) (w : List Word) : queues (stagePlain acc x k w).s = queues acc.s := by
  simp [stagePlain, queues_foldl_fst, apply_ite queues, apply_ite Prod.fst]

@[simp] theorem queues_stagePi (acc : LoopAcc) (x : LoopRun) (k : Nat) (w : List Word) : queues (stagePi acc x k w).s = queues acc.s := by
  simp [stagePi, apply_ite queues, apply_ite Prod.fst, apply_ite LoopAcc.s]

@[simp] theorem queues_stageFilter (acc : LoopAcc) (x : LoopRun) (k : Nat) (w : List Word) : queues (stageFilter acc x k w).s = queues acc.s := by
  simp [stageFilter, apply_ite queues, apply_ite Prod.fst]

@[simp] theorem queues_stageDly (acc : LoopAcc) (x : LoopRun) (k : Nat) (w : List Word) : queues (stageDly acc x k w).s = queues acc.s := by
  simp [stageDly]

@[simp] theorem queues_stageLim (acc : LoopAcc) (x : LoopRun) (k : Nat) (w : List Word) : queues (stageLim acc x k w).s = queues acc.s := by
  simp [stageLim, apply_ite queues, apply_ite Prod.fst, apply_ite LoopAcc.s]

@[simp] theorem queues_stageXfm (acc : LoopAcc) (x : LoopRun) (k : Nat) (w : List Word) : queues (stageXfm acc x k w).s = queues acc.s := by
  simp [stageXfm, apply_ite queues, apply_ite Prod.fst]

@[simp] theorem queues_stageOut (acc : LoopAcc) (x : LoopRun) (w : List Word) : queues (stageOut acc x w).s = queues acc.s := by
  simp [stageOut, apply_ite queues, apply_ite LoopAcc.s]

@[simp] theorem queues_stageRun (acc : LoopAcc) (x : LoopRun) (k : Nat) : queues (stageRun acc x k).s = queues acc.s := by
  simp [stageRun, apply_ite queues, apply_ite LoopAcc.s]

@[simp] theorem queues_stagesRun (x : LoopRun) : queues (s.stagesRun x).s = queues s := by
  rw [stagesRun]
  split
  · rfl
  · exact List.foldlRecOn (motive := fun acc : LoopAcc => queues acc.s = queues s) _ _ rfl fun acc h k _ => (queues_stageRun acc x k).trans h

@[simp] theorem queues_loopEnd (d : Nat) : queues (s.loopEnd d) = queues s := by
  rw [loopEnd]
  split
  · rfl
  next r _ =>
    have hrun : queues (({ s with leng := { s.leng with lanes := s.leng.lanes.erase r } }).stagesRun r).s = queues s := queues_stagesRun ..
    generalize ({ s with leng := { s.leng with lanes := s.leng.lanes.erase r } } : State).stagesRun r = acc at hrun ⊢
    simp [apply_ite queues, hrun]

@[simp] theorem queues_lengWrite (a : Nat) (v : Word) : queues (s.lengWrite a v).1 = queues s := by
  simp [lengWrite, apply_ite queues, apply_ite Prod.fst]

@[simp] theorem queues_lengReset : queues s.lengReset = queues s := by
  simp [lengReset]

@[simp] theorem queues_mtrLevels : queues s.mtrLevels = queues s := by
  simp [mtrLevels]

@[simp] theorem queues_ivalOpen (p t : Nat) : queues (s.ivalOpen p t) = queues s := by
  simp [ivalOpen]

@[simp] theorem queues_ivalLast (p : Nat) (f : Ival → Ival) : queues (s.ivalLast p f) = queues s := by
  unfold ivalLast
  dsimp only
  split <;> simp

@[simp] theorem queues_intervalClose (p : Nat) : queues (s.intervalClose p) = queues s := by
  unfold intervalClose
  dsimp only
  (repeat' split)
  all_goals simp

@[simp] theorem queues_ivalPublish (p : Nat) : queues (s.ivalPublish p) = queues s := by
  unfold ivalPublish
  dsimp only
  (repeat' split)
  all_goals simp

@[simp] theorem queues_pulseQuantum (k : Nat) : queues (s.pulseQuantum k) = queues s := by
  simp [pulseQuantum, apply_ite queues]

@[simp] theorem queues_pulseDue (k n : Nat) : ∀ s : State, queues (s.pulseDue k n) = queues s := by
  induction n with
  | zero => intro s; rfl
  | succ n ih => intro s; simp [pulseDue, apply_ite queues, ih]

@[simp] theorem queues_pulseCount (p q d : Nat) : queues (s.pulseCount p q d) = queues s := by
  simp [pulseCount, apply_ite queues]

@[simp] theorem queues_pulseEmit (k : Nat) : queues (s.pulseEmit k) = queues s := by
  simp [pulseEmit, apply_ite queues]

@[simp] theorem queues_pulseEnd (k : Nat) : queues (s.pulseEnd k) = queues s := by
  simp [pulseEnd]

@[simp] theorem queues_mtrCross (p : Nat) (x : Rat) : queues (s.mtrCross p x) = queues s := by
  unfold mtrCross
  dsimp only
  (repeat' split)
  all_goals simp

@[simp] theorem queues_mtrCycle (p : Nat) (v : F32) : queues (s.mtrCycle p v) = queues s := by
  unfold mtrCycle
  dsimp only
  (repeat' split)
  all_goals simp

@[simp] theorem queues_mtrRms (p k : Nat) (h : List (List F32)) (n : Nat) : queues (s.mtrRms p k h n).2 = queues s := by
  simp [mtrRms]

@[simp] theorem queues_mtrPf (p a : F32) : queues (s.mtrPf p a).2 = queues s := by
  simp [mtrPf, apply_ite queues, apply_ite Prod.snd]

@[simp] theorem queues_mtrPhase (p k : Nat) (h : List (List F32)) (n : Nat) : queues (s.mtrPhase p k h n) = queues s := by
  simp [mtrPhase, apply_ite queues, apply_ite Prod.fst, apply_ite Prod.snd]

@[simp] theorem queues_mtrEnergy (p t : Nat) : queues (s.mtrEnergy p t) = queues s := by
  simp [mtrEnergy, apply_ite queues, apply_ite Prod.fst, apply_ite Prod.snd]

@[simp] theorem queues_ivalSample (p t : Nat) : queues (s.ivalSample p t) = queues s := by
  unfold ivalSample
  dsimp only
  (repeat' split)
  all_goals simp

@[simp] theorem queues_mtrSample (p : Nat) (raw : List (BitVec 24)) (lead : List Int) : queues (s.mtrSample p raw lead) = queues s := by
  rw [mtrSample]
  split
  · rfl
  extract_lets +onlyGivenNames r s1 m hist
  have h1 : queues s1 = queues s := by simp [s1, apply_ite queues]
  clear_value s1
  refine queues_pair queues (fun _ _ _ => rfl) ?_ fun ys s2 h2 => ?_
  · refine (queues_foldl_snd _ _ (fun a k => ?_) _).trans h1
    obtain ⟨l, t⟩ := a
    simp [apply_ite queues, apply_ite Prod.snd]
  extract_lets +onlyGivenNames h0
  refine queues_pair queues (fun _ _ _ => rfl) ?_ fun qs s3 h3 => ?_
  · refine (queues_foldl_snd _ _ (fun a k => ?_) _).trans h2
    simp
  simp [apply_ite queues, apply_ite Prod.snd, h3]

@[simp] theorem queues_mtrZcto (p : Nat) : queues (s.mtrZcto p) = queues s := by
  simp [mtrZcto, apply_ite queues]

@[simp] theorem queues_harmonic (b : List (List F32)) (cyc k h : Nat) : queues (s.harmonic b cyc k h).2 = queues s := by
  simp [harmonic]

@[simp] theorem queues_harmonicDone (p : Nat) : queues (s.harmonicDone p) = queues s := by
  rw [harmonicDone]
  dsimp only
  split
  · rfl
  · simp [queues_foldl_snd, apply_ite queues, apply_ite Prod.snd]

@[simp] theorem queues_mtreSnap : queues s.mtreSnap = queues s := by
  simp [mtreSnap]

@[simp] theorem queues_presetWrite (a : Nat) (v : Word) : queues (s.presetWrite a v).1 = queues s := by
  simp [presetWrite, apply_ite queues, apply_ite Prod.fst]

@[simp] theorem queues_mtreWrite (a : Nat) (v : Word) : queues (s.mtreWrite a v).1 = queues s := by
  simp [mtreWrite, apply_ite queues, apply_ite Prod.fst]

@[simp] theorem queues_mtrPcfg (p a : Nat) (v : Word) : queues (s.mtrPcfg p a v).1 = queues s := by
  simp [mtrPcfg, apply_ite queues, apply_ite Prod.fst]

end
end State
end Sys2Proof.Machine
end

section
/-! SUPPORT. The write buffer and the bound of the journal queue are left as they are by the clock, the time, the network, the modes, the safe stop, the setpoints and the streams. -/

namespace Sys2Proof.Machine
namespace State

section
variable (s : State)

@[simp] theorem queues_mtrWrite (a : Nat) (v : Word) : queues (s.mtrWrite a v).1 = queues s := by
  simp [mtrWrite, apply_ite queues, apply_ite Prod.fst]

@[simp] theorem queues_mtrReset : queues s.mtrReset = queues s := by
  simp [mtrReset]

@[simp] theorem queues_clkUpdWrite (v : Word) : queues (s.clkUpdWrite v).1 = queues s := by
  simp [clkUpdWrite, apply_ite queues, apply_ite Prod.fst]

@[simp] theorem queues_clkUnlockRaise : queues s.clkUnlockRaise = queues s := by
  simp [clkUnlockRaise, apply_ite queues]

@[simp] theorem queues_clkRelocked : queues s.clkRelocked = queues s := by
  simp [clkRelocked, apply_ite queues]

@[simp] theorem queues_servoSeen (d : Nat) : queues (s.servoSeen d) = queues s := by
  simp [servoSeen, apply_ite queues]

@[simp] theorem queues_incWrite (k : Nat) (v : Word) : queues (s.incWrite k v).1 = queues s := by
  simp [incWrite, apply_ite queues, apply_ite Prod.fst]

@[simp] theorem queues_timeSwitch (k : Nat) : queues (s.timeSwitch k) = queues s := by
  simp [timeSwitch, apply_ite queues]

@[simp] theorem queues_activeWrite (k : Nat) : queues (s.activeWrite k) = queues s := by
  simp [activeWrite]

@[simp] theorem queues_timeSnap : queues s.timeSnap = queues s := by
  simp [timeSnap]

@[simp] theorem queues_timeCtlWrite (v : Word) : queues (s.timeCtlWrite v).1 = queues s := by
  simp [timeCtlWrite, apply_ite queues]

@[simp] theorem queues_leapCtlWrite (v : Word) : queues (s.leapCtlWrite v).1 = queues s := by
  simp [leapCtlWrite, apply_ite queues, apply_ite Prod.fst]

@[simp] theorem queues_netLeap : queues s.netLeap = queues s := by
  simp [netLeap, apply_ite queues]

@[simp] theorem queues_leapApply : queues s.leapApply = queues s := by
  simp [leapApply, apply_ite queues]

@[simp] theorem queues_setTxFifo (p : Nat) (l : List TxStamp) : queues (s.setTxFifo p l) = queues s := by
  simp [setTxFifo, apply_ite queues]

@[simp] theorem queues_txPush (p : Nat) (t : TxStamp) : queues (s.txPush p t) = queues s := by
  simp [txPush, apply_ite queues]

@[simp] theorem queues_txPopWrite (v : Word) : queues (s.txPopWrite v).1 = queues s := by
  unfold txPopWrite
  dsimp only
  (repeat' split)
  all_goals simp

@[simp] theorem queues_ppsIn (falling : Bool) (sub : Nat) : queues (s.ppsIn falling sub) = queues s := by
  simp [ppsIn, apply_ite queues]

@[simp] theorem queues_ppsTick : queues s.ppsTick = queues s := by
  unfold ppsTick
  split <;> simp

@[simp] theorem queues_ppsPulse : queues s.ppsPulse = queues s := by
  simp [ppsPulse, apply_ite queues]

@[simp] theorem queues_ppsFall : queues s.ppsFall = queues s := by
  simp [ppsFall, apply_ite queues]

@[simp] theorem queues_ppsMoved : queues s.ppsMoved = queues s := by
  simp [ppsMoved]

@[simp] theorem queues_trgWrite (n : Nat) (v : Word) : queues (s.trgWrite n v).1 = queues s := by
  simp [trgWrite, apply_ite queues, apply_ite Prod.fst]

@[simp] theorem queues_timeWrite (a : Nat) (v : Word) : queues (s.timeWrite a v).1 = queues s := by
  simp [timeWrite, apply_ite queues, apply_ite Prod.fst]

@[simp] theorem queues_clkWrite (a : Nat) (v : Word) : queues (s.clkWrite a v).1 = queues s := by
  simp [clkWrite, apply_ite queues, apply_ite Prod.fst]

@[simp] theorem queues_timeCount : queues s.timeCount = queues s := by
  simp [timeCount]

@[simp] theorem queues_timeSlew : queues s.timeSlew = queues s := by
  unfold timeSlew
  split <;> simp

@[simp] theorem queues_timeTick : queues s.timeTick = queues s := by
  simp [timeTick, apply_ite queues]

@[simp] theorem queues_carrierRestart (c : Nat) : queues (s.carrierRestart c) = queues s := by
  simp [carrierRestart, apply_ite queues]

@[simp] theorem queues_trgOne (n : Nat) : queues (s.trgOne n) = queues s := by
  simp [trgOne, apply_ite queues]

@[simp] theorem queues_timeOrder (n : Nat) : queues (s.timeOrder n) = queues s := by
  simp [timeOrder]

@[simp] theorem queues_trgFire (n : Nat) : queues (s.trgFire n) = queues s := by
  simp [trgFire]

@[simp] theorem queues_linkFall (p : Nat) : queues (s.linkFall p) = queues s := by
  simp [linkFall, apply_ite queues]

@[simp] theorem queues_netDown : queues s.netDown = queues s := by
  simp [netDown]

@[simp] theorem queues_pcfgWrite (p a : Nat) (v : Word) : queues (s.pcfgWrite p a v).1 = queues s := by
  simp [pcfgWrite, apply_ite queues, apply_ite Prod.fst]

@[simp] theorem queues_strmLost (k n : Nat) : queues (s.strmLost k n) = queues s := by
  simp [strmLost]

@[simp] theorem queues_strmCopies (k fs : Nat) (g : QFrame → QFrame) : queues (s.strmCopies k fs g) = queues s := by
  simp [strmCopies]

@[simp] theorem queues_queueDrop (p q : Nat) (f : QFrame) : queues (s.queueDrop p q f) = queues s := by
  unfold queueDrop
  split <;> simp [apply_ite queues]

@[simp] theorem queues_enqueue (p q : Nat) (l : List Byte) (pois : List Bool) (f : QFrame) : queues (s.enqueue p q l pois f) = queues s := by
  simp [enqueue, apply_ite queues]

@[simp] theorem queues_frameRead (f : QFrame) : queues (s.frameRead f).1 = queues s := by
  refine queues_foldl_fst _ _ (fun p i => ?_) _
  exact queues_read64 p.1 _

@[simp] theorem queues_depart (p : Nat) (l : List Byte) (f : QFrame) (bad : Bool) (n : Int) : queues (s.depart p l f bad n) = queues s := by
  unfold depart
  dsimp only
  (repeat' split)
  all_goals simp

@[simp] theorem queues_strmGap (f : QFrame) (l : List Byte) : queues (s.strmGap f l).1 = queues s := by
  unfold strmGap
  dsimp only
  (repeat' split)
  all_goals simp

@[simp] theorem queues_transmit (p : Nat) (n : Int) : queues (s.transmit p n) = queues s := by
  unfold transmit
  dsimp only
  (repeat' split)
  all_goals simp

@[simp] theorem queues_ringWrite (port : Nat) (k ts : Nat) (l : List Byte) : queues (s.ringWrite port k ts l) = queues s := by
  simp [ringWrite, apply_ite queues]

@[simp] theorem queues_deliver (port k ts : Nat) (l : List Byte) : queues (s.deliver port k ts l) = queues s := by
  simp [deliver, apply_ite queues]

@[simp] theorem queues_receive (p : Nat) (l : List Byte) (fcs : Bool) (ago : Nat) (egr : Option Nat) : queues (s.receive p l fcs ago egr) = queues s := by
  simp [receive, apply_ite queues]

@[simp] theorem queues_sharedBytes (o n : Nat) : queues (s.sharedBytes o n).1 = queues s := by
  refine queues_foldl_fst _ _ (fun p i => ?_) _
  exact queues_read64 p.1 _

@[simp] theorem queues_txDescriptor : queues s.txDescriptor = queues s := by
  simp [txDescriptor, apply_ite queues]

@[simp] theorem queues_headNote (p : Nat) (on : Bool) : queues (s.headNote p on) = queues s := by
  refine queues_each s 8 _ fun t q => ?_
  split <;> simp

@[simp] theorem queues_gateWrite (p a : Nat) (v : Word) : queues (s.gateWrite p a v).1 = queues s := by
  simp [gateWrite, apply_ite queues, apply_ite Prod.fst]

@[simp] theorem queues_headDrops (p : Nat) : queues (s.headDrops p) = queues s := by
  refine queues_each s 8 _ fun t q => ?_
  split
  · simp [apply_ite queues]
  · rfl

@[simp] theorem queues_gateOperative (p : Nat) : queues (s.gateOperative p) = queues s := by
  unfold gateOperative
  split <;> simp [apply_ite queues]

@[simp] theorem queues_gateNext (p : Nat) : queues (s.gateNext p) = queues s := by
  simp [gateNext, apply_ite queues]

@[simp] theorem queues_mdioWrite (a : Nat) (v : Word) : queues (s.mdioWrite a v).1 = queues s := by
  simp [mdioWrite, apply_ite queues]

@[simp] theorem queues_ringSet (a : Nat) (v : Word) (ok : Bool) : queues (s.ringSet a v ok).1 = queues s := by
  simp [ringSet, apply_ite queues, apply_ite Prod.fst]

@[simp] theorem queues_netWrite (a : Nat) (v : Word) : queues (s.netWrite a v).1 = queues s := by
  simp [netWrite, apply_ite queues, apply_ite Prod.fst]

@[simp] theorem queues_netqWrite (a : Nat) (v : Word) : queues (s.netqWrite a v).1 = queues s := by
  simp [netqWrite, apply_ite queues, apply_ite Prod.fst]

@[simp] theorem queues_netReset : queues s.netReset = queues s := by
  simp [netReset]

@[simp] theorem queues_netqReset : queues s.netqReset = queues s := by
  simp [netqReset]

@[simp] theorem queues_subSync : queues s.subSync = queues s := by
  simp [subSync, apply_ite queues]

@[simp] theorem queues_modeHooks (old : Nat) : queues (s.modeHooks old) = queues s := by
  simp [modeHooks, apply_ite queues]

@[simp] theorem queues_setMode (new cause : Nat) : queues (s.setMode new cause) = queues s := by
  simp [setMode, apply_ite queues]

@[simp] theorem queues_modeRefuse (r reason : Nat) : queues (s.modeRefuse r reason) = queues s := by
  simp [modeRefuse]

@[simp] theorem queues_rampStart : queues s.rampStart = queues s := by
  simp [rampStart, apply_ite queues]

@[simp] theorem queues_modeRequest (r cause : Nat) : queues (s.modeRequest r cause) = queues s := by
  simp [modeRequest, apply_ite queues]

@[simp] theorem queues_modeReqWrite (v : Word) : queues (s.modeReqWrite v).1 = queues s := by
  simp [modeReqWrite]

@[simp] theorem queues_dueMake (cause : Nat) : queues (s.dueMake cause) = queues s := by
  simp [dueMake, apply_ite queues]

@[simp] theorem queues_dueGo (cause : Nat) : queues (s.dueGo cause) = queues s := by
  simp [dueGo, apply_ite queues]

@[simp] theorem queues_dueNow (cause : Nat) : queues (s.dueNow cause) = queues s := by
  simp [dueNow]

@[simp] theorem queues_autoGo : queues s.autoGo = queues s := by
  simp [autoGo, apply_ite queues]

@[simp] theorem queues_dueTick : queues s.dueTick = queues s := by
  simp [dueTick]

@[simp] theorem queues_safeStopEnd : queues s.safeStopEnd = queues s := by
  simp [safeStopEnd, apply_ite queues]

@[simp] theorem queues_stopNow (shutdown : Bool) : queues (s.stopNow shutdown) = queues s := by
  simp [stopNow, apply_ite queues]

@[simp] theorem queues_sfaultSync : queues s.sfaultSync = queues s := by
  simp [sfaultSync]

@[simp] theorem queues_demandRise (now : Bool) : queues (s.demandRise now) = queues s := by
  simp [demandRise, apply_ite queues]

@[simp] theorem queues_sstop (b level : Bool) : queues (s.sstop b level) = queues s := by
  simp [sstop, apply_ite queues]

@[simp] theorem queues_decelBreach : queues s.decelBreach = queues s := by
  simp [decelBreach, apply_ite queues]

@[simp] theorem queues_pvalidWatch (t : State) : queues (s.pvalidWatch t) = queues t := by
  simp [pvalidWatch, apply_ite queues]

@[simp] theorem queues_ss1Eval : queues s.ss1Eval = queues s := by
  simp [ss1Eval, apply_ite queues]

@[simp] theorem queues_monFault (lat : Fld) (src : Nat) : queues (s.monFault lat src) = queues s := by
  simp [monFault, apply_ite queues]

@[simp] theorem queues_tpLatch (reason : Nat) : queues (s.tpLatch reason) = queues s := by
  simp [tpLatch, apply_ite queues]

@[simp] theorem queues_tpDemand (word : Nat) : queues (s.tpDemand word) = queues s := by
  simp [tpDemand, apply_ite queues]

@[simp] theorem queues_tpSingle : queues s.tpSingle = queues s := by
  unfold tpSingle
  split <;> simp [apply_ite queues]

@[simp] theorem queues_tpCopy (pb : Bool) (l : List Byte) : queues (s.tpCopy pb l) = queues s := by
  unfold tpCopy
  dsimp only
  (repeat' split)
  all_goals simp

@[simp] theorem queues_safeParamWrite (a : Nat) (v : Word) : queues (s.safeParamWrite a v).1 = queues s := by
  simp [safeParamWrite, apply_ite queues, apply_ite Prod.fst]

@[simp] theorem queues_confirmWrite (v : Word) : queues (s.confirmWrite v).1 = queues s := by
  simp [confirmWrite, apply_ite queues, apply_ite Prod.fst]

@[simp] theorem queues_safeStatWrite (v : Word) : queues (s.safeStatWrite v).1 = queues s := by
  simp [safeStatWrite, apply_ite queues]

@[simp] theorem queues_releaseWrite (v : Word) : queues (s.releaseWrite v).1 = queues s := by
  simp [releaseWrite, apply_ite queues, apply_ite Prod.fst]

@[simp] theorem queues_safeWrite (a : Nat) (v : Word) : queues (s.safeWrite a v).1 = queues s := by
  simp [safeWrite, apply_ite queues, apply_ite Prod.fst]

@[simp] theorem queues_spRefuse (r : Nat) : queues (s.spRefuse r) = queues s := by
  simp [spRefuse]

@[simp] theorem queues_spReceive (sa : Nat) (l : List Byte) : queues (s.spReceive sa l) = queues s := by
  simp [spReceive, apply_ite queues]

@[simp] theorem queues_spEmpty (n : Nat) : queues (s.spEmpty n) = queues s := by
  simp [spEmpty]

@[simp] theorem queues_spNote (c k : Nat) : queues (s.spNote c k) = queues s := by
  simp [spNote]

@[simp] theorem queues_spApply (l : List Nat) : queues (s.spApply l) = queues s := by
  simp [spApply, apply_ite queues]

@[simp] theorem queues_spDue : queues s.spDue = queues s := by
  simp [spDue, apply_ite queues]

@[simp] theorem queues_spStaged (n : Nat) : queues (s.spStaged n) = queues s := by
  simp [spStaged, apply_ite queues]

@[simp] theorem queues_strmQueue (k : Nat) : queues (s.strmQueue k) = queues s := by
  simp [strmQueue, apply_ite queues]

@[simp] theorem queues_strmSignals (k : Nat) : queues (s.strmSignals k).1 = queues s := by
  refine queues_foldl_fst _ _ (fun p j => ?_) (s, [], false)
  dsimp only
  split <;> simp

@[simp] theorem queues_strmSample (k : Nat) : queues (s.strmSample k) = queues s := by
  simp [strmSample, apply_ite queues]

@[simp] theorem queues_streams (b : Nat) : queues (s.streams b) = queues s := by
  simp [streams, apply_ite queues]

end
end State
end Sys2Proof.Machine
end

section
/-! SUPPORT. The write buffer and the bound of the journal queue are left as they are by the converters, the Almanac, the checks of memory, the decimation, the fault registers, the keeper, the fuses, the images and the rails. -/

namespace Sys2Proof.Machine
namespace State

section
variable (s : State)

@[simp] theorem queues_strmCtl (k a : Nat) (v : Word) : queues (s.strmCtl k a v).1 = queues s := by
  simp [strmCtl, apply_ite queues, apply_ite Prod.fst]

@[simp] theorem queues_strmWrite (a : Nat) (v : Word) : queues (s.strmWrite a v).1 = queues s := by
  simp [strmWrite, apply_ite queues, apply_ite Prod.fst]

@[simp] theorem queues_strmReset : queues s.strmReset = queues s := by
  simp [strmReset]

@[simp] theorem queues_safetyProduce : queues s.safetyProduce = queues s := by
  simp [safetyProduce, apply_ite queues]

@[simp] theorem queues_vrefReady : queues s.vrefReady = queues s := by
  simp [vrefReady, apply_ite queues]

@[simp] theorem queues_padcEntry (c e : Nat) : queues (s.padcEntry c e) = queues s := by
  simp [padcEntry]

@[simp] theorem queues_padcStart (c : Nat) (byStart : Bool) : queues (s.padcStart c byStart) = queues s := by
  simp [padcStart, apply_ite queues]

@[simp] theorem queues_snapPut (c e : Nat) (a : Acc) : queues (s.snapPut c e a) = queues s := by
  simp [snapPut]

@[simp] theorem queues_padcCross : queues s.padcCross = queues s := by
  unfold padcCross
  dsimp only
  (repeat' split)
  all_goals simp

@[simp] theorem queues_padcTickEnd : queues s.padcTickEnd = queues s := by
  simp [padcTickEnd, apply_ite queues]

@[simp] theorem queues_padcResult (c e : Nat) (v : Int) : queues (s.padcResult c e v) = queues s := by
  simp [padcResult, apply_ite queues]

@[simp] theorem queues_padcDone (c : Nat) (raw : Int) : queues (s.padcDone c raw) = queues s := by
  simp [padcDone, apply_ite queues]

@[simp] theorem queues_padcCtlWrite (c a : Nat) (v : Word) : queues (s.padcCtlWrite c a v).1 = queues s := by
  simp [padcCtlWrite, apply_ite queues, apply_ite Prod.fst]

@[simp] theorem queues_padcCalDone (c : Nat) (res : List (Nat × Nat)) : queues (s.padcCalDone c res) = queues s := by
  simp [padcCalDone, apply_ite queues]

@[simp] theorem queues_padcSnap : queues s.padcSnap = queues s := by
  simp [padcSnap, apply_ite queues]

@[simp] theorem queues_padcSnapWrite (v : Word) : queues (s.padcSnapWrite v).1 = queues s := by
  simp [padcSnapWrite, apply_ite queues]

@[simp] theorem queues_padcAbandon : queues s.padcAbandon = queues s := by
  simp [padcAbandon, apply_ite queues]

@[simp] theorem queues_padcResume : queues s.padcResume = queues s := by
  simp [padcResume, apply_ite queues]

@[simp] theorem queues_padcWrite (a : Nat) (v : Word) : queues (s.padcWrite a v).1 = queues s := by
  simp [padcWrite, apply_ite queues, apply_ite Prod.fst]

@[simp] theorem queues_almWord (a : Nat) : queues (s.almWord a).1 = queues s := by
  simp [almWord, apply_ite queues, apply_ite Prod.fst]

@[simp] theorem queues_almEnt (i : Nat) : queues (s.almEnt i).1 = queues s := by
  have h := queues_almWord s (almAddr i)
  unfold almEnt
  split
  next t lo ht =>
    rw [ht] at h
    split
    · exact h
    · exact (queues_almWord ..).trans h
  next t ht => rwa [ht] at h

@[simp] theorem queues_almMissed (i : Nat) (on : Bool) : queues (s.almMissed i on) = queues s := by
  simp [almMissed]

@[simp] theorem queues_almFire (i : Nat) (e : AlmEnt) : queues (s.almFire i e).1 = queues s := by
  simp [almFire, apply_ite queues, apply_ite Prod.fst]

@[simp] theorem queues_almGo (i : Nat) (e : AlmEnt) (due : List (Nat × Nat × Nat)) : queues (s.almGo i e due).1 = queues s := by
  simp [almGo, apply_ite queues, apply_ite Prod.fst]

@[simp] theorem queues_almAngleCheck (fire : Bool) (i : Nat) (e : AlmEnt) (due : List (Nat × Nat × Nat)) : queues (s.almAngleCheck fire i e due).1 = queues s := by
  simp [almAngleCheck, apply_ite queues, apply_ite Prod.fst]

@[simp] theorem queues_almCheck (fire : Bool) (r : State × List (Nat × Nat × Nat)) (i : Nat) : queues (almCheck fire r i).1 = queues r.1 := by
  unfold almCheck
  dsimp only
  split
  · exact queues_almEnt r.1 i
  · simp [apply_ite queues, apply_ite Prod.fst]

@[simp] theorem queues_almScan (fire : Bool) : queues (s.almScan fire).1 = queues s := by
  unfold almScan
  dsimp only
  split
  · rfl
  · split
    · simp
    · exact (queues_upd ..).trans (queues_foldl_fst _ _ (queues_almCheck fire) (s, []))

@[simp] theorem queues_almTarget (t arg : Nat) : queues (s.almTarget t arg) = queues s := by
  simp [almTarget, apply_ite queues]

@[simp] theorem queues_almDeliver (x : Nat × Nat × Nat) : queues (s.almDeliver x) = queues s := by
  simp [almDeliver]

@[simp] theorem queues_almLeft : queues (s.almLeft).1 = queues s := by
  simp [almLeft]

@[simp] theorem queues_almTick : queues s.almTick = queues s := by
  simp [almTick, apply_ite queues]

@[simp] theorem queues_almStore (x : AlmNew) : queues (s.almStore x) = queues s := by
  simp [almStore]

@[simp] theorem queues_almLand : queues s.almLand = queues s := by
  simp [almLand]

@[simp] theorem queues_almShow (lo hi : Nat) (pLo pHi : Bool) : queues (s.almShow lo hi pLo pHi) = queues s := by
  simp [almShow]

@[simp] theorem queues_almAccWrite (v : Word) : queues (s.almAccWrite v).1 = queues s := by
  unfold almAccWrite
  dsimp only
  (repeat' split)
  all_goals simp

@[simp] theorem queues_almWrite (a : Nat) (v : Word) : queues (s.almWrite a v).1 = queues s := by
  simp [almWrite, apply_ite queues, apply_ite Prod.fst]

@[simp] theorem queues_almReset : queues s.almReset = queues s := by
  simp [almReset]

@[simp] theorem queues_eccCtlWrite (v : Word) : queues (s.eccCtlWrite v).1 = queues s := by
  simp [eccCtlWrite, apply_ite queues, apply_ite Prod.fst]

@[simp] theorem queues_eccWrite (a : Nat) (v : Word) : queues (s.eccWrite a v).1 = queues s := by
  simp [eccWrite, apply_ite queues, apply_ite Prod.fst]

@[simp] theorem queues_scrub : queues s.scrub = queues s := by
  simp [scrub, apply_ite queues]

@[simp] theorem queues_modShift (n : Nat) : queues (s.modShift n) = queues s := by
  simp [modShift, apply_ite queues]

@[simp] theorem queues_modMagnitude (n : Nat) : queues (s.modMagnitude n) = queues s := by
  simp [modMagnitude, apply_ite queues]

@[simp] theorem queues_blkLatch (m : Nat) : queues (s.blkLatch m) = queues s := by
  simp [blkLatch]

@[simp] theorem queues_decimation (m : Nat) (bits : List (List Bool)) : queues (s.decimation m bits) = queues s := by
  simp [decimation, apply_ite queues]

@[simp] theorem queues_trackerUpdate (p : Nat) : queues (s.trackerUpdate p) = queues s := by
  simp [trackerUpdate, apply_ite queues]

@[simp] theorem queues_legModelOf (n : Nat) : queues (s.legModelOf n) = queues s := by
  simp [legModelOf, apply_ite queues]

@[simp] theorem queues_legModelTick : queues s.legModelTick = queues s := by
  simp [legModelTick, apply_ite queues]

@[simp] theorem queues_srcWrite (n : Nat) (v : Word) : queues (s.srcWrite n v).1 = queues s := by
  simp [srcWrite, apply_ite queues, apply_ite Prod.fst]

@[simp] theorem queues_ackWrite (v : Word) : queues (s.ackWrite v).1 = queues s := by
  simp [ackWrite]

@[simp] theorem queues_fltWrite (a : Nat) (v : Word) : queues (s.fltWrite a v).1 = queues s := by
  simp [fltWrite, apply_ite queues, apply_ite Prod.fst]

@[simp] theorem queues_userWrite (v : Word) : queues (s.userWrite v).1 = queues s := by
  simp [userWrite, apply_ite queues, apply_ite Prod.fst]

@[simp] theorem queues_jrnlWrite (a : Nat) (v : Word) : queues (s.jrnlWrite a v).1 = queues s := by
  simp [jrnlWrite, apply_ite queues, apply_ite Prod.fst]

@[simp] theorem queues_ckptBegin (kind rail time : Nat) : queues (s.ckptBegin kind rail time) = queues s := by
  simp [ckptBegin]

@[simp] theorem queues_ckptStart (kind : Nat) : queues (s.ckptStart kind) = queues s := by
  simp [ckptStart, apply_ite queues]

@[simp] theorem queues_ckptEnd : queues s.ckptEnd = queues s := by
  unfold ckptEnd
  split <;> simp

@[simp] theorem queues_keepWrite (a : Nat) (v : Word) : queues (s.keepWrite a v).1 = queues s := by
  simp [keepWrite, apply_ite queues, apply_ite Prod.fst]

@[simp] theorem queues_keepCharge : queues s.keepCharge = queues s := by
  simp [keepCharge]

@[simp] theorem queues_keepArrive : queues s.keepArrive = queues s := by
  unfold keepArrive
  split <;> simp [apply_ite queues]

@[simp] theorem queues_keepMeasure (vscap hvin : Nat) (vdd above : Bool) : queues (s.keepMeasure vscap hvin vdd above) = queues s := by
  simp [keepMeasure, apply_ite queues]

@[simp] theorem queues_keepRestart (low : Nat) : queues (s.keepRestart low) = queues s := by
  simp [keepRestart, apply_ite queues]

@[simp] theorem queues_keepAdd (n : Int) : queues (s.keepAdd n) = queues s := by
  simp [keepAdd]

@[simp] theorem queues_keepTick : queues s.keepTick = queues s := by
  simp [keepTick, apply_ite queues]

@[simp] theorem queues_loadCounters : queues s.loadCounters = queues s := by
  simp [loadCounters]

@[simp] theorem queues_setArb (k v : Nat) : queues (s.setArb k v) = queues s := by
  simp [setArb]

@[simp] theorem queues_gqLoaded (g : Gq) : queues (s.gqLoaded g) = queues s := by
  simp [gqLoaded, apply_ite queues]

@[simp] theorem queues_fuseCtlWrite (v : Word) : queues (s.fuseCtlWrite v).1 = queues s := by
  unfold fuseCtlWrite
  dsimp only
  (repeat' split)
  all_goals simp

@[simp] theorem queues_fuseBlow (op k v : Nat) : queues (s.fuseBlow op k v) = queues s := by
  simp [fuseBlow, apply_ite queues]

@[simp] theorem queues_descBegin (r : Nat) : queues (s.descBegin r) = queues s := by
  simp [descBegin, apply_ite queues]

@[simp] theorem queues_fuseDone : queues s.fuseDone = queues s := by
  unfold fuseDone
  dsimp only
  (repeat' split)
  all_goals simp

@[simp] theorem queues_fuseCut : queues s.fuseCut = queues s := by
  unfold fuseCut
  split <;> simp [apply_ite queues]

@[simp] theorem queues_imageRead : queues (s.imageRead).1 = queues s := by
  simp [imageRead]

@[simp] theorem queues_loadWrite (v : Word) : queues (s.loadWrite v).1 = queues s := by
  simp [loadWrite, apply_ite queues, apply_ite Prod.fst]

@[simp] theorem queues_attWrite (v : Word) : queues (s.attWrite v).1 = queues s := by
  simp [attWrite, apply_ite queues, apply_ite Prod.fst]

@[simp] theorem queues_attDone : queues s.attDone = queues s := by
  unfold attDone
  split
  · rfl
  · dsimp only
    rw [queues_ipulse, queues_wrap, queues_wr, queues_each _ _ _ fun t k => queues_wr t _ _, queues_fresh]

@[simp] theorem queues_secWrite (a : Nat) (v : Word) : queues (s.secWrite a v).1 = queues s := by
  simp [secWrite, apply_ite queues, apply_ite Prod.fst]

@[simp] theorem queues_recordsEnd : queues s.recordsEnd = queues s := by
  unfold recordsEnd
  split <;> simp

@[simp] theorem queues_recordsTorn : queues s.recordsTorn = queues s := by
  unfold recordsTorn
  split <;> simp

@[simp] theorem queues_railsFell (rails : Nat) (dark : Bool) : queues (s.railsFell rails dark) = queues s := by
  simp [railsFell]

@[simp] theorem queues_burst (rails vscap : Nat) : queues (s.burst rails vscap) = queues s := by
  simp [burst, apply_ite queues]

@[simp] theorem queues_entApply (i : Nat) (g : Gq) : queues (s.entApply i g) = queues s := by
  simp [entApply, apply_ite queues]

@[simp] theorem queues_entRecord (i t res : Nat) : queues (s.entRecord i t res) = queues s := by
  simp [entRecord]

@[simp] theorem queues_reloadImages (imgs : List (Nat × List Byte)) : queues (s.reloadImages imgs) = queues s := by
  refine (queues_foldl _ _ _ fun t i => ?_).trans (queues_upd s ..)
  dsimp only
  split
  · rfl
  · split <;> simp

@[simp] theorem queues_dlctlWrite (v : Word) : queues (s.dlctlWrite v).1 = queues s := by
  unfold dlctlWrite
  dsimp only
  (repeat' split)
  all_goals simp

@[simp] theorem queues_bootWrite (a : Nat) (v : Word) : queues (s.bootWrite a v).1 = queues s := by
  simp [bootWrite, apply_ite queues, apply_ite Prod.fst]

@[simp] theorem queues_copyDone (l : Option (List Byte)) : queues (s.copyDone l) = queues s := by
  unfold copyDone
  dsimp only
  (repeat' split)
  all_goals simp

end
end State
end Sys2Proof.Machine
end

section
/-! SUPPORT. The write buffer and the bound of the journal queue are left as they are by the rungs, the resets of pages, the reads of the host, the parts of the boot and an idle tick. -/

namespace Sys2Proof.Machine
namespace State

section
variable (s : State)

@[simp] theorem queues_rungWrite (v : Word) : queues (s.rungWrite v).1 = queues s := by
  simp [rungWrite, apply_ite queues, apply_ite Prod.fst]

@[simp] theorem queues_ctxSave : queues s.ctxSave = queues s := by
  simp [ctxSave]

@[simp] theorem queues_ctxZero : queues s.ctxZero = queues s := by
  simp [ctxZero]

@[simp] theorem queues_descentDone (r : Nat) : queues (s.descentDone r) = queues s := by
  simp [descentDone, apply_ite queues]

@[simp] theorem queues_refill : queues s.refill = queues s := by
  simp [refill]

@[simp] theorem queues_resumeUnits : queues s.resumeUnits = queues s := by
  simp [resumeUnits]

@[simp] theorem queues_servoWrite (v : Word) : queues (s.servoWrite v).1 = queues s := by
  simp [servoWrite, apply_ite queues]

@[simp] theorem queues_servoLapse (d : Nat) : queues (s.servoLapse d) = queues s := by
  simp [servoLapse, apply_ite queues]

@[simp] theorem queues_chEnable (c : Nat) (rise : Bool) : queues (s.chEnable c rise) = queues s := by
  simp [chEnable, apply_ite queues]

@[simp] theorem queues_legEnable (n : Nat) (rise : Bool) : queues (s.legEnable n rise) = queues s := by
  simp [legEnable, apply_ite queues]

@[simp] theorem queues_enHook (pg : Nat) (rise : Bool) : queues (s.enHook pg rise) = queues s := by
  unfold enHook
  dsimp only
  split <;> simp [apply_ite queues]

@[simp] theorem queues_legReset (n : Nat) : queues (s.legReset n) = queues s := by
  simp [legReset]

@[simp] theorem queues_modReset : queues s.modReset = queues s := by
  simp [modReset, apply_ite queues]

@[simp] theorem queues_padcReset : queues s.padcReset = queues s := by
  simp [padcReset]

@[simp] theorem queues_cmpReset : queues s.cmpReset = queues s := by
  simp [cmpReset]

@[simp] theorem queues_chReset (c : Nat) : queues (s.chReset c) = queues s := by
  simp [chReset, apply_ite queues]

@[simp] theorem queues_softReset (pg : Nat) : queues (s.softReset pg) = queues s := by
  unfold softReset
  dsimp only
  split <;> simp

@[simp] theorem queues_pctlWrite (pg : Nat) (v : Word) : queues (s.pctlWrite pg v).1 = queues s := by
  simp [pctlWrite, apply_ite queues, apply_ite Prod.fst]

@[simp] theorem queues_forceBit (pg b : Nat) : queues (s.forceBit pg b) = queues s := by
  unfold forceBit
  split <;> simp [apply_ite queues]

@[simp] theorem queues_forceWrite (pg : Nat) (v : Word) : queues (s.forceWrite pg v).1 = queues s := by
  simp [forceWrite, apply_ite queues, apply_ite Prod.fst]

@[simp] theorem queues_sealWord (st : Nat) (ref : Word) : queues (s.sealWord st ref) = queues s := by
  simp [sealWord]

@[simp] theorem queues_sealClear : queues s.sealClear = queues s := by
  simp [sealClear]

@[simp] theorem queues_sealWrite (v : Word) : queues (s.sealWrite v).1 = queues s := by
  simp [sealWrite, apply_ite queues, apply_ite Prod.fst]

@[simp] theorem queues_sealZero : queues s.sealZero = queues s := by
  unfold sealZero
  dsimp only
  rw [queues_each _ _ _ fun t k => queues_setEnergy t _ _ _, queues_fillArray, queues_fillArray, queues_fillArray, queues_invalidate,
    queues_invalidate, queues_ctxZero, queues_mramWrite]

@[simp] theorem queues_fenceGoWrite (v : Word) : queues (s.fenceGoWrite v).1 = queues s := by
  unfold fenceGoWrite
  split
  · rfl
  · exact queues_setBit ..

@[simp] theorem queues_hifWrite (a : Nat) (v : Word) : queues (s.hifWrite a v).1 = queues s := by
  simp [hifWrite, apply_ite queues, apply_ite Prod.fst]

@[simp] theorem queues_headWrite (a : Nat) (v : Word) : queues (s.headWrite a v).1 = queues s := by
  simp [headWrite, apply_ite queues, apply_ite Prod.fst]

@[simp] theorem queues_memWrite (a : Nat) (v : Word) : queues (s.memWrite a v).1 = queues s := by
  simp [memWrite, apply_ite queues, apply_ite Prod.fst]

@[simp] theorem queues_wordRead (a : Nat) : queues (s.wordRead a).1 = queues s := by
  simp [wordRead, apply_ite queues, apply_ite Prod.fst]

@[simp] theorem queues_wordsRead (n : Nat) : ∀ (s : State) (a : Nat), queues (s.wordsRead a n).1 = queues s := by
  induction n using Nat.twoStepInduction with
  | zero => intro s a; rfl
  | one => intro s a; exact queues_wordRead s a
  | more n ih ih1 =>
    intro s a
    unfold wordsRead
    split
    · exact (ih _ _).trans (queues_read64 s a)
    · exact (ih1 _ _).trans (queues_wordRead s a)

@[simp] theorem queues_answer (l : List Byte) : queues (s.answer l) = queues s := by
  exact rfl

@[simp] theorem queues_hcsFall : queues s.hcsFall.1 = queues s := by
  simp [hcsFall, apply_ite queues, apply_ite Prod.fst]

@[simp] theorem queues_check12 (rdy crc : Bool) : queues (s.check12 rdy crc).1 = queues s := by
  simp [check12, apply_ite queues, apply_ite Prod.fst]

@[simp] theorem queues_check4 (a len : Nat) : queues (s.check4 a len).1 = queues s := by
  simp [check4, apply_ite queues, apply_ite Prod.fst]

@[simp] theorem queues_readServe : queues s.readServe = queues s := by
  unfold readServe
  split
  · rfl
  · split
    · rfl
    · exact queues_wordsRead ..

@[simp] theorem queues_tapLoad (i : Option (Fin 4)) : queues (s.tapLoad i) = queues s := by
  simp [tapLoad]

@[simp] theorem queues_cfgErr (a : Nat) (st : Status) : queues (s.cfgErr a st) = queues s := by
  simp [cfgErr, apply_ite queues]

@[simp] theorem queues_loadEnd (res type : Nat) : queues (s.loadEnd res type) = queues s := by
  simp [loadEnd]

@[simp] theorem queues_jrnlScan : queues (s.jrnlScan).1 = queues s := by
  simp [jrnlScan]

@[simp] theorem queues_bootCause : queues s.bootCause = queues s := by
  simp [bootCause]

@[simp] theorem queues_bootBegin : queues s.bootBegin = queues s := by
  simp [bootBegin]

@[simp] theorem queues_entResults : queues (s.entResults t) = queues s := by
  simp [entResults]

@[simp] theorem queues_fltRestore (k : Nat) (b : List Byte) : queues (s.fltRestore k b) = queues s := by
  simp [fltRestore, apply_ite queues]

@[simp] theorem queues_ckptRestore : queues s.ckptRestore = queues s := by
  unfold ckptRestore
  split <;> simp [apply_ite queues]

@[simp] theorem queues_bootReport : queues s.bootReport = queues s := by
  simp [bootReport, apply_ite queues]

@[simp] theorem queues_bootReads : queues s.bootReads = queues s := by
  simp [bootReads]

@[simp] theorem queues_bootEnd (code idx : Nat) (us : Word) : queues (s.bootEnd code idx us) = queues s := by
  simp [bootEnd]

@[simp] theorem queues_reconTick : queues s.reconTick = queues s := by
  simp [reconTick, apply_ite queues]

@[simp] theorem queues_rampTick : queues s.rampTick = queues s := by
  simp [rampTick, apply_ite queues]

@[simp] theorem queues_idle : queues s.idle = queues s := by
  simp [idle, apply_ite queues]

@[simp] theorem queues_withFetchWord (nbits w : Nat) : queues (s.withFetchWord nbits w) = queues s := by
  unfold withFetchWord
  split <;> simp

end
end State
end Sys2Proof.Machine
end

section
/-! SUPPORT. The bounds of the write buffer (R126) and of the journal queue (R414), which every operation keeps. -/

namespace Sys2Proof.Machine
namespace State

/-- From `s` to `t` the write buffer stays within its 64 words, and the journal queue within its 32 records. -/
def BoundsKept (s t : State) : Prop := (s.BufBound → t.BufBound) ∧ (s.JrnlBound → t.JrnlBound)

section
variable {s t u : State}

theorem BoundsKept.refl (s : State) : BoundsKept s s := ⟨id, id⟩

theorem BoundsKept.trans (hst : BoundsKept s t) (htu : BoundsKept t u) : BoundsKept s u := ⟨htu.1 ∘ hst.1, htu.2 ∘ hst.2⟩

theorem BoundsKept.of_queues (h : queues t = queues s) : BoundsKept s t := by
  have hbuf : t.hif.buf = s.hif.buf := congrArg Prod.fst h
  have hjrnl : t.JrnlBound = s.JrnlBound := congrArg Prod.snd h
  exact ⟨fun hs => by rwa [BufBound, hbuf], fun hs => by rwa [hjrnl]⟩

/-- What keeps the buffer and the bound of the queue may follow. -/
theorem BoundsKept.queues (hst : BoundsKept s t) (h : State.queues u = State.queues t) : BoundsKept s u := hst.trans (.of_queues h)

theorem BoundsKept.ite {c : Prop} [Decidable c] (ht : BoundsKept s t) (hu : BoundsKept s u) : BoundsKept s (if c then t else u) := by
  split
  · exact ht
  · exact hu

/-- Fewer words wait. -/
theorem boundsKept_setBuf {h : HifM} (hle : h.buf.length ≤ s.hif.buf.length) : BoundsKept s { s with hif := h } := ⟨hle.trans, id⟩

/-- Fewer records wait. -/
theorem boundsKept_setJrnl {j : JrnlM} (hle : j.queue.length ≤ s.jrnl.queue.length) : BoundsKept s { s with jrnl := j } := ⟨id, hle.trans⟩

theorem boundsKept_foldl {α : Type} {f : State → α → State} (h : ∀ t x, BoundsKept t (f t x)) (l : List α) (s : State) : BoundsKept s (l.foldl f s) :=
  List.foldlRecOn (motive := BoundsKept s) l f (.refl s) fun t ht x _ => ht.trans (h t x)

/-! The words of the host (R126, R131). -/

theorem boundsKept_turn {a : Nat} {v : Word} (h : s.turn a v = some u) : BoundsKept s u := by
  obtain ⟨-, ⟨rfl, -⟩ | ⟨p, q, w, hbuf, -, -, rfl, -⟩⟩ := turn_eq_some h
  · exact .refl _
  · refine boundsKept_setBuf ?_
    simp [hbuf]

theorem queues_noteWrite (a : Nat) (r : State × Status) : queues (noteWrite a r) = queues r.1 := by
  unfold noteWrite
  split
  · rfl
  · simp

theorem boundsKept_hostWord (s : State) {a : Nat} {v : Word} {eff : State → State × Status} (h : ∀ u, BoundsKept u (eff u).1) :
    BoundsKept s (s.hostWord a v eff) := by
  unfold hostWord
  split
  next u hturn => exact ((boundsKept_turn hturn).trans (h u)).queues ((queues_settle _).trans (queues_noteWrite _ _))
  next => exact .refl s

theorem boundsKept_onPage (s : State) (pg : Nat) {eff : State → State × Status} (h : ∀ u, BoundsKept u (eff u).1) : BoundsKept s (s.onPage pg eff).1 := by
  unfold onPage
  split
  · exact h s
  · exact .of_queues (queues_sat ..)

/-- An accepted WRITE has found its room (R122). -/
theorem boundsKept_writeAccept (s : State) (a len : Nat) (d : List Byte) : BoundsKept s (s.writeAccept a len d).1 := by
  unfold writeAccept
  split
  · exact .refl s
  split
  next t ht =>
    obtain ⟨rfl, hfree⟩ : t = s ∧ len ≤ s.wfree := by
      unfold check4 at ht
      split at ht
      · simp at ht
      split at ht
      · simp at ht
      · next hroom => exact ⟨(congrArg Prod.fst ht).symm, Nat.le_of_not_lt hroom⟩
    refine ⟨fun hbuf => ?_, id⟩
    simp only [BufBound, bufAdd, List.length_append, length_bufWords, wfree] at hbuf hfree ⊢
    omega
  · exact .of_queues (queues_check4 ..)

/-! The frames (R119 to R126). -/

theorem boundsKept_hcsFall {b : Bool} (h : s.hcsFall = (t, b)) : BoundsKept s t := by
  have hfall := queues_hcsFall s
  rw [h] at hfall
  exact .of_queues hfall

theorem boundsKept_check12 {rdy crc : Bool} {st : Status} (h : s.check12 rdy crc = (t, st)) : BoundsKept s t := by
  have hcheck := queues_check12 s rdy crc
  rw [h] at hcheck
  exact .of_queues hcheck

theorem boundsKept_frameAbort (s : State) : BoundsKept s s.frameAbort := by
  unfold frameAbort
  split
  next t ht => exact (boundsKept_hcsFall ht).queues (queues_sat ..)
  next t ht => exact boundsKept_hcsFall ht

theorem boundsKept_writeFrame (s : State) (l : List Byte) : BoundsKept s (s.writeFrame l) := by
  unfold writeFrame
  dsimp only
  split
  · exact boundsKept_frameAbort s
  split
  next t ht => exact boundsKept_hcsFall ht
  next t ht =>
    refine (boundsKept_hcsFall ht).trans (.queues ?_ (queues_answer ..))
    split
    next u hu => exact (boundsKept_check12 hu).trans (boundsKept_writeAccept ..)
    next => exact .of_queues (queues_check12 ..)

theorem boundsKept_readAccept (s : State) (a len : Nat) : BoundsKept s (s.readAccept a len).1 := by
  unfold readAccept
  split
  · exact .refl s
  · exact boundsKept_setBuf le_rfl

theorem boundsKept_readFrame (s : State) (l : List Byte) : BoundsKept s (s.readFrame l) := by
  unfold readFrame
  split
  · exact boundsKept_frameAbort s
  split
  next t ht => exact boundsKept_hcsFall ht
  next t ht =>
    refine (boundsKept_hcsFall ht).trans (.queues ?_ (queues_answer ..))
    split
    next u hu => exact (boundsKept_check12 hu).trans (boundsKept_readAccept ..)
    next => exact .of_queues (queues_check12 ..)

theorem boundsKept_fetchFrame (s : State) (l : List Byte) : BoundsKept s (s.fetchFrame l) := by
  unfold fetchFrame
  split
  · exact boundsKept_frameAbort s
  split
  next t ht => exact boundsKept_hcsFall ht
  next t ht =>
    refine (boundsKept_hcsFall ht).trans (.of_queues ?_)
    split
    · exact (queues_answer ..).trans (queues_sat ..)
    split
    · exact (queues_answer ..).trans (queues_sat ..)
    split
    · exact queues_answer ..
    · exact queues_answer ..

theorem boundsKept_statusFrame (s : State) (l : List Byte) (whole : Bool) : BoundsKept s (s.statusFrame l whole) := by
  unfold statusFrame
  split
  · exact boundsKept_frameAbort s
  split
  next t ht => exact boundsKept_hcsFall ht
  next t ht =>
    refine (boundsKept_hcsFall ht).trans (.of_queues ?_)
    split
    · exact (queues_answer ..).trans (queues_sat ..)
    · refine (queues_answer ..).trans ?_
      split
      · exact queues_setReg ..
      · rfl

theorem boundsKept_fenceFrame (s : State) (l : List Byte) : BoundsKept s (s.fenceFrame l) := by
  unfold fenceFrame
  split
  · exact boundsKept_frameAbort s
  split
  next t ht => exact boundsKept_hcsFall ht
  next t ht =>
    refine (boundsKept_hcsFall ht).trans (.queues ?_ (queues_answer ..))
    refine .ite ?_ (.of_queues (queues_check12 ..))
    exact (BoundsKept.of_queues (queues_check12 ..)).trans (boundsKept_setBuf le_rfl)

theorem boundsKept_fenceDone (s : State) : BoundsKept s s.fenceDone := by
  have hend : BoundsKept s (if s.hif.buf.isEmpty then { s with hif := { s.hif with fenceFrame := false } } else s) :=
    .ite (boundsKept_setBuf le_rfl) (.refl s)
  unfold fenceDone
  exact .ite (hend.queues (queues_wr ..)) hend

/-! The journal (R414), and the resets. -/

/-- The oldest record goes. -/
theorem boundsKept_dequeue {r : JRec} {l : List JRec} (hq : s.jrnl.queue = r :: l) (ht : queues t = queues s) :
    BoundsKept s { t with jrnl := { t.jrnl with queue := l } } := by
  refine ⟨(BoundsKept.of_queues ht).1, fun h => ?_⟩
  simp only [JrnlBound, jrnlDepth, hq, List.length_cons] at h ⊢
  omega

theorem boundsKept_jrnlWritten (s : State) (good : Bool) : BoundsKept s (s.jrnlWritten good) := by
  unfold jrnlWritten
  split
  · exact .refl s
  next r l hq =>
    have hdone := boundsKept_dequeue hq (queues_mramWrite s (0x800000 + 32 * (r.seq % 4096)) r.bytes)
    refine .ite (hdone.queues ?_) (hdone.queues ?_)
    · simp
    · simp

/-- A reset leaves no word and no record (R85). -/
theorem queues_resetTo (s : State) (ph : Phase) (b : Nat) : queues (s.resetTo ph b) = queues State.reset := by
  unfold resetTo
  dsimp only
  rw [queues_setBit, queues_wr, queues_clear, queues_each _ _ _ fun t k => queues_setBit .., queues_each _ _ _ fun t k => queues_setGdo ..,
    queues_each _ _ _ fun t k => queues_setTrip ..]
  exact queues_upd State.reset ..

theorem boundsKept_resetTo (s : State) (ph : Phase) (b : Nat) : BoundsKept s (s.resetTo ph b) :=
  BoundsKept.trans ⟨fun _ => Nat.zero_le _, fun _ => Nat.zero_le _⟩ (.of_queues (queues_resetTo s ph b))

theorem boundsKept_resetSoft (s : State) (b : Nat) : BoundsKept s (s.resetSoft b) :=
  (BoundsKept.of_queues (queues_recordsEnd s)).trans (boundsKept_resetTo ..)

theorem boundsKept_rstWrite (s : State) (v : Word) : BoundsKept s (s.rstWrite v).1 := by
  unfold rstWrite
  split
  · exact .refl s
  split
  · exact boundsKept_resetSoft s 3
  · exact .refl s

theorem boundsKept_brownOut (s : State) (rails vscap hvin : Nat) (vdd above dark : Bool) : BoundsKept s (s.brownOut rails vscap hvin vdd above dark) := by
  unfold brownOut
  refine .ite (.of_queues (queues_railsFell ..)) (.queues ?_ (queues_railsFell ..))
  refine .trans (.of_queues ?_) (boundsKept_resetTo ..)
  rw [queues_burst, queues_keepMeasure]

theorem boundsKept_powerOn (s : State) (tmode : Bool) : BoundsKept s (s.powerOn tmode) := by
  unfold powerOn
  refine .ite (.of_queues (queues_upd ..)) (.queues ?_ (queues_upd ..))
  exact (BoundsKept.of_queues (queues_setReg ..)).trans (boundsKept_resetTo ..)

end
end State
end Sys2Proof.Machine
end

section
/-! SUPPORT. The writes of the host's words, the configuration and the boot keep the bounds of the write buffer and of the journal queue. -/

namespace Sys2Proof.Machine
namespace State

section
variable {s t u : State}

/-! The ascent and the seal (R100, R459, R461). -/

theorem boundsKept_ascentDone (s : State) (tmode : Bool) (lat : Word) : BoundsKept s (s.ascentDone tmode lat) := by
  unfold ascentDone
  dsimp only
  split
  · exact ((BoundsKept.of_queues (queues_upd s ..)).trans (boundsKept_resetTo ..)).queues (queues_upd ..)
  · refine .of_queues ?_
    simp [apply_ite State.queues]

theorem boundsKept_sealRecord (s : State) (good : Bool) : BoundsKept s (s.sealRecord good) := by
  unfold sealRecord
  refine .trans (boundsKept_foldl (fun t _ => boundsKept_jrnlWritten t true) (List.range s.jrnlDepth) s) ?_
  exact (BoundsKept.of_queues (queues_jrnlAdd ..)).trans (boundsKept_jrnlWritten ..)

theorem boundsKept_sealDone (s : State) (good : Bool) : BoundsKept s (s.sealDone good) := by
  unfold sealDone
  refine .ite (.refl s) ((boundsKept_sealRecord s good).trans (.ite ?_ (.of_queues ?_)))
  · refine .trans (.of_queues ?_) (boundsKept_resetSoft ..)
    rw [queues_sealWord, queues_sealZero]
  · rw [queues_wr, queues_wr, queues_sealClear]

theorem boundsKept_sealResume (s : State) (newest : Option (List Byte)) : BoundsKept s (s.sealResume newest) := by
  unfold sealResume
  refine .ite (.refl s) ?_
  dsimp only
  split
  · refine .of_queues ?_
    rw [queues_wr, queues_sealWord, queues_sealZero]
  · refine (boundsKept_sealRecord s true).queues ?_
    rw [queues_wr, queues_sealWord, queues_sealZero]

/-! A written word (R4, R127, R138). -/

theorem BoundsKept.ite_fst {c : Prop} [Decidable c] {α : Type} {x y : State × α} (hx : BoundsKept s x.1) (hy : BoundsKept s y.1) :
    BoundsKept s (if c then x else y).1 := by
  split
  · exact hx
  · exact hy

theorem boundsKept_sysWrite (s : State) (a : Nat) (v : Word) : BoundsKept s (s.sysWrite a v).1 := by
  unfold sysWrite
  refine .ite_fst (.of_queues (queues_modeReqWrite ..)) (.ite_fst (.of_queues ?_) (.ite_fst (.of_queues (queues_genIf ..))
    (.ite_fst (.of_queues (queues_rungWrite ..)) (.ite_fst (boundsKept_rstWrite ..) (.ite_fst (.of_queues (queues_sealWrite ..))
      (.of_queues (queues_genWrite ..)))))))
  rw [queues_channelsUpdate, queues_genWrite]

theorem boundsKept_unitWrite (s : State) (a : Nat) (v : Word) : BoundsKept s (s.unitWrite a v).1 := by
  rw [unitWrite]
  generalize RegMap.unitOf (a / 0x1000) = k
  split
  · exact boundsKept_sysWrite s a v
  all_goals exact .of_queues (by simp [apply_ite State.queues, apply_ite Prod.fst])

theorem boundsKept_wordWrite (s : State) (a : Nat) (v : Word) : BoundsKept s (s.wordWrite a v).1 := by
  unfold wordWrite
  refine .ite_fst (.of_queues (queues_memWrite ..)) (.ite_fst (.refl s) (boundsKept_onPage s _ fun u => ?_))
  refine .queues ?_ (queues_subSync ..)
  exact .ite_fst (.of_queues (queues_headWrite ..)) (boundsKept_unitWrite ..)

theorem boundsKept_registerWrite (s : State) (a : Nat) (v : Word) : BoundsKept s (s.registerWrite a v) := by
  unfold registerWrite
  split
  · exact boundsKept_hostWord s fun u => .of_queues (queues_write64 ..)
  · exact boundsKept_hostWord s fun u => boundsKept_wordWrite u a v

theorem boundsKept_pageWord (s : State) (q o : Nat) (v : Word) : BoundsKept s (s.pageWord q o v) := by
  unfold pageWord
  exact .ite (.refl s) (boundsKept_hostWord s fun u => boundsKept_wordWrite u _ v)

/-! The configuration images (R435, R437). -/

theorem boundsKept_cfgApply (n : Nat) (l : List Byte) (s : State) : BoundsKept s (s.cfgApply l n) := by
  induction n generalizing s l with
  | zero => exact .refl s
  | succ n ih =>
    unfold cfgApply
    refine .ite (.refl s) (.trans (.queues ?_ (queues_cfgErr ..)) (ih _ _))
    exact .ite_fst (boundsKept_wordWrite ..) (.refl s)

theorem boundsKept_gqApply (s : State) (i : Nat) (g : Gq) : BoundsKept s (s.gqApply i g) := by
  unfold gqApply
  refine .trans (.of_queues (queues_gqLoaded s g)) ?_
  exact .ite (boundsKept_cfgApply ..) (.ite (.of_queues (queues_fuseBlow ..)) (.of_queues (queues_entApply ..)))

theorem boundsKept_imageDone (s : State) : BoundsKept s s.imageDone := by
  unfold imageDone
  refine .ite (.refl s) ?_
  dsimp only
  split
  · exact .ite (boundsKept_gqApply ..) ((boundsKept_gqApply ..).queues (queues_loadEnd ..))
  next r _ =>
    have hend (x y : Nat) : BoundsKept s (s.loadEnd x y) := .of_queues (queues_loadEnd s x y)
    exact .ite ((hend ..).queues (queues_detect ..)) (.ite ((hend ..).queues (queues_detect ..)) (hend ..))

/-! The boot (R87, R88, R90, R92). -/

theorem boundsKept_bootFill (s : State) : BoundsKept s s.bootFill := by
  unfold bootFill
  refine .trans (.of_queues ?_) (boundsKept_sealResume ..)
  simp

theorem boundsKept_entLoad (s : State) (b : List Byte) (i : Nat) (imgs : List (Nat × List Byte)) : BoundsKept s (s.entLoad b i imgs).1 := by
  unfold entLoad
  refine .ite_fst (.refl s) ?_
  split
  · exact .of_queues (queues_entRecord ..)
  · exact .ite_fst (boundsKept_gqApply ..) ((boundsKept_gqApply ..).queues (queues_entRecord ..))

theorem boundsKept_hdrLoad (b : List Byte) (imgs : List (Nat × List Byte)) (n i : Nat) (s : State) : BoundsKept s (s.hdrLoad b imgs i n).1 := by
  induction n generalizing s i with
  | zero => exact .refl s
  | succ n ih =>
    unfold hdrLoad
    exact .ite_fst (.refl s) (.ite_fst (boundsKept_entLoad ..) ((boundsKept_entLoad ..).trans (ih ..)))

theorem boundsKept_bootHdr (s : State) (h : Bool × List Byte) (imgs : List (Nat × List Byte)) : BoundsKept s (s.bootHdr h imgs).1 := by
  unfold bootHdr
  dsimp only
  generalize hz : (((s.setBit F.BOOT_HDRB h.1).wr F.BOOT_HDRSEQ (hdrSeq h.2)).each 8 fun s i => s.entRecord i 0 0) = z
  have hkept : BoundsKept s z := by
    refine .of_queues ?_
    rw [← hz, queues_each _ _ _ fun t k => queues_entRecord .., queues_wr, queues_setBit]
  refine .ite_fst hkept ?_
  have hload := hkept.trans (boundsKept_hdrLoad h.2 imgs (hdrEnts h.2) 0 z)
  split
  next t ht =>
    rw [ht] at hload
    exact hload.queues (queues_upd ..)
  next t i res ht =>
    refine hkept.queues ?_
    simp

theorem boundsKept_bootLoad (s : State) (hs : List (Bool × List Byte)) (imgs : List (Nat × List Byte)) : BoundsKept s (s.bootLoad hs imgs).1 := by
  cases hs with
  | nil => exact .refl s
  | cons h rest =>
    have hfirst := boundsKept_bootHdr s h imgs
    unfold bootLoad
    dsimp only
    split
    next t ht =>
      rw [ht] at hfirst
      exact hfirst
    next t c ht =>
      rw [ht] at hfirst
      refine .ite_fst hfirst ?_
      cases rest with
      | nil => exact hfirst
      | cons h2 _ =>
        have hsecond := (hfirst.trans (boundsKept_bootFill t)).trans (boundsKept_bootHdr t.bootFill h2 imgs)
        dsimp only
        split
        next v hv =>
          rw [hv] at hsecond
          exact hsecond
        next v _ hv =>
          rw [hv] at hsecond
          exact hsecond

theorem boundsKept_bootRun (s : State) (us : Word) (a b : List Byte) (imgs : List (Nat × List Byte)) (sdref : Bool) :
    BoundsKept s (s.bootRun us a b imgs sdref) := by
  unfold bootRun
  dsimp only
  generalize hz : (s.bootBegin.each 2 fun s p => s.setBit (F.NET_PSTAT_REFOK p) sdref) = z
  have hkept : BoundsKept s z := by
    refine .of_queues ?_
    rw [← hz, queues_each _ _ _ fun t k => queues_setBit .., queues_bootBegin]
  have hload := (hkept.trans (boundsKept_bootFill z)).trans (boundsKept_bootLoad z.bootFill (hdrOrder a b) imgs)
  refine .ite hload ?_
  split
  · refine hload.queues ?_
    simp
  · refine hload.queues ?_
    simp

end
end State
end Sys2Proof.Machine
end

section
/-! O5: the bounds of the write buffer (R122, R126) and of the journal queue (R414). -/

namespace Sys2Proof.Machine
open State
open Host

theorem boundsKept_next {s t u : State} (h : (.next u : Host.Outcome State Fault Refusal) = .next t) (hu : BoundsKept s u) : BoundsKept s t := by
  cases h
  exact hu

/-- A write whose effect leaves the two queues as they are, whatever the word: so stated, the kernel need not evaluate the effect at the word. -/
theorem boundsKept_write (s : State) (a : Nat) (v : Word) {f : State → Word → State × Status} (h : ∀ u w, queues (f u w).1 = queues u) :
    BoundsKept s (s.hostWord a v fun u => f u v) := boundsKept_hostWord s fun u => .of_queues (h u v)

/-- Every command keeps the bounds: the commands of the host's words by the rule of `hostWord`, the frames and what resets, boots,
configures or writes the journal by their own, and all the rest leave the two queues as they are. -/
theorem boundsKept_exec {i : Instr} {s t : State} (h : exec i s = .next t) : BoundsKept s t := by
  cases i with
  | powerOnReset tmode => exact boundsKept_next h (boundsKept_powerOn s tmode)
  | brownOut rails x => exact boundsKept_next h (boundsKept_brownOut ..)
  | pinReset tmode => exact boundsKept_next h (.ite (.refl s) ((boundsKept_resetSoft s 2).queues (queues_upd ..)))
  | softwareReset v => exact boundsKept_next h (boundsKept_hostWord s fun u => boundsKept_rstWrite u _)
  | boot us a b imgs sdref => exact boundsKept_next h (.ite (boundsKept_bootRun ..) (.refl s))
  | ascentComplete tmode lat => exact boundsKept_next h (.ite (boundsKept_ascentDone ..) (.refl s))
  | hostWriteFrame l => exact boundsKept_next h (boundsKept_writeFrame s l)
  | hostReadFrame l => exact boundsKept_next h (boundsKept_readFrame s l)
  | hostFetchFrame l => exact boundsKept_next h (boundsKept_fetchFrame s l)
  | hostStatusFrame l whole => exact boundsKept_next h (boundsKept_statusFrame s l whole)
  | hostFenceFrame l => exact boundsKept_next h (boundsKept_fenceFrame s l)
  | frameAbort => exact boundsKept_next h (boundsKept_frameAbort s)
  | fenceComplete => exact boundsKept_next h (boundsKept_fenceDone s)
  | journalRecordWritten good => exact boundsKept_next h (boundsKept_jrnlWritten s good)
  | imageLoadDone => exact boundsKept_next h (boundsKept_imageDone s)
  | sealComplete good => exact boundsKept_next h (boundsKept_sealDone s good)
  | registerWrite q w v => exact boundsKept_next h (boundsKept_registerWrite ..)
  | pageSoftReset q v | pageLock q v | faultForce q v => exact boundsKept_next h (boundsKept_pageWord ..)
  | dropcntClear c v =>
    refine boundsKept_next h ?_
    cases c with
    | none => exact boundsKept_pageWord ..
    | some c => exact boundsKept_pageWord ..
  | legCommit n v => exact boundsKept_next h (boundsKept_hostWord s fun u => boundsKept_onPage u _ fun w => .of_queues (queues_shdwWrite ..))
  | lcorrClear n v => exact boundsKept_next h (boundsKept_hostWord s fun u => boundsKept_onPage u _ fun w => .of_queues (queues_legWrite ..))
  | channelCommit c host v =>
    refine boundsKept_next h (.ite ?_ (.ite (.of_queues (queues_chCommit ..)) (.refl s)))
    exact boundsKept_hostWord s fun u => boundsKept_onPage u _ fun w => .of_queues (queues_shdwWrite ..)
  | legMapApply v => exact boundsKept_next h (.queues (boundsKept_hostWord s fun u => .of_queues (queues_mapCtlWrite ..)) (queues_subSync _))
  | machRunCommand v | machDirectionWrite v | machStop v =>
    refine boundsKept_next h (.queues (boundsKept_hostWord s fun u => ?_) (queues_subSync _))
    exact boundsKept_onPage u _ fun w => .of_queues (queues_machCmdWrite ..)
  | dataBlockCopy | padcStart | padcCalibrate | energyPreset | gateListInstall | journalUserAppend | imageLoad =>
    exact boundsKept_next h (boundsKept_write s _ _ fun u w => by simp)
  | rungRequest | clkUpdate | timeIncrementWrite | servoLockWrite | leapArm | leapCancel | domainSwitch | timeSnap | txtsFifoPop | triggerSlotArm |
    checkpointRequest | keepWrite | fenceGo | almanacEntryWrite | almanacEntryRead | ocstatClear | padcSnapshot | tripstatClear | comparatorSelfTest |
    admission | tripLatchClear | gridSnapshot | modeRequest | injectionRequest | islandTest | intervalClose | mtreSnapshot | mdioTransaction | tplatClear
    | safetyParameterWrite | safetyConfirm | safeRelease | faultAck | faultAckAll | eccTestWrite | fuseOwnerRoot | fuseAdvanceCounter | attestationRequest
    | planRunRequest | oscillatorMeasure | ownerBoundsWrite | sealRequest => exact boundsKept_next h (boundsKept_hostWord s fun u => .of_queues (by simp))
  | rungDescentComplete =>
    refine boundsKept_next h (.of_queues ?_)
    cases s.boot.descend with
    | none => rfl
    | some r => exact queues_descentDone s r
  | safetyStartupTestPass a b =>
    simp only [exec, execSafetyStartupTestPass] at h
    split at h
    · exact boundsKept_next h (.refl s)
    · exact boundsKept_next h (.of_queues (by simp [apply_ite queues]))
  | _ => exact boundsKept_next h (.of_queues (by simp [apply_ite queues]))

theorem boundsKept_step {s t : State} (h : Steps s t) : BoundsKept s t := by
  unfold Steps step at h
  split at h
  · exact boundsKept_next h (.of_queues (queues_idle s))
  · exact BoundsKept.trans (.of_queues (queues_upd s ..)) (boundsKept_exec h)

/-- Settles O5, by the rule that every command and every tick keeps both bounds. -/
theorem writeBufferBounded : Obligations.WriteBufferBounded := by
  unfold Obligations.WriteBufferBounded
  exact ⟨fun _ _ hs hstep => (boundsKept_step hstep).1 hs, fun _ _ hs hstep => (boundsKept_step hstep).2 hs⟩

end Sys2Proof.Machine
end
